-- ==== Sys2Proof/Word.lean ====
section
/-! DEFINITION. The word types of the model and nothing more. -/

namespace Sys2Proof

/-- One byte of any of the device's memories. -/
abbrev Byte := BitVec 8

/-- A 64-bit register word (R600). -/
abbrev Word := BitVec 64

/-- A device address: 48 bits (R594). -/
abbrev Addr := BitVec 48

end Sys2Proof
end

