-- ==== Sys2Proof/Machine/Bits.lean ====
section
/-! DEFINITION. Bit fields and byte order: a field is written [msb:lsb] with bit 0 the least significant bit, and
multi-byte fields are little-endian (R4). -/

namespace Sys2Proof

/-- Bits [hi:lo] of a natural number. -/
def bits (w hi lo : Nat) : Nat := (w >>> lo) % 2 ^ (hi + 1 - lo)

/-- Bit `k` of a natural number. -/
def bit (w k : Nat) : Bool := (w >>> k) % 2 == 1

/-- `w` with bits [hi:lo] replaced by the low bits of `v`. -/
def putBits (w hi lo v : Nat) : Nat :=
  w - bits w hi lo * 2 ^ lo + (v % 2 ^ (hi + 1 - lo)) * 2 ^ lo

/-- The mask of bits [hi:lo]. -/
def maskBits (hi lo : Nat) : Nat := (2 ^ (hi + 1 - lo) - 1) * 2 ^ lo

/-- `n` bytes of `w`, lowest first. -/
def leBytes : Nat → Nat → List Byte
  | 0, _ => []
  | n + 1, w => BitVec.ofNat 8 w :: leBytes n (w / 256)

/-- The number whose little-endian bytes are given. -/
def ofLE : List Byte → Nat
  | [] => 0
  | b :: bs => b.toNat + 256 * ofLE bs

/-- Bytes `off` to `off + n - 1` of a byte list as a little-endian number; absent bytes count as 0. -/
def leAt (bs : List Byte) (off n : Nat) : Nat := ofLE ((bs.drop off).take n)

/-- The two's-complement value of the low `w` bits of `v`. -/
def signed (w v : Nat) : Int :=
  let u := v % 2 ^ w
  if u < 2 ^ (w - 1) then (u : Int) else (u : Int) - (2 ^ w : Nat)

/-- A signed number as `w` bits of two's complement, saturated to the range of the width. -/
def satSigned (w : Nat) (v : Int) : Nat :=
  let hi : Int := (2 ^ (w - 1) : Nat) - 1
  let lo : Int := -((2 ^ (w - 1) : Nat) : Int)
  let c := if v > hi then hi else if v < lo then lo else v
  (c % ((2 ^ w : Nat) : Int)).toNat

/-- The smallest integer not below `a / b`. -/
def ceilDiv (a b : Nat) : Nat := (a + b - 1) / b

/-- The number of set bits among the low `n` bits. -/
def popCount : Nat → Nat → Nat
  | 0, _ => 0
  | n + 1, w => (if bit w n then 1 else 0) + popCount n w

/-- The set bits among the low `n` bits of `w`, ascending. -/
def bitList (n w : Nat) : List Nat := (List.range n).filter (bit w)

/-- Number of bits needed to write `n`: 0 for 0. -/
def bitLen (n : Nat) : Nat := if n = 0 then 0 else n.log2 + 1

/-- A byte list of exactly `n` bytes: cut, or padded with zeros. -/
def padTo (n : Nat) (bs : List Byte) : List Byte := bs.take n ++ List.replicate (n - bs.length) 0

end Sys2Proof
end

