-- ==== Sys2Proof/Machine/Regs.lean ====
section
/-! DEFINITION. The registers and the counters of the device, as the register index (R605), the field maps of
each chapter and the counter order (R604) give them: names, BAR0 offsets, strides, widths, fields, access codes
(R7) and reset values. A field not listed in a register's map is reserved: it reads 0 (R5). -/

namespace Sys2Proof

/-- The access codes of R7. -/
inductive Access where
  | RO | RW | RW1C | RW1S | WL | SL | LC
  deriving DecidableEq, Repr

/-- Every register of R605 other than a counter. -/
inductive Reg where
  | SAIL_PERIOD | SAIL_ORIGIN | SAIL_NUMBER | SAIL_TT_COMMIT | SAIL_STATUS | SAIL_TIME_OFFSET 
  | SAIL_WATCH_CFG | SAIL_WATCH_STATUS | SAIL_TAI_SECONDS | SAIL_TT_BASE | SAIL_WATCH_KICK 
  | SAIL_CORE_CARRY | CORE_LS_PWR | CORE_WIN | CORE_STATUS | SDIR_CFG | SDIR_BASE | SDIR_QUOTA_BASE 
  | SDIR_LOOP_ENV | SDIR_HINT | SDIR_WAIT | SDIR_REVIVE | SDIR_LOCKED | SDIR_SUBMIT | SDIR_BERTHS 
  | SDIR_WATER | SDIR_FREE | SDIR_THRESHOLD | SDIR_STATE_COUNT | BERTH_CLASS | BERTH_SHAPE | BERTH_BUCKET 
  | BERTH_SUBMIT | BERTH_IN_USE | BERTH_WITHDRAWN | ATTN_STEER_BASE | ATTN_STEER_CFG | FERRY_CLASS 
  | FERRY_SUBMIT | FERRY_STATUS | TIER_CLASSES | TIER_RATE | TIER_MOOR_MARK | TIER_MOOR_STATUS 
  | TIER_IMAGE_BASE | FLASH_CFG | FLASH_AREA | FLASH_MAP_BASE | FLASH_PATROL | FLASH_REFRESH | FLASH_RT_ENV 
  | FLASH_DIE_RULE | FLASH_RATE | FLASH_GC | FLASH_STATUS | FLASH_LUN_STATUS | NMU_SUBMIT | NMU_STATUS 
  | NMU_POOL | NMU_SHARE | NMU_DIFF_GATE | NMU_STACK | NMU_COW | CKPT_SCHED | CKPT_LIMIT | CKPT_RATE 
  | CKPT_BUDDY | CKPT_SOURCE | CKPT_CONTROL | CKPT_STATUS | CKPT_RESTORE | CKPT_COMMITTED | CKPT_ACC_RANGE 
  | TEXT_CFG | TEXT_GRAM_BASE | TEXT_GRAM_CFG | TEXT_SUBMIT | TEXT_STATUS | SAMP_SUBMIT | SAMP_STATUS 
  | SEAL_SUBMIT | SEAL_CFG | SEAL_RING_BASE | SEAL_RING_SIZE | SEAL_STATUS | RCL_SUBMIT | RCL_STATUS 
  | RCL_INDEX_BASE | RCL_SCRATCH_BASE | RCL_TABLE_BASE | RCL_CFG | RCL_PIPE_STATUS | CHART_BASE | CHART_CFG 
  | CHART_STAGE | CHART_STATUS | CHART_EFFECTIVE | CHART_ISLAND | CHART_DRAIN | FAB_GROUP | FAB_PORT_STATUS 
  | MCT_PREFIX | MCT_ADDR | MCT_LAND_BASE | MCT_WIN_BASE | MCT_WIN_SIZE | MCT_UDP | MCT_RETX | MCT_SEC 
  | MCT_CROSS | MCT_VC | EGR_CFG | EGR_QUEUE_CFG | EGR_SHAPER | EGR_GCL_CTRL | EGR_GCL | EGR_QSTAT 
  | HOST_CFG | HOST_DRAIN | HOST_FATAL | HOST_EVENT | HOST_PKG_SRC | HOST_CXL_MEM | HOST_LINK_STATUS 
  | HOST_RING | HOST_WIN | HOST_CXL_WIN | CFG_STATUS | CFG_CONTROL | CFG_LOCKED_ADDR | CFG_IMAGE_INFO 
  | CFG_LC_STATUS | CFG_AP_STATUS | CFG_PKG_FETCH | CFG_CONFIG_DIGEST | SEC_FLEET | SEC_COARSE | SEC_STATUS 
  | SEC_KEYSLOT_BASE | SEC_TENANT_BASE | SEC_CAD | SEC_DEVICE_DIGEST | SEC_KEYSVC_DIGEST | ERR_STATUS 
  | ERR_POP | ERR_CFG | ERR_SCRUB | ERR_HEAD | ERR_RULE | ERR_SPARE_ROWS | ERR_CAUSEWAY | IRQ_CFG 
  | IRQ_FW_BASE | IRQ_SRC | IRQ_CLAIM | IRQ_CQ | IRQ_CQ_STATUS | IRQ_END | BOLL_POST | BOLL_WAIT 
  | BOLL_COUNT | PWR_GOV_ENV | PWR_LIMIT | PWR_STATUS | PWR_TELEM | PWR_TEMP | PWR_ISLAND | PKG_ID 
  | PKG_STRAP
  deriving DecidableEq, Repr

/-- Every counter register (the form of R34), in the order of R604. -/
inductive Ctr where
  | SAIL_CARRY_COUNT | SAIL_CARRY_FULL_COUNT | SAIL_DROP_COUNT | SAIL_STRICT_MISS_COUNT 
  | SAIL_TT_REJECT_COUNT | SAIL_CLOSE_OVERRUN_COUNT | SAIL_UNLOCK_COUNT | SAIL_WATCH_MISS_COUNT 
  | SAIL_WATCH_RESET_COUNT | CORE_REJECT_COUNT | CORE_NONFINITE_COUNT | CORE_WINDOW_MISMATCH_COUNT 
  | CORE_BANK_UNPOWERED_COUNT | CORE_HAZARD_STALL_COUNT | CORE_ROUTE_DEFER_COUNT | CORE_ROUTE_STARVED_COUNT 
  | SDIR_HIT_COUNT | SDIR_MISS_COUNT | SDIR_ADMIT_COUNT | SDIR_REFUSE_COUNT | SDIR_MOOR_COUNT 
  | SDIR_LAYUP_COUNT | SDIR_REVIVE_COUNT | SDIR_CANCEL_COUNT | SDIR_TENSION_COUNT | SDIR_CRC_FAIL_COUNT 
  | SDIR_QUEUE_FULL_COUNT | BERTH_LAP_STALL_COUNT | BERTH_HISTORY_FAIL_COUNT | BERTH_SPEC_COMMIT_COUNT 
  | BERTH_SPEC_CANCEL_COUNT | BERTH_SPEC_REFUSE_COUNT | BERTH_SPEC_ORPHAN_COUNT | BERTH_GLOBAL_REFUSE_COUNT 
  | BERTH_WITHDRAW_COUNT | BERTH_QUEUE_FULL_COUNT | ATTN_NONFINITE_COUNT | ATTN_STEER_RANGE_COUNT 
  | FERRY_REJECT_COUNT | FERRY_QUEUE_FULL_COUNT | FERRY_LATE_COUNT | FERRY_READ_FAIL_COUNT 
  | FERRY_WRITE_FAIL_COUNT | FERRY_MANIFEST_FAIL_COUNT | TIER_DIVERT_COUNT | TIER_NO_SPACE_COUNT 
  | TIER_STORED_COUNT | TIER_CODEC_TENSION_COUNT | FLASH_RETRY_COUNT | FLASH_SOFT_COUNT | FLASH_RECON_COUNT 
  | FLASH_UNCORRECTABLE_COUNT | FLASH_PROGRAM_FAIL_COUNT | FLASH_ERASE_FAIL_COUNT | FLASH_REFRESH_COUNT 
  | FLASH_DIE_TRANSIENT_COUNT | FLASH_STRIPE_LOST_COUNT | FLASH_RT_TENSION_COUNT | NMU_REJECT_COUNT 
  | NMU_QUEUE_FULL_COUNT | NMU_BRIDGE_COUNT | NMU_LINE_CORRECTED_COUNT | NMU_LINE_ECC_COUNT 
  | NMU_MANIFEST_FAIL_COUNT | NMU_COW_COPY_COUNT | NMU_COW_STALL_COUNT | NMU_DIFF_COUNT 
  | NMU_DIGEST_FAIL_COUNT | CKPT_COMMIT_COUNT | CKPT_SKIP_COUNT | CKPT_CAPTURE_LATE_COUNT 
  | CKPT_ABANDON_COUNT | CKPT_TRIM_GROUP_COUNT | CKPT_TRIM_FALLBACK_COUNT | CKPT_RESTORE_COUNT 
  | TEXT_QUEUE_FULL_COUNT | TEXT_INVALID_BYTE_COUNT | TEXT_TRUNCATED_COUNT | TEXT_REPLACED_COUNT 
  | TEXT_STOP_COUNT | TEXT_MASK_HIT_COUNT | TEXT_MASK_MISS_COUNT | TEXT_DEAD_COUNT | TEXT_VIOLATION_COUNT 
  | SAMP_QUEUE_FULL_COUNT | SAMP_SHORT_COUNT | SAMP_EMPTY_END_COUNT | SAMP_DEAD_END_COUNT 
  | SAMP_COUNT_FULL_COUNT | SAMP_REPLAY_MISMATCH_COUNT | SEAL_TICKET_COUNT | SEAL_VERDICT_COUNT 
  | SEAL_DEFER_COUNT | SEAL_LATE_COUNT | SEAL_QUEUE_FULL_COUNT | RCL_QUERY_COUNT | RCL_SHORT_COUNT 
  | RCL_WIDEN_COUNT | RCL_DENIED_COUNT | RCL_NODE_CRC_COUNT | RCL_MERGE_COUNT | RCL_QUEUE_FULL_COUNT 
  | CHART_APPLY_COUNT | CHART_REJECT_COUNT | CHART_FORWARD_COUNT | CHART_REDIRECT_COUNT | CHART_STALE_COUNT 
  | CHART_NOT_READY_COUNT | CHART_AHEAD_COUNT | CHART_LEAVE_TIMEOUT_COUNT | FAB_FEC_UNCORR_COUNT 
  | FAB_PAUSE_RX_COUNT | MCT_BAD_HEADER_COUNT | MCT_AUTH_FAIL_COUNT | MCT_RETX_COUNT | MCT_RTO_COUNT 
  | MCT_DROP_WINDOW_COUNT | MCT_CE_COUNT | MCT_PEER_LOST_COUNT | MCT_CROSS_COUNT | MCT_CROSS_ABORT_COUNT 
  | EGR_FULL_COUNT | EGR_GATE_HOLD_COUNT | EGR_NO_FIT_COUNT | EGR_CE_MARK_COUNT | EGR_GCL_REJECT_COUNT 
  | HOST_WRITE_DENIED_COUNT | HOST_ENTRY_CRC_COUNT | HOST_CQ_STALL_COUNT | HOST_RING_FAIL_COUNT 
  | HOST_WIN_BUSY_COUNT | CFG_LOCKED_WRITE_COUNT | CFG_FALLBACK_COUNT | SEC_BUNDLE_REJECT_COUNT 
  | SEC_KEYSLOT_TAG_COUNT | SEC_SPDM_AUTH_FAIL_COUNT | SEC_KEY_LOAD_COUNT | SEC_ENTROPY_FAIL_COUNT 
  | ERR_MANIFEST_FAIL_COUNT | ERR_HBM_CORRECTED_COUNT | ERR_HBM_UNCORRECTABLE_COUNT 
  | ERR_SRAM_CORRECTED_COUNT | ERR_SRAM_UNCORRECTABLE_COUNT | ERR_REMAP_COUNT | ERR_RETIRE_COUNT 
  | ERR_ESCALATE_COUNT | ERR_OVERFLOW_COUNT | IRQ_CQ_FULL_COUNT | IRQ_MASKED_CLAIM_COUNT 
  | IRQ_END_UNKNOWN_COUNT | BOLL_OVERFLOW_COUNT | BOLL_WAIT_BUSY_COUNT | PWR_TENSION_COUNT 
  | PWR_LIMIT_STEP_COUNT | PWR_ISLAND_OFF_COUNT | PWR_WAKE_LATE_COUNT | PKG_PPS_REJECT_COUNT
  deriving DecidableEq, Repr

/-- One field of a register: bits [hi:lo] with its access code (R7). -/
structure Field where
  reg : Reg
  hi : Nat
  lo : Nat
  acc : Access
  deriving DecidableEq, Repr

/-- The number of bits of a field. -/
def Field.width (f : Field) : Nat := f.hi + 1 - f.lo

/-- What R605 and R600 say of a register: BAR0 offset of element 0, stride, number of elements, bits. -/
structure RegInfo where
  off : Nat
  stride : Nat
  count : Nat
  bits : Nat
  deriving DecidableEq, Repr

/-- Position, stride, element count and width of every register (R605, R600). -/
def Reg.info : Reg → RegInfo
  | .SAIL_PERIOD => ⟨0x0, 8, 1, 32⟩
  | .SAIL_ORIGIN => ⟨0x8, 8, 1, 64⟩
  | .SAIL_NUMBER => ⟨0x10, 8, 1, 64⟩
  | .SAIL_TT_COMMIT => ⟨0x18, 8, 1, 64⟩
  | .SAIL_STATUS => ⟨0x20, 8, 1, 32⟩
  | .SAIL_TIME_OFFSET => ⟨0x28, 8, 1, 32⟩
  | .SAIL_WATCH_CFG => ⟨0x30, 8, 1, 32⟩
  | .SAIL_WATCH_STATUS => ⟨0x38, 8, 1, 32⟩
  | .SAIL_TAI_SECONDS => ⟨0x40, 8, 1, 64⟩
  | .SAIL_TT_BASE => ⟨0x48, 8, 1, 64⟩
  | .SAIL_WATCH_KICK => ⟨0x100, 8, 16, 32⟩
  | .SAIL_CORE_CARRY => ⟨0x1000, 8, 80, 32⟩
  | .CORE_LS_PWR => ⟨0x100000, 16, 80, 128⟩
  | .CORE_WIN => ⟨0x101000, 8, 640, 64⟩
  | .CORE_STATUS => ⟨0x103000, 8, 80, 32⟩
  | .SDIR_CFG => ⟨0x200000, 8, 1, 64⟩
  | .SDIR_BASE => ⟨0x200008, 8, 1, 64⟩
  | .SDIR_QUOTA_BASE => ⟨0x200010, 8, 1, 64⟩
  | .SDIR_LOOP_ENV => ⟨0x200018, 8, 1, 64⟩
  | .SDIR_HINT => ⟨0x200020, 8, 1, 32⟩
  | .SDIR_WAIT => ⟨0x200028, 8, 1, 32⟩
  | .SDIR_REVIVE => ⟨0x200030, 8, 1, 32⟩
  | .SDIR_LOCKED => ⟨0x200038, 8, 1, 32⟩
  | .SDIR_SUBMIT => ⟨0x200040, 8, 1, 64⟩
  | .SDIR_BERTHS => ⟨0x200100, 8, 4, 32⟩
  | .SDIR_WATER => ⟨0x200200, 8, 4, 32⟩
  | .SDIR_FREE => ⟨0x200300, 8, 4, 32⟩
  | .SDIR_THRESHOLD => ⟨0x200400, 8, 4, 32⟩
  | .SDIR_STATE_COUNT => ⟨0x200500, 8, 8, 32⟩
  | .BERTH_CLASS => ⟨0x300000, 16, 4, 128⟩
  | .BERTH_SHAPE => ⟨0x300040, 8, 1, 32⟩
  | .BERTH_BUCKET => ⟨0x300050, 16, 1, 128⟩
  | .BERTH_SUBMIT => ⟨0x300060, 8, 1, 64⟩
  | .BERTH_IN_USE => ⟨0x300100, 8, 4, 32⟩
  | .BERTH_WITHDRAWN => ⟨0x300200, 8, 4, 32⟩
  | .ATTN_STEER_BASE => ⟨0x400000, 8, 1, 64⟩
  | .ATTN_STEER_CFG => ⟨0x400008, 8, 1, 32⟩
  | .FERRY_CLASS => ⟨0x500000, 8, 16, 64⟩
  | .FERRY_SUBMIT => ⟨0x500100, 8, 32, 64⟩
  | .FERRY_STATUS => ⟨0x500200, 8, 32, 32⟩
  | .TIER_CLASSES => ⟨0x600000, 8, 1, 32⟩
  | .TIER_RATE => ⟨0x600008, 8, 1, 64⟩
  | .TIER_MOOR_MARK => ⟨0x600010, 8, 1, 32⟩
  | .TIER_MOOR_STATUS => ⟨0x600018, 8, 1, 64⟩
  | .TIER_IMAGE_BASE => ⟨0x600020, 8, 1, 64⟩
  | .FLASH_CFG => ⟨0x700000, 8, 1, 64⟩
  | .FLASH_AREA => ⟨0x700008, 8, 1, 32⟩
  | .FLASH_MAP_BASE => ⟨0x700010, 8, 1, 64⟩
  | .FLASH_PATROL => ⟨0x700018, 8, 1, 32⟩
  | .FLASH_REFRESH => ⟨0x700020, 8, 1, 32⟩
  | .FLASH_RT_ENV => ⟨0x700028, 8, 1, 32⟩
  | .FLASH_DIE_RULE => ⟨0x700030, 8, 1, 32⟩
  | .FLASH_RATE => ⟨0x700038, 8, 1, 32⟩
  | .FLASH_GC => ⟨0x700040, 8, 1, 32⟩
  | .FLASH_STATUS => ⟨0x700048, 8, 1, 32⟩
  | .FLASH_LUN_STATUS => ⟨0x701000, 8, 512, 32⟩
  | .NMU_SUBMIT => ⟨0x800000, 8, 1, 64⟩
  | .NMU_STATUS => ⟨0x800008, 8, 1, 32⟩
  | .NMU_POOL => ⟨0x800010, 8, 1, 64⟩
  | .NMU_SHARE => ⟨0x800018, 8, 1, 32⟩
  | .NMU_DIFF_GATE => ⟨0x800020, 8, 1, 32⟩
  | .NMU_STACK => ⟨0x800100, 8, 16, 64⟩
  | .NMU_COW => ⟨0x800200, 8, 16, 64⟩
  | .CKPT_SCHED => ⟨0x900000, 8, 1, 64⟩
  | .CKPT_LIMIT => ⟨0x900008, 8, 1, 32⟩
  | .CKPT_RATE => ⟨0x900010, 8, 1, 32⟩
  | .CKPT_BUDDY => ⟨0x900018, 8, 1, 64⟩
  | .CKPT_SOURCE => ⟨0x900020, 8, 1, 64⟩
  | .CKPT_CONTROL => ⟨0x900028, 8, 1, 32⟩
  | .CKPT_STATUS => ⟨0x900030, 8, 1, 32⟩
  | .CKPT_RESTORE => ⟨0x900040, 16, 1, 128⟩
  | .CKPT_COMMITTED => ⟨0x900050, 16, 1, 128⟩
  | .CKPT_ACC_RANGE => ⟨0x901000, 8, 640, 64⟩
  | .TEXT_CFG => ⟨0xA00000, 8, 1, 64⟩
  | .TEXT_GRAM_BASE => ⟨0xA00008, 8, 1, 64⟩
  | .TEXT_GRAM_CFG => ⟨0xA00010, 8, 1, 32⟩
  | .TEXT_SUBMIT => ⟨0xA00018, 8, 1, 64⟩
  | .TEXT_STATUS => ⟨0xA00020, 8, 1, 32⟩
  | .SAMP_SUBMIT => ⟨0xB00000, 8, 1, 64⟩
  | .SAMP_STATUS => ⟨0xB00008, 8, 1, 32⟩
  | .SEAL_SUBMIT => ⟨0xC00000, 8, 1, 64⟩
  | .SEAL_CFG => ⟨0xC00008, 8, 1, 32⟩
  | .SEAL_RING_BASE => ⟨0xC00010, 8, 1, 64⟩
  | .SEAL_RING_SIZE => ⟨0xC00018, 8, 1, 32⟩
  | .SEAL_STATUS => ⟨0xC00020, 8, 1, 64⟩
  | .RCL_SUBMIT => ⟨0xD00000, 8, 1, 64⟩
  | .RCL_STATUS => ⟨0xD00008, 8, 1, 32⟩
  | .RCL_INDEX_BASE => ⟨0xD00010, 8, 1, 64⟩
  | .RCL_SCRATCH_BASE => ⟨0xD00018, 8, 1, 64⟩
  | .RCL_TABLE_BASE => ⟨0xD00020, 8, 1, 64⟩
  | .RCL_CFG => ⟨0xD00028, 8, 1, 64⟩
  | .RCL_PIPE_STATUS => ⟨0xD00100, 8, 8, 32⟩
  | .CHART_BASE => ⟨0xE00000, 8, 1, 64⟩
  | .CHART_CFG => ⟨0xE00008, 8, 1, 64⟩
  | .CHART_STAGE => ⟨0xE00010, 8, 1, 64⟩
  | .CHART_STATUS => ⟨0xE00020, 16, 1, 128⟩
  | .CHART_EFFECTIVE => ⟨0xE00030, 8, 1, 64⟩
  | .CHART_ISLAND => ⟨0xE00100, 8, 8, 32⟩
  | .CHART_DRAIN => ⟨0xE00200, 8, 8, 32⟩
  | .FAB_GROUP => ⟨0xF00000, 8, 4, 32⟩
  | .FAB_PORT_STATUS => ⟨0xF00100, 8, 32, 32⟩
  | .MCT_PREFIX => ⟨0x1000000, 8, 1, 64⟩
  | .MCT_ADDR => ⟨0x1000008, 8, 1, 64⟩
  | .MCT_LAND_BASE => ⟨0x1000010, 8, 1, 64⟩
  | .MCT_WIN_BASE => ⟨0x1000018, 8, 1, 64⟩
  | .MCT_WIN_SIZE => ⟨0x1000020, 8, 1, 64⟩
  | .MCT_UDP => ⟨0x1000028, 8, 1, 32⟩
  | .MCT_RETX => ⟨0x1000030, 8, 1, 32⟩
  | .MCT_SEC => ⟨0x1000038, 8, 1, 32⟩
  | .MCT_CROSS => ⟨0x1000040, 8, 1, 64⟩
  | .MCT_VC => ⟨0x1000100, 8, 5, 32⟩
  | .EGR_CFG => ⟨0x1100000, 8, 1, 32⟩
  | .EGR_QUEUE_CFG => ⟨0x1101000, 8, 256, 64⟩
  | .EGR_SHAPER => ⟨0x1102000, 8, 256, 64⟩
  | .EGR_GCL_CTRL => ⟨0x1103000, 8, 32, 32⟩
  | .EGR_GCL => ⟨0x1110000, 8, 4096, 32⟩
  | .EGR_QSTAT => ⟨0x1120000, 16, 256, 128⟩
  | .HOST_CFG => ⟨0x1200000, 8, 1, 64⟩
  | .HOST_DRAIN => ⟨0x1200008, 8, 1, 32⟩
  | .HOST_FATAL => ⟨0x1200010, 8, 1, 32⟩
  | .HOST_EVENT => ⟨0x1200018, 8, 1, 32⟩
  | .HOST_PKG_SRC => ⟨0x1200020, 8, 1, 64⟩
  | .HOST_CXL_MEM => ⟨0x1200028, 8, 1, 64⟩
  | .HOST_LINK_STATUS => ⟨0x1200100, 8, 2, 32⟩
  | .HOST_RING => ⟨0x1201000, 16, 64, 128⟩
  | .HOST_WIN => ⟨0x1202000, 16, 64, 128⟩
  | .HOST_CXL_WIN => ⟨0x1203000, 16, 16, 128⟩
  | .CFG_STATUS => ⟨0x1300000, 8, 1, 32⟩
  | .CFG_CONTROL => ⟨0x1300008, 8, 1, 32⟩
  | .CFG_LOCKED_ADDR => ⟨0x1300010, 8, 1, 32⟩
  | .CFG_IMAGE_INFO => ⟨0x1300020, 16, 1, 128⟩
  | .CFG_LC_STATUS => ⟨0x1300030, 8, 1, 32⟩
  | .CFG_AP_STATUS => ⟨0x1300038, 8, 1, 32⟩
  | .CFG_PKG_FETCH => ⟨0x1300040, 8, 1, 64⟩
  | .CFG_CONFIG_DIGEST => ⟨0x1300100, 8, 6, 64⟩
  | .SEC_FLEET => ⟨0x1400000, 8, 1, 64⟩
  | .SEC_COARSE => ⟨0x1400008, 8, 1, 32⟩
  | .SEC_STATUS => ⟨0x1400010, 8, 1, 32⟩
  | .SEC_KEYSLOT_BASE => ⟨0x1400018, 8, 1, 64⟩
  | .SEC_TENANT_BASE => ⟨0x1400020, 8, 1, 64⟩
  | .SEC_CAD => ⟨0x1400100, 8, 6, 64⟩
  | .SEC_DEVICE_DIGEST => ⟨0x1400200, 8, 6, 64⟩
  | .SEC_KEYSVC_DIGEST => ⟨0x1400300, 8, 6, 64⟩
  | .ERR_STATUS => ⟨0x1500000, 8, 1, 32⟩
  | .ERR_POP => ⟨0x1500008, 8, 1, 32⟩
  | .ERR_CFG => ⟨0x1500010, 8, 1, 32⟩
  | .ERR_SCRUB => ⟨0x1500018, 8, 1, 32⟩
  | .ERR_HEAD => ⟨0x1500100, 8, 8, 64⟩
  | .ERR_RULE => ⟨0x1500200, 8, 7, 32⟩
  | .ERR_SPARE_ROWS => ⟨0x1501000, 8, 512, 32⟩
  | .ERR_CAUSEWAY => ⟨0x1502000, 8, 32, 32⟩
  | .IRQ_CFG => ⟨0x1600000, 8, 1, 32⟩
  | .IRQ_FW_BASE => ⟨0x1600008, 8, 1, 64⟩
  | .IRQ_SRC => ⟨0x1601000, 8, 69, 32⟩
  | .IRQ_CLAIM => ⟨0x1602000, 8, 16, 32⟩
  | .IRQ_CQ => ⟨0x1602100, 16, 16, 128⟩
  | .IRQ_CQ_STATUS => ⟨0x1602200, 8, 16, 32⟩
  | .IRQ_END => ⟨0x1602300, 8, 16, 64⟩
  | .BOLL_POST => ⟨0x1700000, 8, 1, 32⟩
  | .BOLL_WAIT => ⟨0x1700100, 8, 16, 32⟩
  | .BOLL_COUNT => ⟨0x1710000, 8, 32768, 32⟩
  | .PWR_GOV_ENV => ⟨0x1800000, 8, 1, 32⟩
  | .PWR_LIMIT => ⟨0x1800008, 8, 1, 32⟩
  | .PWR_STATUS => ⟨0x1800010, 8, 1, 32⟩
  | .PWR_TELEM => ⟨0x1800018, 8, 1, 64⟩
  | .PWR_TEMP => ⟨0x1800020, 8, 1, 32⟩
  | .PWR_ISLAND => ⟨0x1800100, 8, 8, 64⟩
  | .PKG_ID => ⟨0x1900000, 8, 1, 32⟩
  | .PKG_STRAP => ⟨0x1900008, 8, 1, 32⟩

/-- The code a register has as a key of the register file. -/
def Reg.code : Reg → Nat
  | .SAIL_PERIOD => 0
  | .SAIL_ORIGIN => 1
  | .SAIL_NUMBER => 2
  | .SAIL_TT_COMMIT => 3
  | .SAIL_STATUS => 4
  | .SAIL_TIME_OFFSET => 5
  | .SAIL_WATCH_CFG => 6
  | .SAIL_WATCH_STATUS => 7
  | .SAIL_TAI_SECONDS => 8
  | .SAIL_TT_BASE => 9
  | .SAIL_WATCH_KICK => 10
  | .SAIL_CORE_CARRY => 11
  | .CORE_LS_PWR => 12
  | .CORE_WIN => 13
  | .CORE_STATUS => 14
  | .SDIR_CFG => 15
  | .SDIR_BASE => 16
  | .SDIR_QUOTA_BASE => 17
  | .SDIR_LOOP_ENV => 18
  | .SDIR_HINT => 19
  | .SDIR_WAIT => 20
  | .SDIR_REVIVE => 21
  | .SDIR_LOCKED => 22
  | .SDIR_SUBMIT => 23
  | .SDIR_BERTHS => 24
  | .SDIR_WATER => 25
  | .SDIR_FREE => 26
  | .SDIR_THRESHOLD => 27
  | .SDIR_STATE_COUNT => 28
  | .BERTH_CLASS => 29
  | .BERTH_SHAPE => 30
  | .BERTH_BUCKET => 31
  | .BERTH_SUBMIT => 32
  | .BERTH_IN_USE => 33
  | .BERTH_WITHDRAWN => 34
  | .ATTN_STEER_BASE => 35
  | .ATTN_STEER_CFG => 36
  | .FERRY_CLASS => 37
  | .FERRY_SUBMIT => 38
  | .FERRY_STATUS => 39
  | .TIER_CLASSES => 40
  | .TIER_RATE => 41
  | .TIER_MOOR_MARK => 42
  | .TIER_MOOR_STATUS => 43
  | .TIER_IMAGE_BASE => 44
  | .FLASH_CFG => 45
  | .FLASH_AREA => 46
  | .FLASH_MAP_BASE => 47
  | .FLASH_PATROL => 48
  | .FLASH_REFRESH => 49
  | .FLASH_RT_ENV => 50
  | .FLASH_DIE_RULE => 51
  | .FLASH_RATE => 52
  | .FLASH_GC => 53
  | .FLASH_STATUS => 54
  | .FLASH_LUN_STATUS => 55
  | .NMU_SUBMIT => 56
  | .NMU_STATUS => 57
  | .NMU_POOL => 58
  | .NMU_SHARE => 59
  | .NMU_DIFF_GATE => 60
  | .NMU_STACK => 61
  | .NMU_COW => 62
  | .CKPT_SCHED => 63
  | .CKPT_LIMIT => 64
  | .CKPT_RATE => 65
  | .CKPT_BUDDY => 66
  | .CKPT_SOURCE => 67
  | .CKPT_CONTROL => 68
  | .CKPT_STATUS => 69
  | .CKPT_RESTORE => 70
  | .CKPT_COMMITTED => 71
  | .CKPT_ACC_RANGE => 72
  | .TEXT_CFG => 73
  | .TEXT_GRAM_BASE => 74
  | .TEXT_GRAM_CFG => 75
  | .TEXT_SUBMIT => 76
  | .TEXT_STATUS => 77
  | .SAMP_SUBMIT => 78
  | .SAMP_STATUS => 79
  | .SEAL_SUBMIT => 80
  | .SEAL_CFG => 81
  | .SEAL_RING_BASE => 82
  | .SEAL_RING_SIZE => 83
  | .SEAL_STATUS => 84
  | .RCL_SUBMIT => 85
  | .RCL_STATUS => 86
  | .RCL_INDEX_BASE => 87
  | .RCL_SCRATCH_BASE => 88
  | .RCL_TABLE_BASE => 89
  | .RCL_CFG => 90
  | .RCL_PIPE_STATUS => 91
  | .CHART_BASE => 92
  | .CHART_CFG => 93
  | .CHART_STAGE => 94
  | .CHART_STATUS => 95
  | .CHART_EFFECTIVE => 96
  | .CHART_ISLAND => 97
  | .CHART_DRAIN => 98
  | .FAB_GROUP => 99
  | .FAB_PORT_STATUS => 100
  | .MCT_PREFIX => 101
  | .MCT_ADDR => 102
  | .MCT_LAND_BASE => 103
  | .MCT_WIN_BASE => 104
  | .MCT_WIN_SIZE => 105
  | .MCT_UDP => 106
  | .MCT_RETX => 107
  | .MCT_SEC => 108
  | .MCT_CROSS => 109
  | .MCT_VC => 110
  | .EGR_CFG => 111
  | .EGR_QUEUE_CFG => 112
  | .EGR_SHAPER => 113
  | .EGR_GCL_CTRL => 114
  | .EGR_GCL => 115
  | .EGR_QSTAT => 116
  | .HOST_CFG => 117
  | .HOST_DRAIN => 118
  | .HOST_FATAL => 119
  | .HOST_EVENT => 120
  | .HOST_PKG_SRC => 121
  | .HOST_CXL_MEM => 122
  | .HOST_LINK_STATUS => 123
  | .HOST_RING => 124
  | .HOST_WIN => 125
  | .HOST_CXL_WIN => 126
  | .CFG_STATUS => 127
  | .CFG_CONTROL => 128
  | .CFG_LOCKED_ADDR => 129
  | .CFG_IMAGE_INFO => 130
  | .CFG_LC_STATUS => 131
  | .CFG_AP_STATUS => 132
  | .CFG_PKG_FETCH => 133
  | .CFG_CONFIG_DIGEST => 134
  | .SEC_FLEET => 135
  | .SEC_COARSE => 136
  | .SEC_STATUS => 137
  | .SEC_KEYSLOT_BASE => 138
  | .SEC_TENANT_BASE => 139
  | .SEC_CAD => 140
  | .SEC_DEVICE_DIGEST => 141
  | .SEC_KEYSVC_DIGEST => 142
  | .ERR_STATUS => 143
  | .ERR_POP => 144
  | .ERR_CFG => 145
  | .ERR_SCRUB => 146
  | .ERR_HEAD => 147
  | .ERR_RULE => 148
  | .ERR_SPARE_ROWS => 149
  | .ERR_CAUSEWAY => 150
  | .IRQ_CFG => 151
  | .IRQ_FW_BASE => 152
  | .IRQ_SRC => 153
  | .IRQ_CLAIM => 154
  | .IRQ_CQ => 155
  | .IRQ_CQ_STATUS => 156
  | .IRQ_END => 157
  | .BOLL_POST => 158
  | .BOLL_WAIT => 159
  | .BOLL_COUNT => 160
  | .PWR_GOV_ENV => 161
  | .PWR_LIMIT => 162
  | .PWR_STATUS => 163
  | .PWR_TELEM => 164
  | .PWR_TEMP => 165
  | .PWR_ISLAND => 166
  | .PKG_ID => 167
  | .PKG_STRAP => 168

/-- The code a counter has as a key of the counter file. -/
def Ctr.code : Ctr → Nat
  | .SAIL_CARRY_COUNT => 0
  | .SAIL_CARRY_FULL_COUNT => 1
  | .SAIL_DROP_COUNT => 2
  | .SAIL_STRICT_MISS_COUNT => 3
  | .SAIL_TT_REJECT_COUNT => 4
  | .SAIL_CLOSE_OVERRUN_COUNT => 5
  | .SAIL_UNLOCK_COUNT => 6
  | .SAIL_WATCH_MISS_COUNT => 7
  | .SAIL_WATCH_RESET_COUNT => 8
  | .CORE_REJECT_COUNT => 9
  | .CORE_NONFINITE_COUNT => 10
  | .CORE_WINDOW_MISMATCH_COUNT => 11
  | .CORE_BANK_UNPOWERED_COUNT => 12
  | .CORE_HAZARD_STALL_COUNT => 13
  | .CORE_ROUTE_DEFER_COUNT => 14
  | .CORE_ROUTE_STARVED_COUNT => 15
  | .SDIR_HIT_COUNT => 16
  | .SDIR_MISS_COUNT => 17
  | .SDIR_ADMIT_COUNT => 18
  | .SDIR_REFUSE_COUNT => 19
  | .SDIR_MOOR_COUNT => 20
  | .SDIR_LAYUP_COUNT => 21
  | .SDIR_REVIVE_COUNT => 22
  | .SDIR_CANCEL_COUNT => 23
  | .SDIR_TENSION_COUNT => 24
  | .SDIR_CRC_FAIL_COUNT => 25
  | .SDIR_QUEUE_FULL_COUNT => 26
  | .BERTH_LAP_STALL_COUNT => 27
  | .BERTH_HISTORY_FAIL_COUNT => 28
  | .BERTH_SPEC_COMMIT_COUNT => 29
  | .BERTH_SPEC_CANCEL_COUNT => 30
  | .BERTH_SPEC_REFUSE_COUNT => 31
  | .BERTH_SPEC_ORPHAN_COUNT => 32
  | .BERTH_GLOBAL_REFUSE_COUNT => 33
  | .BERTH_WITHDRAW_COUNT => 34
  | .BERTH_QUEUE_FULL_COUNT => 35
  | .ATTN_NONFINITE_COUNT => 36
  | .ATTN_STEER_RANGE_COUNT => 37
  | .FERRY_REJECT_COUNT => 38
  | .FERRY_QUEUE_FULL_COUNT => 39
  | .FERRY_LATE_COUNT => 40
  | .FERRY_READ_FAIL_COUNT => 41
  | .FERRY_WRITE_FAIL_COUNT => 42
  | .FERRY_MANIFEST_FAIL_COUNT => 43
  | .TIER_DIVERT_COUNT => 44
  | .TIER_NO_SPACE_COUNT => 45
  | .TIER_STORED_COUNT => 46
  | .TIER_CODEC_TENSION_COUNT => 47
  | .FLASH_RETRY_COUNT => 48
  | .FLASH_SOFT_COUNT => 49
  | .FLASH_RECON_COUNT => 50
  | .FLASH_UNCORRECTABLE_COUNT => 51
  | .FLASH_PROGRAM_FAIL_COUNT => 52
  | .FLASH_ERASE_FAIL_COUNT => 53
  | .FLASH_REFRESH_COUNT => 54
  | .FLASH_DIE_TRANSIENT_COUNT => 55
  | .FLASH_STRIPE_LOST_COUNT => 56
  | .FLASH_RT_TENSION_COUNT => 57
  | .NMU_REJECT_COUNT => 58
  | .NMU_QUEUE_FULL_COUNT => 59
  | .NMU_BRIDGE_COUNT => 60
  | .NMU_LINE_CORRECTED_COUNT => 61
  | .NMU_LINE_ECC_COUNT => 62
  | .NMU_MANIFEST_FAIL_COUNT => 63
  | .NMU_COW_COPY_COUNT => 64
  | .NMU_COW_STALL_COUNT => 65
  | .NMU_DIFF_COUNT => 66
  | .NMU_DIGEST_FAIL_COUNT => 67
  | .CKPT_COMMIT_COUNT => 68
  | .CKPT_SKIP_COUNT => 69
  | .CKPT_CAPTURE_LATE_COUNT => 70
  | .CKPT_ABANDON_COUNT => 71
  | .CKPT_TRIM_GROUP_COUNT => 72
  | .CKPT_TRIM_FALLBACK_COUNT => 73
  | .CKPT_RESTORE_COUNT => 74
  | .TEXT_QUEUE_FULL_COUNT => 75
  | .TEXT_INVALID_BYTE_COUNT => 76
  | .TEXT_TRUNCATED_COUNT => 77
  | .TEXT_REPLACED_COUNT => 78
  | .TEXT_STOP_COUNT => 79
  | .TEXT_MASK_HIT_COUNT => 80
  | .TEXT_MASK_MISS_COUNT => 81
  | .TEXT_DEAD_COUNT => 82
  | .TEXT_VIOLATION_COUNT => 83
  | .SAMP_QUEUE_FULL_COUNT => 84
  | .SAMP_SHORT_COUNT => 85
  | .SAMP_EMPTY_END_COUNT => 86
  | .SAMP_DEAD_END_COUNT => 87
  | .SAMP_COUNT_FULL_COUNT => 88
  | .SAMP_REPLAY_MISMATCH_COUNT => 89
  | .SEAL_TICKET_COUNT => 90
  | .SEAL_VERDICT_COUNT => 91
  | .SEAL_DEFER_COUNT => 92
  | .SEAL_LATE_COUNT => 93
  | .SEAL_QUEUE_FULL_COUNT => 94
  | .RCL_QUERY_COUNT => 95
  | .RCL_SHORT_COUNT => 96
  | .RCL_WIDEN_COUNT => 97
  | .RCL_DENIED_COUNT => 98
  | .RCL_NODE_CRC_COUNT => 99
  | .RCL_MERGE_COUNT => 100
  | .RCL_QUEUE_FULL_COUNT => 101
  | .CHART_APPLY_COUNT => 102
  | .CHART_REJECT_COUNT => 103
  | .CHART_FORWARD_COUNT => 104
  | .CHART_REDIRECT_COUNT => 105
  | .CHART_STALE_COUNT => 106
  | .CHART_NOT_READY_COUNT => 107
  | .CHART_AHEAD_COUNT => 108
  | .CHART_LEAVE_TIMEOUT_COUNT => 109
  | .FAB_FEC_UNCORR_COUNT => 110
  | .FAB_PAUSE_RX_COUNT => 111
  | .MCT_BAD_HEADER_COUNT => 112
  | .MCT_AUTH_FAIL_COUNT => 113
  | .MCT_RETX_COUNT => 114
  | .MCT_RTO_COUNT => 115
  | .MCT_DROP_WINDOW_COUNT => 116
  | .MCT_CE_COUNT => 117
  | .MCT_PEER_LOST_COUNT => 118
  | .MCT_CROSS_COUNT => 119
  | .MCT_CROSS_ABORT_COUNT => 120
  | .EGR_FULL_COUNT => 121
  | .EGR_GATE_HOLD_COUNT => 122
  | .EGR_NO_FIT_COUNT => 123
  | .EGR_CE_MARK_COUNT => 124
  | .EGR_GCL_REJECT_COUNT => 125
  | .HOST_WRITE_DENIED_COUNT => 126
  | .HOST_ENTRY_CRC_COUNT => 127
  | .HOST_CQ_STALL_COUNT => 128
  | .HOST_RING_FAIL_COUNT => 129
  | .HOST_WIN_BUSY_COUNT => 130
  | .CFG_LOCKED_WRITE_COUNT => 131
  | .CFG_FALLBACK_COUNT => 132
  | .SEC_BUNDLE_REJECT_COUNT => 133
  | .SEC_KEYSLOT_TAG_COUNT => 134
  | .SEC_SPDM_AUTH_FAIL_COUNT => 135
  | .SEC_KEY_LOAD_COUNT => 136
  | .SEC_ENTROPY_FAIL_COUNT => 137
  | .ERR_MANIFEST_FAIL_COUNT => 138
  | .ERR_HBM_CORRECTED_COUNT => 139
  | .ERR_HBM_UNCORRECTABLE_COUNT => 140
  | .ERR_SRAM_CORRECTED_COUNT => 141
  | .ERR_SRAM_UNCORRECTABLE_COUNT => 142
  | .ERR_REMAP_COUNT => 143
  | .ERR_RETIRE_COUNT => 144
  | .ERR_ESCALATE_COUNT => 145
  | .ERR_OVERFLOW_COUNT => 146
  | .IRQ_CQ_FULL_COUNT => 147
  | .IRQ_MASKED_CLAIM_COUNT => 148
  | .IRQ_END_UNKNOWN_COUNT => 149
  | .BOLL_OVERFLOW_COUNT => 150
  | .BOLL_WAIT_BUSY_COUNT => 151
  | .PWR_TENSION_COUNT => 152
  | .PWR_LIMIT_STEP_COUNT => 153
  | .PWR_ISLAND_OFF_COUNT => 154
  | .PWR_WAKE_LATE_COUNT => 155
  | .PKG_PPS_REJECT_COUNT => 156

/-- BAR0 offset of a counter (R604). -/
def Ctr.off : Ctr → Nat
  | .SAIL_CARRY_COUNT => 0xF0000
  | .SAIL_CARRY_FULL_COUNT => 0xF0008
  | .SAIL_DROP_COUNT => 0xF0010
  | .SAIL_STRICT_MISS_COUNT => 0xF0018
  | .SAIL_TT_REJECT_COUNT => 0xF0020
  | .SAIL_CLOSE_OVERRUN_COUNT => 0xF0028
  | .SAIL_UNLOCK_COUNT => 0xF0030
  | .SAIL_WATCH_MISS_COUNT => 0xF0038
  | .SAIL_WATCH_RESET_COUNT => 0xF0040
  | .CORE_REJECT_COUNT => 0x1F0000
  | .CORE_NONFINITE_COUNT => 0x1F0008
  | .CORE_WINDOW_MISMATCH_COUNT => 0x1F0010
  | .CORE_BANK_UNPOWERED_COUNT => 0x1F0018
  | .CORE_HAZARD_STALL_COUNT => 0x1F0020
  | .CORE_ROUTE_DEFER_COUNT => 0x1F0028
  | .CORE_ROUTE_STARVED_COUNT => 0x1F0030
  | .SDIR_HIT_COUNT => 0x2F0000
  | .SDIR_MISS_COUNT => 0x2F0008
  | .SDIR_ADMIT_COUNT => 0x2F0010
  | .SDIR_REFUSE_COUNT => 0x2F0018
  | .SDIR_MOOR_COUNT => 0x2F0020
  | .SDIR_LAYUP_COUNT => 0x2F0028
  | .SDIR_REVIVE_COUNT => 0x2F0030
  | .SDIR_CANCEL_COUNT => 0x2F0038
  | .SDIR_TENSION_COUNT => 0x2F0040
  | .SDIR_CRC_FAIL_COUNT => 0x2F0048
  | .SDIR_QUEUE_FULL_COUNT => 0x2F0050
  | .BERTH_LAP_STALL_COUNT => 0x3F0000
  | .BERTH_HISTORY_FAIL_COUNT => 0x3F0008
  | .BERTH_SPEC_COMMIT_COUNT => 0x3F0010
  | .BERTH_SPEC_CANCEL_COUNT => 0x3F0018
  | .BERTH_SPEC_REFUSE_COUNT => 0x3F0020
  | .BERTH_SPEC_ORPHAN_COUNT => 0x3F0028
  | .BERTH_GLOBAL_REFUSE_COUNT => 0x3F0030
  | .BERTH_WITHDRAW_COUNT => 0x3F0038
  | .BERTH_QUEUE_FULL_COUNT => 0x3F0040
  | .ATTN_NONFINITE_COUNT => 0x4F0000
  | .ATTN_STEER_RANGE_COUNT => 0x4F0008
  | .FERRY_REJECT_COUNT => 0x5F0000
  | .FERRY_QUEUE_FULL_COUNT => 0x5F0008
  | .FERRY_LATE_COUNT => 0x5F0010
  | .FERRY_READ_FAIL_COUNT => 0x5F0018
  | .FERRY_WRITE_FAIL_COUNT => 0x5F0020
  | .FERRY_MANIFEST_FAIL_COUNT => 0x5F0028
  | .TIER_DIVERT_COUNT => 0x6F0000
  | .TIER_NO_SPACE_COUNT => 0x6F0008
  | .TIER_STORED_COUNT => 0x6F0010
  | .TIER_CODEC_TENSION_COUNT => 0x6F0018
  | .FLASH_RETRY_COUNT => 0x7F0000
  | .FLASH_SOFT_COUNT => 0x7F0008
  | .FLASH_RECON_COUNT => 0x7F0010
  | .FLASH_UNCORRECTABLE_COUNT => 0x7F0018
  | .FLASH_PROGRAM_FAIL_COUNT => 0x7F0020
  | .FLASH_ERASE_FAIL_COUNT => 0x7F0028
  | .FLASH_REFRESH_COUNT => 0x7F0030
  | .FLASH_DIE_TRANSIENT_COUNT => 0x7F0038
  | .FLASH_STRIPE_LOST_COUNT => 0x7F0040
  | .FLASH_RT_TENSION_COUNT => 0x7F0048
  | .NMU_REJECT_COUNT => 0x8F0000
  | .NMU_QUEUE_FULL_COUNT => 0x8F0008
  | .NMU_BRIDGE_COUNT => 0x8F0010
  | .NMU_LINE_CORRECTED_COUNT => 0x8F0018
  | .NMU_LINE_ECC_COUNT => 0x8F0020
  | .NMU_MANIFEST_FAIL_COUNT => 0x8F0028
  | .NMU_COW_COPY_COUNT => 0x8F0030
  | .NMU_COW_STALL_COUNT => 0x8F0038
  | .NMU_DIFF_COUNT => 0x8F0040
  | .NMU_DIGEST_FAIL_COUNT => 0x8F0048
  | .CKPT_COMMIT_COUNT => 0x9F0000
  | .CKPT_SKIP_COUNT => 0x9F0008
  | .CKPT_CAPTURE_LATE_COUNT => 0x9F0010
  | .CKPT_ABANDON_COUNT => 0x9F0018
  | .CKPT_TRIM_GROUP_COUNT => 0x9F0020
  | .CKPT_TRIM_FALLBACK_COUNT => 0x9F0028
  | .CKPT_RESTORE_COUNT => 0x9F0030
  | .TEXT_QUEUE_FULL_COUNT => 0xAF0000
  | .TEXT_INVALID_BYTE_COUNT => 0xAF0008
  | .TEXT_TRUNCATED_COUNT => 0xAF0010
  | .TEXT_REPLACED_COUNT => 0xAF0018
  | .TEXT_STOP_COUNT => 0xAF0020
  | .TEXT_MASK_HIT_COUNT => 0xAF0028
  | .TEXT_MASK_MISS_COUNT => 0xAF0030
  | .TEXT_DEAD_COUNT => 0xAF0038
  | .TEXT_VIOLATION_COUNT => 0xAF0040
  | .SAMP_QUEUE_FULL_COUNT => 0xBF0000
  | .SAMP_SHORT_COUNT => 0xBF0008
  | .SAMP_EMPTY_END_COUNT => 0xBF0010
  | .SAMP_DEAD_END_COUNT => 0xBF0018
  | .SAMP_COUNT_FULL_COUNT => 0xBF0020
  | .SAMP_REPLAY_MISMATCH_COUNT => 0xBF0028
  | .SEAL_TICKET_COUNT => 0xCF0000
  | .SEAL_VERDICT_COUNT => 0xCF0008
  | .SEAL_DEFER_COUNT => 0xCF0010
  | .SEAL_LATE_COUNT => 0xCF0018
  | .SEAL_QUEUE_FULL_COUNT => 0xCF0020
  | .RCL_QUERY_COUNT => 0xDF0000
  | .RCL_SHORT_COUNT => 0xDF0008
  | .RCL_WIDEN_COUNT => 0xDF0010
  | .RCL_DENIED_COUNT => 0xDF0018
  | .RCL_NODE_CRC_COUNT => 0xDF0020
  | .RCL_MERGE_COUNT => 0xDF0028
  | .RCL_QUEUE_FULL_COUNT => 0xDF0030
  | .CHART_APPLY_COUNT => 0xEF0000
  | .CHART_REJECT_COUNT => 0xEF0008
  | .CHART_FORWARD_COUNT => 0xEF0010
  | .CHART_REDIRECT_COUNT => 0xEF0018
  | .CHART_STALE_COUNT => 0xEF0020
  | .CHART_NOT_READY_COUNT => 0xEF0028
  | .CHART_AHEAD_COUNT => 0xEF0030
  | .CHART_LEAVE_TIMEOUT_COUNT => 0xEF0038
  | .FAB_FEC_UNCORR_COUNT => 0xFF0000
  | .FAB_PAUSE_RX_COUNT => 0xFF0008
  | .MCT_BAD_HEADER_COUNT => 0x10F0000
  | .MCT_AUTH_FAIL_COUNT => 0x10F0008
  | .MCT_RETX_COUNT => 0x10F0010
  | .MCT_RTO_COUNT => 0x10F0018
  | .MCT_DROP_WINDOW_COUNT => 0x10F0020
  | .MCT_CE_COUNT => 0x10F0028
  | .MCT_PEER_LOST_COUNT => 0x10F0030
  | .MCT_CROSS_COUNT => 0x10F0038
  | .MCT_CROSS_ABORT_COUNT => 0x10F0040
  | .EGR_FULL_COUNT => 0x11F0000
  | .EGR_GATE_HOLD_COUNT => 0x11F0008
  | .EGR_NO_FIT_COUNT => 0x11F0010
  | .EGR_CE_MARK_COUNT => 0x11F0018
  | .EGR_GCL_REJECT_COUNT => 0x11F0020
  | .HOST_WRITE_DENIED_COUNT => 0x12F0000
  | .HOST_ENTRY_CRC_COUNT => 0x12F0008
  | .HOST_CQ_STALL_COUNT => 0x12F0010
  | .HOST_RING_FAIL_COUNT => 0x12F0018
  | .HOST_WIN_BUSY_COUNT => 0x12F0020
  | .CFG_LOCKED_WRITE_COUNT => 0x13F0000
  | .CFG_FALLBACK_COUNT => 0x13F0008
  | .SEC_BUNDLE_REJECT_COUNT => 0x14F0000
  | .SEC_KEYSLOT_TAG_COUNT => 0x14F0008
  | .SEC_SPDM_AUTH_FAIL_COUNT => 0x14F0010
  | .SEC_KEY_LOAD_COUNT => 0x14F0018
  | .SEC_ENTROPY_FAIL_COUNT => 0x14F0020
  | .ERR_MANIFEST_FAIL_COUNT => 0x15F0000
  | .ERR_HBM_CORRECTED_COUNT => 0x15F0008
  | .ERR_HBM_UNCORRECTABLE_COUNT => 0x15F0010
  | .ERR_SRAM_CORRECTED_COUNT => 0x15F0018
  | .ERR_SRAM_UNCORRECTABLE_COUNT => 0x15F0020
  | .ERR_REMAP_COUNT => 0x15F0028
  | .ERR_RETIRE_COUNT => 0x15F0030
  | .ERR_ESCALATE_COUNT => 0x15F0038
  | .ERR_OVERFLOW_COUNT => 0x15F0040
  | .IRQ_CQ_FULL_COUNT => 0x16F0000
  | .IRQ_MASKED_CLAIM_COUNT => 0x16F0008
  | .IRQ_END_UNKNOWN_COUNT => 0x16F0010
  | .BOLL_OVERFLOW_COUNT => 0x17F0000
  | .BOLL_WAIT_BUSY_COUNT => 0x17F0008
  | .PWR_TENSION_COUNT => 0x18F0000
  | .PWR_LIMIT_STEP_COUNT => 0x18F0008
  | .PWR_ISLAND_OFF_COUNT => 0x18F0010
  | .PWR_WAKE_LATE_COUNT => 0x18F0018
  | .PKG_PPS_REJECT_COUNT => 0x19F0000

/-- Every register, in the order of R605, part 0. -/
def Reg.all0 : List Reg :=
  [.SAIL_PERIOD, .SAIL_ORIGIN, .SAIL_NUMBER, .SAIL_TT_COMMIT, .SAIL_STATUS, .SAIL_TIME_OFFSET, .SAIL_WATCH_CFG, .SAIL_WATCH_STATUS, .SAIL_TAI_SECONDS, .SAIL_TT_BASE, .SAIL_WATCH_KICK, .SAIL_CORE_CARRY, .CORE_LS_PWR, .CORE_WIN, .CORE_STATUS, .SDIR_CFG, .SDIR_BASE, .SDIR_QUOTA_BASE, .SDIR_LOOP_ENV, .SDIR_HINT, .SDIR_WAIT, .SDIR_REVIVE, .SDIR_LOCKED, .SDIR_SUBMIT, .SDIR_BERTHS, .SDIR_WATER, .SDIR_FREE, .SDIR_THRESHOLD, .SDIR_STATE_COUNT, .BERTH_CLASS, .BERTH_SHAPE, .BERTH_BUCKET, .BERTH_SUBMIT, .BERTH_IN_USE, .BERTH_WITHDRAWN, .ATTN_STEER_BASE, .ATTN_STEER_CFG, .FERRY_CLASS, .FERRY_SUBMIT, .FERRY_STATUS]

/-- Every register, in the order of R605, part 1. -/
def Reg.all1 : List Reg :=
  [.TIER_CLASSES, .TIER_RATE, .TIER_MOOR_MARK, .TIER_MOOR_STATUS, .TIER_IMAGE_BASE, .FLASH_CFG, .FLASH_AREA, .FLASH_MAP_BASE, .FLASH_PATROL, .FLASH_REFRESH, .FLASH_RT_ENV, .FLASH_DIE_RULE, .FLASH_RATE, .FLASH_GC, .FLASH_STATUS, .FLASH_LUN_STATUS, .NMU_SUBMIT, .NMU_STATUS, .NMU_POOL, .NMU_SHARE, .NMU_DIFF_GATE, .NMU_STACK, .NMU_COW, .CKPT_SCHED, .CKPT_LIMIT, .CKPT_RATE, .CKPT_BUDDY, .CKPT_SOURCE, .CKPT_CONTROL, .CKPT_STATUS, .CKPT_RESTORE, .CKPT_COMMITTED, .CKPT_ACC_RANGE, .TEXT_CFG, .TEXT_GRAM_BASE, .TEXT_GRAM_CFG, .TEXT_SUBMIT, .TEXT_STATUS, .SAMP_SUBMIT, .SAMP_STATUS]

/-- Every register, in the order of R605, part 2. -/
def Reg.all2 : List Reg :=
  [.SEAL_SUBMIT, .SEAL_CFG, .SEAL_RING_BASE, .SEAL_RING_SIZE, .SEAL_STATUS, .RCL_SUBMIT, .RCL_STATUS, .RCL_INDEX_BASE, .RCL_SCRATCH_BASE, .RCL_TABLE_BASE, .RCL_CFG, .RCL_PIPE_STATUS, .CHART_BASE, .CHART_CFG, .CHART_STAGE, .CHART_STATUS, .CHART_EFFECTIVE, .CHART_ISLAND, .CHART_DRAIN, .FAB_GROUP, .FAB_PORT_STATUS, .MCT_PREFIX, .MCT_ADDR, .MCT_LAND_BASE, .MCT_WIN_BASE, .MCT_WIN_SIZE, .MCT_UDP, .MCT_RETX, .MCT_SEC, .MCT_CROSS, .MCT_VC, .EGR_CFG, .EGR_QUEUE_CFG, .EGR_SHAPER, .EGR_GCL_CTRL, .EGR_GCL, .EGR_QSTAT, .HOST_CFG, .HOST_DRAIN, .HOST_FATAL]

/-- Every register, in the order of R605, part 3. -/
def Reg.all3 : List Reg :=
  [.HOST_EVENT, .HOST_PKG_SRC, .HOST_CXL_MEM, .HOST_LINK_STATUS, .HOST_RING, .HOST_WIN, .HOST_CXL_WIN, .CFG_STATUS, .CFG_CONTROL, .CFG_LOCKED_ADDR, .CFG_IMAGE_INFO, .CFG_LC_STATUS, .CFG_AP_STATUS, .CFG_PKG_FETCH, .CFG_CONFIG_DIGEST, .SEC_FLEET, .SEC_COARSE, .SEC_STATUS, .SEC_KEYSLOT_BASE, .SEC_TENANT_BASE, .SEC_CAD, .SEC_DEVICE_DIGEST, .SEC_KEYSVC_DIGEST, .ERR_STATUS, .ERR_POP, .ERR_CFG, .ERR_SCRUB, .ERR_HEAD, .ERR_RULE, .ERR_SPARE_ROWS, .ERR_CAUSEWAY, .IRQ_CFG, .IRQ_FW_BASE, .IRQ_SRC, .IRQ_CLAIM, .IRQ_CQ, .IRQ_CQ_STATUS, .IRQ_END, .BOLL_POST, .BOLL_WAIT]

/-- Every register, in the order of R605, part 4. -/
def Reg.all4 : List Reg :=
  [.BOLL_COUNT, .PWR_GOV_ENV, .PWR_LIMIT, .PWR_STATUS, .PWR_TELEM, .PWR_TEMP, .PWR_ISLAND, .PKG_ID, .PKG_STRAP]

/-- Every register, in the order of R605. -/
def Reg.all : List Reg := Reg.all0 ++ Reg.all1 ++ Reg.all2 ++ Reg.all3 ++ Reg.all4

/-- Every counter, in the order of R604, part 0. -/
def Ctr.all0 : List Ctr :=
  [.SAIL_CARRY_COUNT, .SAIL_CARRY_FULL_COUNT, .SAIL_DROP_COUNT, .SAIL_STRICT_MISS_COUNT, .SAIL_TT_REJECT_COUNT, .SAIL_CLOSE_OVERRUN_COUNT, .SAIL_UNLOCK_COUNT, .SAIL_WATCH_MISS_COUNT, .SAIL_WATCH_RESET_COUNT, .CORE_REJECT_COUNT, .CORE_NONFINITE_COUNT, .CORE_WINDOW_MISMATCH_COUNT, .CORE_BANK_UNPOWERED_COUNT, .CORE_HAZARD_STALL_COUNT, .CORE_ROUTE_DEFER_COUNT, .CORE_ROUTE_STARVED_COUNT, .SDIR_HIT_COUNT, .SDIR_MISS_COUNT, .SDIR_ADMIT_COUNT, .SDIR_REFUSE_COUNT, .SDIR_MOOR_COUNT, .SDIR_LAYUP_COUNT, .SDIR_REVIVE_COUNT, .SDIR_CANCEL_COUNT, .SDIR_TENSION_COUNT, .SDIR_CRC_FAIL_COUNT, .SDIR_QUEUE_FULL_COUNT, .BERTH_LAP_STALL_COUNT, .BERTH_HISTORY_FAIL_COUNT, .BERTH_SPEC_COMMIT_COUNT, .BERTH_SPEC_CANCEL_COUNT, .BERTH_SPEC_REFUSE_COUNT, .BERTH_SPEC_ORPHAN_COUNT, .BERTH_GLOBAL_REFUSE_COUNT, .BERTH_WITHDRAW_COUNT, .BERTH_QUEUE_FULL_COUNT, .ATTN_NONFINITE_COUNT, .ATTN_STEER_RANGE_COUNT, .FERRY_REJECT_COUNT, .FERRY_QUEUE_FULL_COUNT]

/-- Every counter, in the order of R604, part 1. -/
def Ctr.all1 : List Ctr :=
  [.FERRY_LATE_COUNT, .FERRY_READ_FAIL_COUNT, .FERRY_WRITE_FAIL_COUNT, .FERRY_MANIFEST_FAIL_COUNT, .TIER_DIVERT_COUNT, .TIER_NO_SPACE_COUNT, .TIER_STORED_COUNT, .TIER_CODEC_TENSION_COUNT, .FLASH_RETRY_COUNT, .FLASH_SOFT_COUNT, .FLASH_RECON_COUNT, .FLASH_UNCORRECTABLE_COUNT, .FLASH_PROGRAM_FAIL_COUNT, .FLASH_ERASE_FAIL_COUNT, .FLASH_REFRESH_COUNT, .FLASH_DIE_TRANSIENT_COUNT, .FLASH_STRIPE_LOST_COUNT, .FLASH_RT_TENSION_COUNT, .NMU_REJECT_COUNT, .NMU_QUEUE_FULL_COUNT, .NMU_BRIDGE_COUNT, .NMU_LINE_CORRECTED_COUNT, .NMU_LINE_ECC_COUNT, .NMU_MANIFEST_FAIL_COUNT, .NMU_COW_COPY_COUNT, .NMU_COW_STALL_COUNT, .NMU_DIFF_COUNT, .NMU_DIGEST_FAIL_COUNT, .CKPT_COMMIT_COUNT, .CKPT_SKIP_COUNT, .CKPT_CAPTURE_LATE_COUNT, .CKPT_ABANDON_COUNT, .CKPT_TRIM_GROUP_COUNT, .CKPT_TRIM_FALLBACK_COUNT, .CKPT_RESTORE_COUNT, .TEXT_QUEUE_FULL_COUNT, .TEXT_INVALID_BYTE_COUNT, .TEXT_TRUNCATED_COUNT, .TEXT_REPLACED_COUNT, .TEXT_STOP_COUNT]

/-- Every counter, in the order of R604, part 2. -/
def Ctr.all2 : List Ctr :=
  [.TEXT_MASK_HIT_COUNT, .TEXT_MASK_MISS_COUNT, .TEXT_DEAD_COUNT, .TEXT_VIOLATION_COUNT, .SAMP_QUEUE_FULL_COUNT, .SAMP_SHORT_COUNT, .SAMP_EMPTY_END_COUNT, .SAMP_DEAD_END_COUNT, .SAMP_COUNT_FULL_COUNT, .SAMP_REPLAY_MISMATCH_COUNT, .SEAL_TICKET_COUNT, .SEAL_VERDICT_COUNT, .SEAL_DEFER_COUNT, .SEAL_LATE_COUNT, .SEAL_QUEUE_FULL_COUNT, .RCL_QUERY_COUNT, .RCL_SHORT_COUNT, .RCL_WIDEN_COUNT, .RCL_DENIED_COUNT, .RCL_NODE_CRC_COUNT, .RCL_MERGE_COUNT, .RCL_QUEUE_FULL_COUNT, .CHART_APPLY_COUNT, .CHART_REJECT_COUNT, .CHART_FORWARD_COUNT, .CHART_REDIRECT_COUNT, .CHART_STALE_COUNT, .CHART_NOT_READY_COUNT, .CHART_AHEAD_COUNT, .CHART_LEAVE_TIMEOUT_COUNT, .FAB_FEC_UNCORR_COUNT, .FAB_PAUSE_RX_COUNT, .MCT_BAD_HEADER_COUNT, .MCT_AUTH_FAIL_COUNT, .MCT_RETX_COUNT, .MCT_RTO_COUNT, .MCT_DROP_WINDOW_COUNT, .MCT_CE_COUNT, .MCT_PEER_LOST_COUNT, .MCT_CROSS_COUNT]

/-- Every counter, in the order of R604, part 3. -/
def Ctr.all3 : List Ctr :=
  [.MCT_CROSS_ABORT_COUNT, .EGR_FULL_COUNT, .EGR_GATE_HOLD_COUNT, .EGR_NO_FIT_COUNT, .EGR_CE_MARK_COUNT, .EGR_GCL_REJECT_COUNT, .HOST_WRITE_DENIED_COUNT, .HOST_ENTRY_CRC_COUNT, .HOST_CQ_STALL_COUNT, .HOST_RING_FAIL_COUNT, .HOST_WIN_BUSY_COUNT, .CFG_LOCKED_WRITE_COUNT, .CFG_FALLBACK_COUNT, .SEC_BUNDLE_REJECT_COUNT, .SEC_KEYSLOT_TAG_COUNT, .SEC_SPDM_AUTH_FAIL_COUNT, .SEC_KEY_LOAD_COUNT, .SEC_ENTROPY_FAIL_COUNT, .ERR_MANIFEST_FAIL_COUNT, .ERR_HBM_CORRECTED_COUNT, .ERR_HBM_UNCORRECTABLE_COUNT, .ERR_SRAM_CORRECTED_COUNT, .ERR_SRAM_UNCORRECTABLE_COUNT, .ERR_REMAP_COUNT, .ERR_RETIRE_COUNT, .ERR_ESCALATE_COUNT, .ERR_OVERFLOW_COUNT, .IRQ_CQ_FULL_COUNT, .IRQ_MASKED_CLAIM_COUNT, .IRQ_END_UNKNOWN_COUNT, .BOLL_OVERFLOW_COUNT, .BOLL_WAIT_BUSY_COUNT, .PWR_TENSION_COUNT, .PWR_LIMIT_STEP_COUNT, .PWR_ISLAND_OFF_COUNT, .PWR_WAKE_LATE_COUNT, .PKG_PPS_REJECT_COUNT]

/-- Every counter, in the order of R604. -/
def Ctr.all : List Ctr := Ctr.all0 ++ Ctr.all1 ++ Ctr.all2 ++ Ctr.all3

/-- SAIL_PERIOD.PERIOD_US (R29). -/
def F.SAIL_PERIOD_PERIOD_US : Field := ⟨.SAIL_PERIOD, 9, 0, .WL⟩

/-- SAIL_ORIGIN.ORIGIN_NS (R30). -/
def F.SAIL_ORIGIN_ORIGIN_NS : Field := ⟨.SAIL_ORIGIN, 63, 0, .WL⟩

/-- SAIL_NUMBER.NUMBER (R30). -/
def F.SAIL_NUMBER_NUMBER : Field := ⟨.SAIL_NUMBER, 47, 0, .RO⟩

/-- SAIL_TT_COMMIT.TARGET (R31). -/
def F.SAIL_TT_COMMIT_TARGET : Field := ⟨.SAIL_TT_COMMIT, 47, 0, .RW⟩

/-- SAIL_STATUS.TT_REASON (R32). -/
def F.SAIL_STATUS_TT_REASON : Field := ⟨.SAIL_STATUS, 31, 24, .RO⟩
/-- SAIL_STATUS.CLOSE_OVERRUN (R32). -/
def F.SAIL_STATUS_CLOSE_OVERRUN : Field := ⟨.SAIL_STATUS, 19, 19, .RW1C⟩
/-- SAIL_STATUS.STRICT_MISS (R32). -/
def F.SAIL_STATUS_STRICT_MISS : Field := ⟨.SAIL_STATUS, 18, 18, .RW1C⟩
/-- SAIL_STATUS.DROPPED (R32). -/
def F.SAIL_STATUS_DROPPED : Field := ⟨.SAIL_STATUS, 17, 17, .RW1C⟩
/-- SAIL_STATUS.CARRIED (R32). -/
def F.SAIL_STATUS_CARRIED : Field := ⟨.SAIL_STATUS, 16, 16, .RW1C⟩
/-- SAIL_STATUS.TT_REJECTED (R32). -/
def F.SAIL_STATUS_TT_REJECTED : Field := ⟨.SAIL_STATUS, 15, 15, .RW1C⟩
/-- SAIL_STATUS.SHADOW_PENDING (R32). -/
def F.SAIL_STATUS_SHADOW_PENDING : Field := ⟨.SAIL_STATUS, 14, 14, .RO⟩
/-- SAIL_STATUS.TIME_STATE (R32). -/
def F.SAIL_STATUS_TIME_STATE : Field := ⟨.SAIL_STATUS, 11, 10, .RO⟩
/-- SAIL_STATUS.PHASE (R32). -/
def F.SAIL_STATUS_PHASE : Field := ⟨.SAIL_STATUS, 9, 8, .RO⟩

/-- SAIL_TIME_OFFSET.OFFSET_NS (R33). -/
def F.SAIL_TIME_OFFSET_OFFSET_NS : Field := ⟨.SAIL_TIME_OFFSET, 31, 0, .RO⟩

/-- SAIL_WATCH_CFG.CORES (R576). -/
def F.SAIL_WATCH_CFG_CORES : Field := ⟨.SAIL_WATCH_CFG, 31, 16, .WL⟩
/-- SAIL_WATCH_CFG.MIN_LIVE (R576). -/
def F.SAIL_WATCH_CFG_MIN_LIVE : Field := ⟨.SAIL_WATCH_CFG, 15, 12, .WL⟩
/-- SAIL_WATCH_CFG.ACK_US (R576). -/
def F.SAIL_WATCH_CFG_ACK_US : Field := ⟨.SAIL_WATCH_CFG, 7, 0, .SL⟩

/-- SAIL_WATCH_STATUS.RETIRED (R576). -/
def F.SAIL_WATCH_STATUS_RETIRED : Field := ⟨.SAIL_WATCH_STATUS, 31, 16, .RO⟩
/-- SAIL_WATCH_STATUS.MISSED (R576). -/
def F.SAIL_WATCH_STATUS_MISSED : Field := ⟨.SAIL_WATCH_STATUS, 15, 0, .RO⟩

/-- SAIL_TAI_SECONDS.SECONDS (R16). -/
def F.SAIL_TAI_SECONDS_SECONDS : Field := ⟨.SAIL_TAI_SECONDS, 47, 0, .RW⟩

/-- SAIL_TT_BASE.OFFSET (R36). -/
def F.SAIL_TT_BASE_OFFSET : Field := ⟨.SAIL_TT_BASE, 27, 0, .WL⟩

/-- SAIL_WATCH_KICK.KICK (R576). -/
def F.SAIL_WATCH_KICK_KICK : Field := ⟨.SAIL_WATCH_KICK, 0, 0, .RW⟩

/-- SAIL_CORE_CARRY.CARRIED (R35). -/
def F.SAIL_CORE_CARRY_CARRIED : Field := ⟨.SAIL_CORE_CARRY, 8, 0, .RO⟩

/-- CORE_LS_PWR.BANK_MODE (R87). -/
def F.CORE_LS_PWR_BANK_MODE : Field := ⟨.CORE_LS_PWR, 95, 0, .SL⟩

/-- CORE_WIN.HEAD (R88). -/
def F.CORE_WIN_HEAD : Field := ⟨.CORE_WIN, 63, 48, .RW⟩
/-- CORE_WIN.SIZE (R88). -/
def F.CORE_WIN_SIZE : Field := ⟨.CORE_WIN, 47, 32, .SL⟩
/-- CORE_WIN.BASE (R88). -/
def F.CORE_WIN_BASE : Field := ⟨.CORE_WIN, 31, 16, .SL⟩

/-- CORE_STATUS.REJECT_REASON (R89). -/
def F.CORE_STATUS_REJECT_REASON : Field := ⟨.CORE_STATUS, 31, 24, .RO⟩
/-- CORE_STATUS.VECTOR_BUSY (R89). -/
def F.CORE_STATUS_VECTOR_BUSY : Field := ⟨.CORE_STATUS, 3, 3, .RO⟩
/-- CORE_STATUS.PRESCAN_BUSY (R89). -/
def F.CORE_STATUS_PRESCAN_BUSY : Field := ⟨.CORE_STATUS, 2, 2, .RO⟩
/-- CORE_STATUS.MATRIX_BUSY (R89). -/
def F.CORE_STATUS_MATRIX_BUSY : Field := ⟨.CORE_STATUS, 1, 1, .RO⟩
/-- CORE_STATUS.FAULTED (R89). -/
def F.CORE_STATUS_FAULTED : Field := ⟨.CORE_STATUS, 0, 0, .RO⟩

/-- SDIR_CFG.RECORDS (R112). -/
def F.SDIR_CFG_RECORDS : Field := ⟨.SDIR_CFG, 47, 24, .WL⟩
/-- SDIR_CFG.LOCK_MAX (R112). -/
def F.SDIR_CFG_LOCK_MAX : Field := ⟨.SDIR_CFG, 17, 0, .WL⟩

/-- SDIR_BASE.ADDR (R112). -/
def F.SDIR_BASE_ADDR : Field := ⟨.SDIR_BASE, 63, 0, .WL⟩

/-- SDIR_QUOTA_BASE.ADDR (R112). -/
def F.SDIR_QUOTA_BASE_ADDR : Field := ⟨.SDIR_QUOTA_BASE, 63, 0, .WL⟩

/-- SDIR_LOOP_ENV.IDLE_MAX (R113). -/
def F.SDIR_LOOP_ENV_IDLE_MAX : Field := ⟨.SDIR_LOOP_ENV, 63, 48, .SL⟩
/-- SDIR_LOOP_ENV.IDLE_MIN (R113). -/
def F.SDIR_LOOP_ENV_IDLE_MIN : Field := ⟨.SDIR_LOOP_ENV, 47, 32, .SL⟩
/-- SDIR_LOOP_ENV.MOOR_BUDGET (R113). -/
def F.SDIR_LOOP_ENV_MOOR_BUDGET : Field := ⟨.SDIR_LOOP_ENV, 31, 24, .SL⟩
/-- SDIR_LOOP_ENV.LAYUP_BUDGET (R113). -/
def F.SDIR_LOOP_ENV_LAYUP_BUDGET : Field := ⟨.SDIR_LOOP_ENV, 23, 16, .SL⟩
/-- SDIR_LOOP_ENV.LAYUP_IDLE (R113). -/
def F.SDIR_LOOP_ENV_LAYUP_IDLE : Field := ⟨.SDIR_LOOP_ENV, 15, 0, .SL⟩

/-- SDIR_HINT.WAKE_GUARD (R114). -/
def F.SDIR_HINT_WAKE_GUARD : Field := ⟨.SDIR_HINT, 31, 16, .SL⟩
/-- SDIR_HINT.EARLY_MOOR (R114). -/
def F.SDIR_HINT_EARLY_MOOR : Field := ⟨.SDIR_HINT, 15, 0, .SL⟩

/-- SDIR_WAIT.ADMIT_WAIT (R114). -/
def F.SDIR_WAIT_ADMIT_WAIT : Field := ⟨.SDIR_WAIT, 31, 16, .SL⟩
/-- SDIR_WAIT.REVIVE_DEADLINE (R114). -/
def F.SDIR_WAIT_REVIVE_DEADLINE : Field := ⟨.SDIR_WAIT, 15, 0, .SL⟩

/-- SDIR_REVIVE.REVIVE_BUDGET (R114). -/
def F.SDIR_REVIVE_REVIVE_BUDGET : Field := ⟨.SDIR_REVIVE, 15, 0, .SL⟩

/-- SDIR_LOCKED.COUNT (R115). -/
def F.SDIR_LOCKED_COUNT : Field := ⟨.SDIR_LOCKED, 31, 0, .RO⟩

/-- SDIR_SUBMIT.CMD_ADDR (R117). -/
def F.SDIR_SUBMIT_CMD_ADDR : Field := ⟨.SDIR_SUBMIT, 47, 5, .RW⟩

/-- SDIR_BERTHS.COUNT (R112). -/
def F.SDIR_BERTHS_COUNT : Field := ⟨.SDIR_BERTHS, 15, 0, .WL⟩

/-- SDIR_WATER.HIGH (R114). -/
def F.SDIR_WATER_HIGH : Field := ⟨.SDIR_WATER, 31, 16, .SL⟩
/-- SDIR_WATER.LOW (R114). -/
def F.SDIR_WATER_LOW : Field := ⟨.SDIR_WATER, 15, 0, .SL⟩

/-- SDIR_FREE.COUNT (R115). -/
def F.SDIR_FREE_COUNT : Field := ⟨.SDIR_FREE, 31, 0, .RO⟩

/-- SDIR_THRESHOLD.COUNT (R115). -/
def F.SDIR_THRESHOLD_COUNT : Field := ⟨.SDIR_THRESHOLD, 31, 0, .RO⟩

/-- SDIR_STATE_COUNT.COUNT (R115). -/
def F.SDIR_STATE_COUNT_COUNT : Field := ⟨.SDIR_STATE_COUNT, 31, 0, .RO⟩

/-- BERTH_CLASS.COUNT (R141). -/
def F.BERTH_CLASS_COUNT : Field := ⟨.BERTH_CLASS, 111, 96, .WL⟩
/-- BERTH_CLASS.STRIDE (R141). -/
def F.BERTH_CLASS_STRIDE : Field := ⟨.BERTH_CLASS, 95, 80, .WL⟩
/-- BERTH_CLASS.W_TILES (R141). -/
def F.BERTH_CLASS_W_TILES : Field := ⟨.BERTH_CLASS, 79, 64, .WL⟩
/-- BERTH_CLASS.G_TILES (R141). -/
def F.BERTH_CLASS_G_TILES : Field := ⟨.BERTH_CLASS, 63, 56, .WL⟩
/-- BERTH_CLASS.S_POS (R141). -/
def F.BERTH_CLASS_S_POS : Field := ⟨.BERTH_CLASS, 55, 48, .WL⟩
/-- BERTH_CLASS.BASE (R141). -/
def F.BERTH_CLASS_BASE : Field := ⟨.BERTH_CLASS, 47, 16, .WL⟩

/-- BERTH_SHAPE.H_Q (R142). -/
def F.BERTH_SHAPE_H_Q : Field := ⟨.BERTH_SHAPE, 23, 16, .WL⟩
/-- BERTH_SHAPE.LOG2_HKV (R142). -/
def F.BERTH_SHAPE_LOG2_HKV : Field := ⟨.BERTH_SHAPE, 10, 8, .WL⟩
/-- BERTH_SHAPE.LAYERS (R142). -/
def F.BERTH_SHAPE_LAYERS : Field := ⟨.BERTH_SHAPE, 5, 0, .WL⟩

/-- BERTH_BUCKET.BOUND (R143). -/
def F.BERTH_BUCKET_BOUND : Field := ⟨.BERTH_BUCKET, 111, 0, .SL⟩

/-- BERTH_SUBMIT.CMD_ADDR (R146). -/
def F.BERTH_SUBMIT_CMD_ADDR : Field := ⟨.BERTH_SUBMIT, 47, 5, .RW⟩

/-- BERTH_IN_USE.COUNT (R144). -/
def F.BERTH_IN_USE_COUNT : Field := ⟨.BERTH_IN_USE, 31, 0, .RO⟩

/-- BERTH_WITHDRAWN.COUNT (R144). -/
def F.BERTH_WITHDRAWN_COUNT : Field := ⟨.BERTH_WITHDRAWN, 31, 0, .RO⟩

/-- ATTN_STEER_BASE.ADDR (R168). -/
def F.ATTN_STEER_BASE_ADDR : Field := ⟨.ATTN_STEER_BASE, 63, 0, .WL⟩

/-- ATTN_STEER_CFG.SETS (R169). -/
def F.ATTN_STEER_CFG_SETS : Field := ⟨.ATTN_STEER_CFG, 31, 12, .WL⟩
/-- ATTN_STEER_CFG.RECORD_KIB (R169). -/
def F.ATTN_STEER_CFG_RECORD_KIB : Field := ⟨.ATTN_STEER_CFG, 4, 0, .WL⟩

/-- FERRY_CLASS.DEADLINE (R199). -/
def F.FERRY_CLASS_DEADLINE : Field := ⟨.FERRY_CLASS, 23, 16, .WL⟩
/-- FERRY_CLASS.CODEC (R199). -/
def F.FERRY_CLASS_CODEC : Field := ⟨.FERRY_CLASS, 15, 14, .WL⟩
/-- FERRY_CLASS.CRYPT (R199). -/
def F.FERRY_CLASS_CRYPT : Field := ⟨.FERRY_CLASS, 13, 13, .WL⟩
/-- FERRY_CLASS.TIER (R199). -/
def F.FERRY_CLASS_TIER : Field := ⟨.FERRY_CLASS, 11, 10, .WL⟩
/-- FERRY_CLASS.VC (R199). -/
def F.FERRY_CLASS_VC : Field := ⟨.FERRY_CLASS, 9, 7, .WL⟩
/-- FERRY_CLASS.PRIORITY (R199). -/
def F.FERRY_CLASS_PRIORITY : Field := ⟨.FERRY_CLASS, 5, 4, .WL⟩
/-- FERRY_CLASS.MODE (R199). -/
def F.FERRY_CLASS_MODE : Field := ⟨.FERRY_CLASS, 1, 0, .WL⟩

/-- FERRY_SUBMIT.DESC_ADDR (R201). -/
def F.FERRY_SUBMIT_DESC_ADDR : Field := ⟨.FERRY_SUBMIT, 47, 6, .RW⟩

/-- FERRY_STATUS.REJECT_REASON (R201). -/
def F.FERRY_STATUS_REJECT_REASON : Field := ⟨.FERRY_STATUS, 31, 24, .RO⟩
/-- FERRY_STATUS.FAULTED (R201). -/
def F.FERRY_STATUS_FAULTED : Field := ⟨.FERRY_STATUS, 23, 23, .RO⟩
/-- FERRY_STATUS.IN_FLIGHT (R201). -/
def F.FERRY_STATUS_IN_FLIGHT : Field := ⟨.FERRY_STATUS, 22, 16, .RO⟩
/-- FERRY_STATUS.QUEUED (R201). -/
def F.FERRY_STATUS_QUEUED : Field := ⟨.FERRY_STATUS, 8, 0, .RO⟩

/-- TIER_CLASSES.CROSS_CLASS (R200). -/
def F.TIER_CLASSES_CROSS_CLASS : Field := ⟨.TIER_CLASSES, 15, 12, .WL⟩
/-- TIER_CLASSES.HISTORY_CLASS (R200). -/
def F.TIER_CLASSES_HISTORY_CLASS : Field := ⟨.TIER_CLASSES, 11, 8, .WL⟩
/-- TIER_CLASSES.LAYUP_CLASS (R200). -/
def F.TIER_CLASSES_LAYUP_CLASS : Field := ⟨.TIER_CLASSES, 7, 4, .WL⟩
/-- TIER_CLASSES.MOOR_CLASS (R200). -/
def F.TIER_CLASSES_MOOR_CLASS : Field := ⟨.TIER_CLASSES, 3, 0, .WL⟩

/-- TIER_RATE.MOOR_READ (R202). -/
def F.TIER_RATE_MOOR_READ : Field := ⟨.TIER_RATE, 47, 36, .SL⟩
/-- TIER_RATE.MOOR_WRITE (R202). -/
def F.TIER_RATE_MOOR_WRITE : Field := ⟨.TIER_RATE, 35, 24, .SL⟩
/-- TIER_RATE.FLASH_READ (R202). -/
def F.TIER_RATE_FLASH_READ : Field := ⟨.TIER_RATE, 23, 12, .SL⟩
/-- TIER_RATE.FLASH_WRITE (R202). -/
def F.TIER_RATE_FLASH_WRITE : Field := ⟨.TIER_RATE, 11, 0, .SL⟩

/-- TIER_MOOR_MARK.HIGH (R203). -/
def F.TIER_MOOR_MARK_HIGH : Field := ⟨.TIER_MOOR_MARK, 15, 8, .SL⟩
/-- TIER_MOOR_MARK.LOW (R203). -/
def F.TIER_MOOR_MARK_LOW : Field := ⟨.TIER_MOOR_MARK, 7, 0, .SL⟩

/-- TIER_MOOR_STATUS.CAP_MIB (R203). -/
def F.TIER_MOOR_STATUS_CAP_MIB : Field := ⟨.TIER_MOOR_STATUS, 63, 32, .RO⟩
/-- TIER_MOOR_STATUS.USED_MIB (R203). -/
def F.TIER_MOOR_STATUS_USED_MIB : Field := ⟨.TIER_MOOR_STATUS, 31, 0, .RO⟩

/-- TIER_IMAGE_BASE.ADDR (R203). -/
def F.TIER_IMAGE_BASE_ADDR : Field := ⟨.TIER_IMAGE_BASE, 63, 0, .WL⟩

/-- FLASH_CFG.OP_PCT (R231). -/
def F.FLASH_CFG_OP_PCT : Field := ⟨.FLASH_CFG, 39, 32, .WL⟩
/-- FLASH_CFG.DEFER (R231). -/
def F.FLASH_CFG_DEFER : Field := ⟨.FLASH_CFG, 31, 31, .WL⟩
/-- FLASH_CFG.IFACE (R231). -/
def F.FLASH_CFG_IFACE : Field := ⟨.FLASH_CFG, 19, 18, .WL⟩
/-- FLASH_CFG.MAX_RATE (R231). -/
def F.FLASH_CFG_MAX_RATE : Field := ⟨.FLASH_CFG, 15, 8, .WL⟩
/-- FLASH_CFG.CE_M1 (R231). -/
def F.FLASH_CFG_CE_M1 : Field := ⟨.FLASH_CFG, 4, 2, .WL⟩
/-- FLASH_CFG.LUN_M1 (R231). -/
def F.FLASH_CFG_LUN_M1 : Field := ⟨.FLASH_CFG, 1, 0, .WL⟩

/-- FLASH_AREA.DRAIN_BLOCKS (R232). -/
def F.FLASH_AREA_DRAIN_BLOCKS : Field := ⟨.FLASH_AREA, 15, 0, .WL⟩

/-- FLASH_MAP_BASE.ADDR (R232). -/
def F.FLASH_MAP_BASE_ADDR : Field := ⟨.FLASH_MAP_BASE, 63, 0, .WL⟩

/-- FLASH_PATROL.PERIOD_DAYS (R233). -/
def F.FLASH_PATROL_PERIOD_DAYS : Field := ⟨.FLASH_PATROL, 23, 16, .SL⟩
/-- FLASH_PATROL.REFRESH_BITS (R233). -/
def F.FLASH_PATROL_REFRESH_BITS : Field := ⟨.FLASH_PATROL, 15, 8, .SL⟩
/-- FLASH_PATROL.RETRY_REFRESH (R233). -/
def F.FLASH_PATROL_RETRY_REFRESH : Field := ⟨.FLASH_PATROL, 7, 4, .SL⟩

/-- FLASH_REFRESH.AGE_DAYS (R234). -/
def F.FLASH_REFRESH_AGE_DAYS : Field := ⟨.FLASH_REFRESH, 31, 16, .SL⟩
/-- FLASH_REFRESH.DISTURB_K (R234). -/
def F.FLASH_REFRESH_DISTURB_K : Field := ⟨.FLASH_REFRESH, 15, 0, .SL⟩

/-- FLASH_RT_ENV.ENABLE (R235). -/
def F.FLASH_RT_ENV_ENABLE : Field := ⟨.FLASH_RT_ENV, 8, 8, .SL⟩
/-- FLASH_RT_ENV.MAX_START (R235). -/
def F.FLASH_RT_ENV_MAX_START : Field := ⟨.FLASH_RT_ENV, 3, 0, .SL⟩

/-- FLASH_DIE_RULE.WINDOW_H (R236). -/
def F.FLASH_DIE_RULE_WINDOW_H : Field := ⟨.FLASH_DIE_RULE, 31, 16, .WL⟩
/-- FLASH_DIE_RULE.RETRIES (R236). -/
def F.FLASH_DIE_RULE_RETRIES : Field := ⟨.FLASH_DIE_RULE, 3, 0, .WL⟩

/-- FLASH_RATE.REBUILD_READ (R237). -/
def F.FLASH_RATE_REBUILD_READ : Field := ⟨.FLASH_RATE, 23, 12, .SL⟩
/-- FLASH_RATE.HOUSE_WRITE (R237). -/
def F.FLASH_RATE_HOUSE_WRITE : Field := ⟨.FLASH_RATE, 11, 0, .SL⟩

/-- FLASH_GC.START (R237). -/
def F.FLASH_GC_START : Field := ⟨.FLASH_GC, 15, 8, .SL⟩
/-- FLASH_GC.URGENT (R237). -/
def F.FLASH_GC_URGENT : Field := ⟨.FLASH_GC, 7, 0, .SL⟩

/-- FLASH_STATUS.FREE_PCT (R238). -/
def F.FLASH_STATUS_FREE_PCT : Field := ⟨.FLASH_STATUS, 23, 16, .RO⟩
/-- FLASH_STATUS.CATCHUP (R238). -/
def F.FLASH_STATUS_CATCHUP : Field := ⟨.FLASH_STATUS, 8, 8, .RO⟩

/-- FLASH_LUN_STATUS.STATE (R238). -/
def F.FLASH_LUN_STATUS_STATE : Field := ⟨.FLASH_LUN_STATUS, 31, 30, .RO⟩
/-- FLASH_LUN_STATUS.GROWN_BAD (R238). -/
def F.FLASH_LUN_STATUS_GROWN_BAD : Field := ⟨.FLASH_LUN_STATUS, 23, 0, .RO⟩

/-- NMU_SUBMIT.DESC_ADDR (R259). -/
def F.NMU_SUBMIT_DESC_ADDR : Field := ⟨.NMU_SUBMIT, 47, 6, .RW⟩

/-- NMU_STATUS.REJECT_REASON (R260). -/
def F.NMU_STATUS_REJECT_REASON : Field := ⟨.NMU_STATUS, 31, 24, .RO⟩
/-- NMU_STATUS.QUEUED (R260). -/
def F.NMU_STATUS_QUEUED : Field := ⟨.NMU_STATUS, 8, 0, .RO⟩

/-- NMU_POOL.FRAMES (R263). -/
def F.NMU_POOL_FRAMES : Field := ⟨.NMU_POOL, 51, 32, .WL⟩
/-- NMU_POOL.BASE (R263). -/
def F.NMU_POOL_BASE : Field := ⟨.NMU_POOL, 19, 0, .WL⟩

/-- NMU_SHARE.SHARE (R264). -/
def F.NMU_SHARE_SHARE : Field := ⟨.NMU_SHARE, 3, 0, .SL⟩

/-- NMU_DIFF_GATE.PRESTART (R264). -/
def F.NMU_DIFF_GATE_PRESTART : Field := ⟨.NMU_DIFF_GATE, 8, 8, .RO⟩
/-- NMU_DIFF_GATE.OPEN (R264). -/
def F.NMU_DIFF_GATE_OPEN : Field := ⟨.NMU_DIFF_GATE, 7, 0, .RW⟩

/-- NMU_STACK.POOL_FREE (R261). -/
def F.NMU_STACK_POOL_FREE : Field := ⟨.NMU_STACK, 51, 32, .RO⟩
/-- NMU_STACK.PIECES (R261). -/
def F.NMU_STACK_PIECES : Field := ⟨.NMU_STACK, 22, 16, .RO⟩
/-- NMU_STACK.COW_ARMED (R261). -/
def F.NMU_STACK_COW_ARMED : Field := ⟨.NMU_STACK, 1, 1, .RO⟩
/-- NMU_STACK.RDY (R261). -/
def F.NMU_STACK_RDY : Field := ⟨.NMU_STACK, 0, 0, .RO⟩

/-- NMU_COW.ARMED (R262). -/
def F.NMU_COW_ARMED : Field := ⟨.NMU_COW, 63, 63, .RO⟩
/-- NMU_COW.LIMIT (R262). -/
def F.NMU_COW_LIMIT : Field := ⟨.NMU_COW, 47, 24, .RO⟩
/-- NMU_COW.FRONTIER (R262). -/
def F.NMU_COW_FRONTIER : Field := ⟨.NMU_COW, 23, 0, .RO⟩

/-- CKPT_SCHED.INTERVAL (R289). -/
def F.CKPT_SCHED_INTERVAL : Field := ⟨.CKPT_SCHED, 63, 48, .WL⟩
/-- CKPT_SCHED.PHASE (R289). -/
def F.CKPT_SCHED_PHASE : Field := ⟨.CKPT_SCHED, 47, 32, .WL⟩
/-- CKPT_SCHED.CAPTURE_US (R289). -/
def F.CKPT_SCHED_CAPTURE_US : Field := ⟨.CKPT_SCHED, 7, 0, .WL⟩

/-- CKPT_LIMIT.DRAIN_S (R290). -/
def F.CKPT_LIMIT_DRAIN_S : Field := ⟨.CKPT_LIMIT, 31, 16, .SL⟩
/-- CKPT_LIMIT.STALL_SAILINGS (R290). -/
def F.CKPT_LIMIT_STALL_SAILINGS : Field := ⟨.CKPT_LIMIT, 7, 0, .SL⟩

/-- CKPT_RATE.DRAIN (R291). -/
def F.CKPT_RATE_DRAIN : Field := ⟨.CKPT_RATE, 23, 12, .SL⟩
/-- CKPT_RATE.RESTORE (R291). -/
def F.CKPT_RATE_RESTORE : Field := ⟨.CKPT_RATE, 11, 0, .SL⟩

/-- CKPT_BUDDY.ADDR (R292). -/
def F.CKPT_BUDDY_ADDR : Field := ⟨.CKPT_BUDDY, 63, 0, .SL⟩

/-- CKPT_SOURCE.ADDR (R292). -/
def F.CKPT_SOURCE_ADDR : Field := ⟨.CKPT_SOURCE, 63, 0, .SL⟩

/-- CKPT_CONTROL.RESTORE (R293). -/
def F.CKPT_CONTROL_RESTORE : Field := ⟨.CKPT_CONTROL, 17, 17, .RW⟩
/-- CKPT_CONTROL.ABANDON (R293). -/
def F.CKPT_CONTROL_ABANDON : Field := ⟨.CKPT_CONTROL, 16, 16, .RW⟩
/-- CKPT_CONTROL.READY (R293). -/
def F.CKPT_CONTROL_READY : Field := ⟨.CKPT_CONTROL, 15, 0, .RW⟩

/-- CKPT_STATUS.LAST_RESULT (R295). -/
def F.CKPT_STATUS_LAST_RESULT : Field := ⟨.CKPT_STATUS, 31, 24, .RO⟩
/-- CKPT_STATUS.STATE (R295). -/
def F.CKPT_STATUS_STATE : Field := ⟨.CKPT_STATUS, 2, 0, .RO⟩

/-- CKPT_RESTORE.RESUME_AT (R294). -/
def F.CKPT_RESTORE_RESUME_AT : Field := ⟨.CKPT_RESTORE, 111, 64, .RW⟩
/-- CKPT_RESTORE.NUMBER (R294). -/
def F.CKPT_RESTORE_NUMBER : Field := ⟨.CKPT_RESTORE, 47, 0, .RW⟩

/-- CKPT_COMMITTED.PREVIOUS (R295). -/
def F.CKPT_COMMITTED_PREVIOUS : Field := ⟨.CKPT_COMMITTED, 111, 64, .RO⟩
/-- CKPT_COMMITTED.NEWEST (R295). -/
def F.CKPT_COMMITTED_NEWEST : Field := ⟨.CKPT_COMMITTED, 47, 0, .RO⟩

/-- CKPT_ACC_RANGE.SIZE (R296). -/
def F.CKPT_ACC_RANGE_SIZE : Field := ⟨.CKPT_ACC_RANGE, 47, 32, .SL⟩
/-- CKPT_ACC_RANGE.BASE (R296). -/
def F.CKPT_ACC_RANGE_BASE : Field := ⟨.CKPT_ACC_RANGE, 31, 16, .SL⟩

/-- TEXT_CFG.WHOLE_PIECE (R324). -/
def F.TEXT_CFG_WHOLE_PIECE : Field := ⟨.TEXT_CFG, 60, 60, .WL⟩
/-- TEXT_CFG.BYTE_BASE (R324). -/
def F.TEXT_CFG_BYTE_BASE : Field := ⟨.TEXT_CFG, 59, 40, .WL⟩
/-- TEXT_CFG.VOCAB (R324). -/
def F.TEXT_CFG_VOCAB : Field := ⟨.TEXT_CFG, 39, 20, .WL⟩

/-- TEXT_GRAM_BASE.ADDR (R325). -/
def F.TEXT_GRAM_BASE_ADDR : Field := ⟨.TEXT_GRAM_BASE, 63, 0, .WL⟩

/-- TEXT_GRAM_CFG.GRAMMARS (R325). -/
def F.TEXT_GRAM_CFG_GRAMMARS : Field := ⟨.TEXT_GRAM_CFG, 15, 0, .WL⟩

/-- TEXT_SUBMIT.CMD_ADDR (R326). -/
def F.TEXT_SUBMIT_CMD_ADDR : Field := ⟨.TEXT_SUBMIT, 47, 5, .RW⟩

/-- TEXT_STATUS.OPEN_STREAMS (R326). -/
def F.TEXT_STATUS_OPEN_STREAMS : Field := ⟨.TEXT_STATUS, 29, 16, .RO⟩
/-- TEXT_STATUS.QUEUED (R326). -/
def F.TEXT_STATUS_QUEUED : Field := ⟨.TEXT_STATUS, 8, 0, .RO⟩

/-- SAMP_SUBMIT.CMD_ADDR (R348). -/
def F.SAMP_SUBMIT_CMD_ADDR : Field := ⟨.SAMP_SUBMIT, 47, 6, .RW⟩

/-- SAMP_STATUS.REJECT_REASON (R348). -/
def F.SAMP_STATUS_REJECT_REASON : Field := ⟨.SAMP_STATUS, 31, 24, .RO⟩
/-- SAMP_STATUS.QUEUED (R348). -/
def F.SAMP_STATUS_QUEUED : Field := ⟨.SAMP_STATUS, 8, 0, .RO⟩

/-- SEAL_SUBMIT.CMD_ADDR (R348). -/
def F.SEAL_SUBMIT_CMD_ADDR : Field := ⟨.SEAL_SUBMIT, 47, 6, .RW⟩

/-- SEAL_CFG.MAX_TICKETS (R349). -/
def F.SEAL_CFG_MAX_TICKETS : Field := ⟨.SEAL_CFG, 16, 0, .WL⟩

/-- SEAL_RING_BASE.ADDR (R349). -/
def F.SEAL_RING_BASE_ADDR : Field := ⟨.SEAL_RING_BASE, 63, 0, .WL⟩

/-- SEAL_RING_SIZE.BYTES (R349). -/
def F.SEAL_RING_SIZE_BYTES : Field := ⟨.SEAL_RING_SIZE, 31, 0, .WL⟩

/-- SEAL_STATUS.BACKLOG (R349). -/
def F.SEAL_STATUS_BACKLOG : Field := ⟨.SEAL_STATUS, 63, 48, .RO⟩
/-- SEAL_STATUS.LAST_SEALED (R349). -/
def F.SEAL_STATUS_LAST_SEALED : Field := ⟨.SEAL_STATUS, 47, 0, .RO⟩

/-- RCL_SUBMIT.CMD_ADDR (R372). -/
def F.RCL_SUBMIT_CMD_ADDR : Field := ⟨.RCL_SUBMIT, 47, 7, .RW⟩

/-- RCL_STATUS.REJECT_REASON (R372). -/
def F.RCL_STATUS_REJECT_REASON : Field := ⟨.RCL_STATUS, 31, 24, .RO⟩
/-- RCL_STATUS.QUEUED (R372). -/
def F.RCL_STATUS_QUEUED : Field := ⟨.RCL_STATUS, 8, 0, .RO⟩

/-- RCL_INDEX_BASE.ADDR (R373). -/
def F.RCL_INDEX_BASE_ADDR : Field := ⟨.RCL_INDEX_BASE, 63, 0, .WL⟩

/-- RCL_SCRATCH_BASE.ADDR (R373). -/
def F.RCL_SCRATCH_BASE_ADDR : Field := ⟨.RCL_SCRATCH_BASE, 63, 0, .WL⟩

/-- RCL_TABLE_BASE.ADDR (R373). -/
def F.RCL_TABLE_BASE_ADDR : Field := ⟨.RCL_TABLE_BASE, 63, 0, .WL⟩

/-- RCL_CFG.INDEXES (R373). -/
def F.RCL_CFG_INDEXES : Field := ⟨.RCL_CFG, 54, 32, .WL⟩
/-- RCL_CFG.SCRATCH_KIB (R373). -/
def F.RCL_CFG_SCRATCH_KIB : Field := ⟨.RCL_CFG, 31, 24, .WL⟩
/-- RCL_CFG.TABLE_SLOTS (R373). -/
def F.RCL_CFG_TABLE_SLOTS : Field := ⟨.RCL_CFG, 10, 0, .WL⟩

/-- RCL_PIPE_STATUS.ACTIVE (R373). -/
def F.RCL_PIPE_STATUS_ACTIVE : Field := ⟨.RCL_PIPE_STATUS, 28, 16, .RO⟩
/-- RCL_PIPE_STATUS.SLOTS_USED (R373). -/
def F.RCL_PIPE_STATUS_SLOTS_USED : Field := ⟨.RCL_PIPE_STATUS, 10, 0, .RO⟩

/-- CHART_BASE.ADDR (R390). -/
def F.CHART_BASE_ADDR : Field := ⟨.CHART_BASE, 63, 0, .WL⟩

/-- CHART_CFG.HOME_MASK (R391). -/
def F.CHART_CFG_HOME_MASK : Field := ⟨.CHART_CFG, 55, 48, .WL⟩
/-- CHART_CFG.LAYER_MASK (R391). -/
def F.CHART_CFG_LAYER_MASK : Field := ⟨.CHART_CFG, 47, 40, .WL⟩
/-- CHART_CFG.LEAVE_LIMIT (R391). -/
def F.CHART_CFG_LEAVE_LIMIT : Field := ⟨.CHART_CFG, 31, 16, .SL⟩
/-- CHART_CFG.GRACE (R391). -/
def F.CHART_CFG_GRACE : Field := ⟨.CHART_CFG, 15, 0, .SL⟩

/-- CHART_STAGE.EPOCH (R392). -/
def F.CHART_STAGE_EPOCH : Field := ⟨.CHART_STAGE, 31, 0, .RW⟩

/-- CHART_STATUS.STAGED_EPOCH (R393). -/
def F.CHART_STATUS_STAGED_EPOCH : Field := ⟨.CHART_STATUS, 127, 96, .RO⟩
/-- CHART_STATUS.PREVIOUS (R393). -/
def F.CHART_STATUS_PREVIOUS : Field := ⟨.CHART_STATUS, 95, 64, .RO⟩
/-- CHART_STATUS.CURRENT (R393). -/
def F.CHART_STATUS_CURRENT : Field := ⟨.CHART_STATUS, 63, 32, .RO⟩
/-- CHART_STATUS.REJECT_REASON (R393). -/
def F.CHART_STATUS_REJECT_REASON : Field := ⟨.CHART_STATUS, 31, 24, .RO⟩
/-- CHART_STATUS.STAGED (R393). -/
def F.CHART_STATUS_STAGED : Field := ⟨.CHART_STATUS, 2, 2, .RO⟩
/-- CHART_STATUS.PREV_LIVE (R393). -/
def F.CHART_STATUS_PREV_LIVE : Field := ⟨.CHART_STATUS, 1, 1, .RO⟩
/-- CHART_STATUS.HAVE_CHART (R393). -/
def F.CHART_STATUS_HAVE_CHART : Field := ⟨.CHART_STATUS, 0, 0, .RO⟩

/-- CHART_EFFECTIVE.SAILING (R393). -/
def F.CHART_EFFECTIVE_SAILING : Field := ⟨.CHART_EFFECTIVE, 47, 0, .RO⟩

/-- CHART_ISLAND.ROLE (R394). -/
def F.CHART_ISLAND_ROLE : Field := ⟨.CHART_ISLAND, 31, 29, .RO⟩
/-- CHART_ISLAND.STATE (R394). -/
def F.CHART_ISLAND_STATE : Field := ⟨.CHART_ISLAND, 28, 27, .RO⟩
/-- CHART_ISLAND.OLD_LEAVING (R394). -/
def F.CHART_ISLAND_OLD_LEAVING : Field := ⟨.CHART_ISLAND, 26, 26, .RO⟩
/-- CHART_ISLAND.DEGRADED (R394). -/
def F.CHART_ISLAND_DEGRADED : Field := ⟨.CHART_ISLAND, 25, 25, .RO⟩
/-- CHART_ISLAND.QUIET (R394). -/
def F.CHART_ISLAND_QUIET : Field := ⟨.CHART_ISLAND, 24, 24, .RO⟩
/-- CHART_ISLAND.ASSIGN (R394). -/
def F.CHART_ISLAND_ASSIGN : Field := ⟨.CHART_ISLAND, 23, 8, .RO⟩
/-- CHART_ISLAND.GRANULES (R394). -/
def F.CHART_ISLAND_GRANULES : Field := ⟨.CHART_ISLAND, 7, 0, .RO⟩

/-- CHART_DRAIN.COUNT (R395). -/
def F.CHART_DRAIN_COUNT : Field := ⟨.CHART_DRAIN, 31, 0, .RO⟩

/-- FAB_GROUP.RATE (R424). -/
def F.FAB_GROUP_RATE : Field := ⟨.FAB_GROUP, 7, 6, .WL⟩
/-- FAB_GROUP.WIDTH (R424). -/
def F.FAB_GROUP_WIDTH : Field := ⟨.FAB_GROUP, 3, 2, .WL⟩
/-- FAB_GROUP.ENABLE (R424). -/
def F.FAB_GROUP_ENABLE : Field := ⟨.FAB_GROUP, 0, 0, .WL⟩

/-- FAB_PORT_STATUS.STATE (R425). -/
def F.FAB_PORT_STATUS_STATE : Field := ⟨.FAB_PORT_STATUS, 31, 30, .RO⟩
/-- FAB_PORT_STATUS.LANES (R425). -/
def F.FAB_PORT_STATUS_LANES : Field := ⟨.FAB_PORT_STATUS, 27, 24, .RO⟩
/-- FAB_PORT_STATUS.RETIRED (R425). -/
def F.FAB_PORT_STATUS_RETIRED : Field := ⟨.FAB_PORT_STATUS, 23, 16, .RO⟩
/-- FAB_PORT_STATUS.TIME_PORT (R425). -/
def F.FAB_PORT_STATUS_TIME_PORT : Field := ⟨.FAB_PORT_STATUS, 0, 0, .RO⟩

/-- MCT_PREFIX.PREFIX (R426). -/
def F.MCT_PREFIX_PREFIX : Field := ⟨.MCT_PREFIX, 63, 0, .WL⟩

/-- MCT_ADDR.ADDR (R426). -/
def F.MCT_ADDR_ADDR : Field := ⟨.MCT_ADDR, 63, 0, .WL⟩

/-- MCT_LAND_BASE.ADDR (R426). -/
def F.MCT_LAND_BASE_ADDR : Field := ⟨.MCT_LAND_BASE, 63, 0, .WL⟩

/-- MCT_WIN_BASE.ADDR (R426). -/
def F.MCT_WIN_BASE_ADDR : Field := ⟨.MCT_WIN_BASE, 63, 0, .WL⟩

/-- MCT_WIN_SIZE.BYTES (R426). -/
def F.MCT_WIN_SIZE_BYTES : Field := ⟨.MCT_WIN_SIZE, 63, 0, .WL⟩

/-- MCT_UDP.PATHS_M1 (R426). -/
def F.MCT_UDP_PATHS_M1 : Field := ⟨.MCT_UDP, 19, 16, .WL⟩
/-- MCT_UDP.PORT (R426). -/
def F.MCT_UDP_PORT : Field := ⟨.MCT_UDP, 15, 0, .WL⟩

/-- MCT_RETX.RETRIES (R428). -/
def F.MCT_RETX_RETRIES : Field := ⟨.MCT_RETX, 23, 20, .SL⟩
/-- MCT_RETX.RTO_US (R428). -/
def F.MCT_RETX_RTO_US : Field := ⟨.MCT_RETX, 15, 0, .SL⟩

/-- MCT_SEC.MODE (R429). -/
def F.MCT_SEC_MODE : Field := ⟨.MCT_SEC, 1, 0, .WL⟩

/-- MCT_CROSS.KEEP_S (R429). -/
def F.MCT_CROSS_KEEP_S : Field := ⟨.MCT_CROSS, 47, 32, .SL⟩
/-- MCT_CROSS.WAIT (R429). -/
def F.MCT_CROSS_WAIT : Field := ⟨.MCT_CROSS, 31, 16, .SL⟩
/-- MCT_CROSS.RATE (R429). -/
def F.MCT_CROSS_RATE : Field := ⟨.MCT_CROSS, 11, 0, .SL⟩

/-- MCT_VC.TCLASS (R427). -/
def F.MCT_VC_TCLASS : Field := ⟨.MCT_VC, 27, 25, .WL⟩
/-- MCT_VC.INITIAL (R427). -/
def F.MCT_VC_INITIAL : Field := ⟨.MCT_VC, 24, 16, .WL⟩
/-- MCT_VC.BUFFERS (R427). -/
def F.MCT_VC_BUFFERS : Field := ⟨.MCT_VC, 15, 0, .WL⟩

/-- EGR_CFG.CTRL_TCLASS (R444). -/
def F.EGR_CFG_CTRL_TCLASS : Field := ⟨.EGR_CFG, 2, 0, .WL⟩

/-- EGR_QUEUE_CFG.ECN_US (R445). -/
def F.EGR_QUEUE_CFG_ECN_US : Field := ⟨.EGR_QUEUE_CFG, 47, 32, .SL⟩
/-- EGR_QUEUE_CFG.MODE (R445). -/
def F.EGR_QUEUE_CFG_MODE : Field := ⟨.EGR_QUEUE_CFG, 31, 31, .SL⟩
/-- EGR_QUEUE_CFG.SHAPE_ON (R445). -/
def F.EGR_QUEUE_CFG_SHAPE_ON : Field := ⟨.EGR_QUEUE_CFG, 30, 30, .SL⟩
/-- EGR_QUEUE_CFG.WEIGHT (R445). -/
def F.EGR_QUEUE_CFG_WEIGHT : Field := ⟨.EGR_QUEUE_CFG, 23, 16, .SL⟩
/-- EGR_QUEUE_CFG.MAX_FRAMES (R445). -/
def F.EGR_QUEUE_CFG_MAX_FRAMES : Field := ⟨.EGR_QUEUE_CFG, 12, 0, .SL⟩

/-- EGR_SHAPER.BURST (R446). -/
def F.EGR_SHAPER_BURST : Field := ⟨.EGR_SHAPER, 55, 32, .SL⟩
/-- EGR_SHAPER.RATE (R446). -/
def F.EGR_SHAPER_RATE : Field := ⟨.EGR_SHAPER, 23, 0, .SL⟩

/-- EGR_GCL_CTRL.ENABLE (R447). -/
def F.EGR_GCL_CTRL_ENABLE : Field := ⟨.EGR_GCL_CTRL, 31, 31, .SL⟩
/-- EGR_GCL_CTRL.NEXT (R447). -/
def F.EGR_GCL_CTRL_NEXT : Field := ⟨.EGR_GCL_CTRL, 30, 30, .SL⟩
/-- EGR_GCL_CTRL.ACTIVE (R447). -/
def F.EGR_GCL_CTRL_ACTIVE : Field := ⟨.EGR_GCL_CTRL, 29, 29, .RO⟩
/-- EGR_GCL_CTRL.CYCLES (R447). -/
def F.EGR_GCL_CTRL_CYCLES : Field := ⟨.EGR_GCL_CTRL, 23, 20, .SL⟩

/-- EGR_GCL.LAST (R448). -/
def F.EGR_GCL_LAST : Field := ⟨.EGR_GCL, 31, 31, .RW⟩
/-- EGR_GCL.GATES (R448). -/
def F.EGR_GCL_GATES : Field := ⟨.EGR_GCL, 28, 21, .RW⟩
/-- EGR_GCL.INTERVAL_NS (R448). -/
def F.EGR_GCL_INTERVAL_NS : Field := ⟨.EGR_GCL, 20, 0, .RW⟩

/-- EGR_QSTAT.MAX_DELAY_NS (R449). -/
def F.EGR_QSTAT_MAX_DELAY_NS : Field := ⟨.EGR_QSTAT, 127, 96, .RO⟩
/-- EGR_QSTAT.MEAN_DELAY_NS (R449). -/
def F.EGR_QSTAT_MEAN_DELAY_NS : Field := ⟨.EGR_QSTAT, 95, 64, .RO⟩
/-- EGR_QSTAT.FRAMES (R449). -/
def F.EGR_QSTAT_FRAMES : Field := ⟨.EGR_QSTAT, 63, 48, .RO⟩
/-- EGR_QSTAT.MAX_DEPTH (R449). -/
def F.EGR_QSTAT_MAX_DEPTH : Field := ⟨.EGR_QSTAT, 47, 32, .RO⟩
/-- EGR_QSTAT.DEPTH (R449). -/
def F.EGR_QSTAT_DEPTH : Field := ⟨.EGR_QSTAT, 31, 16, .RO⟩

/-- HOST_CFG.RECORD_WIN (R465). -/
def F.HOST_CFG_RECORD_WIN : Field := ⟨.HOST_CFG, 45, 40, .SL⟩
/-- HOST_CFG.BIFURCATION (R465). -/
def F.HOST_CFG_BIFURCATION : Field := ⟨.HOST_CFG, 1, 0, .RO⟩

/-- HOST_DRAIN.FAIL_MS (R468). -/
def F.HOST_DRAIN_FAIL_MS : Field := ⟨.HOST_DRAIN, 31, 16, .SL⟩
/-- HOST_DRAIN.LIMIT_US (R468). -/
def F.HOST_DRAIN_LIMIT_US : Field := ⟨.HOST_DRAIN, 15, 0, .SL⟩

/-- HOST_FATAL.CODE (R468). -/
def F.HOST_FATAL_CODE : Field := ⟨.HOST_FATAL, 15, 0, .RO⟩

/-- HOST_EVENT.RING_FAILED (R469). -/
def F.HOST_EVENT_RING_FAILED : Field := ⟨.HOST_EVENT, 3, 3, .RW1C⟩
/-- HOST_EVENT.RING_QUIESCED (R469). -/
def F.HOST_EVENT_RING_QUIESCED : Field := ⟨.HOST_EVENT, 2, 2, .RW1C⟩
/-- HOST_EVENT.WIN_EMPTY (R469). -/
def F.HOST_EVENT_WIN_EMPTY : Field := ⟨.HOST_EVENT, 1, 1, .RW1C⟩
/-- HOST_EVENT.RESUMED (R469). -/
def F.HOST_EVENT_RESUMED : Field := ⟨.HOST_EVENT, 0, 0, .RW1C⟩

/-- HOST_PKG_SRC.VALID (R501). -/
def F.HOST_PKG_SRC_VALID : Field := ⟨.HOST_PKG_SRC, 63, 63, .RW⟩
/-- HOST_PKG_SRC.ADDR (R501). -/
def F.HOST_PKG_SRC_ADDR : Field := ⟨.HOST_PKG_SRC, 55, 0, .RW⟩

/-- HOST_CXL_MEM.SIZE_GIB (R471). -/
def F.HOST_CXL_MEM_SIZE_GIB : Field := ⟨.HOST_CXL_MEM, 55, 48, .WL⟩
/-- HOST_CXL_MEM.BASE (R471). -/
def F.HOST_CXL_MEM_BASE : Field := ⟨.HOST_CXL_MEM, 47, 30, .WL⟩

/-- HOST_LINK_STATUS.RATE (R468). -/
def F.HOST_LINK_STATUS_RATE : Field := ⟨.HOST_LINK_STATUS, 27, 24, .RO⟩
/-- HOST_LINK_STATUS.WIDTH (R468). -/
def F.HOST_LINK_STATUS_WIDTH : Field := ⟨.HOST_LINK_STATUS, 20, 16, .RO⟩
/-- HOST_LINK_STATUS.CXL (R468). -/
def F.HOST_LINK_STATUS_CXL : Field := ⟨.HOST_LINK_STATUS, 0, 0, .RO⟩

/-- HOST_RING.BASE (R466). -/
def F.HOST_RING_BASE : Field := ⟨.HOST_RING, 127, 64, .SL⟩
/-- HOST_RING.LOG2_ENTRIES (R466). -/
def F.HOST_RING_LOG2_ENTRIES : Field := ⟨.HOST_RING, 43, 40, .SL⟩
/-- HOST_RING.BUDGET (R466). -/
def F.HOST_RING_BUDGET : Field := ⟨.HOST_RING, 39, 32, .SL⟩
/-- HOST_RING.LINK (R466). -/
def F.HOST_RING_LINK : Field := ⟨.HOST_RING, 24, 24, .SL⟩
/-- HOST_RING.IRQ (R466). -/
def F.HOST_RING_IRQ : Field := ⟨.HOST_RING, 16, 16, .SL⟩
/-- HOST_RING.ENABLE (R466). -/
def F.HOST_RING_ENABLE : Field := ⟨.HOST_RING, 0, 0, .SL⟩

/-- HOST_WIN.BASE (R467). -/
def F.HOST_WIN_BASE : Field := ⟨.HOST_WIN, 127, 64, .RW⟩
/-- HOST_WIN.SIZE (R467). -/
def F.HOST_WIN_SIZE : Field := ⟨.HOST_WIN, 63, 32, .RW⟩
/-- HOST_WIN.LOST (R467). -/
def F.HOST_WIN_LOST : Field := ⟨.HOST_WIN, 7, 7, .RW1S⟩
/-- HOST_WIN.DRAIN (R467). -/
def F.HOST_WIN_DRAIN : Field := ⟨.HOST_WIN, 6, 6, .RW⟩
/-- HOST_WIN.EMPTY (R467). -/
def F.HOST_WIN_EMPTY : Field := ⟨.HOST_WIN, 5, 5, .RO⟩
/-- HOST_WIN.LINK (R467). -/
def F.HOST_WIN_LINK : Field := ⟨.HOST_WIN, 4, 4, .RW⟩
/-- HOST_WIN.USE (R467). -/
def F.HOST_WIN_USE : Field := ⟨.HOST_WIN, 1, 0, .RW⟩

/-- HOST_CXL_WIN.BASE (R467). -/
def F.HOST_CXL_WIN_BASE : Field := ⟨.HOST_CXL_WIN, 127, 64, .RW⟩
/-- HOST_CXL_WIN.SIZE (R467). -/
def F.HOST_CXL_WIN_SIZE : Field := ⟨.HOST_CXL_WIN, 63, 32, .RW⟩
/-- HOST_CXL_WIN.LOST (R467). -/
def F.HOST_CXL_WIN_LOST : Field := ⟨.HOST_CXL_WIN, 7, 7, .RW1S⟩
/-- HOST_CXL_WIN.DRAIN (R467). -/
def F.HOST_CXL_WIN_DRAIN : Field := ⟨.HOST_CXL_WIN, 6, 6, .RW⟩
/-- HOST_CXL_WIN.EMPTY (R467). -/
def F.HOST_CXL_WIN_EMPTY : Field := ⟨.HOST_CXL_WIN, 5, 5, .RO⟩
/-- HOST_CXL_WIN.LINK (R467). -/
def F.HOST_CXL_WIN_LINK : Field := ⟨.HOST_CXL_WIN, 4, 4, .RW⟩
/-- HOST_CXL_WIN.USE (R467). -/
def F.HOST_CXL_WIN_USE : Field := ⟨.HOST_CXL_WIN, 1, 0, .RW⟩

/-- CFG_STATUS.ERROR (R497). -/
def F.CFG_STATUS_ERROR : Field := ⟨.CFG_STATUS, 31, 24, .RO⟩
/-- CFG_STATUS.FLOOR_REFUSED (R497). -/
def F.CFG_STATUS_FLOOR_REFUSED : Field := ⟨.CFG_STATUS, 11, 11, .RW1C⟩
/-- CFG_STATUS.FALLBACK (R497). -/
def F.CFG_STATUS_FALLBACK : Field := ⟨.CFG_STATUS, 10, 10, .RW1C⟩
/-- CFG_STATUS.LOCKED_WRITE (R497). -/
def F.CFG_STATUS_LOCKED_WRITE : Field := ⟨.CFG_STATUS, 9, 9, .RW1C⟩
/-- CFG_STATUS.COPY (R497). -/
def F.CFG_STATUS_COPY : Field := ⟨.CFG_STATUS, 8, 8, .RO⟩
/-- CFG_STATUS.STAGE (R497). -/
def F.CFG_STATUS_STAGE : Field := ⟨.CFG_STATUS, 3, 0, .RO⟩

/-- CFG_CONTROL.RESET (R498). -/
def F.CFG_CONTROL_RESET : Field := ⟨.CFG_CONTROL, 1, 1, .RW⟩
/-- CFG_CONTROL.GO (R498). -/
def F.CFG_CONTROL_GO : Field := ⟨.CFG_CONTROL, 0, 0, .RW⟩

/-- CFG_LOCKED_ADDR.OFFSET (R498). -/
def F.CFG_LOCKED_ADDR_OFFSET : Field := ⟨.CFG_LOCKED_ADDR, 31, 0, .RO⟩

/-- CFG_IMAGE_INFO.IMAGE_SEQ (R499). -/
def F.CFG_IMAGE_INFO_IMAGE_SEQ : Field := ⟨.CFG_IMAGE_INFO, 127, 64, .RO⟩
/-- CFG_IMAGE_INFO.FLOOR_TARGET (R499). -/
def F.CFG_IMAGE_INFO_FLOOR_TARGET : Field := ⟨.CFG_IMAGE_INFO, 31, 24, .RO⟩
/-- CFG_IMAGE_INFO.ARCHIVE_GEN (R499). -/
def F.CFG_IMAGE_INFO_ARCHIVE_GEN : Field := ⟨.CFG_IMAGE_INFO, 23, 16, .RO⟩
/-- CFG_IMAGE_INFO.SEC_VERSION (R499). -/
def F.CFG_IMAGE_INFO_SEC_VERSION : Field := ⟨.CFG_IMAGE_INFO, 15, 8, .RO⟩

/-- CFG_LC_STATUS.DEBUG_CLOSED (R500). -/
def F.CFG_LC_STATUS_DEBUG_CLOSED : Field := ⟨.CFG_LC_STATUS, 24, 24, .LC⟩
/-- CFG_LC_STATUS.ARCHIVE_GEN (R500). -/
def F.CFG_LC_STATUS_ARCHIVE_GEN : Field := ⟨.CFG_LC_STATUS, 19, 16, .LC⟩
/-- CFG_LC_STATUS.SEC_VERSION (R500). -/
def F.CFG_LC_STATUS_SEC_VERSION : Field := ⟨.CFG_LC_STATUS, 14, 8, .LC⟩
/-- CFG_LC_STATUS.FLOOR (R500). -/
def F.CFG_LC_STATUS_FLOOR : Field := ⟨.CFG_LC_STATUS, 7, 0, .LC⟩

/-- CFG_AP_STATUS.FLOOR (R63). -/
def F.CFG_AP_STATUS_FLOOR : Field := ⟨.CFG_AP_STATUS, 23, 16, .LC⟩
/-- CFG_AP_STATUS.ACTIVE (R63). -/
def F.CFG_AP_STATUS_ACTIVE : Field := ⟨.CFG_AP_STATUS, 15, 8, .WL⟩
/-- CFG_AP_STATUS.HIGHEST (R63). -/
def F.CFG_AP_STATUS_HIGHEST : Field := ⟨.CFG_AP_STATUS, 7, 0, .RO⟩

/-- CFG_PKG_FETCH.TYPE (R501). -/
def F.CFG_PKG_FETCH_TYPE : Field := ⟨.CFG_PKG_FETCH, 63, 48, .RW⟩
/-- CFG_PKG_FETCH.INDEX (R501). -/
def F.CFG_PKG_FETCH_INDEX : Field := ⟨.CFG_PKG_FETCH, 47, 16, .RW⟩
/-- CFG_PKG_FETCH.BUSY (R501). -/
def F.CFG_PKG_FETCH_BUSY : Field := ⟨.CFG_PKG_FETCH, 0, 0, .RO⟩

/-- CFG_CONFIG_DIGEST.BYTES (R499). -/
def F.CFG_CONFIG_DIGEST_BYTES : Field := ⟨.CFG_CONFIG_DIGEST, 63, 0, .RO⟩

/-- SEC_FLEET.FLEET_ID (R523). -/
def F.SEC_FLEET_FLEET_ID : Field := ⟨.SEC_FLEET, 63, 0, .RO⟩

/-- SEC_COARSE.MIN_S (R525). -/
def F.SEC_COARSE_MIN_S : Field := ⟨.SEC_COARSE, 31, 16, .SL⟩
/-- SEC_COARSE.POWER_STEP (R525). -/
def F.SEC_COARSE_POWER_STEP : Field := ⟨.SEC_COARSE, 15, 8, .SL⟩
/-- SEC_COARSE.COUNT_Q (R525). -/
def F.SEC_COARSE_COUNT_Q : Field := ⟨.SEC_COARSE, 7, 0, .SL⟩

/-- SEC_STATUS.LAST_REJECT (R526). -/
def F.SEC_STATUS_LAST_REJECT : Field := ⟨.SEC_STATUS, 31, 24, .RO⟩
/-- SEC_STATUS.KEYSVC_SESSION (R526). -/
def F.SEC_STATUS_KEYSVC_SESSION : Field := ⟨.SEC_STATUS, 2, 2, .RO⟩
/-- SEC_STATUS.ENTROPY_FAIL (R526). -/
def F.SEC_STATUS_ENTROPY_FAIL : Field := ⟨.SEC_STATUS, 1, 1, .RW1C⟩
/-- SEC_STATUS.DRBG_READY (R526). -/
def F.SEC_STATUS_DRBG_READY : Field := ⟨.SEC_STATUS, 0, 0, .RO⟩

/-- SEC_KEYSLOT_BASE.ADDR (R524). -/
def F.SEC_KEYSLOT_BASE_ADDR : Field := ⟨.SEC_KEYSLOT_BASE, 63, 0, .WL⟩

/-- SEC_TENANT_BASE.ADDR (R524). -/
def F.SEC_TENANT_BASE_ADDR : Field := ⟨.SEC_TENANT_BASE, 63, 0, .WL⟩

/-- SEC_CAD.BYTES (R523). -/
def F.SEC_CAD_BYTES : Field := ⟨.SEC_CAD, 63, 0, .RO⟩

/-- SEC_DEVICE_DIGEST.BYTES (R523). -/
def F.SEC_DEVICE_DIGEST_BYTES : Field := ⟨.SEC_DEVICE_DIGEST, 63, 0, .RO⟩

/-- SEC_KEYSVC_DIGEST.BYTES (R523). -/
def F.SEC_KEYSVC_DIGEST_BYTES : Field := ⟨.SEC_KEYSVC_DIGEST, 63, 0, .WL⟩

/-- ERR_STATUS.OVERFLOW (R552). -/
def F.ERR_STATUS_OVERFLOW : Field := ⟨.ERR_STATUS, 9, 9, .RW1C⟩
/-- ERR_STATUS.FATAL (R552). -/
def F.ERR_STATUS_FATAL : Field := ⟨.ERR_STATUS, 8, 8, .RO⟩
/-- ERR_STATUS.QUEUED (R552). -/
def F.ERR_STATUS_QUEUED : Field := ⟨.ERR_STATUS, 6, 0, .RO⟩

/-- ERR_POP.POP (R551). -/
def F.ERR_POP_POP : Field := ⟨.ERR_POP, 0, 0, .RW⟩

/-- ERR_CFG.LOG_CORRECTED (R553). -/
def F.ERR_CFG_LOG_CORRECTED : Field := ⟨.ERR_CFG, 16, 16, .SL⟩
/-- ERR_CFG.SETTLE (R553). -/
def F.ERR_CFG_SETTLE : Field := ⟨.ERR_CFG, 15, 0, .SL⟩

/-- ERR_SCRUB.HBM_HOURS (R555). -/
def F.ERR_SCRUB_HBM_HOURS : Field := ⟨.ERR_SCRUB, 31, 16, .WL⟩
/-- ERR_SCRUB.SRAM_S (R555). -/
def F.ERR_SCRUB_SRAM_S : Field := ⟨.ERR_SCRUB, 15, 0, .WL⟩

/-- ERR_HEAD.WORD (R551). -/
def F.ERR_HEAD_WORD : Field := ⟨.ERR_HEAD, 63, 0, .RO⟩

/-- ERR_RULE.WINDOW_H (R554). -/
def F.ERR_RULE_WINDOW_H : Field := ⟨.ERR_RULE, 31, 16, .WL⟩
/-- ERR_RULE.RETRIES (R554). -/
def F.ERR_RULE_RETRIES : Field := ⟨.ERR_RULE, 3, 0, .WL⟩

/-- ERR_SPARE_ROWS.FREE (R555). -/
def F.ERR_SPARE_ROWS_FREE : Field := ⟨.ERR_SPARE_ROWS, 3, 0, .RO⟩

/-- ERR_CAUSEWAY.RETIRED (R555). -/
def F.ERR_CAUSEWAY_RETIRED : Field := ⟨.ERR_CAUSEWAY, 3, 3, .RO⟩
/-- ERR_CAUSEWAY.SPARES (R555). -/
def F.ERR_CAUSEWAY_SPARES : Field := ⟨.ERR_CAUSEWAY, 2, 0, .RO⟩

/-- IRQ_CFG.HOUSE_CORE (R573). -/
def F.IRQ_CFG_HOUSE_CORE : Field := ⟨.IRQ_CFG, 3, 0, .WL⟩

/-- IRQ_FW_BASE.ADDR (R573). -/
def F.IRQ_FW_BASE_ADDR : Field := ⟨.IRQ_FW_BASE, 63, 0, .WL⟩

/-- IRQ_SRC.PENDING (R572). -/
def F.IRQ_SRC_PENDING : Field := ⟨.IRQ_SRC, 15, 15, .RO⟩
/-- IRQ_SRC.PRESENTED (R572). -/
def F.IRQ_SRC_PRESENTED : Field := ⟨.IRQ_SRC, 14, 14, .RO⟩
/-- IRQ_SRC.MASK (R572). -/
def F.IRQ_SRC_MASK : Field := ⟨.IRQ_SRC, 13, 13, .RW⟩
/-- IRQ_SRC.TARGET (R572). -/
def F.IRQ_SRC_TARGET : Field := ⟨.IRQ_SRC, 3, 0, .WL⟩

/-- IRQ_CLAIM.SOURCE (R573). -/
def F.IRQ_CLAIM_SOURCE : Field := ⟨.IRQ_CLAIM, 9, 0, .RO⟩

/-- IRQ_CQ.BASE (R574). -/
def F.IRQ_CQ_BASE : Field := ⟨.IRQ_CQ, 127, 64, .SL⟩
/-- IRQ_CQ.LOG2_ENTRIES (R574). -/
def F.IRQ_CQ_LOG2_ENTRIES : Field := ⟨.IRQ_CQ, 35, 32, .SL⟩
/-- IRQ_CQ.CONSUMED (R574). -/
def F.IRQ_CQ_CONSUMED : Field := ⟨.IRQ_CQ, 31, 0, .RW⟩

/-- IRQ_CQ_STATUS.PRODUCED (R574). -/
def F.IRQ_CQ_STATUS_PRODUCED : Field := ⟨.IRQ_CQ_STATUS, 31, 0, .RO⟩

/-- IRQ_END.CODE (R575). -/
def F.IRQ_END_CODE : Field := ⟨.IRQ_END, 63, 48, .RW⟩
/-- IRQ_END.STATUS (R575). -/
def F.IRQ_END_STATUS : Field := ⟨.IRQ_END, 47, 40, .RW⟩
/-- IRQ_END.RING (R575). -/
def F.IRQ_END_RING : Field := ⟨.IRQ_END, 37, 32, .RW⟩
/-- IRQ_END.TAG (R575). -/
def F.IRQ_END_TAG : Field := ⟨.IRQ_END, 31, 0, .RW⟩

/-- BOLL_POST.N (R577). -/
def F.BOLL_POST_N : Field := ⟨.BOLL_POST, 31, 16, .RW⟩
/-- BOLL_POST.INDEX (R577). -/
def F.BOLL_POST_INDEX : Field := ⟨.BOLL_POST, 14, 0, .RW⟩

/-- BOLL_WAIT.CANCEL (R577). -/
def F.BOLL_WAIT_CANCEL : Field := ⟨.BOLL_WAIT, 31, 31, .RW⟩
/-- BOLL_WAIT.PENDING (R577). -/
def F.BOLL_WAIT_PENDING : Field := ⟨.BOLL_WAIT, 30, 30, .RO⟩
/-- BOLL_WAIT.INDEX (R577). -/
def F.BOLL_WAIT_INDEX : Field := ⟨.BOLL_WAIT, 14, 0, .RW⟩

/-- BOLL_COUNT.WAITERS (R577). -/
def F.BOLL_COUNT_WAITERS : Field := ⟨.BOLL_COUNT, 16, 16, .RO⟩
/-- BOLL_COUNT.COUNT (R577). -/
def F.BOLL_COUNT_COUNT : Field := ⟨.BOLL_COUNT, 15, 0, .RW⟩

/-- PWR_GOV_ENV.TARGET_PCT (R588). -/
def F.PWR_GOV_ENV_TARGET_PCT : Field := ⟨.PWR_GOV_ENV, 15, 8, .SL⟩
/-- PWR_GOV_ENV.MIN_STEP (R588). -/
def F.PWR_GOV_ENV_MIN_STEP : Field := ⟨.PWR_GOV_ENV, 6, 4, .SL⟩
/-- PWR_GOV_ENV.MAX_STEP (R588). -/
def F.PWR_GOV_ENV_MAX_STEP : Field := ⟨.PWR_GOV_ENV, 2, 0, .SL⟩

/-- PWR_LIMIT.CAP_W (R589). -/
def F.PWR_LIMIT_CAP_W : Field := ⟨.PWR_LIMIT, 31, 20, .WL⟩
/-- PWR_LIMIT.ICC_10A (R589). -/
def F.PWR_LIMIT_ICC_10A : Field := ⟨.PWR_LIMIT, 19, 8, .WL⟩
/-- PWR_LIMIT.TJ_C (R589). -/
def F.PWR_LIMIT_TJ_C : Field := ⟨.PWR_LIMIT, 7, 0, .WL⟩

/-- PWR_STATUS.VCORE_MV (R591). -/
def F.PWR_STATUS_VCORE_MV : Field := ⟨.PWR_STATUS, 31, 22, .RO⟩
/-- PWR_STATUS.ISLAND_OFF (R591). -/
def F.PWR_STATUS_ISLAND_OFF : Field := ⟨.PWR_STATUS, 15, 8, .RO⟩
/-- PWR_STATUS.LIMIT_CURRENT (R591). -/
def F.PWR_STATUS_LIMIT_CURRENT : Field := ⟨.PWR_STATUS, 7, 7, .RO⟩
/-- PWR_STATUS.LIMIT_POWER (R591). -/
def F.PWR_STATUS_LIMIT_POWER : Field := ⟨.PWR_STATUS, 6, 6, .RO⟩
/-- PWR_STATUS.LIMIT_HBM (R591). -/
def F.PWR_STATUS_LIMIT_HBM : Field := ⟨.PWR_STATUS, 5, 5, .RO⟩
/-- PWR_STATUS.LIMIT_TJ (R591). -/
def F.PWR_STATUS_LIMIT_TJ : Field := ⟨.PWR_STATUS, 4, 4, .RO⟩
/-- PWR_STATUS.STEP (R591). -/
def F.PWR_STATUS_STEP : Field := ⟨.PWR_STATUS, 2, 0, .RO⟩

/-- PWR_TELEM.PKG_W (R592). -/
def F.PWR_TELEM_PKG_W : Field := ⟨.PWR_TELEM, 63, 48, .RO⟩
/-- PWR_TELEM.CORE_W (R592). -/
def F.PWR_TELEM_CORE_W : Field := ⟨.PWR_TELEM, 47, 32, .RO⟩
/-- PWR_TELEM.HBM_W (R592). -/
def F.PWR_TELEM_HBM_W : Field := ⟨.PWR_TELEM, 31, 16, .RO⟩

/-- PWR_TEMP.TJ_A (R592). -/
def F.PWR_TEMP_TJ_A : Field := ⟨.PWR_TEMP, 31, 24, .RO⟩
/-- PWR_TEMP.TJ_B (R592). -/
def F.PWR_TEMP_TJ_B : Field := ⟨.PWR_TEMP, 23, 16, .RO⟩
/-- PWR_TEMP.HBM (R592). -/
def F.PWR_TEMP_HBM : Field := ⟨.PWR_TEMP, 15, 8, .RO⟩

/-- PWR_ISLAND.ALLOW_OFF (R590). -/
def F.PWR_ISLAND_ALLOW_OFF : Field := ⟨.PWR_ISLAND, 63, 63, .RW⟩
/-- PWR_ISLAND.WAKE (R590). -/
def F.PWR_ISLAND_WAKE : Field := ⟨.PWR_ISLAND, 47, 0, .RW⟩

/-- PKG_ID.PART (R606). -/
def F.PKG_ID_PART : Field := ⟨.PKG_ID, 31, 16, .RO⟩
/-- PKG_ID.STEPPING (R606). -/
def F.PKG_ID_STEPPING : Field := ⟨.PKG_ID, 15, 8, .RO⟩

/-- PKG_STRAP.BOARD_ID (R607). -/
def F.PKG_STRAP_BOARD_ID : Field := ⟨.PKG_STRAP, 7, 4, .RO⟩
/-- PKG_STRAP.NOR_QUAD (R607). -/
def F.PKG_STRAP_NOR_QUAD : Field := ⟨.PKG_STRAP, 2, 2, .RO⟩
/-- PKG_STRAP.BIFURCATION (R607). -/
def F.PKG_STRAP_BIFURCATION : Field := ⟨.PKG_STRAP, 1, 0, .RO⟩

/-- The fields of every register, highest bits first; what is not listed is reserved. -/
def Reg.fields : Reg → List Field
  | .SAIL_PERIOD => [F.SAIL_PERIOD_PERIOD_US]
  | .SAIL_ORIGIN => [F.SAIL_ORIGIN_ORIGIN_NS]
  | .SAIL_NUMBER => [F.SAIL_NUMBER_NUMBER]
  | .SAIL_TT_COMMIT => [F.SAIL_TT_COMMIT_TARGET]
  | .SAIL_STATUS => [F.SAIL_STATUS_TT_REASON, F.SAIL_STATUS_CLOSE_OVERRUN, F.SAIL_STATUS_STRICT_MISS, F.SAIL_STATUS_DROPPED, F.SAIL_STATUS_CARRIED, F.SAIL_STATUS_TT_REJECTED, F.SAIL_STATUS_SHADOW_PENDING, F.SAIL_STATUS_TIME_STATE, F.SAIL_STATUS_PHASE]
  | .SAIL_TIME_OFFSET => [F.SAIL_TIME_OFFSET_OFFSET_NS]
  | .SAIL_WATCH_CFG => [F.SAIL_WATCH_CFG_CORES, F.SAIL_WATCH_CFG_MIN_LIVE, F.SAIL_WATCH_CFG_ACK_US]
  | .SAIL_WATCH_STATUS => [F.SAIL_WATCH_STATUS_RETIRED, F.SAIL_WATCH_STATUS_MISSED]
  | .SAIL_TAI_SECONDS => [F.SAIL_TAI_SECONDS_SECONDS]
  | .SAIL_TT_BASE => [F.SAIL_TT_BASE_OFFSET]
  | .SAIL_WATCH_KICK => [F.SAIL_WATCH_KICK_KICK]
  | .SAIL_CORE_CARRY => [F.SAIL_CORE_CARRY_CARRIED]
  | .CORE_LS_PWR => [F.CORE_LS_PWR_BANK_MODE]
  | .CORE_WIN => [F.CORE_WIN_HEAD, F.CORE_WIN_SIZE, F.CORE_WIN_BASE]
  | .CORE_STATUS => [F.CORE_STATUS_REJECT_REASON, F.CORE_STATUS_VECTOR_BUSY, F.CORE_STATUS_PRESCAN_BUSY, F.CORE_STATUS_MATRIX_BUSY, F.CORE_STATUS_FAULTED]
  | .SDIR_CFG => [F.SDIR_CFG_RECORDS, F.SDIR_CFG_LOCK_MAX]
  | .SDIR_BASE => [F.SDIR_BASE_ADDR]
  | .SDIR_QUOTA_BASE => [F.SDIR_QUOTA_BASE_ADDR]
  | .SDIR_LOOP_ENV => [F.SDIR_LOOP_ENV_IDLE_MAX, F.SDIR_LOOP_ENV_IDLE_MIN, F.SDIR_LOOP_ENV_MOOR_BUDGET, F.SDIR_LOOP_ENV_LAYUP_BUDGET, F.SDIR_LOOP_ENV_LAYUP_IDLE]
  | .SDIR_HINT => [F.SDIR_HINT_WAKE_GUARD, F.SDIR_HINT_EARLY_MOOR]
  | .SDIR_WAIT => [F.SDIR_WAIT_ADMIT_WAIT, F.SDIR_WAIT_REVIVE_DEADLINE]
  | .SDIR_REVIVE => [F.SDIR_REVIVE_REVIVE_BUDGET]
  | .SDIR_LOCKED => [F.SDIR_LOCKED_COUNT]
  | .SDIR_SUBMIT => [F.SDIR_SUBMIT_CMD_ADDR]
  | .SDIR_BERTHS => [F.SDIR_BERTHS_COUNT]
  | .SDIR_WATER => [F.SDIR_WATER_HIGH, F.SDIR_WATER_LOW]
  | .SDIR_FREE => [F.SDIR_FREE_COUNT]
  | .SDIR_THRESHOLD => [F.SDIR_THRESHOLD_COUNT]
  | .SDIR_STATE_COUNT => [F.SDIR_STATE_COUNT_COUNT]
  | .BERTH_CLASS => [F.BERTH_CLASS_COUNT, F.BERTH_CLASS_STRIDE, F.BERTH_CLASS_W_TILES, F.BERTH_CLASS_G_TILES, F.BERTH_CLASS_S_POS, F.BERTH_CLASS_BASE]
  | .BERTH_SHAPE => [F.BERTH_SHAPE_H_Q, F.BERTH_SHAPE_LOG2_HKV, F.BERTH_SHAPE_LAYERS]
  | .BERTH_BUCKET => [F.BERTH_BUCKET_BOUND]
  | .BERTH_SUBMIT => [F.BERTH_SUBMIT_CMD_ADDR]
  | .BERTH_IN_USE => [F.BERTH_IN_USE_COUNT]
  | .BERTH_WITHDRAWN => [F.BERTH_WITHDRAWN_COUNT]
  | .ATTN_STEER_BASE => [F.ATTN_STEER_BASE_ADDR]
  | .ATTN_STEER_CFG => [F.ATTN_STEER_CFG_SETS, F.ATTN_STEER_CFG_RECORD_KIB]
  | .FERRY_CLASS => [F.FERRY_CLASS_DEADLINE, F.FERRY_CLASS_CODEC, F.FERRY_CLASS_CRYPT, F.FERRY_CLASS_TIER, F.FERRY_CLASS_VC, F.FERRY_CLASS_PRIORITY, F.FERRY_CLASS_MODE]
  | .FERRY_SUBMIT => [F.FERRY_SUBMIT_DESC_ADDR]
  | .FERRY_STATUS => [F.FERRY_STATUS_REJECT_REASON, F.FERRY_STATUS_FAULTED, F.FERRY_STATUS_IN_FLIGHT, F.FERRY_STATUS_QUEUED]
  | .TIER_CLASSES => [F.TIER_CLASSES_CROSS_CLASS, F.TIER_CLASSES_HISTORY_CLASS, F.TIER_CLASSES_LAYUP_CLASS, F.TIER_CLASSES_MOOR_CLASS]
  | .TIER_RATE => [F.TIER_RATE_MOOR_READ, F.TIER_RATE_MOOR_WRITE, F.TIER_RATE_FLASH_READ, F.TIER_RATE_FLASH_WRITE]
  | .TIER_MOOR_MARK => [F.TIER_MOOR_MARK_HIGH, F.TIER_MOOR_MARK_LOW]
  | .TIER_MOOR_STATUS => [F.TIER_MOOR_STATUS_CAP_MIB, F.TIER_MOOR_STATUS_USED_MIB]
  | .TIER_IMAGE_BASE => [F.TIER_IMAGE_BASE_ADDR]
  | .FLASH_CFG => [F.FLASH_CFG_OP_PCT, F.FLASH_CFG_DEFER, F.FLASH_CFG_IFACE, F.FLASH_CFG_MAX_RATE, F.FLASH_CFG_CE_M1, F.FLASH_CFG_LUN_M1]
  | .FLASH_AREA => [F.FLASH_AREA_DRAIN_BLOCKS]
  | .FLASH_MAP_BASE => [F.FLASH_MAP_BASE_ADDR]
  | .FLASH_PATROL => [F.FLASH_PATROL_PERIOD_DAYS, F.FLASH_PATROL_REFRESH_BITS, F.FLASH_PATROL_RETRY_REFRESH]
  | .FLASH_REFRESH => [F.FLASH_REFRESH_AGE_DAYS, F.FLASH_REFRESH_DISTURB_K]
  | .FLASH_RT_ENV => [F.FLASH_RT_ENV_ENABLE, F.FLASH_RT_ENV_MAX_START]
  | .FLASH_DIE_RULE => [F.FLASH_DIE_RULE_WINDOW_H, F.FLASH_DIE_RULE_RETRIES]
  | .FLASH_RATE => [F.FLASH_RATE_REBUILD_READ, F.FLASH_RATE_HOUSE_WRITE]
  | .FLASH_GC => [F.FLASH_GC_START, F.FLASH_GC_URGENT]
  | .FLASH_STATUS => [F.FLASH_STATUS_FREE_PCT, F.FLASH_STATUS_CATCHUP]
  | .FLASH_LUN_STATUS => [F.FLASH_LUN_STATUS_STATE, F.FLASH_LUN_STATUS_GROWN_BAD]
  | .NMU_SUBMIT => [F.NMU_SUBMIT_DESC_ADDR]
  | .NMU_STATUS => [F.NMU_STATUS_REJECT_REASON, F.NMU_STATUS_QUEUED]
  | .NMU_POOL => [F.NMU_POOL_FRAMES, F.NMU_POOL_BASE]
  | .NMU_SHARE => [F.NMU_SHARE_SHARE]
  | .NMU_DIFF_GATE => [F.NMU_DIFF_GATE_PRESTART, F.NMU_DIFF_GATE_OPEN]
  | .NMU_STACK => [F.NMU_STACK_POOL_FREE, F.NMU_STACK_PIECES, F.NMU_STACK_COW_ARMED, F.NMU_STACK_RDY]
  | .NMU_COW => [F.NMU_COW_ARMED, F.NMU_COW_LIMIT, F.NMU_COW_FRONTIER]
  | .CKPT_SCHED => [F.CKPT_SCHED_INTERVAL, F.CKPT_SCHED_PHASE, F.CKPT_SCHED_CAPTURE_US]
  | .CKPT_LIMIT => [F.CKPT_LIMIT_DRAIN_S, F.CKPT_LIMIT_STALL_SAILINGS]
  | .CKPT_RATE => [F.CKPT_RATE_DRAIN, F.CKPT_RATE_RESTORE]
  | .CKPT_BUDDY => [F.CKPT_BUDDY_ADDR]
  | .CKPT_SOURCE => [F.CKPT_SOURCE_ADDR]
  | .CKPT_CONTROL => [F.CKPT_CONTROL_RESTORE, F.CKPT_CONTROL_ABANDON, F.CKPT_CONTROL_READY]
  | .CKPT_STATUS => [F.CKPT_STATUS_LAST_RESULT, F.CKPT_STATUS_STATE]
  | .CKPT_RESTORE => [F.CKPT_RESTORE_RESUME_AT, F.CKPT_RESTORE_NUMBER]
  | .CKPT_COMMITTED => [F.CKPT_COMMITTED_PREVIOUS, F.CKPT_COMMITTED_NEWEST]
  | .CKPT_ACC_RANGE => [F.CKPT_ACC_RANGE_SIZE, F.CKPT_ACC_RANGE_BASE]
  | .TEXT_CFG => [F.TEXT_CFG_WHOLE_PIECE, F.TEXT_CFG_BYTE_BASE, F.TEXT_CFG_VOCAB]
  | .TEXT_GRAM_BASE => [F.TEXT_GRAM_BASE_ADDR]
  | .TEXT_GRAM_CFG => [F.TEXT_GRAM_CFG_GRAMMARS]
  | .TEXT_SUBMIT => [F.TEXT_SUBMIT_CMD_ADDR]
  | .TEXT_STATUS => [F.TEXT_STATUS_OPEN_STREAMS, F.TEXT_STATUS_QUEUED]
  | .SAMP_SUBMIT => [F.SAMP_SUBMIT_CMD_ADDR]
  | .SAMP_STATUS => [F.SAMP_STATUS_REJECT_REASON, F.SAMP_STATUS_QUEUED]
  | .SEAL_SUBMIT => [F.SEAL_SUBMIT_CMD_ADDR]
  | .SEAL_CFG => [F.SEAL_CFG_MAX_TICKETS]
  | .SEAL_RING_BASE => [F.SEAL_RING_BASE_ADDR]
  | .SEAL_RING_SIZE => [F.SEAL_RING_SIZE_BYTES]
  | .SEAL_STATUS => [F.SEAL_STATUS_BACKLOG, F.SEAL_STATUS_LAST_SEALED]
  | .RCL_SUBMIT => [F.RCL_SUBMIT_CMD_ADDR]
  | .RCL_STATUS => [F.RCL_STATUS_REJECT_REASON, F.RCL_STATUS_QUEUED]
  | .RCL_INDEX_BASE => [F.RCL_INDEX_BASE_ADDR]
  | .RCL_SCRATCH_BASE => [F.RCL_SCRATCH_BASE_ADDR]
  | .RCL_TABLE_BASE => [F.RCL_TABLE_BASE_ADDR]
  | .RCL_CFG => [F.RCL_CFG_INDEXES, F.RCL_CFG_SCRATCH_KIB, F.RCL_CFG_TABLE_SLOTS]
  | .RCL_PIPE_STATUS => [F.RCL_PIPE_STATUS_ACTIVE, F.RCL_PIPE_STATUS_SLOTS_USED]
  | .CHART_BASE => [F.CHART_BASE_ADDR]
  | .CHART_CFG => [F.CHART_CFG_HOME_MASK, F.CHART_CFG_LAYER_MASK, F.CHART_CFG_LEAVE_LIMIT, F.CHART_CFG_GRACE]
  | .CHART_STAGE => [F.CHART_STAGE_EPOCH]
  | .CHART_STATUS => [F.CHART_STATUS_STAGED_EPOCH, F.CHART_STATUS_PREVIOUS, F.CHART_STATUS_CURRENT, F.CHART_STATUS_REJECT_REASON, F.CHART_STATUS_STAGED, F.CHART_STATUS_PREV_LIVE, F.CHART_STATUS_HAVE_CHART]
  | .CHART_EFFECTIVE => [F.CHART_EFFECTIVE_SAILING]
  | .CHART_ISLAND => [F.CHART_ISLAND_ROLE, F.CHART_ISLAND_STATE, F.CHART_ISLAND_OLD_LEAVING, F.CHART_ISLAND_DEGRADED, F.CHART_ISLAND_QUIET, F.CHART_ISLAND_ASSIGN, F.CHART_ISLAND_GRANULES]
  | .CHART_DRAIN => [F.CHART_DRAIN_COUNT]
  | .FAB_GROUP => [F.FAB_GROUP_RATE, F.FAB_GROUP_WIDTH, F.FAB_GROUP_ENABLE]
  | .FAB_PORT_STATUS => [F.FAB_PORT_STATUS_STATE, F.FAB_PORT_STATUS_LANES, F.FAB_PORT_STATUS_RETIRED, F.FAB_PORT_STATUS_TIME_PORT]
  | .MCT_PREFIX => [F.MCT_PREFIX_PREFIX]
  | .MCT_ADDR => [F.MCT_ADDR_ADDR]
  | .MCT_LAND_BASE => [F.MCT_LAND_BASE_ADDR]
  | .MCT_WIN_BASE => [F.MCT_WIN_BASE_ADDR]
  | .MCT_WIN_SIZE => [F.MCT_WIN_SIZE_BYTES]
  | .MCT_UDP => [F.MCT_UDP_PATHS_M1, F.MCT_UDP_PORT]
  | .MCT_RETX => [F.MCT_RETX_RETRIES, F.MCT_RETX_RTO_US]
  | .MCT_SEC => [F.MCT_SEC_MODE]
  | .MCT_CROSS => [F.MCT_CROSS_KEEP_S, F.MCT_CROSS_WAIT, F.MCT_CROSS_RATE]
  | .MCT_VC => [F.MCT_VC_TCLASS, F.MCT_VC_INITIAL, F.MCT_VC_BUFFERS]
  | .EGR_CFG => [F.EGR_CFG_CTRL_TCLASS]
  | .EGR_QUEUE_CFG => [F.EGR_QUEUE_CFG_ECN_US, F.EGR_QUEUE_CFG_MODE, F.EGR_QUEUE_CFG_SHAPE_ON, F.EGR_QUEUE_CFG_WEIGHT, F.EGR_QUEUE_CFG_MAX_FRAMES]
  | .EGR_SHAPER => [F.EGR_SHAPER_BURST, F.EGR_SHAPER_RATE]
  | .EGR_GCL_CTRL => [F.EGR_GCL_CTRL_ENABLE, F.EGR_GCL_CTRL_NEXT, F.EGR_GCL_CTRL_ACTIVE, F.EGR_GCL_CTRL_CYCLES]
  | .EGR_GCL => [F.EGR_GCL_LAST, F.EGR_GCL_GATES, F.EGR_GCL_INTERVAL_NS]
  | .EGR_QSTAT => [F.EGR_QSTAT_MAX_DELAY_NS, F.EGR_QSTAT_MEAN_DELAY_NS, F.EGR_QSTAT_FRAMES, F.EGR_QSTAT_MAX_DEPTH, F.EGR_QSTAT_DEPTH]
  | .HOST_CFG => [F.HOST_CFG_RECORD_WIN, F.HOST_CFG_BIFURCATION]
  | .HOST_DRAIN => [F.HOST_DRAIN_FAIL_MS, F.HOST_DRAIN_LIMIT_US]
  | .HOST_FATAL => [F.HOST_FATAL_CODE]
  | .HOST_EVENT => [F.HOST_EVENT_RING_FAILED, F.HOST_EVENT_RING_QUIESCED, F.HOST_EVENT_WIN_EMPTY, F.HOST_EVENT_RESUMED]
  | .HOST_PKG_SRC => [F.HOST_PKG_SRC_VALID, F.HOST_PKG_SRC_ADDR]
  | .HOST_CXL_MEM => [F.HOST_CXL_MEM_SIZE_GIB, F.HOST_CXL_MEM_BASE]
  | .HOST_LINK_STATUS => [F.HOST_LINK_STATUS_RATE, F.HOST_LINK_STATUS_WIDTH, F.HOST_LINK_STATUS_CXL]
  | .HOST_RING => [F.HOST_RING_BASE, F.HOST_RING_LOG2_ENTRIES, F.HOST_RING_BUDGET, F.HOST_RING_LINK, F.HOST_RING_IRQ, F.HOST_RING_ENABLE]
  | .HOST_WIN => [F.HOST_WIN_BASE, F.HOST_WIN_SIZE, F.HOST_WIN_LOST, F.HOST_WIN_DRAIN, F.HOST_WIN_EMPTY, F.HOST_WIN_LINK, F.HOST_WIN_USE]
  | .HOST_CXL_WIN => [F.HOST_CXL_WIN_BASE, F.HOST_CXL_WIN_SIZE, F.HOST_CXL_WIN_LOST, F.HOST_CXL_WIN_DRAIN, F.HOST_CXL_WIN_EMPTY, F.HOST_CXL_WIN_LINK, F.HOST_CXL_WIN_USE]
  | .CFG_STATUS => [F.CFG_STATUS_ERROR, F.CFG_STATUS_FLOOR_REFUSED, F.CFG_STATUS_FALLBACK, F.CFG_STATUS_LOCKED_WRITE, F.CFG_STATUS_COPY, F.CFG_STATUS_STAGE]
  | .CFG_CONTROL => [F.CFG_CONTROL_RESET, F.CFG_CONTROL_GO]
  | .CFG_LOCKED_ADDR => [F.CFG_LOCKED_ADDR_OFFSET]
  | .CFG_IMAGE_INFO => [F.CFG_IMAGE_INFO_IMAGE_SEQ, F.CFG_IMAGE_INFO_FLOOR_TARGET, F.CFG_IMAGE_INFO_ARCHIVE_GEN, F.CFG_IMAGE_INFO_SEC_VERSION]
  | .CFG_LC_STATUS => [F.CFG_LC_STATUS_DEBUG_CLOSED, F.CFG_LC_STATUS_ARCHIVE_GEN, F.CFG_LC_STATUS_SEC_VERSION, F.CFG_LC_STATUS_FLOOR]
  | .CFG_AP_STATUS => [F.CFG_AP_STATUS_FLOOR, F.CFG_AP_STATUS_ACTIVE, F.CFG_AP_STATUS_HIGHEST]
  | .CFG_PKG_FETCH => [F.CFG_PKG_FETCH_TYPE, F.CFG_PKG_FETCH_INDEX, F.CFG_PKG_FETCH_BUSY]
  | .CFG_CONFIG_DIGEST => [F.CFG_CONFIG_DIGEST_BYTES]
  | .SEC_FLEET => [F.SEC_FLEET_FLEET_ID]
  | .SEC_COARSE => [F.SEC_COARSE_MIN_S, F.SEC_COARSE_POWER_STEP, F.SEC_COARSE_COUNT_Q]
  | .SEC_STATUS => [F.SEC_STATUS_LAST_REJECT, F.SEC_STATUS_KEYSVC_SESSION, F.SEC_STATUS_ENTROPY_FAIL, F.SEC_STATUS_DRBG_READY]
  | .SEC_KEYSLOT_BASE => [F.SEC_KEYSLOT_BASE_ADDR]
  | .SEC_TENANT_BASE => [F.SEC_TENANT_BASE_ADDR]
  | .SEC_CAD => [F.SEC_CAD_BYTES]
  | .SEC_DEVICE_DIGEST => [F.SEC_DEVICE_DIGEST_BYTES]
  | .SEC_KEYSVC_DIGEST => [F.SEC_KEYSVC_DIGEST_BYTES]
  | .ERR_STATUS => [F.ERR_STATUS_OVERFLOW, F.ERR_STATUS_FATAL, F.ERR_STATUS_QUEUED]
  | .ERR_POP => [F.ERR_POP_POP]
  | .ERR_CFG => [F.ERR_CFG_LOG_CORRECTED, F.ERR_CFG_SETTLE]
  | .ERR_SCRUB => [F.ERR_SCRUB_HBM_HOURS, F.ERR_SCRUB_SRAM_S]
  | .ERR_HEAD => [F.ERR_HEAD_WORD]
  | .ERR_RULE => [F.ERR_RULE_WINDOW_H, F.ERR_RULE_RETRIES]
  | .ERR_SPARE_ROWS => [F.ERR_SPARE_ROWS_FREE]
  | .ERR_CAUSEWAY => [F.ERR_CAUSEWAY_RETIRED, F.ERR_CAUSEWAY_SPARES]
  | .IRQ_CFG => [F.IRQ_CFG_HOUSE_CORE]
  | .IRQ_FW_BASE => [F.IRQ_FW_BASE_ADDR]
  | .IRQ_SRC => [F.IRQ_SRC_PENDING, F.IRQ_SRC_PRESENTED, F.IRQ_SRC_MASK, F.IRQ_SRC_TARGET]
  | .IRQ_CLAIM => [F.IRQ_CLAIM_SOURCE]
  | .IRQ_CQ => [F.IRQ_CQ_BASE, F.IRQ_CQ_LOG2_ENTRIES, F.IRQ_CQ_CONSUMED]
  | .IRQ_CQ_STATUS => [F.IRQ_CQ_STATUS_PRODUCED]
  | .IRQ_END => [F.IRQ_END_CODE, F.IRQ_END_STATUS, F.IRQ_END_RING, F.IRQ_END_TAG]
  | .BOLL_POST => [F.BOLL_POST_N, F.BOLL_POST_INDEX]
  | .BOLL_WAIT => [F.BOLL_WAIT_CANCEL, F.BOLL_WAIT_PENDING, F.BOLL_WAIT_INDEX]
  | .BOLL_COUNT => [F.BOLL_COUNT_WAITERS, F.BOLL_COUNT_COUNT]
  | .PWR_GOV_ENV => [F.PWR_GOV_ENV_TARGET_PCT, F.PWR_GOV_ENV_MIN_STEP, F.PWR_GOV_ENV_MAX_STEP]
  | .PWR_LIMIT => [F.PWR_LIMIT_CAP_W, F.PWR_LIMIT_ICC_10A, F.PWR_LIMIT_TJ_C]
  | .PWR_STATUS => [F.PWR_STATUS_VCORE_MV, F.PWR_STATUS_ISLAND_OFF, F.PWR_STATUS_LIMIT_CURRENT, F.PWR_STATUS_LIMIT_POWER, F.PWR_STATUS_LIMIT_HBM, F.PWR_STATUS_LIMIT_TJ, F.PWR_STATUS_STEP]
  | .PWR_TELEM => [F.PWR_TELEM_PKG_W, F.PWR_TELEM_CORE_W, F.PWR_TELEM_HBM_W]
  | .PWR_TEMP => [F.PWR_TEMP_TJ_A, F.PWR_TEMP_TJ_B, F.PWR_TEMP_HBM]
  | .PWR_ISLAND => [F.PWR_ISLAND_ALLOW_OFF, F.PWR_ISLAND_WAKE]
  | .PKG_ID => [F.PKG_ID_PART, F.PKG_ID_STEPPING]
  | .PKG_STRAP => [F.PKG_STRAP_BOARD_ID, F.PKG_STRAP_NOR_QUAD, F.PKG_STRAP_BIFURCATION]

/-- The reset value of element `i` of a register (R605 and the field maps). The fused and strapped values are
those of assumption 12; HOST_RING follows R466 (assumption 13). -/
def Reg.resetValue (r : Reg) (i : Nat) : BitVec 128 :=
  match r with
  | .SAIL_PERIOD => 0xC8
  | .SAIL_STATUS => 0x300
  | .SAIL_WATCH_CFG => 0xFFFF8014
  | .CORE_LS_PWR => 0xAAAAAAAAAAAAAAAAAAAAAAAA
  | .SDIR_CFG => 0x20000
  | .SDIR_LOOP_ENV => 0x2710006420080400
  | .SDIR_HINT => 0x320000
  | .SDIR_WAIT => 0x320064
  | .SDIR_REVIVE => 0x40
  | .BERTH_BUCKET => 0x80006000400030002000100008
  | .TIER_RATE => 0x280280120090
  | .TIER_MOOR_MARK => 0x5A4B
  | .FLASH_CFG => 0x780000000
  | .FLASH_PATROL => 0x73030
  | .FLASH_REFRESH => 0x16D03E8
  | .FLASH_RT_ENV => 0x103
  | .FLASH_DIE_RULE => 0x180003
  | .FLASH_RATE => 0x120048
  | .FLASH_GC => 0xA05
  | .NMU_SHARE => 0x2
  | .NMU_DIFF_GATE => 0x100
  | .NMU_STACK => 0x1
  | .CKPT_SCHED => 0x28
  | .CKPT_LIMIT => 0xA0020
  | .CKPT_RATE => 0xC8190
  | .SEAL_CFG => 0x4000
  | .RCL_CFG => 0x80000100
  | .CHART_CFG => 0x13880032
  | .MCT_UDP => 0x72C0F
  | .MCT_RETX => 0x600028
  | .MCT_CROSS => 0x258006403E8
  | .MCT_VC => 0x101000
  | .EGR_CFG => 0x7
  | .EGR_QUEUE_CFG => 0x10400
  | .EGR_SHAPER => 0x400000027100
  | .EGR_GCL_CTRL => 0x100000
  | .HOST_DRAIN => 0x6403E8
  | .HOST_RING => 0x2000000000
  | .HOST_WIN => 0x20
  | .HOST_CXL_WIN => 0x20
  | .CFG_LC_STATUS => 0x1
  | .CFG_AP_STATUS => 0x10101
  | .SEC_COARSE => 0x3C1910
  | .ERR_CFG => 0x10
  | .ERR_SCRUB => 0x18000A
  | .ERR_RULE => if i = 0 then 0x00180002 else if i ≤ 3 then 0x00010003 else 0x00010000
  | .ERR_SPARE_ROWS => 0x8
  | .ERR_CAUSEWAY => 0x4
  | .IRQ_SRC => if i < 0x40 then BitVec.ofNat 128 (i % 16) else 0
  | .IRQ_CLAIM => 0x3FF
  | .PWR_GOV_ENV => 0x5A40
  | .PWR_LIMIT => 0x8980B469
  | .PWR_STATUS => 0xD4800000
  | .PKG_ID => 0x6416B000
  | _ => 0

end Sys2Proof
end

