-- ==== Sys2Proof/Syntax.lean ====
section
/-! DEFINITION. The commands that reach the block: one constructor for every row of the command table, with the
row's operands. What a command reports about the outside world (a time, a measured value, the result of a hardware
check) is an operand of it. -/

namespace Sys2Proof

/-- Who makes a register access: the host driver through a BAR, a session control core, or a management core
(R453, R557, R603). -/
inductive Agent where
  | host
  | control (core : Fin 16)
  | mgmt
  deriving DecidableEq, Repr

/-- The three paths of a core (R65). -/
inductive Path where
  | matrix | prescan | vector
  deriving DecidableEq, Repr

/-- What a LAYER device tells the HOME island of a session (R140, R189, R192, R287): its share's transfer has ended (the
first model layer of the share, the status of R180, IMAGE_BYTES, the manifests, and for a bundle the image and the
history records by position); its share is lost; restored alone, that it holds an open berth, with S_k; a berth number
it has withdrawn; that it has freed its image of a locator (R182); or the bytes of a history record it has saved (R194). -/
inductive ShareNote where
  | moved (share : BitVec 16) (status : BitVec 8) (bytes : BitVec 64) (manifests image : List (BitVec 8))
      (history : List (BitVec 48 × List (BitVec 8)))
  | lost
  | berth (cls : Fin 4) (number : BitVec 20) (since : BitVec 48)
  | withdrawn (cls : Fin 4) (number : BitVec 20)
  | freed (share : BitVec 16) (loc : BitVec 64)
  | saved (bytes : BitVec 64)
  deriving DecidableEq, Repr

/-- A share move as the HOME island orders it (R188): the session, its MOTION (0 cancels the session's move and frees
an image, 7 gathers manifests for a crossing, 8 sends the share to the peer, 9 receives it, 10 frees the session's history
records), the image written or read,
the image left (0: a berth), the berth taken or left, the berth a re-berthing leaves; with a share that comes from
outside, its berth header, its image and its history records by position. -/
structure ShareOrder where
  session : BitVec 64
  motion : BitVec 4
  loc : BitVec 64
  old : BitVec 64
  cls : Fin 4
  berth : BitVec 20
  fromClass : Fin 4
  fromBerth : BitVec 20
  header : List (BitVec 8)
  image : List (BitVec 8)
  history : List (BitVec 48 × List (BitVec 8))
  deriving DecidableEq, Repr


/-- What reaches the egress queues from elsewhere than the transport itself (R416, R432, R433): a frame of a port that
carries no MCT packet, with its length; or a message that session firmware hands to the transport, of kind REQUEST,
RESPONSE, SPEC_COMMIT or SPEC_CANCEL (0 to 3), with the TAG that the operation of a REQUEST completes under. -/
inductive EgressSource where
  | frame (port : Fin 32) (length : BitVec 16)
  | message (peer : BitVec 64) (kind : Fin 4) (op : BitVec 64) (epoch : BitVec 32) (island : Fin 8) (role : Fin 8)
      (assign specTag : BitVec 16) (tag : BitVec 32) (payload : List (BitVec 8))
  deriving DecidableEq, Repr

/-- What a message of the time source gives (R12, R14, R33): the offset of local time from it in ns, and its TAI time in ns
since the PTP epoch. -/
structure TimeReading where
  offset : Int
  tai : BitVec 64
  deriving DecidableEq, Repr

/-- A turn of a ferry (R174, R175): which ferry, and when, in ps into the present sailing. -/
structure FerryTurn where
  ferry : Fin 32
  at_ : BitVec 40
  deriving DecidableEq, Repr

/-- A read of an HBM line that found an error (R244, R532): how many retries it took, and whether a near-memory unit
reads. -/
structure LineRead where
  tries : Fin 16
  nmu : Bool
  deriving DecidableEq, Repr

/-- A unit that clock gating applies to (R579): a path of a core, a ferry, or a lane of a port. -/
inductive GatedUnit where
  | path (core : Fin 80) (p : Path)
  | ferry (f : Fin 32)
  | lane (l : Fin 32)
  deriving DecidableEq, Repr

/-- What the sensors read (R585, R587): the hottest junction and the hottest stack in °C, package power in W, core-rail
current in A. -/
structure Sensors where
  junction : BitVec 8
  stack : BitVec 8
  power : BitVec 16
  current : BitVec 16
  deriving DecidableEq, Repr

/-- A word of SRAM (R533, R539, R550): of a local store or of a shared buffer, by byte address; of the directory cache
or the text and recall tables; of the seal engine's key store; or of the sailing unit, the interrupt controller or the error
queue. -/
inductive SramWord where
  | localStore (core : Fin 80) (addr : BitVec 24)
  | shared (addr : BitVec 29)
  | table
  | keyStore
  | unserved
  deriving DecidableEq, Repr

/-- Where a register write goes (R453, R594, R601): an offset of BAR0 or BAR2, or a device address. -/
inductive WritePlace where
  | bar0 (off : BitVec 26)
  | bar2 (off : BitVec 20)
  | device (addr : BitVec 48)
  deriving DecidableEq, Repr

/-- The commands of the device: one constructor for every row of the command table. -/
inductive Instr where
  /-- SAIL_LATCH (R11): At boundary B(n) the device publishes the sailing number, latches shadows, makes timetable n current and raises SAIL_START. -/
  | sailLatch (n : BitVec 48) (busy : BitVec 32) (telem : BitVec 64) (temp : BitVec 32)
  /-- SAIL_RUN (R11): At B(n) + 2 µs the run phase begins and carried slots become issuable first. -/
  | sailRun
  /-- SLOT_ISSUE (R20): A core's next slot issues once its predecessor issued, its EARLIEST has passed and its bollard count was taken. -/
  | slotIssue (core : Fin 80) (now : BitVec 32)
  /-- SAIL_CLOSE (R23): At B(n+1) − 3 µs issue stops and unissued slots are sorted by their carry rule. -/
  | sailClose
  /-- SAIL_CLOSE_OVERRUN (R25): A tile still running at B(n+1) − 0.5 µs delays its core's next LATCH work and is recorded. -/
  | sailCloseOverrun (core : Fin 80)
  /-- TICKET_SET_CLOSE (R340): At B(n+1) − 0.5 µs the ticket set of sailing n closes. -/
  | ticketSetClose
  /-- SEAL_RECORD_WRITE (R342): A dual-signed seal record is finished and written to the seal ring, in sailing order. -/
  | sealRecordWrite (drained : Nat)
  /-- SAIL_TT_COMMIT (R21): A write of TARGET commits the timetable buffer of that parity for the named sailing. -/
  | sailTtCommit (agent : Agent) (target : BitVec 64)
  /-- PTP_MESSAGE (R12): A received IEEE 1588 message updates the measured offset and may move the time state. -/
  | ptpMessage (port : Fin 32) (reading : TimeReading)
  /-- PTP_LOSS (R12): No PTP message accepted for 3 s moves a LOCKED device to HOLDOVER. -/
  | ptpLoss
  /-- HOLDOVER_EXPIRE (R12): The 60 s holdover limit without 1PPS expires and the device becomes UNLOCKED. -/
  | holdoverExpire
  /-- PPS_EDGE (R16): A 1PPS rising edge is time-stamped and used for phase, a start-of-second step or the path to HOLDOVER. -/
  | ppsEdge (offset : Int)
  /-- PPS_LOSS (R615): No 1PPS edge for 1.5 s makes 1PPS absent for the time state machine. -/
  | ppsLoss
  /-- REF10M_LOSS (R614): Loss of the 10 MHz reference switches device clocks to the on-package oscillator without a phase step. -/
  | ref10mLoss
  /-- TAI_SECONDS_WRITE (R16): A write of SAIL_TAI_SECONDS names the TAI second of the next 1PPS edge when no PTP has been accepted. -/
  | taiSecondsWrite (agent : Agent) (seconds : BitVec 64)
  /-- MM (R71): A matrix tile accumulates exact products into window-aligned records and rounds or keeps them. -/
  | mm (core : Fin 80)
  /-- MM_PRESCAN (R42): A pre-scan tile finds the window of a reduction and writes empty records carrying it. -/
  | mmPrescan (core : Fin 80)
  /-- WIN_MERGE (R71): Two arrays of empty window records are merged into the window of the whole reduction. -/
  | winMerge (core : Fin 80)
  /-- ACC_ADD (R45): Two arrays of accumulator records with equal windows are added by integer addition. -/
  | accAdd (core : Fin 80)
  /-- ACC_ROUND (R47): Accumulator records are rounded once to the output format. -/
  | accRound (core : Fin 80)
  /-- TILE_ADD (R71): Vector tile adding two operands elementwise in FP32. -/
  | tileAdd (core : Fin 80)
  /-- TILE_MUL (R71): Vector tile multiplying two operands elementwise in FP32. -/
  | tileMul (core : Fin 80)
  /-- TILE_SCALE (R71): Vector tile multiplying each element by SCALAR. -/
  | tileScale (core : Fin 80)
  /-- ADD_ROW (R71): Vector tile adding a scaled row vector to every row. -/
  | addRow (core : Fin 80)
  /-- MUL_ROW (R71): Vector tile multiplying every row by a row vector. -/
  | mulRow (core : Fin 80)
  /-- SUM_ROW (R49): Vector tile summing each row by the fixed tree. -/
  | sumRow (core : Fin 80)
  /-- MAX_ROW (R49): Vector tile taking each row's maximum by the fixed tree. -/
  | maxRow (core : Fin 80)
  /-- SOFTMAX_ROW (R54): Vector tile computing row probabilities and statistics, optionally over banded member ranges. -/
  | softmaxRow (core : Fin 80)
  /-- SOFTMAX_RECALC (R71): Vector tile recomputing probabilities from scores and saved statistics. -/
  | softmaxRecalc (core : Fin 80)
  /-- SOFTMAX_GRAD (R165): SOFTMAX_RECALC with GRAD set computes score gradients from probability gradients. -/
  | softmaxGrad (core : Fin 80)
  /-- RMSNORM (R55): Vector tile applying RMS normalisation to each row. -/
  | rmsnorm (core : Fin 80)
  /-- EXP2 (R50): Vector tile evaluating exp2 elementwise by the AP-1 procedure. -/
  | exp2 (core : Fin 80)
  /-- RECIP (R51): Vector tile evaluating recip elementwise by the AP-1 procedure. -/
  | recip (core : Fin 80)
  /-- RSQRT (R52): Vector tile evaluating rsqrt elementwise by the AP-1 procedure. -/
  | rsqrt (core : Fin 80)
  /-- SILU (R53): Vector tile evaluating SiLU elementwise. -/
  | silu (core : Fin 80)
  /-- SILU_MUL (R71): Vector tile computing silu(a) times b elementwise. -/
  | siluMul (core : Fin 80)
  /-- CONVERT (R39): Vector tile converting between formats, including MX block scales. -/
  | convert (core : Fin 80)
  /-- ROUTE (R80): Routing tile selects top-k experts per token and admits or defers assignments by capacity. -/
  | route (core : Fin 80)
  /-- COMBINE (R81): Vector tile forming each token's weighted sum of expert outputs. -/
  | combine (core : Fin 80)
  /-- COPY (R71): Vector tile copying rows of bytes within the local store. -/
  | copy (core : Fin 80)
  /-- WIN_ADV (R86): Vector tile advancing a circular window's HEAD in timetable order. -/
  | winAdv (core : Fin 80)
  /-- TILE_COMPLETE (R74): A tile ends with its status, posts its bollard on success and writes a completion record when required. -/
  | tileComplete (core : Fin 80) (path : Path)
  /-- TILE_TIMEOUT (R25): A tile running longer than 20 µs is a core fault. -/
  | tileTimeout (core : Fin 80) (path : Path)
  /-- CORE_PARITY_FAULT (R542): A core datapath parity fault ends work and, on recurrence within the window, retires the core. -/
  | coreParityFault (core : Fin 80) (path : Path)
  /-- BANK_AUTO_RETAIN (R85): An AUTO bank with no reference and no event within 4 µs enters retention. -/
  | bankAutoRetain (core : Fin 80) (bank : Fin 48) (now : BitVec 32)
  /-- BANK_AUTO_WAKE (R85): An AUTO bank returns to ON for a referencing slot or access, which waits the 2 µs exit. -/
  | bankAutoWake (core : Fin 80) (bank : Fin 48)
  /-- BANK_ZERO_DONE (R85): A bank leaving OFF finishes its 1 µs zeroing and waiting accesses proceed. -/
  | bankZeroDone (core : Fin 80) (bank : Fin 48)
  /-- LOOKUP (R98): Directory command returning a session's record, or NOT_FOUND. -/
  | lookup (addr : BitVec 48)
  /-- ADMIT (R103): Directory command admitting a new session into the lowest qualifying class, or making it wait. -/
  | admitSession (addr : BitVec 48)
  /-- ADMIT_WAIT_RESUME (R103): A waiting admission takes a berth once a class of its range qualifies. -/
  | admitWaitResume (session : BitVec 64) (at_ : BitVec 40)
  /-- ADMIT_WAIT_EXPIRE (R103): An admission waiting ADMIT_WAIT sailings ends NO_BERTH or QUOTA_BERTH. -/
  | admitWaitExpire (session : BitVec 64) (at_ : BitVec 40)
  /-- BEGIN_TURN (R98): Directory command making a berthed session ACTIVE for a turn. -/
  | beginTurn (addr : BitVec 48)
  /-- END_TURN (R98): Directory command returning an ACTIVE session to BERTHED, optionally for a tool wait. -/
  | endTurn (addr : BitVec 48)
  /-- MOOR (R98): Directory command starting the mooring of a berthed session to host memory. -/
  | moor (addr : BitVec 48)
  /-- LAY_UP (R98): Directory command laying a session up in flash from a berth or a moored image. -/
  | layUp (addr : BitVec 48)
  /-- REVIVE (R107): Directory command queueing a revival of a moored or laid-up session. -/
  | revive (addr : BitVec 48)
  /-- REBERTH (R106): Directory command moving a berthed session to a larger class. -/
  | reberth (addr : BitVec 48)
  /-- PIN (R98): Directory command setting PINNED within the tenant's pin limit. -/
  | pin (addr : BitVec 48)
  /-- UNPIN (R98): Directory command clearing PINNED. -/
  | unpin (addr : BitVec 48)
  /-- SET_HINT (R98): Directory command setting a session's WAKE_HINT. -/
  | setHint (addr : BitVec 48)
  /-- SEAL (R343): Directory command exporting a session as a sealed bundle and freeing its state. -/
  | sealSession (addr : BitVec 48)
  /-- UNSEAL (R516): Directory command verifying and importing a sealed bundle, then reviving it. -/
  | unsealBundle (addr : BitVec 48) (bundle : List (BitVec 8))
  /-- CROSS_OUT (R420): Directory command putting a session IN_CROSSING at the source and pausing its generation. -/
  | crossOut (addr : BitVec 48) (at_ : BitVec 40)
  /-- CROSS_IN (R420): Directory command creating the destination record of an incoming crossing. -/
  | crossIn (addr : BitVec 48) (at_ : BitVec 40)
  /-- CROSS_DONE (R98): Directory command ending a crossing as handed over or aborted. -/
  | crossDone (addr : BitVec 48) (log : List (List (BitVec 8))) (at_ : BitVec 40)
  /-- RESTORE (R288): Directory command recovering a faulted session from the last commonly committed checkpoint. -/
  | restore (addr : BitVec 48) (others : List (BitVec 48)) (rec_ : List (BitVec 8))
  /-- RELEASE (R98): Directory command freeing a session and all its berths, images and quota use. -/
  | release (addr : BitVec 48)
  /-- SDIR_BAD_OP (R98): A directory command with a reserved code ends BAD_OP. -/
  | sdirBadOp (addr : BitVec 48)
  /-- REVIVAL_START (R107): At LATCH the directory starts queued revivals while berths and the revive budget allow. -/
  | revivalStart
  /-- REVIVE_DEADLINE_EXPIRE (R108): A revival not fully reported within REVIVE_DEADLINE is cancelled with REVIVE_LATE. -/
  | reviveDeadlineExpire (session : BitVec 64)
  /-- SHARE_REPORT (R189): A LAYER device's share report reaches the HOME island, which completes the move when all shares are in. -/
  | shareReport (session : BitVec 64) (note : ShareNote) (at_ : BitVec 40)
  /-- BERTH_OPEN (R129): Berth command opening a berth number for a session. -/
  | berthOpen (addr : BitVec 48)
  /-- BERTH_CLOSE (R129): Berth command closing a berth and cancelling its waiting commands. -/
  | berthClose (addr : BitVec 48)
  /-- APPEND (R125): Berth command writing committed positions into a layer's ring. -/
  | append (addr : BitVec 48)
  /-- APPEND_LAP_RESUME (R125): A write waiting for its lap resumes once HISTORY_UPTO has advanced far enough. -/
  | appendLapResume (cls : Fin 4) (number : BitVec 20)
  /-- SPEC_WRITE (R132): Berth command writing draft rows into the speculative tiles under a tag. -/
  | specWrite (addr : BitVec 48)
  /-- SPEC_RESOLVE (R133): Berth command committing the first j drafts to the ring, or cancelling them. -/
  | specResolve (addr : BitVec 48)
  /-- HISTORY_SAVE (R125): Berth command saving the chunk at HISTORY_UPTO as a history record. -/
  | historySave (addr : BitVec 48)
  /-- HISTORY_SAVE_DONE (R190): A history save completes and HISTORY_UPTO advances by 128, or it ends HISTORY_FAILED. -/
  | historySaveDone (cls : Fin 4) (number : BitVec 20) (status : BitVec 4) (backlog : BitVec 16)
  /-- GLOBAL_LOAD (R127): Berth command loading a history chunk into a global tile slot. -/
  | globalLoad (addr : BitVec 48)
  /-- GLOBAL_LOAD_DONE (R127): A global load completes and its slot becomes valid. -/
  | globalLoadDone (cls : Fin 4) (number : BitVec 20) (status : BitVec 4)
  /-- GLOBAL_CLEAR (R129): Berth command clearing a global slot's VALID bit. -/
  | globalClear (addr : BitVec 48)
  /-- BERTH_BAD_OP (R129): A berth command with a reserved code ends BAD_OP. -/
  | berthBadOp (addr : BitVec 48)
  /-- FERRY_DESCRIPTOR (R177): A ferry descriptor is queued or rejected on a write to FERRY_SUBMIT. -/
  | ferryDescriptor (f : Fin 32) (addr : BitVec 48)
  /-- FERRY_TRANSFER_START (R174): A queued transfer enters a free in-flight place and begins once its WAIT count is taken. -/
  | ferryTransferStart (turn : FerryTurn)
  /-- FERRY_TILE_DONE (R176): A granted tile move is written with its manifest after checks, coding and encryption. -/
  | ferryTileDone (turn : FerryTurn) (id : BitVec 32) (tile : BitVec 24) (fault : BitVec 4) (data : List (BitVec 8)) (backlog : BitVec 16)
  /-- FERRY_LATE (R180): A transfer passing its deadline in sailings ends LATE. -/
  | ferryLate (f : Fin 32) (id : BitVec 32)
  /-- SHARE_MOVE_START (R188): A share move starts once the berth's earlier commands have completed. -/
  | shareMoveStart (order : ShareOrder)
  /-- FLASH_OP_COMPLETE (R219): A LUN operation completes and the LUN takes its next waiting operation by priority. -/
  | flashOpComplete (lun : Fin 512) (ok : Bool) (step : Fin 18) (corrected : BitVec 16)
  /-- FLASH_BUSY_TIMEOUT (R224): A LUN busy past 10 times its maximum time is a die event, reset and retried. -/
  | flashBusyTimeout (lun : Fin 512)
  /-- REBUILD_START (R225): Rebuild of a permanently faulted LUN's group starts when no earlier group is rebuilding. -/
  | rebuildStart
  /-- GC_START (R217): Garbage collection starts on the closed block with fewest valid pages when free blocks fall below START. -/
  | gcStart
  /-- PATROL_READ (R227): A paced patrol read checks a programmed page and may mark its block due for refresh. -/
  | patrolRead (lun : Fin 512) (plane : Fin 4) (block : BitVec 16) (page : Fin 8192)
  /-- LAST_POWER_WRITE (R229): Every hour the TAI time is written to the SYSTEM area. -/
  | lastPowerWrite
  /-- CATCHUP_PASS (R229): A start more than 24 hours after the last-power time begins a catch-up read pass. -/
  | catchupPass
  /-- NMU_MOVE (R247): Near-memory command copying strided elements. -/
  | nmuMove (addr : BitVec 48)
  /-- NMU_FILL (R247): Near-memory command writing a repeated 4-byte pattern. -/
  | nmuFill (addr : BitVec 48)
  /-- NMU_ADD (R248): Near-memory command adding two sources elementwise. -/
  | nmuAdd (addr : BitVec 48)
  /-- NMU_MUL (R248): Near-memory command multiplying two sources elementwise. -/
  | nmuMul (addr : BitVec 48)
  /-- AXPY (R248): Near-memory command computing a plus SCALAR times b elementwise. -/
  | axpy (addr : BitVec 48)
  /-- NMU_SCALE (R248): Near-memory command scaling a source by SCALAR. -/
  | nmuScale (addr : BitVec 48)
  /-- NMU_SILU (R248): Near-memory command evaluating SiLU elementwise. -/
  | nmuSilu (addr : BitVec 48)
  /-- NMU_SILU_MUL (R248): Near-memory command computing silu(a) times b. -/
  | nmuSiluMul (addr : BitVec 48)
  /-- DIFF_ADD (R258): Near-memory command adding a checked sparse difference record to a target range. -/
  | diffAdd (addr : BitVec 48)
  /-- DIFF_REPLACE (R258): Near-memory command replacing target lines from a checked difference record. -/
  | diffReplace (addr : BitVec 48)
  /-- NMU_PIECE_DISPATCH (R242): The dispatcher sends a queued piece to its stack while NMU_RDY is high. -/
  | nmuPieceDispatch (stack : Fin 16)
  /-- NMU_COMMAND_DONE (R250): After its last piece a command remakes manifests, checks digests, writes its status word and posts. -/
  | nmuCommandDone (addr : BitVec 48)
  /-- COW_WRITE_HOLD (R253): A write to an unpreserved watched frame is held while the old frame is copied to the pool. -/
  | cowWriteHold (addr : BitVec 48) (bytes : List (BitVec 8))
  /-- COW_COPY_DONE (R253): A preservation copy completes, the frame is marked preserved and the held write proceeds. -/
  | cowCopyDone (stack : Fin 16) (frame : Fin 8912896)
  /-- COW_STALL_RELEASE (R255): A stalled write proceeds when a pool frame is freed or ARMED is cleared. -/
  | cowStallRelease (stack : Fin 16)
  /-- DRAIN_FRAME_READ (R254): A drain read of a frame completes, the frontier advances and its pool copy is freed. -/
  | drainFrameRead (stack : Fin 16)
  /-- CKPT_CAPTURE_START (R271): At a capture sailing the device raises CKPT_CAPTURE, stops message starts and sends cut messages. -/
  | ckptCaptureStart (at_ : BitVec 40)
  /-- CKPT_READY (R293): A control core sets its READY bit once its state in HBM is consistent. -/
  | ckptReady (core : Fin 16)
  /-- CKPT_CAPTURE_POINT (R271): When all READY bits, cut messages and operation boundaries are in, copy-on-write arms and the image is written. -/
  | ckptCapturePoint
  /-- CKPT_IMAGE_WRITTEN (R271): The on-chip image is written, held writes are released, channels reopen and the drain starts. -/
  | ckptImageWritten (at_ : BitVec 40)
  /-- CKPT_CAPTURE_LATE (R271): The capture point is not reached by CAPTURE_US and the checkpoint is skipped. -/
  | ckptCaptureLate (at_ : BitVec 40)
  /-- DRAIN_FRAME_RECEIVE (R281): The buddy stores a received drain frame version in its DRAIN area. -/
  | drainFrameReceive (source : BitVec 64) (k : BitVec 48) (image : Bool) (stack : Fin 16) (frame : BitVec 28) (data : List (BitVec 8))
  /-- CKPT_COMMIT_RECORD (R283): The buddy writes the commit record after all pages programmed and the digest matched, then confirms. -/
  | ckptCommitRecord (source : BitVec 64) (rec_ : List (BitVec 8))
  /-- CKPT_CONFIRM (R283): The source receives the buddy's confirmation, clears ARMED and marks the checkpoint committed. -/
  | ckptConfirm (k : BitVec 48) (accepted : Bool)
  /-- CKPT_STALL_EXPIRE (R279): A write stalled for STALL_SAILINGS abandons the checkpoint. -/
  | ckptStallExpire
  /-- CKPT_DRAIN_EXPIRE (R279): A drain not committed within DRAIN_S seconds of C abandons the checkpoint. -/
  | ckptDrainExpire
  /-- CKPT_ABANDON (R279): A write of CKPT_CONTROL.ABANDON abandons the checkpoint in capture or drain. -/
  | ckptAbandon (agent : Agent)
  /-- CKPT_RESTORE (R285): A write of CKPT_CONTROL.RESTORE while STOPPED starts a device restore from the buddy. -/
  | ckptRestore (agent : Agent) (slotA slotB : List (BitVec 8))
  /-- CKPT_RESTORE_DONE (R285): The restored state is in place and the device enters RESUME_WAIT. -/
  | ckptRestoreDone (groups : List (List (BitVec 8)))
  /-- CKPT_RESUME (R286): At B(RESUME_AT) a restored device issues its carried slots and the captured timetable and raises CKPT_RESUMED. -/
  | ckptResume (alone : Bool) (telem : BitVec 64) (temp : BitVec 32)
  /-- TOK_OPEN (R301): Text command opening a stream for tokenising. -/
  | tokOpen (addr : BitVec 48)
  /-- TOK_FEED (R311): Text command tokenising a buffer of UTF-8 bytes into token IDs. -/
  | tokFeed (addr : BitVec 48)
  /-- DET_OPEN (R301): Text command opening a detokenising stream with optional stop set and grammar. -/
  | detOpen (addr : BitVec 48)
  /-- DET_PUSH (R314): Text command detokenising committed tokens and releasing safe bytes. -/
  | detPush (addr : BitVec 48)
  /-- DET_FINISH (R318): Text command ending a generation without a token. -/
  | detFinish (addr : BitVec 48)
  /-- TEXT_CLOSE (R301): Text command closing a stream. -/
  | textClose (addr : BitVec 48)
  /-- STOP_LOAD (R316): Text command loading a stop set into a slot. -/
  | stopLoad (addr : BitVec 48)
  /-- GRAM_MASK (R320): Text command writing the token mask of a grammar state. -/
  | gramMask (addr : BitVec 48)
  /-- GRAM_PEEK (R322): Text command reporting a grammar transition without changing any stream. -/
  | gramPeek (addr : BitVec 48)
  /-- TEXT_BAD_OP (R301): A text command with a reserved code ends BAD_OP. -/
  | textBadOp (addr : BitVec 48)
  /-- SAMPLE (R332): Sampler command drawing one token from a logits vector. -/
  | sample (addr : BitVec 48) (session : BitVec 64)
  /-- SAMP_COUNT (R331): Sampler command counting committed tokens in the request context. -/
  | sampCount (addr : BitVec 48)
  /-- SAMP_RESET (R330): Sampler command clearing the context's counts and sticky flags. -/
  | sampReset (addr : BitVec 48)
  /-- SAMP_BAD_OP (R329): A sampler command with a reserved code ends BAD_OP. -/
  | sampBadOp (addr : BitVec 48)
  /-- LOG_APPEND (R336): Seal engine command appending a chained entry to a session's replay log. -/
  | logAppend (addr : BitVec 48)
  /-- TICKET (R338): Seal engine command building a decision ticket and placing it in the current set. -/
  | ticket (addr : BitVec 48)
  /-- VERDICT (R344): Seal engine command issuing a verdict ticket on a replay. -/
  | verdict (addr : BitVec 48)
  /-- TENANT_REPORT (R521): Seal engine command writing a coarsened tenant report. -/
  | tenantReport (addr : BitVec 48) (power : BitVec 32) (milli : Fin 1000)
  /-- SEAL_BAD_OP (R346): A seal engine command with a reserved code ends BAD_OP. -/
  | sealBadOp (addr : BitVec 48)
  /-- RCL_CREATE (R368): Recall command installing a new index header. -/
  | rclCreate (addr : BitVec 48)
  /-- RCL_INSERT (R361): Recall command encoding a vector into the side list with the next ID. -/
  | rclInsert (addr : BitVec 48)
  /-- RCL_DELETE (R363): Recall command setting an item's tombstone bit. -/
  | rclDelete (addr : BitVec 48)
  /-- RCL_QUERY (R357): Recall command searching an index for the k nearest eligible items. -/
  | rclQuery (addr : BitVec 48)
  /-- RCL_QUERY_START (R365): A waiting query takes a context and table slot once one is free. -/
  | rclQueryStart (addr : BitVec 48)
  /-- RCL_QUERY_DONE (R368): A query ends and writes its ranked results with manifests. -/
  | rclQueryDone (addr : BitVec 48)
  /-- RCL_MERGE (R364): Recall command rebuilding the graph with repaired edges and merged side items. -/
  | rclMerge (addr : BitVec 48)
  /-- RCL_MERGE_DONE (R364): A merge completes once the last query begun before its switch ends. -/
  | rclMergeDone (index : BitVec 32)
  /-- RCL_DROP (R362): Recall command freeing an index after its running queries end. -/
  | rclDrop (addr : BitVec 48)
  /-- RCL_DROP_RESUME (R362): A waiting DROP proceeds when the last running query on the index ends. -/
  | rclDropResume (index : BitVec 32)
  /-- RCL_BAD_OP (R368): A recall command with a reserved code ends BAD_OP. -/
  | rclBadOp (addr : BitVec 48)
  /-- CHART_STAGE (R381): A write of CHART_STAGE.EPOCH checks and stages a chart, or rejects it. -/
  | chartStage (agent : Agent) (epoch : BitVec 32)
  /-- CHART_APPLY (R383): At B(EFFECTIVE) + 0.5 µs the staged chart becomes current and changed islands go LEAVING and FORMING. -/
  | chartApply
  /-- ISLAND_QUIET_RELEASE (R384): A LEAVING island found quiet at LATCH releases its granules. -/
  | islandQuietRelease (island : Fin 8)
  /-- ISLAND_ACTIVATE (R383): A FORMING island becomes ACTIVE at the first LATCH after all its granules are released and ready. -/
  | islandActivate (island : Fin 8) (powered : BitVec 8)
  /-- LEAVE_TIMEOUT (R386): An island still LEAVING after LEAVE_LIMIT sailings is ended by force. -/
  | leaveTimeout (island : Fin 8)
  /-- EPOCH_RETIRE (R389): The previous epoch retires when nothing drains and GRACE has passed, and a notice is sent. -/
  | epochRetire
  /-- MCT_ACK (R409): An ACK packet updates the reverse channel's acknowledgement, SACK and credit. -/
  | mctAck (src : BitVec 64) (hdr : BitVec 512) (payload : List (BitVec 8)) (ce secure : Bool) (at_ : BitVec 40)
  /-- MCT_REQUEST (R388): A REQUEST message is delivered, forwarded or answered according to its epoch and target island. -/
  | mctRequest (src : BitVec 64) (hdr : BitVec 512) (payload : List (BitVec 8)) (ce secure : Bool) (at_ : BitVec 40)
  /-- MCT_RESPONSE (R408): A RESPONSE message completes or ends the origin's operation by its status. -/
  | mctResponse (src : BitVec 64) (hdr : BitVec 512) (payload : List (BitVec 8)) (ce secure : Bool) (at_ : BitVec 40)
  /-- TILE_HALF (R407): A tile half arrives and, with both halves in, the tile is checked against its manifest. -/
  | tileHalf (src : BitVec 64) (hdr : BitVec 512) (payload : List (BitVec 8)) (ce secure : Bool) (at_ : BitVec 40)
  /-- PEER_READ (R407): A peer read request is answered with TILE_HALF packets from the receive window. -/
  | peerRead (src : BitVec 64) (hdr : BitVec 512) (payload : List (BitVec 8)) (ce secure : Bool) (at_ : BitVec 40)
  /-- SPEC_COMMIT (R417): Staged results of a tag are released for the accepted count. -/
  | specCommit (src : BitVec 64) (hdr : BitVec 512) (payload : List (BitVec 8)) (ce secure : Bool) (at_ : BitVec 40)
  /-- SPEC_CANCEL (R417): Staged results of a tag are discarded. -/
  | specCancel (src : BitVec 64) (hdr : BitVec 512) (payload : List (BitVec 8)) (ce secure : Bool) (at_ : BitVec 40)
  /-- CUT (R271): A checkpoint cut message from a crew peer arrives. -/
  | cut (src : BitVec 64) (hdr : BitVec 512) (payload : List (BitVec 8)) (ce secure : Bool) (at_ : BitVec 40)
  /-- RETIRE (R389): An epoch retirement notice travels to the chart service. -/
  | retire
  /-- CREDIT_REQ (R413): A credit request asks the receiver to advertise more packets on a channel. -/
  | creditReq (src : BitVec 64) (hdr : BitVec 512) (payload : List (BitVec 8)) (ce secure : Bool) (at_ : BitVec 40)
  /-- CROSS_BEGIN (R420): The destination HOME receives a crossing offer and answers after CROSS_IN. -/
  | crossBegin (src : BitVec 64) (hdr : BitVec 512) (payload : List (BitVec 8)) (ce secure : Bool) (at_ : BitVec 40)
  /-- CROSS_READY (R420): The source receives the destination's readiness and orders the share transfers. -/
  | crossReady (src : BitVec 64) (hdr : BitVec 512) (payload : List (BitVec 8)) (ce secure : Bool) (at_ : BitVec 40)
  /-- CROSS_HELD (R420): The source receives confirmation that every share arrived and passes the handover point. -/
  | crossHeld (src : BitVec 64) (hdr : BitVec 512) (payload : List (BitVec 8)) (ce secure : Bool) (at_ : BitVec 40)
  /-- CROSS_COMMIT (R420): The destination receives the commit and completes the crossing as handed over. -/
  | crossCommit (src : BitVec 64) (hdr : BitVec 512) (payload : List (BitVec 8)) (ce secure : Bool) (at_ : BitVec 40)
  /-- CROSS_ABORT (R420): A side receives an abort and ends the crossing as aborted. -/
  | crossAbort (src : BitVec 64) (hdr : BitVec 512) (payload : List (BitVec 8)) (ce secure : Bool) (at_ : BitVec 40)
  /-- CROSS_ASK (R421): A side asks the other for the outcome of a crossing it does not know. -/
  | crossAsk (src : BitVec 64) (hdr : BitVec 512) (payload : List (BitVec 8)) (ce secure : Bool) (at_ : BitVec 40)
  /-- CROSS_TELL (R421): The asking side receives the outcome and posts CROSS_DONE accordingly. -/
  | crossTell (src : BitVec 64) (hdr : BitVec 512) (payload : List (BitVec 8)) (ce secure : Bool) (at_ : BitVec 40)
  /-- MCT_BAD_PACKET (R406): A packet with a reserved bit, bad version, reserved type or failed authentication is dropped. -/
  | mctBadPacket (hdr : BitVec 512) (secure : Bool)
  /-- MCT_RTO (R409): An unacknowledged packet's retransmission timeout expires and it is retransmitted. -/
  | mctRto (peer : BitVec 64) (vc : Fin 5) (seq : BitVec 32) (at_ : BitVec 40)
  /-- MCT_ACK_TIMER (R409): After 2 µs without reverse traffic the receiver sends an ACK packet. -/
  | mctAckTimer (peer : BitVec 64) (vc : Fin 5) (at_ : BitVec 40)
  /-- CROSS_WAIT_EXPIRE (R420): A crossing waiting longer than WAIT sailings for READY or HELD is aborted. -/
  | crossWaitExpire (session : BitVec 64) (at_ : BitVec 40)
  /-- CROSS_GRANT (R422): At LATCH a destination grants waiting crossings in ascending session ID order. -/
  | crossGrant (at_ : BitVec 40)
  /-- CROSS_OUTCOME_EXPIRE (R421): A crossing outcome kept KEEP_S seconds is removed from the outcome table. -/
  | crossOutcomeExpire (session : BitVec 64)
  /-- FAB_LANE_EVENT (R542): A fabric lane loses lock or exceeds the FEC error rate and its port retrains or narrows. -/
  | fabLaneEvent (lane : Fin 32) (lostLock : Bool) (frames : BitVec 32) (failed : Fin 16)
  /-- PORT_TRAIN_DONE (R400): A fabric port finishes training or retraining at its width and goes UP. -/
  | portTrainDone (port : Fin 32) (at_ : BitVec 40)
  /-- FEC_FRAME_DROP (R398): A frame with an uncorrectable FEC codeword is dropped and counted. -/
  | fecFrameDrop
  /-- PAUSE_FRAME (R399): A received PAUSE or PFC frame is ignored and counted. -/
  | pauseFrame
  /-- EGRESS_ENQUEUE (R433): A frame descriptor enters its class queue, or is held at its source when the queue is full. -/
  | egressEnqueue (source : EgressSource) (at_ : BitVec 40)
  /-- EGRESS_SOURCE_RESUME (R433): A frame held at its source enters its queue when room appears. -/
  | egressSourceResume (queue : Fin 256) (at_ : BitVec 40)
  /-- FRAME_TX_DONE (R435): A port finishes sending a frame and the scheduler picks the next. -/
  | frameTxDone (port : Fin 32) (at_ : BitVec 40)
  /-- GATE_CHANGE (R438): A gate control list entry ends and the next entry's gates take effect. -/
  | gateChange (port : Fin 32) (at_ : BitVec 40)
  /-- SHAPER_CREDIT_ZERO (R437): A queue's shaper credit reaches 0 and its head becomes eligible. -/
  | shaperCreditZero (queue : Fin 256) (at_ : BitVec 40)
  /-- HOST_TURN (R562): A TURN request entry is taken from a host ring and its turn begins. -/
  | hostTurn (ring : Fin 64)
  /-- HOST_CANCEL (R562): A CANCEL request ends a named request at its next step boundary. -/
  | hostCancel (ring : Fin 64)
  /-- HOST_CONTROL (R562): A CONTROL request carries one directory command from the host. -/
  | hostControl (ring : Fin 64)
  /-- HOST_REPLAY (R562): A REPLAY request runs logged turns of a sealed bundle in replay mode. -/
  | hostReplay (ring : Fin 64)
  /-- CQ_ENTRY_WRITE (R459): A completion entry is written to a host completion ring once it has space. -/
  | cqEntryWrite (ring : Fin 64) (kind : BitVec 8) (tag : BitVec 32) (session offset : BitVec 64) (place : BitVec 32) (data : List (BitVec 8))
  /-- CQ_STALL_TIMEOUT (R460): A completion waiting LIMIT_US for ring space sends vector 2 and is recorded. -/
  | cqStallTimeout (ring : Fin 64)
  /-- RING_FAIL_TIMEOUT (R460): A completion waiting FAIL_MS fails the ring and ends its open requests. -/
  | ringFailTimeout (ring : Fin 64)
  /-- RING_ENABLE (R460): A ring enabled at a boundary is checked and starts taking entries from SEQ 1. -/
  | ringEnable (ring : Fin 64)
  /-- RING_DISABLE (R460): A ring disabled at a boundary takes no entries and quiesces after its last DONE. -/
  | ringDisable (ring : Fin 64)
  /-- WIN_LOST (R462): Setting LOST on a window makes every moored image in it lost. -/
  | winLost (window : Fin 80)
  /-- WIN_DRAIN (R462): Setting DRAIN on a MOOR window lays up its images until it is empty. -/
  | winDrain (window : Fin 80)
  /-- HOST_LINK_EVENT (R542): A host link goes down or reports a timeout or poison and retrains, or is retired on recurrence. -/
  | hostLinkEvent (link : Fin 2) (exhausted : Bool)
  /-- MSIX_UNMASK (R463): Unmasking an MSI-X vector with its pending bit set sends it once. -/
  | msixUnmask (vector : Fin 72)
  /-- COLD_RESET (R472): SYS_RESET_N low resets every block. -/
  | coldReset
  /-- WARM_RESET (R472): PERST_A, a hot reset on link A or CFG_CONTROL.RESET resets the device keeping HBM training values. -/
  | warmReset
  /-- LINK_B_RESET (R472): PERST_B or a hot reset on link B resets link B only. -/
  | linkBReset
  /-- RESET_RELEASE (R473): Release of reset starts the ROM stage, fuse sensing, link and HBM training. -/
  | resetRelease (straps : BitVec 7) (check : BitVec 16)
  /-- CONFIG_IMAGE_SELECT (R479): Both copies' headers and signatures are verified and a candidate copy is chosen, or RECOVERY entered. -/
  | configImageSelect
  /-- CONFIG_SECTIONS_READ (R479): The chosen copy's sections have been read and checked, falling back to the other copy on failure. -/
  | configSectionsRead
  /-- HBM_TRAIN_DONE (R473): HBM training completes, or a stack failing twice stops start-up. -/
  | hbmTrainDone (stack : Fin 16) (ok : Bool)
  /-- MEMORY_ZERO_DONE (R473): Zeroing of all HBM completes and the flash SYSTEM area is read. -/
  | memoryZeroDone (parametersOk : Bool)
  /-- PACKAGE_FETCH_START (R487): With a current chart and a source, the device starts fetching the model package sections its islands need. -/
  | packageFetchStart (sent : List (BitVec 8))
  /-- PACKAGE_SECTION_LAND (R489): A package section lands and is hashed, refetched once on failure, or stops start-up. -/
  | packageSectionLand (type : BitVec 16) (index : BitVec 32) (sent : List (BitVec 8))
  /-- PACKAGE_WAIT_EXPIRE (R488): No package source answers within WAIT_S and start-up stops. -/
  | packageWaitExpire (seconds : BitVec 32)
  /-- FUSE_ADVANCE (R494): Limited-change advances the image asks for are burned and read back before the first sailing. -/
  | fuseAdvance (day : BitVec 24) (good : BitVec 8)
  /-- FIRST_SAILING (R491): The first sailing starts at the boundary after time is ready, and MAPPED flash becomes releasable. -/
  | firstSailing (n : BitVec 48) (telem : BitVec 64) (temp : BitVec 32)
  /-- CFG_GO (R491): A write of CFG_CONTROL.GO in HELD starts the first sailing at the next boundary. -/
  | cfgGo (agent : Agent)
  /-- RECOVERY_IMAGE (R480): In RECOVERY an image received over MCTP is checked and written over a failed copy. -/
  | recoveryImage (image : List (BitVec 8))
  /-- PLDM_UPDATE (R513): A configuration image delivered by PLDM is checked and written to the unchosen copy. -/
  | pldmUpdate (image : List (BitVec 8))
  /-- PKG_FETCH (R490): A write of CFG_PKG_FETCH fetches and checks a package section for a newly formed island. -/
  | pkgFetch (agent : Agent) (type : BitVec 16) (index : BitVec 32)
  /-- SPDM_GET_MEASUREMENTS (R510): An SPDM measurement request is answered with the measurement blocks and countersignature. -/
  | spdmGetMeasurements (index : BitVec 8) (nonce : BitVec 256)
  /-- SPDM_GET_CERTIFICATE (R508): An SPDM certificate request returns a certificate chain from the store. -/
  | spdmGetCertificate (slot : BitVec 4) (offset length : BitVec 16)
  /-- SPDM_CHALLENGE (R509): An SPDM challenge is answered with an identity signature. -/
  | spdmChallenge (nonce : BitVec 256)
  /-- SPDM_KEY_EXCHANGE (R509): An SPDM key exchange opens a secured session. -/
  | spdmKeyExchange (session : BitVec 32) (authenticated : Bool) (root : List (BitVec 8))
  /-- KEY_LOAD (R512): A key-load request in an authenticated session loads or erases a CAK or job key. -/
  | keyLoad (session : BitVec 32) (job : Bool) (slot : BitVec 8) (key : BitVec 256) (peer : BitVec 64) (name : BitVec 256)
  /-- KEY_GRACE_EXPIRE (R512): Sixteen sailings after a key change the slot's previous job key is no longer accepted. -/
  | keyGraceExpire (slot : BitVec 8)
  /-- DRBG_RESEED (R506): After 2^20 requests the DRBG is reseeded from the entropy source. -/
  | drbgReseed
  /-- SEC_ENTROPY_FAIL (R506): An entropy health-test failure is recorded and random-dependent work waits. -/
  | secEntropyFail
  /-- ENTROPY_PASS (R506): The entropy source passes again and waiting admissions, seals and signatures resume. -/
  | entropyPass
  /-- HBM_SCRUB (R534): A paced scrub read checks an HBM line. -/
  | hbmScrub (addr : BitVec 48) (row : BitVec 24) (found : Option (Fin 16))
  /-- SRAM_SCRUB (R534): A paced scrub read checks an SRAM word. -/
  | sramScrub (word : SramWord) (found : Option Bool)
  /-- HBM_LINE_ERROR (R542): An HBM read finds a corrected or uncorrectable line and retries, records and may remap or retire. -/
  | hbmLineError (addr : BitVec 48) (row : BitVec 24) (read : LineRead)
  /-- PC_RETIRE_DONE (R544): The last unit of a retired pseudo-channel has been remapped or retired. -/
  | pcRetireDone (pc : Fin 512)
  /-- ROW_REMAP_DONE (R543): A row's readable lines are copied to a spare row and its addresses redirected. -/
  | rowRemapDone (pc : Fin 512) (row : BitVec 24)
  /-- HBM_PC_FAULT (R542): A command, parity or training failure of a pseudo-channel is retrained or retires it. -/
  | hbmPcFault (pc : Fin 512) (failed : Fin 16)
  /-- SRAM_WORD_ERROR (R533): An SRAM word is corrected in place, or an uncorrectable word ends its tile or transfer. -/
  | sramWordError (word : SramWord) (uncorrectable : Bool)
  /-- FERRY_PARITY_FAULT (R547): A ferry engine parity fault, on recurrence, retires the ferry and ends its transfers. -/
  | ferryParityFault (ferry : Fin 32)
  /-- CAUSEWAY_LANE_EVENT (R545): Excess flit replays on a causeway lane retrain it or substitute a spare. -/
  | causewayLaneEvent (group : Fin 32) (lane : Fin 100) (replays : BitVec 16) (failed : Fin 16)
  /-- SPARE_LANE_DONE (R545): A spare causeway lane takes over a retired lane and in-flight traffic is replayed. -/
  | spareLaneDone (group : Fin 32)
  /-- DOMAIN_SETTLE (R539): SETTLE sailings after its action completes, a domain leaves recovery. -/
  | domainSettle (dtype : Fin 16) (index : BitVec 16)
  /-- ERR_POP (R538): A management write of ERR_POP removes the oldest queued error record. -/
  | errPop (agent : Agent)
  /-- IRQ_CLAIM (R564): A core's read of IRQ_CLAIM returns and clears its lowest qualifying pending source. -/
  | irqClaim (agent : Agent) (core : Fin 16)
  /-- IRQ_MASK_WRITE (R564): A write of an interrupt source's MASK takes effect when the controller observes it. -/
  | irqMaskWrite (agent : Agent) (source : Fin 69) (mask : Bool)
  /-- IRQ_END (R561): A write of IRQ_END ends an open host request with a DONE entry. -/
  | irqEnd (agent : Agent) (core : Fin 16) (value : BitVec 64)
  /-- CQ_RECORD_WRITE (R560): A unit writes a completion record to a core's completion queue once it has space. -/
  | cqRecordWrite (core : Fin 16)
  /-- BOLL_POST (R568): Counts posted to a bollard are applied and waiting takers are granted in list order. -/
  | bollPost (agent : Agent) (value : BitVec 32)
  /-- BOLL_WAIT_JOIN (R577): A control core joins a bollard's wait list. -/
  | bollWaitJoin (agent : Agent) (core : Fin 16) (index : BitVec 15)
  /-- BOLL_WAIT_CANCEL (R571): A control core leaves the wait list without taking a count. -/
  | bollWaitCancel (agent : Agent) (core : Fin 16) (index : BitVec 15)
  /-- BOLL_COUNT_WRITE (R577): A write of BOLL_COUNT sets a bollard's count at step 2 of the cycle. -/
  | bollCountWrite (agent : Agent) (bollard : BitVec 15) (count : BitVec 16)
  /-- WATCH_ACK_DEADLINE (R565): At B(n) + ACK_US a core that has not claimed SAIL_START has missed the sailing. -/
  | watchAckDeadline (core : Fin 16)
  /-- WATCH_KICK (R565): A core writes SAIL_WATCH_KICK to meet its sailing deadline. -/
  | watchKick (core : Fin 16)
  /-- WATCH_KICK_DEADLINE (R566): At the start of CLOSE the watch acts on cores that missed the sailing. -/
  | watchKickDeadline
  /-- WATCH_CORE_RESTART (R566): A reset control core restarts at its firmware entry. -/
  | watchCoreRestart (core : Fin 16)
  /-- ISLAND_POWER_OFF (R581): An idle island with a long enough gap saves its banks and enters POWER_OFF. -/
  | islandPowerOff (island : Fin 8) (at_ : BitVec 40)
  /-- ISLAND_WAKE (R582): A known or unknown event starts an island's exit from POWER_OFF. -/
  | islandWake (island : Fin 8) (known : Bool)
  /-- ISLAND_WAKE_DONE (R580): An island's banks and state are restored and it is back in RUN. -/
  | islandWakeDone (island : Fin 8)
  /-- CLOCK_GATE (R581): A unit enters the deepest clock-gated or retention state its gap to the next known event allows. -/
  | clockGate (unit : GatedUnit) (gap : BitVec 32)
  /-- THROTTLE_STEP (R585): While a safety limit holds the clock is lowered one step every 20 µs. -/
  | throttleStep (sensors : Sensors)
  /-- LIMIT_RELEASE (R586): After a full sailing below release levels the limit clears and the governor climbs back. -/
  | limitRelease (sensors : Sensors)
  /-- POWER_TRIP (R587): A trip level is reached, TRIP_N and FATAL_N are asserted and the device is FATAL. -/
  | powerTrip (sensors : Sensors)
  /-- REGISTER_WRITE (R483): A write to a register without its own behaviour takes effect by the field's access class. -/
  | registerWrite (agent : Agent) (place : WritePlace) (width : BitVec 4) (value : BitVec 64)
  /-- REF10M_RETURN (R12): The 10 MHz reference returns after a loss and again becomes the frequency source of the device clocks and of HOLDOVER. -/
  | ref10mReturn
  /-- HOST_LINK_TRAIN_DONE (R451): A PCI Express (or CXL) link finishes training at its rate and width and the host port begins answering configuration requests on it. -/
  | hostLinkTrainDone (link : Fin 2) (rate : BitVec 4) (width : BitVec 5) (cxl : Bool)
  /-- MKPDU_RECEIVE (R512): An MKA protocol data unit from a peer is received and processed to agree and install MACsec secure association keys under a loaded CAK. -/
  | mkpduReceive (slot : BitVec 8) (pdu : List (BitVec 8))
  /-- SPDM_END_SESSION (R509): An SPDM secured session, such as that with the key service, is ended and SEC_STATUS.KEYSVC_SESSION clears. -/
  | spdmEndSession (session : BitVec 32)
  /-- VOLTAGE_LOOP_ADJUST (R584): The adaptive voltage loop moves the core-rail set point within the current step's band from the on-die path monitors. -/
  | voltageLoopAdjust (mv : BitVec 10)
  /-- CXL_MEM_STORE (R471): A host store through the CXL.mem decoder completes, is dropped and is counted in HOST_WRITE_DENIED_COUNT. -/
  | cxlMemStore (offset : BitVec 37)
  /-- DEBUG_TAP_INSTRUCTION (R616): An IEEE 1149.1 instruction shifted in on the DBG_ pins runs boundary scan, or debug access while the debug lock is open. -/
  | debugTapInstruction (debug : Bool)
  deriving DecidableEq, Repr

end Sys2Proof
end

