-- ==== Sys2Proof/Decode.lean ====
section
/-! DEFINITION. Command words. The device is a block that takes commands; spec/opcode_table.json gives no row any bits, so
no word spells a command. -/

namespace Sys2Proof

/-- The command that a word of the opcode table's bits spells: no row has bits, so none. -/
def decodeTableWord (_nbits _w : Nat) : Option Instr := none

end Sys2Proof
end

