-- ==== Sys2Proof/Config.lean ====
section
/-! DEFINITION. What the spec leaves open: free values (opaque constants with no body, applied to a counter of State
or to the operands they depend on), and the cryptographic functions that the spec takes from other standards.
Nothing can be proved about the value of any of them, so a claim about the model holds whatever they are. -/

namespace Sys2Proof

/-- A stack's share of the on-chip image of a checkpoint: the spec lays out neither it nor the state record (R277,
assumption 6); the arguments are State's counter of free values and the stack. -/
opaque Config.imageShare : Nat → Nat → List Byte

/-- A byte the spec leaves undefined (assumption 3); the argument is State's counter of free values. -/
opaque Config.freeByte : Nat → Byte

/-- A 64-bit value the spec leaves open (assumption 3); the argument is State's counter of free values. -/
opaque Config.freeWord : Nat → BitVec 64

/-- The 64-bit RESULT word of a completion that reports several values: the values packed in the order named, in a
way the spec does not give (R560, assumption 3); the first argument is SOURCE. -/
opaque Config.packResults : Nat → List Nat → BitVec 64

/-- A field of a record whose layout the spec does not give (assumption 6): which kind of record, its bytes, which
field. -/
opaque Config.field : Nat → List Byte → Nat → Nat

/-- A record of such a kind parses (assumption 6). -/
opaque Config.parses : Nat → List Byte → Bool

/-- A part of such a record that is bytes (assumption 6). -/
opaque Config.part : Nat → List Byte → Nat → List Byte

/-- The bytes of a record of such a kind from its parts (assumption 6). -/
opaque Config.layout : Nat → List (List Byte) → List Byte

/-- HKDF with SHA-384 of input key material, salt and info (R505, assumption 4). -/
opaque Config.hkdf : List Byte → List Byte → List Byte → BitVec 512

/-- The STATUS byte of an operation ended by the transport, whose coding the spec does not give (R560, assumption 3):
0 CHART_MOVED, 1 MCT_PEER_LOST, 2 MCT_NO_CHANNEL. -/
opaque Config.mctStatus : Nat → BitVec 8

/-- floor of a number that is none, which R354 does not give (assumption 134); the argument is the number's bits. -/
opaque Config.floorNan : BitVec 32 → Nat

/-- The closest of a list of IDs to an item whose distance table is not finite, which R364 does not give
(assumption 134): how many, and the IDs. -/
opaque Config.closestOpen : Nat → List Nat → List Nat

/-- SHA-384 of a byte string: 48 bytes (assumption 4). -/
opaque Config.sha384 : List Byte → BitVec 384

/-- Ed25519 verification by RFC 8032: public key, message, signature (assumption 4). -/
opaque Config.ed25519Verify : List Byte → List Byte → List Byte → Bool

/-- ML-DSA-65 verification by FIPS 204 with an empty context string (assumption 4). -/
opaque Config.mldsaVerify : List Byte → List Byte → List Byte → Bool

/-- Ed25519 signature with the private key of a seed over a message (assumption 4). -/
opaque Config.ed25519Sign : List Byte → List Byte → BitVec 512

/-- Hedged ML-DSA-65 signature, 3,309 bytes, with the private key of a seed over a message, with a random value
(R507, assumption 4). -/
opaque Config.mldsaSign : List Byte → List Byte → BitVec 256 → BitVec 26472

/-- The AES-256-GCM key stream of a key and nonce, by byte (assumption 4). -/
opaque Config.gcmStream : List Byte → List Byte → Nat → Byte

/-- AES-256-GCM tag: key, nonce, additional data, ciphertext (assumption 4). -/
opaque Config.gcmTag : List Byte → List Byte → List Byte → List Byte → BitVec 128

/-- HKDF with SHA-384 from the device unique key (0) or the fleet archive root (1), with a salt and an info string:
512 bits, of which a 32-byte key takes the low 256 (R503, R505, assumption 4). -/
opaque Config.deriveKey : Nat → List Byte → List Byte → BitVec 512

/-- The Ed25519 public key of a 32-byte seed (assumption 4). -/
opaque Config.ed25519Public : List Byte → BitVec 256

/-- The ML-DSA-65 public key, 1,952 bytes, of a 32-byte seed (assumption 4). -/
opaque Config.mldsaPublic : List Byte → BitVec 15616

/-- AES-256 under a 32-byte key, as a permutation of 16-byte blocks taken as little-endian numbers (R187,
assumption 4). -/
opaque Config.aes256 : List Byte → Equiv.Perm (BitVec 128)

/-- The 384 bytes of LDPC parity over the data and metadata of a codeword; the spec gives no matrix (R209,
assumption 4). -/
opaque Config.ldpcParity : List Byte → BitVec 3072

/-- The factory mark of a block of the board's NAND, by LUN, plane and block number (R230, assumption 3). -/
opaque Config.factoryBad : Nat → Bool

/-- An MKA protocol data unit passes its integrity check under a CAK and its name, and announces a key (R512,
assumption 4). -/
opaque Config.mkaValid : BitVec 256 → Nat → List Byte → Bool

/-- The secure association key that MKA derives from a CAK and an announcement (R512, assumption 4). -/
opaque Config.mkaSak : BitVec 256 → List Byte → BitVec 256

/-- Bytes of the configuration store, 64 to 512 MiB, as SFDP reports them (R475). -/
opaque Config.norBytes : Nat

/-- The SHA-384 of the ROM code (R510, assumption 4). -/
opaque Config.romDigest : BitVec 384

/-- An EXPERT island whose first expert index is the first argument holds the expert of the second; the spec gives only
the first (R377, R487, assumption 3). Expert 255 is the shared expert, which the model package places. -/
opaque Config.holdsExpert : Nat → Nat → Bool

/-- A draw of the device's DRBG; the argument is State's counter of free values (assumption 4). -/
opaque Config.drbg : Nat → BitVec 256

end Sys2Proof
end

