-- ==== Sys2Proof/Machine/SMap.lean ====
section
/-! DEFINITION. Sparse maps from a number to a value, in one canonical form: keys strictly rising, and no entry
equal to what an unlisted key reads as. Memories, the register file and the tables of the device are such maps, so
that equal contents are equal data. What an unlisted key reads as is the argument `d`. -/

namespace Sys2Proof

/-- A sparse map. -/
abbrev SMap (α : Type) := List (Nat × α)

/-- The value at a key; an unlisted key reads as `d k`. -/
def SMap.get (d : Nat → α) : SMap α → Nat → α
  | [], k => d k
  | (k', v) :: m, k => if k' = k then v else SMap.get d m k

/-- Insert or replace, keeping the keys rising. -/
def SMap.set : SMap α → Nat → α → SMap α
  | [], k, v => [(k, v)]
  | (k', v') :: m, k, v =>
    if k < k' then (k, v) :: (k', v') :: m
    else if k = k' then (k, v) :: m
    else (k', v') :: SMap.set m k v

/-- Remove a key. -/
def SMap.del (m : SMap α) (k : Nat) : SMap α := m.filter fun e => e.1 ≠ k

/-- Write a value: the value an unlisted key reads as removes the entry. -/
def SMap.put [DecidableEq α] (d : Nat → α) (m : SMap α) (k : Nat) (v : α) : SMap α :=
  if v = d k then m.del k else m.set k v

/-- Write a list of values at consecutive keys. -/
def SMap.putList [DecidableEq α] (d : Nat → α) (m : SMap α) (k : Nat) : List α → SMap α
  | [] => m
  | v :: vs => SMap.putList d (m.put d k v) (k + 1) vs

/-- The values at `n` consecutive keys. -/
def SMap.getList (d : Nat → α) (m : SMap α) (k : Nat) : Nat → List α
  | 0 => []
  | n + 1 => m.get d k :: SMap.getList d m (k + 1) n

/-- Keys strictly rising from a bound. -/
def SMap.sortedFrom : Nat → SMap α → Bool
  | _, [] => true
  | lo, (k, _) :: m => decide (lo ≤ k) && SMap.sortedFrom (k + 1) m

/-- The canonical form: keys strictly rising, no entry equal to what an unlisted key reads as. -/
def SMap.wf [DecidableEq α] (d : Nat → α) (m : SMap α) : Bool :=
  SMap.sortedFrom 0 m && m.all fun e => decide (e.2 ≠ d e.1)

/-- The value at a key of a map whose absent entries are absent things. -/
def SMap.find (m : SMap α) (k : Nat) : Option α :=
  match m with
  | [] => none
  | (k', v) :: m => if k' = k then some v else SMap.find m k

end Sys2Proof
end

