-- ==== Sys2Proof/Machine/State.lean ====
section
/-! DEFINITION. The state of the device: everything the spec gives it, as plain data. Registers and counters stand
in the register file, which is their one home; memories are sparse maps in canonical form; what a unit holds besides
its registers stands in that unit's structure. -/

namespace Sys2Proof.Machine

/-- Why a step stops with a fault. -/
inductive Fault where
  /-- Raised by DEBUG_TAP_INSTRUCTION when a debug access instruction is shifted in while the debug lock is open:
  the spec says that it is decoded and gives it no effect (R522, R616). Safe: the machine stops where the device
  would go on. -/
  | debugAccess
  deriving DecidableEq, Repr

/-- Why a step is refused. -/
inductive Refusal where
  /-- Raised by a dispatch arm whose command has no meaning yet. Safe. -/
  | notModelled (mnemonic : String)
  deriving DecidableEq, Repr

/-! ### Sailings -/

/-- A timetable slot waiting to issue (R19): its 16 bytes, the device address it was read from, whether it came from
the carry queue (R24), whether it stands in its bollard's list and whether its count was taken (R20), and whether a
hazard stall was counted for it (R90). -/
structure SlotItem where
  word : BitVec 128
  addr : Nat
  carried : Bool := false
  joined : Bool := false
  granted : Bool := false
  stalled : Bool := false
  /-- The slot could not be read (R622). -/
  bad : Bool := false
  deriving DecidableEq, Repr

/-- What the sailing unit holds besides its registers. -/
structure SailState where
  /-- TARGET of the most recent commit since the last deadline (R21). -/
  commit : Option Nat := none
  /-- The commit passed its checks: the next sailing runs its timetable (R21). -/
  accepted : Bool := false
  /-- Per core, the slots not yet issued in this sailing, carried ones first (R24). -/
  items : SMap (List SlotItem) := []
  /-- Per core, the carry queue for the next sailing (R23, R24). -/
  carry : SMap (List SlotItem) := []
  /-- Cores whose LATCH work waits for a tile that overran (R25). -/
  late : SMap Bool := []
  /-- A sailing has run since reset (R14, R15). -/
  ran : Bool := false
  /-- A PTP message has been accepted since reset (R12, R16). -/
  ptpSeen : Bool := false
  /-- Consecutive measurements within ±50 ns of PTP (R12). -/
  ptpGood : Nat := 0
  /-- The TAI second that the next 1PPS edge marks (R16). -/
  taiNext : Option Nat := none
  /-- An edge was taken as the start of a second (R16). -/
  taiSet : Bool := false
  /-- Consecutive 1PPS edges within ±50 ns of a second boundary (R16). -/
  ppsGood : Nat := 0
  /-- 1PPS is present (R12, R615). -/
  ppsPresent : Bool := false
  /-- The 10 MHz reference is present; it is stable before reset is released (R473, R614). -/
  refPresent : Bool := true
  /-- The offset that slewing still has to take out, in ns (R14). -/
  slew : Int := 0
  /-- The local TAI clock before the first sailing, in ns since the PTP epoch, as the last message or edge set it (R14,
  R16); from the first sailing on the clock is that of the sailing's boundary (R10). -/
  clock : Int := 0
  deriving DecidableEq, Repr

/-! ### State processing cores -/

/-- A tile in flight on a path (R65): its descriptor, where it was read, the window descriptors captured at issue
(R86), whether it has run, and the status and reason it ends with (R74, R89). -/
structure Flight where
  desc : BitVec 512
  addr : Nat
  wins : List (BitVec 64)
  ran : Bool := false
  status : Nat := 0
  reason : Nat := 0
  deriving DecidableEq, Repr

/-- What the cores hold besides their registers and local stores. -/
structure CoreState where
  /-- Tiles in flight, by 3 × core + path. -/
  flights : SMap (Option Flight) := []
  /-- AUTO banks in retention, by 48 × core + bank (R85). -/
  retained : SMap Bool := []
  /-- Banks being zeroed after leaving OFF (R85). -/
  zeroing : SMap Bool := []
  /-- Bank mode changes that wait for a ferry transfer to the bank (R85): 48 × core + bank to mode. -/
  waiting : SMap (Option Nat) := []
  deriving DecidableEq, Repr

/-! ### Errors -/

/-- An error record (R536), field by field. -/
structure ErrRec where
  seq : Nat
  sailing : Nat
  code : Nat
  severity : Nat
  depth : Nat
  escalated : Bool
  dtype : Nat
  dindex : Nat
  action : Nat
  session : Nat
  tag : Nat
  address : Nat
  detail : Nat
  deriving DecidableEq, Repr

/-- A containment domain's recovery (R539, R540): errors seen under it (0: not under recovery), its severity,
whether an action is still running, and the sailing at which it leaves recovery. -/
structure Domain where
  depth : Nat := 0
  severity : Nat := 0
  busy : Bool := false
  settleAt : Nat := 0
  deriving DecidableEq, Repr

/-- A fault event kept for the recurrence rule of R542: where it struck and in which sailing. -/
structure FaultNote where
  dtype : Nat
  dindex : Nat
  place : Nat
  sailing : Nat
  deriving DecidableEq, Repr

/-- What the error unit holds besides its registers. -/
structure ErrState where
  /-- Records written since reset (SEQ of R536). -/
  seq : Nat := 0
  /-- Unpopped records, oldest first, at most 64 (R538). -/
  queue : List ErrRec := []
  /-- Domains, by 65536 × type + index (R539). -/
  domains : SMap Domain := []
  /-- Fault events for R542. -/
  notes : List FaultNote := []
  /-- Retired domains, by 65536 × type + index (R542, R549). -/
  retired : SMap Bool := []
  /-- Domains retired by the command that runs, whose retirement has not been carried out yet (R544 to R548). -/
  todo : List Nat := []
  /-- Rows redirected to spare rows, by 2^24 × pseudo-channel + row: 1 while the row is copied, 2 once its addresses
  are redirected (R543). -/
  rows : SMap Nat := []
  /-- How many units of a retired pseudo-channel were remapped to pool frames, in ascending order; the others are
  retired with their contents (R544). -/
  moved : SMap Nat := []
  deriving DecidableEq, Repr

/-! ### Interrupts, completion queues and bollards -/

/-- A completion record waiting for its queue (R560). -/
structure CqRec where
  core : Nat
  source : Nat
  status : Nat
  index : Nat
  tag : Nat
  sailing : Nat
  result : Nat
  /-- Counted by IRQ_CQ_FULL_COUNT (once per hold). -/
  held : Bool := false
  deriving DecidableEq, Repr

/-- A taker in a bollard's wait list (R568). -/
inductive Taker where
  | slot (core : Nat)
  | ferry (ferry : Nat) (transfer : Nat)
  | control (core : Nat)
  deriving DecidableEq, Repr

/-- What the interrupt controller, the watch and the bollards hold besides their registers. -/
structure IrqState where
  /-- Completion records not yet written, oldest first. -/
  waiting : List CqRec := []
  /-- Wait lists, by bollard, head first (R570). -/
  lists : SMap (List Taker) := []
  /-- Ferry transfers whose bollard count was granted and that have not begun, by 2^20 × ferry + transfer. -/
  ferryGrants : SMap Bool := []
  /-- Cores that claimed SAIL_START in this sailing (R565). -/
  claimed : BitVec 16 := 0
  /-- Cores that kicked the watch in this sailing (R565). -/
  kicked : BitVec 16 := 0
  /-- Cores that missed a deadline of this sailing. -/
  missing : BitVec 16 := 0
  /-- Consecutive missed sailings, by core (R566). -/
  misses : SMap Nat := []
  /-- Sailings of the watch resets, by core (R566). -/
  resets : SMap (List Nat) := []
  /-- Cores held in reset after a watch reset (R566). -/
  inReset : BitVec 16 := 0
  /-- Local memories of the control cores as loaded, by core (R557, R566). -/
  local_ : SMap (List Byte) := []
  /-- The sources that a core's read of IRQ_CLAIM returned, newest last (R564). -/
  claims : List (Nat × Nat) := []
  deriving DecidableEq, Repr

/-! ### Near-memory units and copy-on-write -/

/-- A near-memory command that has started (R241, R250): the descriptor's address and words, its status so far, the
pieces not yet sent, each by the 4 KiB unit it writes and whether it is bridged, the units of those sent, and how much of
its end is done: nothing (0), its manifests (1), its status word (2). -/
structure NmuCmd where
  addr : Nat
  desc : BitVec 512
  status : Nat
  toSend : List (Nat × Bool)
  sent : List Nat
  phase : Nat
  deriving DecidableEq, Repr

/-- A piece in the queue of a stack (R242): the descriptor of its command, the 4 KiB unit it writes, the stack. -/
structure NmuPiece where
  cmd : Nat
  unit : Nat
  stack : Nat
  deriving DecidableEq, Repr

/-- Why copy-on-write holds a write: its frame is being copied (R253), no pool frame is free for the copy (R255), or it
is queued behind such a write (R254, R255). -/
inductive HoldWhy where
  | copying | stalled | behind
  deriving DecidableEq, Repr

/-- A write held by copy-on-write (R253, R255): where, what, why, and since when. -/
structure HeldWrite where
  addr : Nat
  bytes : List Byte
  why : HoldWhy
  since : Nat
  deriving DecidableEq, Repr

/-- A set of frames, by 2^24 × stack + frame: all of them (`rest`), or those listed and every frame of the
pseudo-channels listed. -/
structure FrameSet where
  rest : Bool
  listed : SMap Bool := []
  channels : List Nat := []
  deriving DecidableEq, Repr

/-- What the near-memory units and the base dies hold besides their registers. -/
structure NmuState where
  /-- Descriptor addresses in the device queue, oldest first (R245). -/
  queue : List Nat := []
  /-- Commands that have started, in the order of their descriptors (R243). -/
  active : List NmuCmd := []
  /-- The pieces in the queues of the stack units, in the order sent (R242). -/
  pieces : List NmuPiece := []
  /-- DIRTY: all ones after reset (R278). -/
  dirty : FrameSet := ⟨true, [], []⟩
  /-- DRAIN_SET (R278). -/
  drainSet : FrameSet := ⟨false, [], []⟩
  /-- Preserved frames: the pool frame that holds the old content, plus 1; by 2^24 × stack + frame (R253). -/
  preserved : SMap Nat := []
  /-- Pool frames in use, by 2^20 × stack + frame of the spare region. -/
  poolUsed : SMap Bool := []
  /-- Pool frames given for good to remapped units, by stack (R544). -/
  poolGone : SMap Nat := []
  /-- Writes held for a copy or a pool frame, in arrival order. -/
  held : List HeldWrite := []
  deriving DecidableEq, Repr

/-! ### Islands and the chart -/

/-- An island as a chart entry gives it: role, granule mask and ASSIGN (R376 to R379). -/
structure Island where
  role : Nat
  granules : Nat
  assign : Nat
  deriving DecidableEq, Repr

/-- A staged chart (R381): its epoch, its EFFECTIVE sailing and the device's own entry. -/
structure StagedChart where
  epoch : Nat
  effective : Nat
  islands : List Island
  deriving DecidableEq, Repr

/-- What the chart unit holds besides its registers. -/
structure ChartState where
  /-- The staged chart (R381). -/
  staged : Option StagedChart := none
  /-- The islands of the previous chart that are LEAVING, by island number (R383). -/
  old : SMap (Option Island) := []
  /-- The islands of the previous chart, by island number, while its epoch is live (R388). -/
  prev : SMap (Option Island) := []
  /-- Island windows that are mapped: lowest granule to granule mask (R597). -/
  windows : SMap Nat := []
  /-- The sailing at which the current chart became current. -/
  since : Nat := 0
  /-- Granules of islands with the role OFF, which stand unpowered (R376, R383). -/
  dark : Nat := 0
  /-- Causes of DEGRADED, by island: the codes of retirements of its parts, and 0 for each section that awaits a
  refetch (R548). -/
  causes : SMap (List Nat) := []
  deriving DecidableEq, Repr

/-! ### Host port -/

/-- An open request of a host ring (R458, R561). -/
structure HostReq where
  ring : Nat
  op : Nat
  tag : Nat
  session : Nat
  data : Nat
  dataLen : Nat
  outLen : Nat
  out : Nat
  /-- A CANCEL named it; it ends at its next step boundary (R562). -/
  cancelled : Bool := false
  /-- It has begun, with its payload and the tile manifests made as the payload entered (R530, R562). -/
  begun : Bool := false
  payload : List Byte := []
  manifests : List Byte := []
  deriving DecidableEq, Repr

/-- A completion entry that waits for its ring (R459, R460). -/
structure HostEntry where
  ring : Nat
  kind : Nat
  status : Nat
  detail : Nat
  tag : Nat
  session : Nat
  offset : Nat
  length : Nat
  addr : Nat
  /-- What the entry names, written before it: text for the output buffer, or a record (R459). -/
  data : List Byte := []
  deriving DecidableEq, Repr

/-- What the device knows of a ring pair (R455 to R460). -/
structure Ring where
  /-- ENABLE as of the last boundary (R460). -/
  en : Bool := false
  /-- STATE of the control block: 0 DISABLED, 1 RUNNING, 2 QUIESCED, 3 FAILED. -/
  state : Nat := 0
  consumed : Nat := 0
  produced : Nat := 0
  /-- Consecutive polls that failed the CRC of the same slot (R457). -/
  badPolls : Nat := 0
  /-- ENABLE was cleared; open requests run on (R460). -/
  draining : Bool := false
  /-- A completion entry was written since the last message (R463). -/
  wrote : Bool := false
  /-- Vector 2 was sent for the present wait (R460). -/
  stalled : Bool := false
  deriving DecidableEq, Repr

/-- What the host port holds besides its registers. -/
structure HostState where
  /-- What the device knows of each ring (R456). -/
  rings : SMap Ring := []
  /-- Open requests, oldest first (R458). -/
  requests : List HostReq := []
  /-- Completion entries that wait for room in their ring, oldest first (R459). -/
  waiting : List HostEntry := []
  /-- The MSI-X table (BAR2): 16 bytes a vector; Vector Control is bit 96 (R453, R463). -/
  msixTable : SMap (BitVec 128) := []
  /-- The pending bit array (R463). -/
  msixPending : BitVec 72 := 0
  /-- Where the next record goes in the record area (R459). -/
  recordNext : Nat := 0
  /-- The links have answered configuration requests (R474). -/
  linkUp : BitVec 2 := 0
  deriving DecidableEq, Repr

/-! ### Session directory -/

/-- A share's report of a move (R189): the first model layer of the share, the status of R180, IMAGE_BYTES and the
manifest array. -/
structure ShareReport where
  assign : Nat
  status : Nat
  bytes : Nat
  manifests : List Byte
  image : List Byte
  history : List (Nat × List Byte)
  deriving DecidableEq, Repr

/-- A move of a session ordered by the directory (R96, R189): its MOTION, the session and its record index, the
locator of the image it writes or reads, the locator it frees when it completes, the berth it uses and the berth it
frees, the TAG of the command it completes (none: the residency loop started it), what it reserved, when it started, the shares that have not reported and the reports, and the record that RESTORE or
UNSEAL brought. -/
structure Move where
  motion : Nat
  session : Nat
  index : Nat
  loc : Nat
  old : Nat
  cls : Nat
  berth : Nat
  oldClass : Nat
  oldBerth : Nat
  tag : Option Nat
  reserved : Nat
  started : Nat
  epoch : Nat
  waiting : List Nat
  reports : List ShareReport
  runAhead : Bool
  step : Nat
  saved : List Byte
  deriving DecidableEq, Repr

/-- A command that waits for a berth, a lock or quota (R93, R103, R106): its entry, its first sailing, and what
came with it (the record that RESTORE brings back or CROSS_IN takes in), and the class it needs, the lowest one it may
take. -/
structure SdirWait where
  entry : BitVec 256
  since : Nat
  data : List Byte
  cls : Nat
  deriving DecidableEq, Repr

/-- An entry of the revival queue (R107). -/
structure Revival where
  session : Nat
  cls : Nat
  prio : Nat
  since : Nat
  tag : Nat
  deriving DecidableEq, Repr

/-- A valid entry of the directory cache (R93): the record index, the dirty bit, and record bytes 0x00 to 0x37. -/
structure CacheEntry where
  index : Nat
  dirty : Bool
  bytes : List Byte
  deriving DecidableEq, Repr

/-- What the directory unit holds besides its registers and its HBM areas. -/
structure SdirState where
  /-- Addresses of the commands in the queue, oldest first (R117). -/
  queue : List Nat := []
  /-- Commands that wait for a berth, a lock or quota (R93, R103). -/
  waits : List SdirWait := []
  /-- The revival queue (R107). -/
  revivals : List Revival := []
  /-- REVIVE commands merged with a revival, by session and TAG (R100). -/
  merged : List (Nat × Nat) := []
  /-- The sailing in which revivals were last started, and how many (R107). -/
  revived : Nat × Nat := (0, 0)
  /-- Moves in progress (R96). -/
  moves : List Move := []
  /-- Berth numbers in use, by 2^20 × class + number: the record index plus 1 (R103). -/
  berthUse : SMap Nat := []
  /-- Berth numbers withdrawn on some device of the crew (R140). -/
  berthGone : SMap Bool := []
  /-- Generation of each image slot (R182). -/
  gens : SMap Nat := []
  /-- Image slots in use (R182). -/
  slotUse : SMap Bool := []
  /-- Images that are being freed: by locator, the shares that still hold theirs (R182). -/
  freeing : SMap (List Nat) := []
  /-- Tile counts of the shares of a stored image, as their reports gave them, by locator (R193). -/
  shareTiles : SMap (List Nat) := []
  /-- Usage charged for an image in its quota unit, by locator (R193). -/
  charged : SMap Nat := []
  /-- The directory cache, by set, most recently used first (R93). -/
  cache : SMap (List CacheEntry) := []
  /-- The seed of the bucket hash, drawn at start-up (R92). -/
  seed : BitVec 32 := 0
  deriving DecidableEq, Repr

/-! ### Berths -/

/-- A berth command in progress or waiting: where its entry lies and the entry. -/
structure BerthJob where
  addr : Nat
  entry : BitVec 256
  deriving DecidableEq, Repr

/-- What the berth unit holds besides its registers and the berths in HBM. -/
structure BerthState where
  /-- Addresses of the commands in the queue, oldest first (R146). -/
  queue : List Nat := []
  /-- Commands that wait for HISTORY_UPTO (R125). -/
  laps : List BerthJob := []
  /-- History saves in progress (R125, R190). -/
  saves : List BerthJob := []
  /-- Global loads in progress (R127). -/
  loads : List BerthJob := []
  /-- Tiles written since their berth was opened, by tile address (R124). -/
  written : SMap Bool := []
  /-- Withdrawn numbers, by 2^20 × class + number (R140). -/
  withdrawn : SMap Bool := []
  deriving DecidableEq, Repr

/-! ### Ferries and tiers -/

/-- What a ferry transfer serves: a descriptor of session firmware, or the share move of a session (R178, R188). -/
inductive Work where
  | firmware
  | share (session : Nat)
  deriving DecidableEq, Repr

/-- A ferry transfer (R174 to R177): its descriptor, where it was read, its phase (0 queued, 1 holding an in-flight
place before it begins, 2 moving tiles), the sailing in which it left the queue, the windows captured when it
started, the tiles not yet written, those of a share move's transfer when it began, the epoch in which it began, and the
tiles that are on their way to or from a peer (R405, R415). -/
structure Xfer where
  id : Nat
  ferry : Nat
  desc : BitVec 512
  addr : Nat
  work : Work
  phase : Nat := 0
  since : Nat := 0
  joined : Bool := false
  srcWins : List (BitVec 64) := []
  dstWins : List (BitVec 64) := []
  tiles : List Nat
  whole : List Nat := []
  epoch : Nat := 0
  sent : List Nat := []
  deriving DecidableEq, Repr

/-- A tile that a share move has read, by index in its image: its manifest and coded block (R183, R184). -/
structure PartTile where
  number : Nat
  manifest : List Byte
  block : List Byte
  deriving DecidableEq, Repr

/-- A share move on this LAYER device (R188, R189): its MOTION, the session, the berth it reads or writes, the
locators of the image it reads and of the image it writes, the tiles of the share and those read so far, the bytes
reserved in the tier, the berth that REBERTH copies from, the berth header that came from outside (a restore or a
crossing), the window that takes a new image (255 flash, 254 a bundle), and the epoch it began in (R387). -/
structure ShareMove where
  session : Nat
  motion : Nat
  cls : Nat
  berth : Nat
  fromClass : Nat
  fromBerth : Nat
  src : Nat
  dst : Nat
  tiles : List Nat
  parts : SMap (Option PartTile) := []
  reserved : Nat := 0
  header : List Byte := []
  window : Nat := 255
  epoch : Nat := 0
  deriving DecidableEq, Repr

/-- What the map of a device says of one of its images (R182): the session, IMAGE_BYTES, and where the image lies: in a
host or CXL window (CXL windows count from 64), at extents of 64 KiB; in flash (window 255), on the logical pages of its
locator; or staged in plain form for a sealed bundle (window 254). -/
structure Image where
  session : Nat
  len : Nat
  window : Nat
  extents : List Nat := []
  staged : List Byte := []
  deriving DecidableEq, Repr

/-- The grants of a ferry (R175): the place in the round of 16, the transfer that each priority level served last, and
the transfers that hold grants for tile moves not yet done. -/
structure FerryGrants where
  pos : Nat := 0
  last : SMap Nat := []
  out : List Nat := []
  deriving DecidableEq, Repr

/-- What the ferries and the tier unit hold besides their registers. -/
structure TierState where
  /-- Transfers queued and in flight, oldest first (R174). -/
  xfers : List Xfer := []
  /-- The number of the next transfer. -/
  nextId : Nat := 0
  /-- The grants of each ferry (R175). -/
  grants : SMap FerryGrants := []
  /-- Share moves in progress on this device (R188). -/
  shares : List ShareMove := []
  /-- Images of this device, by locator: the image map, which lies in general-use HBM in a private form (R182). -/
  images : SMap (Option Image) := []
  /-- Moored locators that this device can no longer serve (R192). -/
  lostImages : SMap Bool := []
  /-- History records, by 2^64 × position + session: their bytes in flash (R190). -/
  history : SMap Nat := []
  /-- The moored tier is above its high mark (R195). -/
  aboveMark : Bool := false
  /-- The sailing of the last codec tension event of each ferry, plus 1 (R198). -/
  tension : SMap Nat := []
  deriving DecidableEq, Repr

/-! ### Keys -/

/-- A key in the key store (R404, R512): a CAK (kind 0) with the device address its slot names and the connectivity
association key name, or a job key (kind 1). -/
structure StoredKey where
  kind : Nat
  slot : Nat
  key : BitVec 256
  peer : Nat
  name : Nat
  deriving DecidableEq, Repr

/-- What the seal engine's key store, the DRBG and the attestation responder hold besides their registers. -/
structure SecState where
  /-- CAKs (kind 0) and job keys (kind 1) in use (R512). -/
  keys : List StoredKey := []
  /-- Loads that take effect at the next boundary (R512). -/
  loading : List StoredKey := []
  /-- Previous job keys with the last sailing in which a receiver accepts them (R512). -/
  grace : List (StoredKey × Nat) := []
  /-- Secure association keys that MKA has agreed, by CAK slot (R512). -/
  saks : SMap (Option (BitVec 256)) := []
  /-- The entropy source's health tests have failed and not passed since (R506). -/
  entropyDown : Bool := false
  /-- Requests of the DRBG since its last seeding (R506). -/
  draws : Nat := 0
  /-- Open SPDM sessions: whether each is with the key service (R509, R512). -/
  sessions : SMap Bool := []
  /-- Measurement requests that wait for the entropy source, by nonce, oldest first (R506, R511). -/
  waiting : List (BitVec 256) := []
  deriving DecidableEq, Repr

/-! ### Text engine -/

/-- A detokenising or tokenising stream (R311 to R318). -/
structure TextStream where
  detok : Bool
  /-- The stream has stopped or ended. -/
  ended : Bool := false
  /-- Tokenising: bytes of an incomplete sequence, the open piece and the class of its last item (R311). -/
  carry : List Byte := []
  piece : List Byte := []
  lastClass : Nat := 0
  /-- INVALID_COUNT and the flags of R313. -/
  invalidCount : Nat := 0
  invalid : Bool := false
  truncated : Bool := false
  /-- Detokenising: the stop-set slot, the grammar (0xFFFF: none) and its state (R301). -/
  slot : Option Nat := none
  grammar : Nat := 0xFFFF
  gstate : Nat := 0
  /-- Bytes that are not yet whole characters, and bytes that may begin a stop string (R315). -/
  held : List Byte := []
  pending : List Byte := []
  /-- Bytes released and tokens consumed since DET_OPEN. -/
  offset : Nat := 0
  tokens : Nat := 0
  deriving DecidableEq, Repr

/-- What the text engine holds besides its registers. -/
structure TextState where
  /-- Addresses of the commands in the queue, oldest first (R299). -/
  queue : List Nat := []
  /-- Stream contexts, by stream number (R301). -/
  streams : SMap (Option TextStream) := []
  /-- Stop sets, by slot (R316). -/
  stops : SMap (List (List Byte)) := []
  /-- The table regions of the shared SRAM, by offset (R304). -/
  tables : SMap Byte := []
  /-- Cached masks, most recently used first: 2^24 × grammar + state (R320). -/
  cache : List Nat := []
  deriving DecidableEq, Repr

/-! ### Sampler and seal engine -/

/-- DECISION tickets and tokens of a tenant, per report period (R521): the period counted, its sums, and the sums of
the period before it. -/
structure TenantSum where
  period : Nat := 0
  turns : Nat := 0
  tokens : Nat := 0
  lastTurns : Nat := 0
  lastTokens : Nat := 0
  deriving DecidableEq, Repr

/-- What the sampler and the seal engine hold besides their registers. -/
structure SealState where
  /-- Addresses of queued sampler commands and seal engine commands (R328, R345). -/
  sampQueue : List Nat := []
  queue : List Nat := []
  /-- The open ticket set, in order of submission, and tickets deferred to the next set (R340). -/
  set : List (List Byte) := []
  deferred : List (List Byte) := []
  /-- Sets closed and not yet sealed, oldest first: sailing and tickets (R340). -/
  closed : List (Nat × List (List Byte)) := []
  /-- The sailing whose set closed last. -/
  lastClosed : Option Nat := none
  /-- SHA-384 of the previous seal record; 48 zero bytes before the first (R340). -/
  prev : List Byte := List.replicate 48 0
  /-- Bytes written to the seal ring since start-up (R342). -/
  written : Nat := 0
  /-- The ring was full at the last attempt to write (R342). -/
  ringFull : Bool := false
  /-- Sums by tenant, and the report of the current period by tenant (R521). -/
  sums : SMap TenantSum := []
  reports : SMap (Nat × List Byte) := []
  /-- Next bundle serial (R343). -/
  serial : Nat := 0
  deriving DecidableEq, Repr

/-! ### Recall engine -/

/-- A query that has taken a context and a table slot (R365, R366): its entry, the index, the pipeline, context and
slot it holds, and what it will report: status, entries of distance, ID and attribute, beam widenings. -/
structure RclQuery where
  addr : Nat
  entry : List Byte
  index : Nat
  pipe : Nat
  ctx : Nat
  slot : Nat
  status : Nat
  found : List (Nat × Nat × Nat)
  widened : Nat
  epoch : Nat
  deriving DecidableEq, Repr

/-- A merge (R364): its entry, and, once the graphs have switched, the contexts (pipeline, context) of the queries that
began before and still run. -/
structure RclMerge where
  entry : List Byte
  index : Nat
  switched : Bool := false
  before : List (Nat × Nat) := []
  deriving DecidableEq, Repr

/-- What the recall engine holds besides its registers. -/
structure RclState where
  /-- Addresses of the commands in the queue, oldest first (R367). -/
  queue : List Nat := []
  /-- Queries that wait for a context or a table slot (R365, R366). -/
  waiting : List Nat := []
  /-- Queries that hold a context (R365). -/
  active : List RclQuery := []
  /-- Merges in progress (R364). -/
  merges : List RclMerge := []
  /-- DROP commands that wait for running queries (R362): entry and index. -/
  drops : List (List Byte × Nat) := []
  deriving DecidableEq, Repr

/-! ### Flash -/

/-- What the flash unit holds of a block in HBM (R215, R216, R227, R228). Its entry in the tables of the SYSTEM area is
NandState's. -/
structure FlashBlock where
  /-- 0 free, 1 open, 2 closed, 3 releasable. -/
  use : Nat := 0
  /-- RELEASE_CK (R216). -/
  releaseCk : Nat := 0
  /-- Reads since the erase, and the largest count of corrected bits (R227). -/
  reads : Nat := 0
  maxBits : Nat := 0
  /-- Due for refresh (R227). -/
  due : Bool := false
  deriving DecidableEq, Repr

/-- A programmed or placed page of flash (R209, R211): its area (2 DRAIN, 3 MAPPED, 4 XOR), the logical page it holds
when it is MAPPED, its stripe, whether it has programmed, and its bytes, four codewords and the filled spare area: those
staged for it until it has programmed, and those it holds from then on. -/
structure FlashPage where
  area : Nat := 3
  lpn : Option Nat
  stripe : Nat
  done : Bool := false
  bytes : List Byte := []
  deriving DecidableEq, Repr

/-- What a LUN operation does (R219). -/
inductive FlashKind where
  | read | program | erase
  deriving DecidableEq, Repr

/-- Who waits for a LUN operation: a ferry, the checkpoint drain, garbage collection, rebuild, the catch-up pass,
refresh, patrol. -/
inductive FlashClient where
  | ferry | drain | collect | rebuild | catchup | refresh | patrol
  deriving DecidableEq, Repr

/-- The ONFI operations that the device uses (R208). -/
inductive Onfi where
  | reset | synchronousReset | resetLun | readId | readParameterPage | readUniqueId | getFeatures | setFeatures
  | readStatus | read | changeColumn | program | erase | volumeSelect
  deriving DecidableEq, Repr

/-- A LUN operation (R219), by age: LUN, kind, client, the page or the first page of the block, how often it was
retried after a die event (R224), and, of a read for stripe reconstruction, the page it helps to make (R220). -/
structure FlashOp where
  id : Nat
  lun : Nat
  kind : FlashKind
  client : FlashClient
  page : Nat
  retries : Nat := 0
  target : Option Nat := none
  deriving DecidableEq, Repr

/-- A page that waits for a place in a stripe (R211): its area, the client that writes it, the logical page of the
MAPPED area, the numbers of its four codewords (R209, R281) and its 16,384 bytes. -/
structure PageJob where
  area : Nat
  client : FlashClient
  lpn : Option Nat
  nums : List Nat
  data : List Byte
  deriving DecidableEq, Repr

/-- The NAND part profile (R207): planes per LUN, blocks per plane, pages per block, read-retry levels, rated
endurance in program/erase cycles, data and spare bytes of a page, the expected manufacturer, model and ONFI revision,
the Set Features address and value that select SLC mode (0 and 0: a native SLC part), typical and maximum times of
read, program and erase, the rated unpowered retention in days, and the Set Features value of each read-retry level. -/
structure FlashProfile where
  planes : Nat := 0
  blocks : Nat := 0
  pages : Nat := 0
  levels : Nat := 0
  endurance : Nat := 0
  dataBytes : Nat := 16384
  spareBytes : Nat := 1664
  manufacturer : Nat := 0
  model : Nat := 0
  revision : Nat := 0
  slcFeature : Nat := 0
  slcValue : Nat := 0
  times : List Nat := []
  retention : Nat := 0
  levelValues : List Nat := []
  deriving DecidableEq, Repr

/-- A frame version of the buddy's source (R281): the checkpoint, 2^28 × stack + frame (stack 16: the image), 4 KiB, and
where it lies in the DRAIN area: 4 × page + codeword + 1, or 0 while it waits for a page. -/
structure Version where
  ckpt : Nat
  key : Nat
  bytes : List Byte
  place : Nat := 0
  deriving DecidableEq, Repr

/-- The contents of the flash store, which outlive a reset: pages, the SYSTEM area, the replay logs kept beside the
history records (R336), sealed bundles staged for archive, the commit records of the buddy's source (R283). -/
structure NandState where
  /-- The two copies of the bad-block and wear tables: the 8-byte entry of each block (R230). -/
  tables : SMap (BitVec 64) := []
  tables2 : SMap (BitVec 64) := []
  /-- The tables have been made: factory marks have been read (R230). -/
  marked : Bool := false
  /-- Programmed pages, by block and page (R209). -/
  pages : SMap (Option FlashPage) := []
  /-- Last-power TAI time in seconds (R229). -/
  lastPower : Nat := 0
  /-- The last TAI day on which a sailing ran under each profile, as the SYSTEM area keeps it (R496). -/
  profileDays : SMap Nat := []
  /-- Replay logs by session: entries with header and payload, entry 0 first (R336). -/
  logs : SMap (List (List Byte)) := []
  /-- Sealed bundles by locator (R343). -/
  bundles : SMap (List Byte) := []
  /-- Commit records in slots A and B (R283). -/
  slots : SMap (List Byte) := []
  deriving DecidableEq, Repr

/-- What the flash unit holds besides its registers and the NAND: its map, its staging area and its counts lie in
general-use HBM (R211, R214, R228). -/
structure FlashState where
  /-- The part profile of the image (R207). -/
  profile : FlashProfile := {}
  /-- What HBM holds of each block (R214, R228). -/
  blocks : SMap FlashBlock := []
  /-- The blocks of the SYSTEM and DRAIN areas, and LOGICAL_PAGES, as start-up found them (R210, R213). -/
  system : List Nat := []
  drain : List Nat := []
  logical : Nat := 0
  /-- LUN operations that wait, oldest first (R219). -/
  ops : List FlashOp := []
  /-- The operation each LUN works on. -/
  busy : SMap (Option FlashOp) := []
  /-- The number of the next operation. -/
  nextOp : Nat := 0
  /-- Logical pages in use (R213); those whose last read failed (1) and those lost for good (2) (R220, R226). -/
  used : SMap Bool := []
  pageFault : SMap Nat := []
  /-- Logical pages of an image or record, by locator or by 2^64 + position × 2^64 + session. -/
  owners : SMap (List Nat) := []
  /-- The last stripe number; by area, the stripe being filled and the member places it has left as LUN numbers; by
  area, LUN and plane, the open block plus 1 with the page index it is at. -/
  stripe : Nat := 0
  filling : SMap (Nat × List Nat) := []
  openBlocks : SMap (Nat × Nat) := []
  /-- Pages that wait for a stripe, oldest first. -/
  staging : List PageJob := []
  /-- The bytes of logical pages whose stripe is not yet written (R211). -/
  staged : SMap (List Byte) := []
  /-- The last stripe of each logical page whose map entry waits for the stripe to be written, plus 1 (R217). -/
  moving : SMap Nat := []
  /-- Frame versions that the buddy's source has drained, oldest first: the frame map (R281). -/
  versions : List Version := []
  /-- Reads that failed their ladder up to step L + 1 and wait for the other pages of the stripe, and pages one of whose
  stripe's reads has failed (R220). -/
  recon : List FlashOp := []
  reconBad : SMap Bool := []
  /-- Die events: LUN and sailing (R224). -/
  events : List (Nat × Nat) := []
  /-- Permanently faulted LUNs; the LUNs that are rebuilt or retired, in the order of their faults; whether the rebuild
  of the first of them has started; the stripes recorded as lost (R225, R226). -/
  dead : List Nat := []
  rebuilding : List Nat := []
  started : Bool := false
  lostStripes : SMap Bool := []
  /-- The flash store has been set up (R206, R207). -/
  ready : Bool := false
  /-- Garbage collection is at work on this block. -/
  collecting : Option Nat := none
  /-- Blocks whose tension was counted in this sailing (R221). -/
  tension : SMap Nat := []
  deriving DecidableEq, Repr

/-! ### Start-up -/

/-- The configuration store and the fused records, which outlive a reset. -/
structure FuseState where
  /-- Copies A and B of the image in the NOR (R475). -/
  copyA : List Byte := []
  copyB : List Byte := []
  /-- Records of limited-change advances in burn order: setting (1 security version, 2 archive generation, 3 debug
  lock, 4 profile floor), the count it advances to, the 64-bit record, and whether the counter bit is burned (R493). -/
  records : List (Nat × Nat × BitVec 64 × Bool) := []
  /-- The certificate chains of slots 0 and 1 (R508). -/
  chains : SMap (List Byte) := []
  /-- HBM training values are held from an earlier training, by stack (R472). -/
  trained : SMap Bool := []
  /-- Rows burned as HBM post-package repair at the next cold reset (R549). -/
  repairs : SMap Nat := []
  deriving DecidableEq, Repr

/-- What start-up holds besides registers. -/
structure BootState where
  /-- The reset has been released (R473), and the reset was a cold one (R472, R613). -/
  released : Bool := false
  cold : Bool := true
  /-- The image asks for the debug lock to be closed (R476); its limited-change advances have been made (R494). -/
  closeDebug : Bool := false
  advanced : Bool := false
  /-- Copies that are not, or no longer, candidates (R479). -/
  failed : List Nat := []
  /-- START_MODE of the image is HELD (R476, R491). -/
  held : Bool := false
  /-- Digests of the chosen image, of session and management firmware, and of the model (R477, R486, R510). -/
  configDigest : List Byte := List.replicate 48 0
  sessionFw : List Byte := List.replicate 48 0
  mgmtFw : List Byte := List.replicate 48 0
  modelDigest : List Byte := List.replicate 48 0
  /-- SOURCE, WAIT_S and the peers of the PACKAGE section (R486). -/
  source : Nat := 0
  waitS : Nat := 0
  peers : List Nat := []
  /-- The package's header and table once they match MODEL_DIGEST (R489). -/
  table : List Byte := []
  /-- Sections that have landed and verified, by 2^32 × TYPE + INDEX; sections that failed once (R489). -/
  sections : SMap (List Byte) := []
  retried : List Nat := []
  /-- Sections whose copy in HBM has failed and that await a refetch, with the code that degrades their islands (R490, R531,
  R548). -/
  awaits : List (Nat × Nat) := []
  /-- HBM stacks trained, and failures of each (R473). -/
  hbmUp : SMap Bool := []
  hbmFails : SMap Nat := []
  /-- All HBM has been zeroed (R473). -/
  zeroed : Bool := false
  /-- GO was written in HELD (R491). -/
  go : Bool := false
  deriving DecidableEq, Repr

/-! ### Crossing transport -/

/-- An MCT packet: header and payload (R406). -/
structure MctPacket where
  hdr : BitVec 512
  payload : List Byte
  deriving DecidableEq, Repr

/-- A packet sent and not yet acknowledged, and its retransmissions (R409). -/
structure MctSent where
  seq : Nat
  pkt : MctPacket
  tries : Nat := 0
  deriving DecidableEq, Repr

/-- The sending side of a channel (R409, R413, R414): the next SEQ, packets not yet acknowledged, the ACK and CREDIT
last received, the send window and the acknowledgements counted towards its growth, packets that wait for credit,
and the path index (R406). -/
structure MctTx where
  next : Nat := 0
  sent : List MctSent := []
  ack : Nat := 0
  credit : Option Nat := none
  window : Nat := 256
  grown : Nat := 0
  waiting : List MctPacket := []
  path : Nat := 0
  deriving DecidableEq, Repr

/-- The receiving side of a channel (R409, R410, R414): the next SEQ expected, packets held for reordering by SEQ, the
highest credit limit advertised, whether an acknowledgement and an echo are due. -/
structure MctRx where
  expected : Nat := 0
  held : SMap (Option MctPacket) := []
  limit : Nat := 0
  due : Bool := false
  echo : Bool := false
  deriving DecidableEq, Repr

/-- An open operation (R387): its identifier, the peer and channel, its epoch and island, the TAG of its completion,
and whether it was started here. -/
structure MctOp where
  id : Nat
  peer : Nat
  vc : Nat
  epoch : Nat
  island : Nat
  tag : Nat
  started : Bool
  deriving DecidableEq, Repr

/-- The half of a tile that has arrived (R407): peer, operation, tile index, half, bytes, manifest. -/
structure MctHalf where
  peer : Nat
  op : Nat
  tile : Nat
  half : Nat
  bytes : List Byte
  manifest : List Byte
  deriving DecidableEq, Repr

/-- A tile that a peer has sent for a ferry transfer of this device (R405, R407): operation, tile index in the peer's
window, bytes. -/
structure PeerTile where
  op : Nat
  tile : Nat
  bytes : List Byte
  deriving DecidableEq, Repr

/-- Results staged under a speculation tag (R417), in order. -/
structure MctStaged where
  peer : Nat
  tag : Nat
  pkt : MctPacket
  deriving DecidableEq, Repr

/-- A crossing on this HOME device (R420): session, operation, peer, whether this side is the source, its step, the
sailing of the last step, the manifest digest, the payload of CROSS_BEGIN, the berth of the destination, the shares
that have not reported and the reports. Steps: 1 the source gathers digests, 2 CROSS_BEGIN or CROSS_READY is sent, 3
shares transfer, 4 CROSS_HELD is sent (destination) or COMMITTED is written (source), 5 handed over, 6 aborted. -/
structure Crossing where
  session : Nat
  op : Nat
  peer : Nat
  source : Bool
  step : Nat
  since : Nat
  digest : List Byte
  begin_ : List Byte
  berth : Nat
  waiting : List Nat := []
  reports : List ShareReport := []
  epoch : Nat := 0
  deriving DecidableEq, Repr

/-- What the crossing transport holds besides its registers. -/
structure MctState where
  /-- Incarnation of this device and those last seen of its peers, by device address (R412). -/
  incarnation : Nat := 0
  peers : SMap (Option Nat) := []
  /-- Channels, by 8 × device address + virtual channel. -/
  tx : SMap MctTx := []
  rx : SMap MctRx := []
  /-- Open operations (R387, R406). -/
  ops : List MctOp := []
  /-- Tiles that a peer has sent for a transfer of a ferry (R405). -/
  arrived : List PeerTile := []
  /-- The next OP_ID of this device (R406). -/
  nextOp : Nat := 1
  /-- E2E counters, by job (R404). -/
  counters : SMap Nat := []
  /-- Tiles of which one half has arrived (R407). -/
  halves : List MctHalf := []
  /-- Messages held under a speculation tag (R417). -/
  staged : List MctStaged := []
  /-- Messages delivered to session firmware, oldest first: each holds a landing buffer of its channel (R413). -/
  delivered : List (Nat × MctPacket) := []
  /-- Crossings in progress (R420). -/
  crossings : List Crossing := []
  /-- Crossings that wait for CROSS_IN (R422). -/
  offers : List Crossing := []
  /-- The outcome table (R421): session, operation, handed over, sailing. -/
  outcomes : List (Nat × Nat × Bool × Nat) := []
  /-- Retirement notices not yet sent to the chart service (R389). -/
  notices : List Nat := []
  /-- Cut messages received, by checkpoint: peers (R271). -/
  cuts : List (Nat × Nat) := []
  deriving DecidableEq, Repr

/-! ### Egress -/

/-- A frame descriptor in a queue (R431, R434, R442): its length, the packet it carries with its peer (none: another
frame), the time of its entry in ps, and whether a gate hold was counted for it (R439). -/
structure EgrFrame where
  length : Nat
  peer : Nat
  pkt : Option MctPacket
  stamp : Nat
  held : Bool := false
  ecn : Bool := true
  deriving DecidableEq, Repr

/-- What a queue holds (R433 to R437, R442): its frames, frames held at their source, the shaper credit in units of
1/800,000 byte and the time it was last brought up to date, the finish tag of its head and its last finish tag, and
the statistics of the present sailing: largest sojourn, sum of sojourns, frames started, largest depth. -/
structure EgrQueue where
  frames : List EgrFrame := []
  source : List EgrFrame := []
  credit : Int := 0
  full : Bool := true
  at_ : Nat := 0
  tag : Nat := 0
  last : Nat := 0
  maxDelay : Nat := 0
  sumDelay : Nat := 0
  started : Nat := 0
  maxDepth : Nat := 0
  deriving DecidableEq, Repr

/-- What the ports and the egress scheduler hold besides their registers. -/
structure EgrState where
  /-- The queues, by 8 × port + class (R431). -/
  queues : SMap EgrQueue := []
  /-- The frame each port sends, with its queue. -/
  sending : SMap (Option (Nat × EgrFrame)) := []
  /-- Virtual time, by port (R436). -/
  vtime : SMap Nat := []
  deriving DecidableEq, Repr

/-! ### Power -/

/-- What the power controller holds besides its registers. -/
structure PwrState where
  /-- Islands in POWER_OFF, by number: 1 off or entering, 2 waking, 3 waking for an unknown event (R580, R582). -/
  off : SMap Nat := []
  /-- A limit was in force: the governor climbs back one step at a time (R586). -/
  climbing : Bool := false
  /-- The last report periods in which a safety limit lowered the clock (R521, R585). -/
  lowered : List Nat := []
  /-- Clock-gated units, by 2^16 × kind + number: core paths 0, ferries 1, port lanes 2 (R579, R581). -/
  gated : SMap Bool := []
  /-- TRIP_N is driven low (R612). -/
  trip : Bool := false
  deriving DecidableEq, Repr

/-! ### Checkpoints -/

/-- The on-chip state that a checkpoint captures (R268, R277): memories without line codes, register file and
shadows, and the units whose state a checkpoint keeps. -/
structure Snapshot where
  ls : List Host.Cell
  shared : List Host.Cell
  regs : SMap (BitVec 128)
  shadow : SMap (BitVec 128)
  core : CoreState
  carry : SMap (List SlotItem)
  items : SMap (List SlotItem)
  lists : SMap (List Taker)
  sdir : SdirState
  berth : BerthState
  tier : TierState
  chart : ChartState
  text : TextState
  rcl : RclState
  nmuQueue : List Nat
  flash : FlashState
  ops : List MctOp
  cq : List CqRec
  commit : Option Nat
  deriving DecidableEq, Repr

/-- What the checkpoint unit holds besides its registers. -/
structure CkptState where
  /-- The buddy and the source in force since the last capture sailing (R292). -/
  buddy : Nat := 0
  source : Nat := 0
  /-- The checkpoint in progress, the sailing of its capture point, and the last one skipped at its capture sailing. -/
  number : Nat := 0
  at_ : Nat := 0
  skipped : Nat := 0
  /-- C has been reached and the image is not yet written: submissions of control cores are held, as unit, element
  and address (R271). -/
  writing : Bool := false
  held : List (Nat × Nat × Nat) := []
  /-- The state captured at C. -/
  snap : Option Snapshot := none
  /-- What the drain has sent, oldest first: 2^28 × stack + frame (stack 16: the image) and 4 KiB (R280, R281). -/
  stream : List (Nat × List Byte) := []
  /-- The commit record has been sent (R280). -/
  sent : Bool := false
  /-- The checkpoint that a restore reads back (R285). -/
  restoring : Nat := 0
  /-- As buddy of its source: the checkpoint being received and its stream (R281, R283). -/
  receiving : Nat := 0
  received : List (Nat × List Byte) := []
  /-- As buddy: the commit record that waits until every page of its drain has programmed (R283). -/
  commitWaits : List Byte := []
  /-- What the buddy holds for this device, which outlives a reset: versions by checkpoint, oldest first, the commit
  records by slot, and the captured on-chip states. -/
  remote : List (Nat × Nat × List Byte) := []
  records : SMap (List Byte) := []
  snaps : SMap (Option Snapshot) := []
  deriving DecidableEq, Repr


/-! ### What leaves the device -/

/-- What the device sends to the outside, in order. -/
inductive Output where
  /-- An MSI-X message (R463). -/
  | msix (vector : Nat)
  /-- A record copied to management firmware (R538). -/
  | mgmt (r : ErrRec)
  /-- ERR_FATAL with Uncorrectable Internal Error naming the code (R464). -/
  | errFatal (code : Nat)
  /-- TRIP_N driven low (R612). -/
  | trip
  /-- A notice to the chart service: island and the code it carries; clearing notices have `set = false` (R548). -/
  | degraded (island : Nat) (code : Nat) (set : Bool)
  /-- The HOME island orders a share move on the LAYER devices of its crew: the session, the MOTION, the image written or
  read, the image left, the berth taken or left, the berth left by a re-berthing (R188). -/
  | shareOrder (session motion loc old cls berth fromClass fromBerth : Nat)
  /-- A re-berthing is complete: the session's new class and the step index at which the change takes effect, which
  session firmware has the replay log record (R104, R106, R336). -/
  | classChange (session cls step : Nat)
  /-- A LAYER device asks the HOME island of a session to lay up its moored image, whose window drains (R462). -/
  | layUpAsk (session loc : Nat)
  /-- The HOME island cancels a share move (R100, R108). -/
  | shareCancel (session : Nat)
  /-- A LAYER device reports its share to the HOME island (R189). -/
  | shareReport (session motion status bytes : Nat) (manifests image : List Byte) (history : List (Nat × List Byte))
  /-- A LAYER device has freed its image of a locator (R182). -/
  | imageFreed (session loc : Nat)
  /-- A LAYER device has saved a history record of this many bytes (R194). -/
  | historySaved (session bytes : Nat)
  /-- A LAYER device reports a share as lost (R140, R192, R386). -/
  | shareLost (session : Nat)
  /-- A chunk left the window: it enters the recall index on the HOME island (R126). -/
  | chunk (session pos : Nat)
  /-- A berth number was withdrawn (R140). -/
  | berthWithdrawn (cls number : Nat)
  /-- A ferry tile sent to a peer (R415): transport address, tile and manifest. -/
  | peerTile (vc addr : Nat) (tile manifest : List Byte)
  /-- A packet leaves on a port (R406, R435): port, peer, header, payload, ECN mark made (R443). -/
  | packet (port peer : Nat) (hdr : BitVec 512) (payload : List Byte) (ce : Bool)
  /-- Another frame leaves on a port. -/
  | frame (port length : Nat)
  /-- A retirement notice to the chart service (R389). -/
  | retireNotice (epoch : Nat)
  /-- A drained version to the buddy (R280, R281). -/
  | drain (k key : Nat) (bytes : List Byte)
  /-- The frames of the on-chip image, in order, to the buddy (R280). -/
  | drainImage (k : Nat) (frames : List (Nat × List Byte))
  /-- The commit record to the buddy (R282). -/
  | commitRecord (bytes : List Byte)
  /-- The buddy is told that a checkpoint is abandoned (R279). -/
  | ckptAbandoned (k : Nat)
  /-- This device, as buddy, confirms a checkpoint of its source (R283). -/
  | ckptConfirm (k : Nat)
  /-- A device restored alone reports an open berth (R287). -/
  | openBerth (session cls number since : Nat)
  /-- The HOME island has the LAYER devices of its crew free an image and, with locator 0, what else they hold of the
  session (R98, R182). -/
  | imageFree (session loc : Nat)
  /-- A sealed bundle is complete (R343). -/
  | bundle (loc : Nat)
  /-- What crosses beside the shares: the replay log and the recall index's handle (R419). -/
  | carry (session peer : Nat) (log : List (List Byte)) (index : Nat)
  /-- An operation on a LUN's bus (R208). -/
  | onfi (lun : Nat) (op : Onfi)
  /-- An SPDM response of management firmware (R509 to R512): its kind and its parts. -/
  | spdm (kind : Nat) (parts : List (List Byte))
  deriving DecidableEq, Repr

/-! ### The whole device -/

/-- The state of the device. -/
structure State where
  /-- Commands waiting, first in, first out. -/
  pending : List Instr := []
  /-- The live registers, by 65536 × code + element. -/
  regs : SMap (BitVec 128) := []
  /-- The shadows of SL fields, in the same form (R26). -/
  shadow : SMap (BitVec 128) := []
  /-- The counters, by code (R34). -/
  ctrs : SMap Nat := []
  /-- HBM in the granule view, the shared buffers and the spare regions, by device address (R594). -/
  mem : List Host.Cell := []
  /-- Local stores, by 2^28 × core + byte address (R82). -/
  ls : List Host.Cell := []
  /-- Host and CXL memory that the device reads and writes through windows, by bus address (R461). -/
  hostMem : List Host.Cell := []
  /-- Lost HBM lines and SRAM words, by the address of their first byte (R532, R533). -/
  lost : SMap Bool := []
  /-- What the device has sent since reset, oldest first. -/
  out : List Output := []
  /-- How many free values have been used: the model's own field (assumption 3). -/
  free : Nat := 0
  sail : SailState := {}
  core : CoreState := {}
  err : ErrState := {}
  irq : IrqState := {}
  nmu : NmuState := {}
  chart : ChartState := {}
  host : HostState := {}
  sdir : SdirState := {}
  berth : BerthState := {}
  tier : TierState := {}
  sec : SecState := {}
  text : TextState := {}
  sealer : SealState := {}
  rcl : RclState := {}
  nand : NandState := {}
  flash : FlashState := {}
  fuses : FuseState := {}
  boot : BootState := {}
  mct : MctState := {}
  egr : EgrState := {}
  pwr : PwrState := {}
  ckpt : CkptState := {}
  deriving DecidableEq, Repr

/-- The state right after reset. -/
def State.reset : State := {}

end Sys2Proof.Machine
end

