-- ==== Sys2Proof/Machine/Act.lean ====
section
/-! DEFINITION. How a command acts on the state: primitive updates of State (`Upd`), one per register file, memory
or unit, and actions built from them (`Act`): stop, look at the state, or make an update and go on. Every command's
meaning is an action, so whatever all updates keep, every command keeps. -/

namespace Sys2Proof.Machine

/-- The key of an element of a register. -/
def regKey (r : Reg) (i : Nat) : Nat := r.code * 65536 + i

/-- What a key of the register file reads as at reset (R605). -/
def regDefault (k : Nat) : BitVec 128 := (Reg.all.getD (k / 65536) .PKG_ID).resetValue (k % 65536)

/-- The bits of a register that belong to a field; the others are reserved and read 0 (R5). -/
def fieldMask (r : Reg) : BitVec 128 :=
  r.fields.foldl (fun m f => m ||| BitVec.ofNat 128 (maskBits f.hi f.lo)) 0

/-- What memory that nothing has written reads as: HBM is zeroed at start-up (R473), banks leaving OFF are zeroed
(R85); assumption 5 takes 0 everywhere else. -/
def memDefault (_ : Nat) : Byte := 0

/-- The largest value of a counter (R34). -/
def counterMax : Nat := 0xFFFFFFFF

/-- Local stores keep their content over nothing but a device reset; the key of byte `a` of core `c`. -/
def lsKey (core a : Nat) : Nat := core * 2 ^ 28 + a

/-- A live register element. -/
def State.reg (s : State) (r : Reg) (i : Nat := 0) : BitVec 128 := s.regs.get regDefault (regKey r i)

/-- A register element's shadow (R26). -/
def State.shadowReg (s : State) (r : Reg) (i : Nat := 0) : BitVec 128 := s.shadow.get regDefault (regKey r i)

/-- A counter's COUNT (R34). -/
def State.count (s : State) (c : Ctr) : Nat := s.ctrs.get (fun _ => 0) c.code

/-- The registers that a device reset does not change: fused values and straps (R493, R500, R523, R613). -/
def keptRegs : List Reg := [.CFG_LC_STATUS, .SEC_FLEET, .SEC_CAD, .PKG_STRAP]

/-- The register file after a device reset: only the kept registers keep their entries. -/
def keepRegs (m : SMap (BitVec 128)) : SMap (BitVec 128) :=
  m.filter fun e => keptRegs.any fun r => r.code == e.1 / 65536

/-- CFG_AP_STATUS after a device reset: FLOOR reads the fuses, the other fields their reset values (R63, R493). -/
def apStatusKept (v : BitVec 128) : BitVec 128 :=
  let floor := BitVec.ofNat 128 (maskBits 23 16)
  (v &&& floor) ||| (Reg.CFG_AP_STATUS.resetValue 0 &&& ~~~floor)

/-- The state after a device reset (R472). -/
def State.reboot (s : State) : State :=
  { State.reset with
    pending := s.pending, regs :=
      (keepRegs s.regs).put regDefault (regKey .CFG_AP_STATUS 0) (apStatusKept (s.regs.get regDefault (regKey .CFG_AP_STATUS 0))),
    hostMem := s.hostMem, free := s.free, nand := s.nand, fuses := s.fuses,
    ckpt := { remote := s.ckpt.remote, records := s.ckpt.records, snaps := s.ckpt.snaps }, mct := { incarnation := s.mct.incarnation } }

/-- Primitive updates of the state. -/
inductive Upd where
  /-- Set a live register element; reserved bits stay 0, and an element that does not exist takes nothing. -/
  | reg (r : Reg) (i : Nat) (v : BitVec 128)
  /-- Set a shadow element; reserved bits stay 0. -/
  | shadow (r : Reg) (i : Nat) (v : BitVec 128)
  /-- Add to a counter, which saturates (R34). -/
  | count (c : Ctr) (n : Nat)
  /-- Write bytes at a device address. -/
  | mem (a : Nat) (bytes : List Byte)
  /-- Write bytes of a local store. -/
  | ls (core a : Nat) (bytes : List Byte)
  /-- Write bytes of host memory. -/
  | hostMem (a : Nat) (bytes : List Byte)
  /-- Drop the contents of a range of device addresses: it reads as at reset. -/
  | wipe (lo hi : Nat)
  /-- Zero a range of a local store. -/
  | wipeLs (core lo hi : Nat)
  /-- Mark a line or word lost, or readable again (R532, R533). -/
  | lost (a : Nat) (b : Bool)
  /-- Send something out of the device. -/
  | emit (o : Output)
  /-- Use `n` free values. -/
  | takeFree (n : Nat)
  /-- A device reset (R472): everything returns to its reset value but the waiting commands, the fused registers
  (R500, R523), the straps unless they are sampled anew (R613), and the memories outside the device. -/
  | reboot
  /-- Replace what the `sail` unit holds. -/
  | sail (v : SailState)
  /-- Replace what the `core` unit holds. -/
  | core (v : CoreState)
  /-- Replace what the `err` unit holds. -/
  | err (v : ErrState)
  /-- Replace what the `irq` unit holds. -/
  | irq (v : IrqState)
  /-- Replace what the `nmu` unit holds. -/
  | nmu (v : NmuState)
  /-- Replace what the `chart` unit holds. -/
  | chart (v : ChartState)
  /-- Replace what the `host` unit holds. -/
  | host (v : HostState)
  /-- Replace what the `sdir` unit holds. -/
  | sdir (v : SdirState)
  /-- Replace what the `berth` unit holds. -/
  | berth (v : BerthState)
  /-- Replace what the `tier` unit holds. -/
  | tier (v : TierState)
  /-- Replace what the `sec` unit holds. -/
  | sec (v : SecState)
  /-- Replace what the `text` unit holds. -/
  | text (v : TextState)
  /-- Replace what the `sealer` unit holds. -/
  | sealer (v : SealState)
  /-- Replace what the `rcl` unit holds. -/
  | rcl (v : RclState)
  /-- Replace what the `nand` unit holds. -/
  | nand (v : NandState)
  /-- Replace what the `flash` unit holds. -/
  | flash (v : FlashState)
  /-- Replace what the `fuses` unit holds. -/
  | fuses (v : FuseState)
  /-- Replace what the `boot` unit holds. -/
  | boot (v : BootState)
  /-- Replace what the `mct` unit holds. -/
  | mct (v : MctState)
  /-- Replace what the `egr` unit holds. -/
  | egr (v : EgrState)
  /-- Replace what the `pwr` unit holds. -/
  | pwr (v : PwrState)
  /-- Replace what the `ckpt` unit holds. -/
  | ckpt (v : CkptState)

/-- The effect of a primitive update. -/
def Upd.apply : Upd → State → State
  | .reg r i v, s =>
    if i < r.info.count then { s with regs := s.regs.put regDefault (regKey r i) (v &&& fieldMask r) } else s
  | .shadow r i v, s =>
    if i < r.info.count then { s with shadow := s.shadow.put regDefault (regKey r i) (v &&& fieldMask r) } else s
  | .count c n, s =>
    { s with ctrs := s.ctrs.put (fun _ => 0) c.code (min counterMax (s.count c + n)) }
  | .mem a bs, s => { s with mem := SMap.putList memDefault s.mem a bs }
  | .ls c a bs, s => { s with ls := SMap.putList memDefault s.ls (lsKey c a) bs }
  | .hostMem a bs, s => { s with hostMem := SMap.putList memDefault s.hostMem a bs }
  | .wipe lo hi, s => { s with mem := s.mem.filter fun e => decide (e.1 < lo) || decide (hi ≤ e.1) }
  | .wipeLs c lo hi, s =>
    { s with ls := s.ls.filter fun e => decide (e.1 < lsKey c lo) || decide (lsKey c hi ≤ e.1) }
  | .lost a b, s => { s with lost := s.lost.put (fun _ => false) a b }
  | .emit o, s => { s with out := s.out ++ [o] }
  | .takeFree n, s => { s with free := s.free + n }
  | .reboot, s => s.reboot
  | .sail v, s => { s with sail := v }
  | .core v, s => { s with core := v }
  | .err v, s => { s with err := v }
  | .irq v, s => { s with irq := v }
  | .nmu v, s => { s with nmu := v }
  | .chart v, s => { s with chart := v }
  | .host v, s => { s with host := v }
  | .sdir v, s => { s with sdir := v }
  | .berth v, s => { s with berth := v }
  | .tier v, s => { s with tier := v }
  | .sec v, s => { s with sec := v }
  | .text v, s => { s with text := v }
  | .sealer v, s => { s with sealer := v }
  | .rcl v, s => { s with rcl := v }
  | .nand v, s => { s with nand := v }
  | .flash v, s => { s with flash := v }
  | .fuses v, s => { s with fuses := v }
  | .boot v, s => { s with boot := v }
  | .mct v, s => { s with mct := v }
  | .egr v, s => { s with egr := v }
  | .pwr v, s => { s with pwr := v }
  | .ckpt v, s => { s with ckpt := v }

/-- An action: stop, look at the state and go on, or make an update and go on. -/
inductive Act where
  | done
  | look (k : State → Act)
  | upd (u : Upd) (k : Act)

/-- The state after an action. -/
def Act.run : Act → State → State
  | .done, s => s
  | .look k, s => (k s).run s
  | .upd u k, s => k.run (u.apply s)

/-- One action after another. -/
def Act.andThen : Act → Act → Act
  | .done, b => b
  | .look k, b => .look fun s => (k s).andThen b
  | .upd u k, b => .upd u (k.andThen b)

/-- Actions in order. -/
def Act.all : List Act → Act
  | [] => .done
  | a :: as => a.andThen (Act.all as)

/-- An action for every element, in order. -/
def Act.each {α : Type} (xs : List α) (f : α → Act) : Act := Act.all (xs.map f)

/-- An action under a condition. -/
def Act.when (b : Bool) (a : Act) : Act := if b then a else .done

/-- A single update. -/
def Act.one (u : Upd) : Act := .upd u .done

/-- An outcome: the state after the action. -/
def Act.outcome (a : Act) (s : State) : Host.Outcome State Fault Refusal := .next (a.run s)

/-- Change what the `sail` unit holds. -/
def Act.modSail (f : SailState → SailState) : Act := .look fun s => .one (.sail (f s.sail))

/-- Change what the `core` unit holds. -/
def Act.modCore (f : CoreState → CoreState) : Act := .look fun s => .one (.core (f s.core))

/-- Change what the `err` unit holds. -/
def Act.modErr (f : ErrState → ErrState) : Act := .look fun s => .one (.err (f s.err))

/-- Change what the `irq` unit holds. -/
def Act.modIrq (f : IrqState → IrqState) : Act := .look fun s => .one (.irq (f s.irq))

/-- Change what the `nmu` unit holds. -/
def Act.modNmu (f : NmuState → NmuState) : Act := .look fun s => .one (.nmu (f s.nmu))

/-- Change what the `chart` unit holds. -/
def Act.modChart (f : ChartState → ChartState) : Act := .look fun s => .one (.chart (f s.chart))

/-- Change what the `host` unit holds. -/
def Act.modHost (f : HostState → HostState) : Act := .look fun s => .one (.host (f s.host))

/-- Change what the `sdir` unit holds. -/
def Act.modSdir (f : SdirState → SdirState) : Act := .look fun s => .one (.sdir (f s.sdir))

/-- Change what the `berth` unit holds. -/
def Act.modBerth (f : BerthState → BerthState) : Act := .look fun s => .one (.berth (f s.berth))

/-- Change what the `tier` unit holds. -/
def Act.modTier (f : TierState → TierState) : Act := .look fun s => .one (.tier (f s.tier))

/-- Change what the `sec` unit holds. -/
def Act.modSec (f : SecState → SecState) : Act := .look fun s => .one (.sec (f s.sec))

/-- Change what the `text` unit holds. -/
def Act.modText (f : TextState → TextState) : Act := .look fun s => .one (.text (f s.text))

/-- Change what the `sealer` unit holds. -/
def Act.modSealer (f : SealState → SealState) : Act := .look fun s => .one (.sealer (f s.sealer))

/-- Change what the `rcl` unit holds. -/
def Act.modRcl (f : RclState → RclState) : Act := .look fun s => .one (.rcl (f s.rcl))

/-- Change what the `nand` unit holds. -/
def Act.modNand (f : NandState → NandState) : Act := .look fun s => .one (.nand (f s.nand))

/-- Change what the `flash` unit holds. -/
def Act.modFlash (f : FlashState → FlashState) : Act := .look fun s => .one (.flash (f s.flash))

/-- Change what the `fuses` unit holds. -/
def Act.modFuses (f : FuseState → FuseState) : Act := .look fun s => .one (.fuses (f s.fuses))

/-- Change what the `boot` unit holds. -/
def Act.modBoot (f : BootState → BootState) : Act := .look fun s => .one (.boot (f s.boot))

/-- Change what the `mct` unit holds. -/
def Act.modMct (f : MctState → MctState) : Act := .look fun s => .one (.mct (f s.mct))

/-- Change what the `egr` unit holds. -/
def Act.modEgr (f : EgrState → EgrState) : Act := .look fun s => .one (.egr (f s.egr))

/-- Change what the `pwr` unit holds. -/
def Act.modPwr (f : PwrState → PwrState) : Act := .look fun s => .one (.pwr (f s.pwr))

/-- Change what the `ckpt` unit holds. -/
def Act.modCkpt (f : CkptState → CkptState) : Act := .look fun s => .one (.ckpt (f s.ckpt))

end Sys2Proof.Machine
end

