-- ==== Sys2Proof/Machine/Formats.lean ====
section
/-! DEFINITION. The number formats of AP-1 (R37, R38) and the conversions between them (R39). A number is held
exactly as sign, integer magnitude and power of two, so every result is rounded once, to nearest, ties to even. -/

namespace Sys2Proof

/-- A value of a floating-point or integer format: NaN, a signed infinity, or (−1)^neg × mant × 2^exp. -/
inductive Num where
  | nan
  | inf (neg : Bool)
  | fin (neg : Bool) (mant : Nat) (exp : Int)
  deriving DecidableEq, Repr

/-- The layout of a binary floating-point format of R37: exponent bits, significand bits, bias, the code of the
largest finite magnitude, and whether the encodings above it are infinity and NaN (R37, last column). -/
structure FpFmt where
  expBits : Nat
  manBits : Nat
  bias : Nat
  maxCode : Nat
  hasInf : Bool
  hasNan : Bool
  deriving DecidableEq, Repr

/-- FP8 E4M3: S.1111.111 is NaN, no infinities. -/
def fmtE4M3 : FpFmt := ⟨4, 3, 7, 0x7E, false, true⟩
/-- FP8 E5M2. -/
def fmtE5M2 : FpFmt := ⟨5, 2, 15, 0x7B, true, true⟩
/-- FP6 E2M3, an MXFP6 element. -/
def fmtE2M3 : FpFmt := ⟨2, 3, 1, 0x1F, false, false⟩
/-- FP6 E3M2, an MXFP6 element. -/
def fmtE3M2 : FpFmt := ⟨3, 2, 3, 0x1F, false, false⟩
/-- FP4 E2M1, an MXFP4 element. -/
def fmtE2M1 : FpFmt := ⟨2, 1, 1, 0x7, false, false⟩
/-- BF16. -/
def fmtBF16 : FpFmt := ⟨8, 7, 127, 0x7F7F, true, true⟩
/-- FP32, IEEE 754 binary32. -/
def fmtFP32 : FpFmt := ⟨8, 23, 127, 0x7F7FFFFF, true, true⟩

/-- The number a code of a format stands for (R37); subnormals are exact. -/
def FpFmt.decode (f : FpFmt) (code : Nat) : Num :=
  let neg := bit code (f.expBits + f.manBits)
  let mag := code % 2 ^ (f.expBits + f.manBits)
  let e := mag / 2 ^ f.manBits
  let m := mag % 2 ^ f.manBits
  if mag > f.maxCode then
    if f.hasInf ∧ m = 0 then .inf neg
    else if f.hasNan then .nan
    else .fin neg m 0
  else if e = 0 then .fin neg m (1 - (f.bias : Int) - f.manBits)
  else .fin neg (m + 2 ^ f.manBits) ((e : Int) - f.bias - f.manBits)

/-- `m × 2^sh` rounded to an integer, to nearest, ties to even. -/
def rneShift (m : Nat) (sh : Int) : Nat :=
  if sh ≥ 0 then m * 2 ^ sh.toNat
  else
    let d := 2 ^ (-sh).toNat
    let q := m / d
    let r := m % d
    if 2 * r > d ∨ (2 * r = d ∧ q % 2 = 1) then q + 1 else q

/-- floor(log2) of a nonzero `m × 2^e`. -/
def floorLog2 (m : Nat) (e : Int) : Int := (m.log2 : Int) + e

/-- The magnitude code nearest to `m × 2^e`, ties to even, before any bound is applied. -/
def FpFmt.roundMag (f : FpFmt) (m : Nat) (e : Int) : Nat :=
  if m = 0 then 0
  else
    let emin : Int := 1 - (f.bias : Int)
    let e0 := floorLog2 m e
    let q := (if e0 < emin then emin else e0) - f.manBits
    let r := rneShift m (e - q)
    if r < 2 ^ f.manBits then r
    else ((q + f.manBits + f.bias).toNat) * 2 ^ f.manBits + (r - 2 ^ f.manBits)

/-- The canonical NaN of a format that has one (R39); formats without NaN give 0. -/
def FpFmt.canonNan (f : FpFmt) : Nat :=
  if f.hasNan then
    if f.hasInf then f.maxCode + 1 + 2 ^ (f.manBits - 1) else f.maxCode + 1
  else 0

/-- What a magnitude beyond the largest finite becomes (R39): infinity in FP32 and BF16, saturation elsewhere. -/
def FpFmt.overflow (f : FpFmt) : Nat :=
  if f.expBits = 8 then f.maxCode + 1 else f.maxCode

/-- Conversion of a number to a floating-point format: one rounding, then the table of R39. -/
def FpFmt.encode (f : FpFmt) : Num → Nat
  | .nan => f.canonNan
  | .inf neg =>
    (if neg then 2 ^ (f.expBits + f.manBits) else 0) + (if f.hasInf then f.maxCode + 1 else f.maxCode)
  | .fin neg m e =>
    let c := f.roundMag m e
    (if neg then 2 ^ (f.expBits + f.manBits) else 0) + (if c > f.maxCode then f.overflow else c)

/-- Conversion to a `w`-bit signed integer: round to an integer, ties to even, saturate; NaN gives 0 (R39). -/
def encodeInt (w : Nat) : Num → Nat
  | .nan => 0
  | .inf neg => satSigned w (if neg then -(2 ^ w : Nat) else (2 ^ w : Nat))
  | .fin neg m e =>
    let r : Int := rneShift m e
    satSigned w (if neg then -r else r)

/-- An integer as a number. -/
def Num.ofInt (v : Int) : Num := .fin (decide (v < 0)) v.natAbs 0

/-- The number times 2^n. -/
def Num.scale (n : Int) : Num → Num
  | .fin s m e => .fin s m (e + n)
  | x => x

/-- NaN or infinite. -/
def Num.nonfinite : Num → Bool
  | .fin .. => false
  | _ => true

/-- The number with its sign flipped; NaN stays NaN. -/
def Num.neg : Num → Num
  | .nan => .nan
  | .inf s => .inf !s
  | .fin s m e => .fin (!s) m e

/-- Strictly less, on numbers; NaN compares with nothing, +0 and −0 are equal. -/
def Num.lt : Num → Num → Bool
  | .nan, _ => false
  | _, .nan => false
  | .inf a, .inf b => a && !b
  | .inf a, .fin .. => a
  | .fin .., .inf b => !b
  | .fin a m e, .fin b n g =>
    let lo := min e g
    let x : Int := (m * 2 ^ (e - lo).toNat : Nat)
    let y : Int := (n * 2 ^ (g - lo).toNat : Nat)
    decide ((if a then -x else x) < (if b then -y else y))

/-- The floating-point layout of an element format code of R70, where it has one. -/
def elemFmt : Nat → Option FpFmt
  | 0 => some fmtE4M3
  | 1 => some fmtE5M2
  | 2 => some fmtE2M3
  | 3 => some fmtE3M2
  | 4 => some fmtE2M1
  | 6 => some fmtBF16
  | 7 => some fmtFP32
  | _ => none

/-- Bits of one element of a format code of R70; accumulator records are 16 bytes. -/
def elemBits : Nat → Nat
  | 0 => 8
  | 1 => 8
  | 2 => 6
  | 3 => 6
  | 4 => 4
  | 5 => 8
  | 6 => 16
  | 7 => 32
  | 8 => 32
  | _ => 128

/-- The MX formats of R70: their operands carry block scales. -/
def isMX (fmt : Nat) : Bool := fmt == 2 || fmt == 3 || fmt == 4

/-- The number that an element code of a format code stands for, before any block scale (R37, R38). -/
def decodeElem (fmt code : Nat) : Num :=
  match elemFmt fmt with
  | some f => f.decode code
  | none => .ofInt (signed (elemBits fmt) code)

/-- The number in an element whose block has the given E8M0 scale: element value times 2^(scale − 127); every
element of a block of scale 0xFF is non-finite (R38). -/
def decodeScaled (fmt code scale : Nat) : Num :=
  if scale = 0xFF then .nan else (decodeElem fmt code).scale ((scale : Int) - 127)

/-- Conversion of a number to a format without block scale (R39). -/
def encodeElem (fmt : Nat) (v : Num) : Nat :=
  match elemFmt fmt with
  | some f => f.encode v
  | none => encodeInt (elemBits fmt) v

/-- e_el of R39: 2 for E2M1 and E2M3, 4 for E3M2. -/
def mxElemExp (fmt : Nat) : Int := if fmt = 3 then 4 else 2

/-- The exponent of the largest magnitude of a list of finite values; none when all are zero. -/
def maxExp : List Num → Option Int
  | [] => none
  | .fin _ m e :: vs =>
    if m = 0 then maxExp vs
    else match maxExp vs with
      | none => some (floorLog2 m e)
      | some x => some (max x (floorLog2 m e))
  | _ :: vs => maxExp vs

/-- Conversion of one block of 32 values to an MX format: the scale code, then the element codes (R39). -/
def encodeBlock (fmt : Nat) (vs : List Num) : Nat × List Nat :=
  if vs.any Num.nonfinite then (0xFF, vs.map fun _ => 0)
  else match maxExp vs with
    | none => (0, vs.map fun v => encodeElem fmt v)
    | some x =>
      let se := max (-127) (min 127 (x - mxElemExp fmt))
      ((se + 127).toNat, vs.map fun v => encodeElem fmt (v.scale (-se)))

end Sys2Proof
end

