-- ==== Sys2Proof/Machine/Fp32.lean ====
section
/-! DEFINITION. The vector engine: IEEE 754 binary32 operations rounded to nearest even (R48), the fixed reduction
tree (R49), and the special functions with their tables (R50 to R53), softmax rows (R54) and RMS normalisation
(R55). -/

namespace Sys2Proof

/-- An FP32 code. -/
abbrev F32 := BitVec 32

/-- The number an FP32 code stands for. -/
def F32.num (x : F32) : Num := fmtFP32.decode x.toNat

/-- A number rounded to FP32. -/
def f32OfNum (v : Num) : F32 := BitVec.ofNat 32 (fmtFP32.encode v)

/-- The canonical NaN of FP32. -/
def qnan32 : F32 := 0x7FC00000#32
/-- +Inf. -/
def posInf32 : F32 := 0x7F800000#32
/-- −Inf. -/
def negInf32 : F32 := 0xFF800000#32

/-- NaN test. -/
def F32.isNan (x : F32) : Bool := decide (x.num = .nan)
/-- Sign bit. -/
def F32.sign (x : F32) : Bool := bit x.toNat 31
/-- A zero of either sign. -/
def F32.isZero (x : F32) : Bool := x.toNat % 2 ^ 31 == 0
/-- Infinite. -/
def F32.isInf (x : F32) : Bool := x.toNat % 2 ^ 31 == 0x7F800000

/-- The exact sum of two finite numbers; an exact zero is +0 unless both are −0. -/
def Num.addFin (sa : Bool) (m : Nat) (e : Int) (sb : Bool) (n : Nat) (g : Int) : Num :=
  let lo := min e g
  let x : Int := (m * 2 ^ (e - lo).toNat : Nat)
  let y : Int := (n * 2 ^ (g - lo).toNat : Nat)
  let v := (if sa then -x else x) + (if sb then -y else y)
  if v = 0 then .fin (sa && sb) 0 lo else .fin (decide (v < 0)) v.natAbs lo

/-- The exact sum of two numbers by IEEE 754. -/
def Num.add : Num → Num → Num
  | .nan, _ => .nan
  | _, .nan => .nan
  | .inf a, .inf b => if a = b then .inf a else .nan
  | .inf a, .fin .. => .inf a
  | .fin .., .inf b => .inf b
  | .fin a m e, .fin b n g => .addFin a m e b n g

/-- The exact product of two numbers by IEEE 754. -/
def Num.mul : Num → Num → Num
  | .nan, _ => .nan
  | _, .nan => .nan
  | .inf a, .inf b => .inf (a != b)
  | .inf a, .fin b n _ => if n = 0 then .nan else .inf (a != b)
  | .fin a m _, .inf b => if m = 0 then .nan else .inf (a != b)
  | .fin a m e, .fin b n g => .fin (a != b) (m * n) (e + g)

/-- fadd of R48. -/
def fadd (a b : F32) : F32 := f32OfNum (a.num.add b.num)
/-- fneg of R48; the result of a NaN is the canonical NaN. -/
def fneg (a : F32) : F32 := f32OfNum a.num.neg
/-- fsub of R48. -/
def fsub (a b : F32) : F32 := f32OfNum (a.num.add b.num.neg)
/-- fmul of R48. -/
def fmul (a b : F32) : F32 := f32OfNum (a.num.mul b.num)
/-- scale32 of R48: the exact product y × 2^n rounded once. -/
def scale32 (y : F32) (n : Int) : F32 := f32OfNum (y.num.scale n)

/-- Pairs of neighbours combined: one level of the tree of R49. -/
def treeLevel (f : F32 → F32 → F32) : List F32 → List F32
  | a :: b :: vs => f a b :: treeLevel f vs
  | vs => vs

/-- `k` levels of the tree. -/
def treeLevels (f : F32 → F32 → F32) : Nat → List F32 → List F32
  | 0, vs => vs
  | k + 1, vs => treeLevels f k (treeLevel f vs)

/-- Levels of the tree over `n` elements: the smallest k with 2^k ≥ n. -/
def treeDepth (n : Nat) : Nat := if n ≤ 1 then 0 else (n - 1).log2 + 1

/-- The tree of R49: pad to a power of two with `pad`, then combine neighbours until one value is left. -/
def treeFold (f : F32 → F32 → F32) (pad : F32) (vs : List F32) : F32 :=
  let d := treeDepth vs.length
  (treeLevels f d (vs ++ List.replicate (2 ^ d - vs.length) pad)).headD pad

/-- tree_sum of R49. -/
def treeSum (vs : List F32) : F32 := treeFold fadd 0#32 vs

/-- The pairwise maximum of R49: +0 above −0, a NaN on either side gives NaN. -/
def fmax (a b : F32) : F32 :=
  if a.isNan || b.isNan then qnan32
  else if a.isZero && b.isZero then (if a.sign then b else a)
  else if a.num.lt b.num then b else a

/-- tree_max of R49. -/
def treeMax (vs : List F32) : F32 := treeFold fmax negInf32 vs

/-- ln 2. -/
def constC1 : F32 := 0x3F317218#32
/-- (ln 2)^2 / 2. -/
def constC2 : F32 := 0x3E75FDF0#32
/-- (ln 2)^3 / 6. -/
def constC3 : F32 := 0x3D635847#32
/-- log2 e. -/
def constLOG2E : F32 := 0x3FB8AA3B#32
/-- 1.0. -/
def one32 : F32 := 0x3F800000#32
/-- 0.5. -/
def half32 : F32 := 0x3F000000#32
/-- 1.5. -/
def threeHalves32 : F32 := 0x3FC00000#32
/-- 2.0. -/
def two32 : F32 := 0x40000000#32

/-- EXP[j] of AP-1: the FP32 number nearest 2^(j/64), entries 0 to 31. -/
def tableEXP0 : List Nat :=
  [0x3F800000, 0x3F8164D2, 0x3F82CD87, 0x3F843A29, 0x3F85AAC3, 0x3F871F62, 0x3F88980F, 0x3F8A14D5,
   0x3F8B95C2, 0x3F8D1ADF, 0x3F8EA43A, 0x3F9031DC, 0x3F91C3D3, 0x3F935A2B, 0x3F94F4F0, 0x3F96942D,
   0x3F9837F0, 0x3F99E046, 0x3F9B8D3A, 0x3F9D3EDA, 0x3F9EF532, 0x3FA0B051, 0x3FA27043, 0x3FA43516,
   0x3FA5FED7, 0x3FA7CD94, 0x3FA9A15B, 0x3FAB7A3A, 0x3FAD583F, 0x3FAF3B79, 0x3FB123F6, 0x3FB311C4]

/-- EXP[j] of AP-1: the FP32 number nearest 2^(j/64), entries 32 to 63. -/
def tableEXP1 : List Nat :=
  [0x3FB504F3, 0x3FB6FD92, 0x3FB8FBAF, 0x3FBAFF5B, 0x3FBD08A4, 0x3FBF179A, 0x3FC12C4D, 0x3FC346CD,
   0x3FC5672A, 0x3FC78D75, 0x3FC9B9BE, 0x3FCBEC15, 0x3FCE248C, 0x3FD06334, 0x3FD2A81E, 0x3FD4F35B,
   0x3FD744FD, 0x3FD99D16, 0x3FDBFBB8, 0x3FDE60F5, 0x3FE0CCDF, 0x3FE33F89, 0x3FE5B907, 0x3FE8396A,
   0x3FEAC0C7, 0x3FED4F30, 0x3FEFE4BA, 0x3FF28177, 0x3FF5257D, 0x3FF7D0DF, 0x3FFA83B3, 0x3FFD3E0C]

/-- EXP[j] of AP-1: the FP32 number nearest 2^(j/64). -/
def tableEXP : List Nat := tableEXP0 ++ tableEXP1

/-- RSQ[j] of AP-1: 1 / sqrt(1 + (j + 0.5)/64) for j < 64, 1 / sqrt(2 (1 + (j - 64 + 0.5)/64)) above, entries 0 to 31. -/
def tableRSQ0 : List Nat :=
  [0x3F7F017E, 0x3F7D0D3E, 0x3F7B2452, 0x3F79464E, 0x3F7772CB, 0x3F75A969, 0x3F73E9CB, 0x3F723399,
   0x3F708681, 0x3F6EE232, 0x3F6D4660, 0x3F6BB2C5, 0x3F6A271A, 0x3F68A31D, 0x3F672691, 0x3F65B139,
   0x3F6442DB, 0x3F62DB41, 0x3F617A36, 0x3F601F87, 0x3F5ECB04, 0x3F5D7C7F, 0x3F5C33CC, 0x3F5AF0BF,
   0x3F59B330, 0x3F587AF7, 0x3F5747EE, 0x3F5619F2, 0x3F54F0DF, 0x3F53CC93, 0x3F52ACEE, 0x3F5191D1]

/-- RSQ[j] of AP-1: 1 / sqrt(1 + (j + 0.5)/64) for j < 64, 1 / sqrt(2 (1 + (j - 64 + 0.5)/64)) above, entries 32 to 63. -/
def tableRSQ1 : List Nat :=
  [0x3F507B1D, 0x3F4F68B6, 0x3F4E5A7F, 0x3F4D505E, 0x3F4C4A38, 0x3F4B47F4, 0x3F4A497A, 0x3F494EB3,
   0x3F485787, 0x3F4763E2, 0x3F4673AC, 0x3F4586D3, 0x3F449D42, 0x3F43B6E6, 0x3F42D3AD, 0x3F41F383,
   0x3F411659, 0x3F403C1C, 0x3F3F64BD, 0x3F3E902C, 0x3F3DBE58, 0x3F3CEF34, 0x3F3C22B1, 0x3F3B58C0,
   0x3F3A9154, 0x3F39CC60, 0x3F3909D6, 0x3F3849AA, 0x3F378BD0, 0x3F36D03D, 0x3F3616E4, 0x3F355FBA]

/-- RSQ[j] of AP-1: 1 / sqrt(1 + (j + 0.5)/64) for j < 64, 1 / sqrt(2 (1 + (j - 64 + 0.5)/64)) above, entries 64 to 95. -/
def tableRSQ2 : List Nat :=
  [0x3F3450FC, 0x3F32EF41, 0x3F319589, 0x3F304387, 0x3F2EF8F2, 0x3F2DB587, 0x3F2C7904, 0x3F2B432A,
   0x3F2A13C0, 0x3F28EA8C, 0x3F27C759, 0x3F26A9F4, 0x3F25922C, 0x3F247FD3, 0x3F2372BD, 0x3F226ABE,
   0x3F2167AF, 0x3F206968, 0x3F1F6FC4, 0x3F1E7AA0, 0x3F1D89D9, 0x3F1C9D4E, 0x3F1BB4E1, 0x3F1AD073,
   0x3F19EFE6, 0x3F191320, 0x3F183A05, 0x3F17647C, 0x3F16926C, 0x3F15C3BC, 0x3F14F857, 0x3F143026]

/-- RSQ[j] of AP-1: 1 / sqrt(1 + (j + 0.5)/64) for j < 64, 1 / sqrt(2 (1 + (j - 64 + 0.5)/64)) above, entries 96 to 127. -/
def tableRSQ3 : List Nat :=
  [0x3F136B13, 0x3F12A90B, 0x3F11E9F9, 0x3F112DCA, 0x3F10746D, 0x3F0FBDCE, 0x3F0F09DD, 0x3F0E5889,
   0x3F0DA9C2, 0x3F0CFD79, 0x3F0C539F, 0x3F0BAC25, 0x3F0B06FD, 0x3F0A641A, 0x3F09C36D, 0x3F0924EC,
   0x3F088889, 0x3F07EE37, 0x3F0755ED, 0x3F06BF9E, 0x3F062B40, 0x3F0598C7, 0x3F05082A, 0x3F04795F,
   0x3F03EC5C, 0x3F036117, 0x3F02D788, 0x3F024FA6, 0x3F01C967, 0x3F0144C4, 0x3F00C1B4, 0x3F004030]

/-- RSQ[j] of AP-1: 1 / sqrt(1 + (j + 0.5)/64) for j < 64, 1 / sqrt(2 (1 + (j - 64 + 0.5)/64)) above. -/
def tableRSQ : List Nat := tableRSQ0 ++ tableRSQ1 ++ tableRSQ2 ++ tableRSQ3
/-- RCP[j] of AP-1: the FP32 number nearest 1 / (1 + (j + 0.5)/128) = 256 / (257 + 2j). Every entry lies in
[0.5, 1), so its significand is the quotient by 2^-24 rounded; no entry is a tie. -/
def tableRCP (j : Nat) : F32 :=
  BitVec.ofNat 32 (0x3F000000 + ((2 ^ 24 * 256 * 2 + (257 + 2 * j)) / (2 * (257 + 2 * j)) - 2 ^ 23))

/-- An entry of an FP32 table. -/
def tableAt (t : List Nat) (j : Nat) : F32 := BitVec.ofNat 32 (t.getD j 0)

/-- A finite nonzero FP32 magnitude as m × 2^e with 1 ≤ m < 2, subnormals normalised: m's significand of 24 bits
and e (split of R51). -/
def split32 (x : F32) : Nat × Int :=
  match x.num with
  | .fin _ m e => (m * 2 ^ (23 - m.log2), (m.log2 : Int) + e)
  | _ => (0, 0)

/-- exp2 of R50. -/
def exp2f (x : F32) : F32 :=
  match x.num with
  | .nan => qnan32
  | .inf neg => if neg then 0#32 else posInf32
  | .fin neg m e =>
    if (F32.num 0x43000000#32).lt x.num || x = 0x43000000#32 then posInf32
    else if x.num.lt (F32.num 0xC3200000#32) then 0#32
    else
      -- x as an exact multiple of 2^-160
      let v : Int := (if neg then -(m : Int) else (m : Int)) * (2 ^ (e + 160).toNat : Nat)
      let n := v.fdiv (2 ^ 160 : Nat)
      let fr := (v - n * (2 ^ 160 : Nat)).toNat
      let j := fr / 2 ^ 154
      let r := f32OfNum (.fin false (fr % 2 ^ 154) (-160))
      let p := fadd (fmul constC3 r) constC2
      let p := fadd (fmul p r) constC1
      let p := fadd (fmul p r) one32
      scale32 (fmul (tableAt tableEXP j) p) n

/-- One refinement of recip: t := 1 − m·y, y := y + y·t. -/
def recipStep (m y : F32) : F32 := fadd y (fmul y (fsub one32 (fmul m y)))

/-- recip of R51. -/
def recipf (x : F32) : F32 :=
  match x.num with
  | .nan => qnan32
  | .inf neg => if neg then 0x80000000#32 else 0#32
  | .fin neg m _ =>
    if m = 0 then (if neg then negInf32 else posInf32)
    else
      let (sig, e) := split32 x
      let mf := f32OfNum (.fin false sig (-23))
      let y := recipStep mf (recipStep mf (tableRCP ((sig - 2 ^ 23) / 2 ^ 16)))
      let r := scale32 y (-e)
      if neg then fneg r else r

/-- One refinement of rsqrt: y := y · (1.5 − 0.5·(c·(y·y))). -/
def rsqrtStep (c y : F32) : F32 :=
  fmul y (fsub threeHalves32 (fmul half32 (fmul c (fmul y y))))

/-- rsqrt of R52. -/
def rsqrtf (x : F32) : F32 :=
  match x.num with
  | .nan => qnan32
  | .inf neg => if neg then qnan32 else 0#32
  | .fin neg m _ =>
    if m = 0 then (if neg then negInf32 else posInf32)
    else if neg then qnan32
    else
      let (sig, e) := split32 x
      let mf := f32OfNum (.fin false sig (-23))
      let odd := e % 2 = 1
      let c := if odd then fmul mf two32 else mf
      let k := if odd then (e - 1) / 2 else e / 2
      let j := (sig - 2 ^ 23) / 2 ^ 17
      let y := tableAt tableRSQ (if odd then 64 + j else j)
      scale32 (rsqrtStep c (rsqrtStep c y)) (-k)

/-- silu of R53. -/
def siluf (x : F32) : F32 :=
  if x.isNan then qnan32
  else if x = negInf32 then 0x80000000#32
  else fmul x (recipf (fadd one32 (exp2f (fneg (fmul x constLOG2E)))))

/-- An FP32 value rounded to BF16. -/
def toBf16 (x : F32) : Nat := fmtBF16.encode x.num

/-- What softmax_row gives of a row (R54): probabilities before and after the conversion to BF16, m, sum, and
whether the row stopped after m. -/
structure SoftmaxRow where
  weights : List F32
  m : F32
  sum : F32
  stopped : Bool
  deriving DecidableEq, Repr

/-- softmax_row of R54 without the last conversion to BF16: the weights stay FP32. -/
def softmaxRow (scores : List F32) (scale : F32) : SoftmaxRow :=
  let s := scores.map fun x => fmul x scale
  let m := treeMax s
  if m = negInf32 || m.isNan then ⟨scores.map fun _ => 0#32, m, 0#32, true⟩
  else
    let e := s.map fun x => exp2f (fsub x m)
    let sum := treeSum e
    let inv := recipf sum
    ⟨e.map fun x => fmul x inv, m, sum, false⟩

/-- rmsnorm of R55. -/
def rmsnorm (x g : List F32) (eps invD : F32) : List F32 :=
  let ss := treeSum (x.map fun v => fmul v v)
  let rs := rsqrtf (fadd (fmul ss invD) eps)
  List.zipWith (fun v w => fmul (fmul v rs) w) x g

end Sys2Proof
end

