-- ==== Sys2Proof/Machine/Accum.lean ====
section
/-! DEFINITION. The matrix engine's accumulator: windows (R41, R42), exact terms truncated by floor (R43), records
(R44), their addition and merging (R45, R71, R76) and the one rounding at the end (R46, R47). -/

namespace Sys2Proof

/-- An accumulator record (R44); `acc` holds the 96 bits of ACC as they are stored. -/
structure AccRec where
  xp : Bool
  empty : Bool
  nonfinite : Bool
  L : Int
  acc : Nat
  deriving DecidableEq, Repr

/-- The record in 128 bits (R44). -/
def AccRec.ofBits (w : Nat) : AccRec :=
  ⟨bit w 114, bit w 113, bit w 112, signed 16 (bits w 111 96), bits w 95 0⟩

/-- The 128 bits of a record (R44). -/
def AccRec.toBits (r : AccRec) : Nat :=
  r.acc % 2 ^ 96 + (r.L % ((2 ^ 16 : Nat) : Int)).toNat * 2 ^ 96
    + (if r.nonfinite then 2 ^ 112 else 0) + (if r.empty then 2 ^ 113 else 0) + (if r.xp then 2 ^ 114 else 0)

/-- The sum a record stands for: 0 while EMPTY is 1 (R45). -/
def AccRec.sum (r : AccRec) : Int := if r.empty then 0 else signed 96 r.acc

/-- E_ROW of a pre-scan record (R44). -/
def AccRec.eRow (r : AccRec) : Int := signed 16 (bits r.acc 15 0)
/-- E_COL of a pre-scan record (R44). -/
def AccRec.eCol (r : AccRec) : Int := signed 16 (bits r.acc 31 16)

/-- ACC of a pre-scan record with XP = 1 (R44). -/
def packExps (eRow eCol : Int) : Nat :=
  (eRow % ((2 ^ 16 : Nat) : Int)).toNat + (eCol % ((2 ^ 16 : Nat) : Int)).toNat * 2 ^ 16

/-- A finished sum as a record (R44, R45). -/
def AccRec.ofSum (nonfinite : Bool) (L sum : Int) : AccRec :=
  ⟨false, false, nonfinite, L, (sum % ((2 ^ 96 : Nat) : Int)).toNat⟩

/-- An element of a matrix operand: its own value and the biased scale of its block (127 when it has none). -/
structure MElem where
  val : Num
  scale : Nat
  deriving DecidableEq, Repr

/-- Non-finite for the accumulator: NaN, infinite, or in a block of scale 0xFF (R41). -/
def MElem.nonfinite (x : MElem) : Bool := x.val.nonfinite || x.scale == 0xFF

/-- The unbiased scale exponent: the biased value less 127, 128 for 0xFF (R41). -/
def MElem.scaleExp (x : MElem) : Int := (x.scale : Int) - 127

/-- e_max of an element format (R40). -/
def elemMaxExp : Nat → Int
  | 0 => 9
  | 1 => 16
  | 2 => 3
  | 3 => 5
  | 4 => 3
  | 5 => 8
  | _ => 0

/-- The largest exponent of the nonzero finite elements, −133 when there is none (R42). -/
def bf16Exp (v : List MElem) : Int := (maxExp (v.map MElem.val)).getD (-133)

/-- The largest sum of the two block scale exponents over the reduction (R41). -/
def maxScaleSum : List MElem → List MElem → Int
  | [x], [y] => x.scaleExp + y.scaleExp
  | x :: xs, y :: ys => max (x.scaleExp + y.scaleExp) (maxScaleSum xs ys)
  | _, _ => 0

/-- The window position L of a row and a column over a whole reduction (R41, R42). -/
def windowL (fa fb : Nat) (row col : List MElem) : Int :=
  if fa = 6 then
    (bf16Exp row + 1) + (if fb = 6 then bf16Exp col + 1 else elemMaxExp fb) - 64
  else maxScaleSum row col + elemMaxExp fa + elemMaxExp fb - 64

/-- One term of R43: floor(a × b × 2^(s_A + s_B − L)); a non-finite operand adds 0 (R41). -/
def termOf (L : Int) (x y : MElem) : Int :=
  match x.val, y.val with
  | .fin sa m e, .fin sb n g =>
    if x.scale = 0xFF ∨ y.scale = 0xFF then 0
    else
      let p : Int := (m * n : Nat)
      let p := if sa != sb then -p else p
      let sh := e + g + x.scaleExp + y.scaleExp - L
      if sh ≥ 0 then p * (2 ^ sh.toNat : Nat) else p.fdiv (2 ^ (-sh).toNat : Nat)
  | _, _ => 0

/-- The sum of all terms of a row and a column. -/
def sumTerms (L : Int) : List MElem → List MElem → Int
  | x :: xs, y :: ys => termOf L x y + sumTerms L xs ys
  | _, _ => 0

/-- A non-finite element in either operand. -/
def anyNonfinite (row col : List MElem) : Bool := row.any MElem.nonfinite || col.any MElem.nonfinite

/-- The pairs whose window is fixed: no MX and no BF16 operand (R43). -/
def fixedPair (fa fb : Nat) : Bool := !(isMX fa || isMX fb || fa == 6 || fb == 6)

/-- The record of one output element of MM: the terms added at the window of the whole reduction, or at the input
record's L; none is WINDOW_MISMATCH (R45, R76). -/
def mmElem (fa fb : Nat) (input : Option AccRec) (row col : List MElem) : Option AccRec :=
  match input with
  | none =>
    let L := windowL fa fb row col
    some (.ofSum (anyNonfinite row col) L (sumTerms L row col))
  | some r =>
    if fixedPair fa fb ∧ r.L ≠ windowL fa fb row col then none
    else some (.ofSum (r.nonfinite || anyNonfinite row col) r.L (r.sum + sumTerms r.L row col))

/-- The record that a pre-scan writes for a row and a column (R71, R42). -/
def prescanElem (fa fb : Nat) (row col : List MElem) : AccRec :=
  let L := windowL fa fb row col
  let nf := anyNonfinite row col
  if fa = 6 then ⟨true, true, nf, L, packExps (bf16Exp row) (if fb = 6 then bf16Exp col else 0)⟩
  else ⟨false, true, nf, L, 0⟩

/-- WIN_MERGE of two records; none is WINDOW_MISMATCH (R71, R42). -/
def mergeRec (a b : AccRec) : Option AccRec :=
  if !a.empty || !b.empty || a.xp != b.xp then none
  else if a.xp then
    let er := max a.eRow b.eRow
    let ec := max a.eCol b.eCol
    some ⟨true, true, a.nonfinite || b.nonfinite, a.L + (er - a.eRow) + (ec - a.eCol), packExps er ec⟩
  else some ⟨false, true, a.nonfinite || b.nonfinite, max a.L b.L, 0⟩

/-- ACC_ADD of two records; none is WINDOW_MISMATCH (R45). -/
def addRec (a b : AccRec) : Option AccRec :=
  if a.L ≠ b.L then none
  else if a.empty && b.empty then some ⟨a.xp, true, a.nonfinite || b.nonfinite, a.L, a.acc⟩
  else some (.ofSum (a.nonfinite || b.nonfinite) a.L (a.sum + b.sum))

/-- The one rounding of a record to an output format (R46, R47): ACC × 2^L, a zero sum is +0, and the canonical
NaN when NONFINITE is set. -/
def roundRec (fmt : Nat) (r : AccRec) : Nat :=
  if r.nonfinite then encodeElem fmt .nan
  else
    let v := r.sum
    encodeElem fmt (.fin (decide (v < 0)) v.natAbs r.L)

end Sys2Proof
end

