-- ==== Sys2Proof/Machine/Crc.lean ====
section
/-! DEFINITION. The check values the manual names: CRC32C, CRC-64/NVME and the 32-byte manifest of a tile (R528). -/

namespace Sys2Proof

/-- One bit of a reflected CRC register. -/
def crcBit (poly : Nat) (c : Nat) : Nat := if c % 2 = 1 then (c / 2) ^^^ poly else c / 2

/-- One byte of a reflected CRC. -/
def crcByte (poly : Nat) (c : Nat) (b : Byte) : Nat :=
  let x := c ^^^ b.toNat
  crcBit poly (crcBit poly (crcBit poly (crcBit poly (crcBit poly (crcBit poly (crcBit poly (crcBit poly x)))))))

/-- CRC32C: reflected polynomial 0x82F63B78, preset and inverted. -/
def crc32c (bs : List Byte) : Nat := (bs.foldl (crcByte 0x82F63B78) 0xFFFFFFFF) ^^^ 0xFFFFFFFF

/-- CRC-64/NVME: reflected polynomial 0x9A6C9329AC4BC9B5, preset and inverted. -/
def crc64nvme (bs : List Byte) : Nat :=
  (bs.foldl (crcByte 0x9A6C9329AC4BC9B5) 0xFFFFFFFFFFFFFFFF) ^^^ 0xFFFFFFFFFFFFFFFF

/-- Bytes of a tile (R528). -/
def tileBytes : Nat := 16384

/-- UNIT_CRC[q] of a payload (R528): CRC32C of its quarter, 0 when the quarter is empty. -/
def unitCrc (payload : List Byte) (q : Nat) : Nat :=
  let part := (payload.drop (4096 * q)).take 4096
  if part = [] then 0 else crc32c part

/-- The manifest of a payload: VERSION 1, the kind, LENGTH, the four unit CRCs and CHECK (R528). -/
def manifestOf (kind : Nat) (payload : List Byte) : List Byte :=
  let head := leBytes 1 1 ++ leBytes 1 kind ++ leBytes 2 0 ++ leBytes 4 payload.length
    ++ (List.range 4).flatMap fun q => leBytes 4 (unitCrc payload q)
  head ++ leBytes 8 (crc64nvme head)

/-- KIND TILE of R528. -/
def kindTile : Nat := 1
/-- KIND RECORD of R528. -/
def kindRecord : Nat := 2

/-- A manifest verifies against a payload that was read whole (R529). -/
def manifestOk (kind : Nat) (manifest payload : List Byte) : Bool := manifest == manifestOf kind payload

end Sys2Proof
end

