-- ==== Sys2Proof/Machine/ErrCodes.lean ====
section
/-! DEFINITION. The error index: every error the manual names, its CODE (R537, R608), and the severity, domain
type and ACTION that the severity table gives it (R621). -/

namespace Sys2Proof

/-- Every error of the error index (R608). -/
inductive Err where
  | SAIL_TIME_UNLOCKED | SAIL_TT_REJECTED | SAIL_TT_WRITE_ACTIVE | SAIL_STRICT_MISS | SAIL_CLOSE_OVERRUN 
  | SAIL_WATCH_MISS | SAIL_WATCH_RESET | SAIL_WATCH_RETIRED | SAIL_WATCH_LOW | CORE_DESC_REJECTED 
  | CORE_ROUTE_STARVED | CORE_FAULT | SDIR_RECORD_CRC | SDIR_QUEUE_FULL | BERTH_SPEC_ORPHAN 
  | BERTH_QUEUE_FULL | ATTN_NONFINITE | ATTN_STEER_RANGE | FERRY_QUEUE_FULL | FERRY_DESC_REJECTED 
  | FERRY_BANK_UNPOWERED | FERRY_FAULT | FLASH_UNCORRECTABLE | FLASH_STRIPE_LOST | FLASH_PROGRAM_FAIL 
  | FLASH_ERASE_FAIL | FLASH_DIE_EVENT | FLASH_DIE_FAULT | NMU_QUEUE_FULL | NMU_DESC_REJECTED 
  | NMU_LINE_ECC | NMU_DIGEST_MISMATCH | CKPT_SKIPPED | CKPT_CAPTURE_LATE | CKPT_ABANDONED | CKPT_NO_COMMIT 
  | CKPT_CONFIG_MISMATCH | CKPT_IMAGE | TEXT_QUEUE_FULL | SAMP_QUEUE_FULL | GRAMMAR_DEAD_END 
  | SEAL_QUEUE_FULL | RCL_QUEUE_FULL | RCL_NODE_CRC | CHART_REJECTED | CHART_LEAVE_TIMEOUT | CHART_MOVED 
  | FAB_LANE_EVENT | FAB_LANE_RETIRED | MCT_NO_CHANNEL | MCT_PEER_LOST | EGR_GCL_REJECTED 
  | EGR_GCL_WRITE_ACTIVE | EGR_NO_FIT | HOST_RING_RANGE | HOST_CQ_STALL | HOST_RING_FAILED 
  | HOST_LINK_EVENT | HOST_LINK_RETIRED | CFG_IMAGE_INVALID | CFG_IMAGE_FIELD | CFG_PROFILE_UNSUPPORTED 
  | CFG_BERTH_LAYOUT | CFG_STEER_RECORD | CFG_FLASH_PART | CFG_TEXT_TABLE | CFG_CHART_MASK | CFG_NMU_POOL 
  | CFG_FERRY_CLASS | CFG_FAB_SECURITY | CFG_EGR_CLASS | CFG_PACKAGE_DIGEST | CFG_PACKAGE_LATE 
  | CFG_FUSE_BURN | CFG_HBM_TRAIN | CFG_RESERVED_WRITE | CFG_COPY_FALLBACK | CFG_FLOOR_EARLY 
  | SEC_ENTROPY_FAIL | SEC_BUNDLE_REJECTED | SEC_KEYSLOT_TAG | SEC_KEYSTORE | ERR_MANIFEST | ERR_HBM_LINE 
  | ERR_HBM_PC | ERR_SRAM_WORD | ERR_CAUSEWAY_LANE | ERR_CAUSEWAY_LOW | ERR_UNSERVED | ERR_UNMAPPED 
  | ERR_PARTIAL_WRITE | IRQ_FW_WRITE | IRQ_END_UNKNOWN | BOLL_OVERFLOW | PWR_TRIP | ARITH_WINDOW_MISMATCH
  deriving DecidableEq, Repr

/-- The CODE of an error: block × 0x400 plus its number within the block (R537, R608). -/
def Err.code : Err → Nat
  | .SAIL_TIME_UNLOCKED => 0x0001
  | .SAIL_TT_REJECTED => 0x0002
  | .SAIL_TT_WRITE_ACTIVE => 0x0003
  | .SAIL_STRICT_MISS => 0x0004
  | .SAIL_CLOSE_OVERRUN => 0x0005
  | .SAIL_WATCH_MISS => 0x0006
  | .SAIL_WATCH_RESET => 0x0007
  | .SAIL_WATCH_RETIRED => 0x0008
  | .SAIL_WATCH_LOW => 0x0009
  | .CORE_DESC_REJECTED => 0x0401
  | .CORE_ROUTE_STARVED => 0x0402
  | .CORE_FAULT => 0x0403
  | .SDIR_RECORD_CRC => 0x0801
  | .SDIR_QUEUE_FULL => 0x0802
  | .BERTH_SPEC_ORPHAN => 0x0C01
  | .BERTH_QUEUE_FULL => 0x0C02
  | .ATTN_NONFINITE => 0x1001
  | .ATTN_STEER_RANGE => 0x1002
  | .FERRY_QUEUE_FULL => 0x1401
  | .FERRY_DESC_REJECTED => 0x1402
  | .FERRY_BANK_UNPOWERED => 0x1403
  | .FERRY_FAULT => 0x1404
  | .FLASH_UNCORRECTABLE => 0x1C01
  | .FLASH_STRIPE_LOST => 0x1C02
  | .FLASH_PROGRAM_FAIL => 0x1C03
  | .FLASH_ERASE_FAIL => 0x1C04
  | .FLASH_DIE_EVENT => 0x1C05
  | .FLASH_DIE_FAULT => 0x1C06
  | .NMU_QUEUE_FULL => 0x2001
  | .NMU_DESC_REJECTED => 0x2002
  | .NMU_LINE_ECC => 0x2003
  | .NMU_DIGEST_MISMATCH => 0x2004
  | .CKPT_SKIPPED => 0x2401
  | .CKPT_CAPTURE_LATE => 0x2402
  | .CKPT_ABANDONED => 0x2403
  | .CKPT_NO_COMMIT => 0x2404
  | .CKPT_CONFIG_MISMATCH => 0x2405
  | .CKPT_IMAGE => 0x2406
  | .TEXT_QUEUE_FULL => 0x2801
  | .SAMP_QUEUE_FULL => 0x2C01
  | .GRAMMAR_DEAD_END => 0x2C02
  | .SEAL_QUEUE_FULL => 0x3001
  | .RCL_QUEUE_FULL => 0x3401
  | .RCL_NODE_CRC => 0x3402
  | .CHART_REJECTED => 0x3801
  | .CHART_LEAVE_TIMEOUT => 0x3802
  | .CHART_MOVED => 0x3803
  | .FAB_LANE_EVENT => 0x3C01
  | .FAB_LANE_RETIRED => 0x3C02
  | .MCT_NO_CHANNEL => 0x4001
  | .MCT_PEER_LOST => 0x4002
  | .EGR_GCL_REJECTED => 0x4401
  | .EGR_GCL_WRITE_ACTIVE => 0x4402
  | .EGR_NO_FIT => 0x4403
  | .HOST_RING_RANGE => 0x4801
  | .HOST_CQ_STALL => 0x4802
  | .HOST_RING_FAILED => 0x4803
  | .HOST_LINK_EVENT => 0x4804
  | .HOST_LINK_RETIRED => 0x4805
  | .CFG_IMAGE_INVALID => 0x4C01
  | .CFG_IMAGE_FIELD => 0x4C02
  | .CFG_PROFILE_UNSUPPORTED => 0x4C03
  | .CFG_BERTH_LAYOUT => 0x4C04
  | .CFG_STEER_RECORD => 0x4C05
  | .CFG_FLASH_PART => 0x4C06
  | .CFG_TEXT_TABLE => 0x4C07
  | .CFG_CHART_MASK => 0x4C08
  | .CFG_NMU_POOL => 0x4C09
  | .CFG_FERRY_CLASS => 0x4C0A
  | .CFG_FAB_SECURITY => 0x4C0B
  | .CFG_EGR_CLASS => 0x4C0C
  | .CFG_PACKAGE_DIGEST => 0x4C0D
  | .CFG_PACKAGE_LATE => 0x4C0E
  | .CFG_FUSE_BURN => 0x4C0F
  | .CFG_HBM_TRAIN => 0x4C10
  | .CFG_RESERVED_WRITE => 0x4C11
  | .CFG_COPY_FALLBACK => 0x4C12
  | .CFG_FLOOR_EARLY => 0x4C13
  | .SEC_ENTROPY_FAIL => 0x5001
  | .SEC_BUNDLE_REJECTED => 0x5002
  | .SEC_KEYSLOT_TAG => 0x5003
  | .SEC_KEYSTORE => 0x5004
  | .ERR_MANIFEST => 0x5401
  | .ERR_HBM_LINE => 0x5402
  | .ERR_HBM_PC => 0x5403
  | .ERR_SRAM_WORD => 0x5404
  | .ERR_CAUSEWAY_LANE => 0x5405
  | .ERR_CAUSEWAY_LOW => 0x5406
  | .ERR_UNSERVED => 0x5407
  | .ERR_UNMAPPED => 0x5408
  | .ERR_PARTIAL_WRITE => 0x5409
  | .IRQ_FW_WRITE => 0x5801
  | .IRQ_END_UNKNOWN => 0x5802
  | .BOLL_OVERFLOW => 0x5C01
  | .PWR_TRIP => 0x6001
  | .ARITH_WINDOW_MISMATCH => 0x6801

/-- Severity codes of R535: 0 CORRECTED, 1 CONTAINED, 2 DEGRADED, 3 FATAL. -/
def Err.severity : Err → Nat
  | .SAIL_WATCH_RESET => 2
  | .SAIL_WATCH_RETIRED => 2
  | .SAIL_WATCH_LOW => 3
  | .FLASH_PROGRAM_FAIL => 0
  | .FLASH_ERASE_FAIL => 0
  | .FLASH_DIE_EVENT => 0
  | .FLASH_DIE_FAULT => 2
  | .FAB_LANE_EVENT => 0
  | .FAB_LANE_RETIRED => 2
  | .HOST_LINK_EVENT => 0
  | .HOST_LINK_RETIRED => 2
  | .SEC_KEYSTORE => 3
  | .ERR_CAUSEWAY_LANE => 0
  | .ERR_CAUSEWAY_LOW => 3
  | .ERR_UNSERVED => 3
  | .PWR_TRIP => 3
  | _ => 1

/-- The domain type of R539 that the severity table gives an error. -/
def Err.domain : Err → Nat
  | .SAIL_WATCH_LOW => 10
  | .CORE_FAULT => 6
  | .FERRY_FAULT => 7
  | .FLASH_DIE_EVENT => 2
  | .FLASH_DIE_FAULT => 2
  | .NMU_LINE_ECC => 1
  | .FAB_LANE_EVENT => 3
  | .FAB_LANE_RETIRED => 3
  | .HOST_LINK_EVENT => 4
  | .HOST_LINK_RETIRED => 4
  | .SEC_KEYSTORE => 10
  | .ERR_HBM_LINE => 1
  | .ERR_HBM_PC => 1
  | .ERR_SRAM_WORD => 8
  | .ERR_CAUSEWAY_LANE => 5
  | .ERR_CAUSEWAY_LOW => 10
  | .ERR_UNSERVED => 10
  | .PWR_TRIP => 10
  | _ => 0

/-- The ACTION code of R536 that the severity table gives an error. -/
def Err.action : Err → Nat
  | .SAIL_STRICT_MISS => 4
  | .SAIL_WATCH_RETIRED => 6
  | .SAIL_WATCH_LOW => 8
  | .CORE_DESC_REJECTED => 4
  | .CORE_FAULT => 4
  | .SDIR_RECORD_CRC => 4
  | .SDIR_QUEUE_FULL => 4
  | .BERTH_SPEC_ORPHAN => 4
  | .BERTH_QUEUE_FULL => 4
  | .ATTN_NONFINITE => 4
  | .ATTN_STEER_RANGE => 4
  | .FERRY_QUEUE_FULL => 4
  | .FERRY_DESC_REJECTED => 4
  | .FERRY_BANK_UNPOWERED => 4
  | .FERRY_FAULT => 4
  | .FLASH_UNCORRECTABLE => 4
  | .FLASH_STRIPE_LOST => 4
  | .FLASH_PROGRAM_FAIL => 1
  | .FLASH_ERASE_FAIL => 1
  | .FLASH_DIE_EVENT => 2
  | .FLASH_DIE_FAULT => 6
  | .NMU_QUEUE_FULL => 4
  | .NMU_DESC_REJECTED => 4
  | .NMU_LINE_ECC => 4
  | .NMU_DIGEST_MISMATCH => 4
  | .TEXT_QUEUE_FULL => 4
  | .SAMP_QUEUE_FULL => 4
  | .GRAMMAR_DEAD_END => 4
  | .SEAL_QUEUE_FULL => 4
  | .RCL_QUEUE_FULL => 4
  | .RCL_NODE_CRC => 4
  | .CHART_LEAVE_TIMEOUT => 4
  | .CHART_MOVED => 4
  | .FAB_LANE_EVENT => 2
  | .FAB_LANE_RETIRED => 6
  | .MCT_NO_CHANNEL => 4
  | .MCT_PEER_LOST => 4
  | .EGR_NO_FIT => 4
  | .HOST_RING_RANGE => 4
  | .HOST_RING_FAILED => 4
  | .HOST_LINK_EVENT => 2
  | .HOST_LINK_RETIRED => 6
  | .SEC_BUNDLE_REJECTED => 4
  | .SEC_KEYSLOT_TAG => 4
  | .SEC_KEYSTORE => 8
  | .ERR_MANIFEST => 4
  | .ERR_HBM_LINE => 4
  | .ERR_HBM_PC => 4
  | .ERR_SRAM_WORD => 4
  | .ERR_CAUSEWAY_LANE => 2
  | .ERR_CAUSEWAY_LOW => 8
  | .ERR_UNSERVED => 8
  | .PWR_TRIP => 8
  | .ARITH_WINDOW_MISMATCH => 4
  | _ => 0

end Sys2Proof
end

