-- ==== Sys2Proof/Machine/Ops.lean ====
section
/-! DEFINITION. The named operations that every unit's commands are made of: fields of registers, counters, the
device address space and its two HBM views, stores with line codes, DIRTY and copy-on-write, error records and
containment domains, interrupts, completion records, bollards and MSI-X. -/

namespace Sys2Proof.Machine

/-! ### Fields and counters -/

/-- The live value of a field. -/
def State.get (s : State) (f : Field) (i : Nat := 0) : Nat := bits (s.reg f.reg i).toNat f.hi f.lo

/-- The shadow value of a field (R26). -/
def State.getShadow (s : State) (f : Field) (i : Nat := 0) : Nat := bits (s.shadowReg f.reg i).toNat f.hi f.lo

/-- A one-bit field as a truth value. -/
def State.flag (s : State) (f : Field) (i : Nat := 0) : Bool := s.get f i == 1

/-- A register value with one field replaced. -/
def putField (v : BitVec 128) (f : Field) (x : Nat) : BitVec 128 :=
  BitVec.ofNat 128 (putBits v.toNat f.hi f.lo x)

/-- The device sets a field. -/
def Act.set (f : Field) (x : Nat) (i : Nat := 0) : Act :=
  .look fun s => .one (.reg f.reg i (putField (s.reg f.reg i) f x))

/-- The device sets a one-bit field from a truth value. -/
def Act.setFlag (f : Field) (b : Bool) (i : Nat := 0) : Act := .set f (if b then 1 else 0) i

/-- Set a field's shadow. -/
def Act.setShadow (f : Field) (x : Nat) (i : Nat := 0) : Act :=
  .look fun s => .one (.shadow f.reg i (putField (s.shadowReg f.reg i) f x))

/-- Count one event (R34). -/
def Act.count (c : Ctr) : Act := .one (.count c 1)

/-- Count several events (R34). -/
def Act.countN (c : Ctr) (n : Nat) : Act := .one (.count c n)

/-- The current sailing number (R30). -/
def State.now (s : State) : Nat := s.get F.SAIL_NUMBER_NUMBER

/-- PHASE codes of R32: 0 LATCH, 1 RUN, 2 CLOSE, 3 STOPPED. -/
def State.phase (s : State) : Nat := s.get F.SAIL_STATUS_PHASE

/-- The sailing unit is stopped (R27). -/
def State.stopped (s : State) : Bool := s.phase == 3

/-- The period in µs (R8). -/
def State.periodUs (s : State) : Nat := s.get F.SAIL_PERIOD_PERIOD_US

/-- Sailings in a number of seconds (R10). -/
def State.sailingsIn (s : State) (seconds : Nat) : Nat := seconds * 1000000 / max 1 s.periodUs

/-- TAI seconds of the start of the current sailing (R10). -/
def State.taiSeconds (s : State) : Nat :=
  if s.sail.ran then (s.get F.SAIL_ORIGIN_ORIGIN_NS + s.now * s.periodUs * 1000) / 1000000000
  else (s.sail.clock / 1000000000).toNat

/-- CKPT_STATUS.STATE codes (R295). -/
def ckIdle : Nat := 0
def ckCapture : Nat := 1
def ckDrain : Nat := 2
def ckRestore : Nat := 3
def ckResume : Nat := 4

/-- The state of the checkpoint unit. -/
def State.ckState (s : State) : Nat := s.get F.CKPT_STATUS_STATE

/-- The device is FATAL (R552). -/
def State.fatal (s : State) : Bool := s.flag F.ERR_STATUS_FATAL

/-- Bytes the spec leaves undefined (assumption 3). -/
def freeBytes (from_ : Nat) (n : Nat) : List Byte := (List.range n).map fun k => Config.freeByte (from_ + k)

/-! ### The device address space -/

/-- Bytes of a granule's general-use HBM: 68 GiB (R596). -/
def granuleBytes : Nat := 0x1100000000

/-- End of the granule view: 544 GiB (R594). -/
def hbmEnd : Nat := 0x8800000000

/-- Shared buffers: half A and half B (R594). -/
def sharedBase : Nat := 0x200000000000
/-- Bytes of one half's shared buffer (R594). -/
def sharedHalf : Nat := 0x10000000
/-- Base of the registers in the device address space (R594). -/
def regBase : Nat := 0x300000000000
/-- Base of the spare regions (R594). -/
def spareBase : Nat := 0x400000000000
/-- Base of the island windows (R594). -/
def islandBase : Nat := 0x800000000000

/-- Where a device address leads (R594). HBM is named by its granule-view address. -/
inductive Place where
  | hbm (a : Nat)
  | shared (a : Nat)
  | register (off : Nat)
  | spare (a : Nat)
  | unmapped
  deriving DecidableEq, Repr

/-- The granule-view address of a byte of an island window (R595, R596): `mask` names the island's granules. -/
def islandToGranule (mask o : Nat) : Nat :=
  let gs := bitList 8 mask
  let k := gs.length
  let u := o / 4096
  let q := u % (64 * k)
  let s := q % (2 * k)
  let g := gs.getD (s / 2) 0
  let p := q / (2 * k)
  let f := u / (64 * k)
  g * granuleBytes + (64 * f + 2 * p + s % 2) * 4096 + o % 4096

/-- Where a device address leads under the current chart (R594 to R597). -/
def State.place (s : State) (a : Nat) : Place :=
  if a < hbmEnd then .hbm a
  else if sharedBase ≤ a ∧ a < sharedBase + 2 * sharedHalf then .shared a
  else if regBase ≤ a ∧ a < regBase + 0x4000000 then .register (a - regBase)
  else if spareBase ≤ a ∧ a < spareBase + 0x800000000 then .spare a
  else if islandBase ≤ a ∧ a < islandBase + 8 * 0x10000000000 then
    let g := (a - islandBase) / 0x10000000000
    let o := (a - islandBase) % 0x10000000000
    let mask := s.chart.windows.get (fun _ => 0) g
    if mask ≠ 0 ∧ o < popCount 8 mask * granuleBytes then .hbm (islandToGranule mask o) else .unmapped
  else .unmapped

/-- The key of a device address in memory, for the agents that reach HBM and the shared buffers. -/
def State.memKey (s : State) (a : Nat) : Option Nat :=
  match s.place a with
  | .hbm k => some k
  | .shared k => some k
  | _ => none

/-- General-use HBM in either view. -/
def State.hbmKey (s : State) (a : Nat) : Option Nat :=
  match s.place a with
  | .hbm k => some k
  | _ => none

/-- The pieces of a range that lie in one 4 KiB unit each: address and length (R241). -/
def unitPieces : Nat → Nat → Nat → List (Nat × Nat)
  | 0, _, _ => []
  | fuel + 1, a, n =>
    if n = 0 then []
    else
      let m := min n (4096 - a % 4096)
      (a, m) :: unitPieces fuel (a + m) (n - m)

/-- The pieces of a range. -/
def piecesOf (a n : Nat) : List (Nat × Nat) := unitPieces (n / 4096 + 2) a n

/-- Every byte of a range is in general-use HBM. -/
def State.hbmRange (s : State) (a n : Nat) : Bool := (piecesOf a n).all fun p => (s.hbmKey p.1).isSome

/-- Every byte of a range is in general-use HBM or the shared buffers. -/
def State.memRange (s : State) (a n : Nat) : Bool := (piecesOf a n).all fun p => (s.memKey p.1).isSome

/-- Bytes at a memory key. -/
def State.bytesAt (s : State) (k n : Nat) : List Byte := SMap.getList memDefault s.mem k n

/-- Bytes of a range of device addresses; a unit that is not memory reads as all ones (R598). -/
def State.readMem (s : State) (a n : Nat) : List Byte :=
  (piecesOf a n).flatMap fun p =>
    match s.place p.1 with
    | .hbm k => s.bytesAt k p.2
    | .shared k => s.bytesAt k p.2
    | .spare k => s.bytesAt k p.2
    | _ => List.replicate p.2 0xFF

/-- A little-endian number in memory. -/
def State.readLE (s : State) (a n : Nat) : Nat := ofLE (s.readMem a n)

/-- Bytes of a local store (R82). -/
def State.readLs (s : State) (core a n : Nat) : List Byte := SMap.getList memDefault s.ls (lsKey core a) n

/-- Bytes of host memory at a bus address. -/
def State.readHost (s : State) (a n : Nat) : List Byte := SMap.getList memDefault s.hostMem a n

/-- The stack and frame of a granule-view address (R596). -/
def frameOf (k : Nat) : Nat × Nat :=
  let g := k / granuleBytes
  let u := (k % granuleBytes) / 4096
  (2 * g + u % 2, 32 * (u / 64) + u / 2 % 32)

/-- The granule-view address of a stack's frame (R596). -/
def frameAddr (stack f : Nat) : Nat :=
  stack / 2 * granuleBytes + (64 * (f / 32) + 2 * (f % 32) + stack % 2) * 4096

/-- The device address of a frame of a stack's spare region (R594). -/
def spareAddr (stack f : Nat) : Nat := spareBase + stack * 0x80000000 + f * 4096

/-- Key of a frame in the per-frame maps. -/
def frameKey (stack f : Nat) : Nat := stack * 2 ^ 24 + f

/-- Pseudo-channel domain index of a granule-view address: 32 × stack + pseudo-channel (R539). -/
def domainOf (k : Nat) : Nat := 32 * (frameOf k).1 + (frameOf k).2 % 32

/-- The first lost line or word among the lines that a range touches. -/
def State.lostIn (s : State) (line k n : Nat) : Option Nat :=
  if n = 0 then none
  else
    let lo := k / line
    let hi := (k + n - 1) / line
    (s.lost.find? fun e => decide (lo * line ≤ e.1) && decide (e.1 < (hi + 1) * line) && e.2).map (·.1)

/-- A unit of a retired pseudo-channel for which the pool had no frame: every access to it fails (R544). -/
def State.unitGone (s : State) (k : Nat) : Bool :=
  let d := domainOf k
  s.err.retired.get (fun _ => false) (65536 + d) && decide (s.err.moved.get (fun _ => 0) d ≤ (frameOf k).2 / 32)

/-- The first lost line that a read of a range of device addresses meets (R532, R544). -/
def State.lostLine (s : State) (a n : Nat) : Option Nat :=
  (piecesOf a n).findSome? fun p =>
    match s.place p.1 with
    | .hbm k => if s.unitGone k then some k else s.lostIn 64 k p.2
    | .spare k => s.lostIn 64 k p.2
    | .shared k => s.lostIn 8 k p.2
    | _ => none

/-- The first lost line that a write to a range covers only in part, or retired unit: that write is not made
(R532, R544). -/
def State.lostPart (s : State) (a n : Nat) : Option Nat :=
  (piecesOf a n).findSome? fun p =>
    match s.place p.1 with
    | .hbm k =>
      if s.unitGone k then some k
      else
        (s.lost.find? fun e =>
          e.2 && decide (e.1 < k + p.2) && decide (k < e.1 + 64)
            && !(decide (k ≤ e.1) && decide (e.1 + 64 ≤ k + p.2))).map (·.1)
    | _ => none

/-! ### Stores -/

/-- Membership in a set of frames. -/
def FrameSet.has (x : FrameSet) (k : Nat) : Bool :=
  x.rest || x.listed.get (fun _ => false) k || x.channels.contains (k / 2 ^ 24 * 32 + k % 32)

/-- A frame added. -/
def FrameSet.add (x : FrameSet) (k : Nat) : FrameSet :=
  if x.has k then x else { x with listed := x.listed.put (fun _ => false) k true }

/-- The union of two sets. -/
def FrameSet.union (x y : FrameSet) : FrameSet :=
  ⟨x.rest || y.rest, y.listed.foldl (fun m e => m.put (fun _ => false) e.1 true) x.listed, x.channels ++ y.channels⟩

/-- The lowest frame of a stack at or above `f` and below `limit` that is in the set. -/
def FrameSet.next (x : FrameSet) (stack f limit : Nat) : Option Nat :=
  let here := (List.range 32).filterMap fun j =>
    if x.rest || x.channels.contains (stack * 32 + (f + j) % 32) then some (f + j) else none
  let listed := x.listed.filterMap fun e =>
    if e.1 / 2 ^ 24 = stack ∧ f ≤ e.1 % 2 ^ 24 then some (e.1 % 2 ^ 24) else none
  (here.take 1 ++ listed.take 1).foldl
    (fun best g => if g < limit then some (match best with | some h => min g h | none => g) else best) none

/-- The frame is watched by copy-on-write and not yet preserved (R253); frames outside DRAIN_SET count as preserved
(R278). -/
def State.mustPreserve (s : State) (stack f : Nat) : Bool :=
  s.flag F.NMU_COW_ARMED stack && s.nmu.drainSet.has (frameKey stack f) && decide (s.get F.NMU_COW_FRONTIER stack ≤ f)
    && decide (f < s.get F.NMU_COW_LIMIT stack)
    && s.nmu.preserved.get (fun _ => 0) (frameKey stack f) == 0

/-- A spare frame of a stack lies in a retired pseudo-channel, and is no pool frame any more (R544). -/
def State.spareGone (s : State) (stack f : Nat) : Bool := s.err.retired.get (fun _ => false) (65536 + 32 * stack + f % 32)

/-- How many of the first `j` frames of a stack's pool lie in pseudo-channels that are in service (R544). -/
def State.poolRank (s : State) (stack j : Nat) : Nat :=
  let base := s.get F.NMU_POOL_BASE
  ((List.range 32).map fun p => if s.spareGone stack p then 0 else ceilDiv (j - (p + 32 - base % 32) % 32) 32).foldl (· + ·) 0

/-- The first free pool frame of a stack (R253): frames BASE to BASE + FRAMES − 1, less those in retired pseudo-channels
and those at the top that took in the units of one (R544). -/
def State.freePool (s : State) (stack : Nat) : Option Nat :=
  let frames := s.get F.NMU_POOL_FRAMES
  if s.get F.NMU_STACK_POOL_FREE stack = 0 then none
  else
    let left := s.poolRank stack frames - s.nmu.poolGone.get (fun _ => 0) stack
    let used := s.nmu.poolUsed.filter fun e => decide (e.1 / 2 ^ 20 = stack)
    let base := s.get F.NMU_POOL_BASE
    ((List.range (min frames (32 * (used.length + 1)))).find? fun j =>
      !s.spareGone stack (base + j) && decide (s.poolRank stack j < left)
        && !(s.nmu.poolUsed.get (fun _ => false) (stack * 2 ^ 20 + base + j))).map (base + ·)

/-- Write bytes of one 4 KiB unit at a granule-view address: the line codes of whole lines are fresh (R532) and the
frame is marked DIRTY (R278). -/
def Act.writeFrame (k : Nat) (bs : List Byte) : Act :=
  let (stack, f) := frameOf k
  .look fun s =>
    .all
      [ .one (.mem k bs),
        .each (s.lost.filter fun e => decide (k ≤ e.1) && decide (e.1 + 64 ≤ k + bs.length)) fun e =>
          .one (.lost e.1 false),
        .modNmu fun n => { n with dirty := n.dirty.add (frameKey stack f) } ]

/-! ### MSI-X, interrupts -/

/-- What an MSI-X table entry reads as at reset: Vector Control has its mask bit set (assumption 14). -/
def msixDefault (_ : Nat) : BitVec 128 := 0x1000000000000000000000000#128

/-- An MSI-X vector is masked. -/
def State.msixMasked (s : State) (v : Nat) : Bool := bit (s.host.msixTable.get msixDefault v).toNat 96

/-- Send an MSI-X message, or set its pending bit while the vector is masked (R463). -/
def Act.msix (v : Nat) : Act :=
  .look fun s =>
    if s.msixMasked v then
      .modHost fun h => { h with msixPending := h.msixPending ||| BitVec.ofNat 72 (2 ^ v) }
    else .one (.emit (.msix v))

/-- Set a bit of HOST_EVENT; vector 0 is sent when it becomes 1 (R463, R469). -/
def Act.hostEvent (f : Field) : Act :=
  .look fun s => if s.flag f then .done else (Act.set f 1).andThen (.msix 0)

/-- The core an interrupt source is presented to (R563). -/
def State.irqTarget (s : State) (src : Nat) : Nat := s.get F.IRQ_SRC_TARGET src

/-- Every source number, ascending. -/
def irqSources : List Nat := List.range 0x45

/-- A core's presented source (R564). -/
def State.presented (s : State) (c : Nat) : Option Nat :=
  irqSources.find? fun src => s.irqTarget src == c && s.flag F.IRQ_SRC_PRESENTED src

/-- The core's lowest-numbered pending unmasked source becomes its presented source when it has none (R564). -/
def Act.present (c : Nat) : Act :=
  .look fun s =>
    if (s.presented c).isSome then .done
    else match irqSources.find? fun src =>
        s.irqTarget src == c && s.flag F.IRQ_SRC_PENDING src && !s.flag F.IRQ_SRC_MASK src with
      | some src => .setFlag F.IRQ_SRC_PRESENTED true src
      | none => .done

/-- An event latches its source (R563). -/
def Act.interrupt (src : Nat) : Act :=
  (Act.setFlag F.IRQ_SRC_PENDING true src).andThen (.look fun s => .present (s.irqTarget src))

/-! ### Errors -/

/-- The bytes of an error record (R536). -/
def ErrRec.bytes (r : ErrRec) : List Byte :=
  let body := leBytes 8 r.seq ++ leBytes 8 r.sailing ++ leBytes 2 r.code
    ++ leBytes 1 (r.severity + 4 * r.depth + (if r.escalated then 16 else 0))
    ++ leBytes 1 r.dtype ++ leBytes 2 r.dindex ++ leBytes 1 r.action ++ leBytes 1 0 ++ leBytes 8 r.session
    ++ leBytes 4 r.tag ++ leBytes 4 0 ++ leBytes 8 r.address ++ leBytes 8 r.detail ++ leBytes 4 0
  body ++ leBytes 4 (crc32c body)

/-- Replace the record queue; QUEUED and ERR_HEAD show it (R551, R552). -/
def Act.setErrQueue (q : List ErrRec) : Act :=
  .all
    [ .modErr fun e => { e with queue := q },
      .set F.ERR_STATUS_QUEUED q.length,
      .each (List.range 8) fun i =>
        .set F.ERR_HEAD_WORD (match q with | r :: _ => leAt r.bytes (8 * i) 8 | [] => 0) i ]

/-- The device becomes FATAL (R464, R550): the code in HOST_FATAL, ERR_FATAL sent. -/
def Act.goFatal (code : Nat) : Act :=
  .look fun s =>
    if s.fatal then .done
    else .all [.set F.ERR_STATUS_FATAL 1, .set F.HOST_FATAL_CODE code, .one (.emit (.errFatal code))]

/-- Write an error record (R536, R538): queued, copied to management, vector 1 and ERR_RECORD; a full queue drops a
record below FATAL, and a FATAL record replaces the newest. -/
def Act.record (r : ErrRec) : Act :=
  .look fun s =>
    let full := decide (s.err.queue.length ≥ 64)
    let r := { r with seq := s.err.seq + 1 }
    let drop := Act.all [.count .ERR_OVERFLOW_COUNT, .set F.ERR_STATUS_OVERFLOW 1]
    let queued := Act.all
      [ .modErr fun e => { e with seq := e.seq + 1 },
        .one (.emit (.mgmt r)),
        .when (decide (r.severity < 3)) (.msix 1),
        .interrupt 0x42 ]
    if r.severity < 3 then
      if full then drop else (Act.setErrQueue (s.err.queue ++ [r])).andThen queued
    else
      .all
        [ .when full drop,
          .setErrQueue ((if full then s.err.queue.dropLast else s.err.queue) ++ [r]),
          queued,
          .goFatal r.code ]

/-- The granule that holds a domain's hardware, for the domains that lie in one (R375, R539). -/
def domainGranule (dtype i : Nat) : Option Nat :=
  if dtype = 1 then some (i / 64)
  else if dtype = 6 then some (i / 10)
  else if dtype = 7 then some (i / 4)
  else if dtype = 8 ∧ i < 3840 then some (i / 480)
  else none

/-- The island of the current chart that owns a granule. -/
def State.islandOf (s : State) (g : Nat) : Option Nat :=
  (List.range 8).find? fun i => bit (s.get F.CHART_ISLAND_GRANULES i) g

/-- The island that owns a granule is in POWER_OFF, or has not yet left it (R580, R582). -/
def State.asleep (s : State) (g : Nat) : Bool :=
  match s.islandOf g with
  | some i => s.pwr.off.get (fun _ => 0) i ≠ 0
  | none => false

/-- An unknown event for an island starts its exit from POWER_OFF (R582). -/
def Act.wakeIsland (i : Nat) : Act :=
  .look fun s =>
    .when (s.pwr.off.get (fun _ => 0) i == 1) (.modPwr fun p => { p with off := p.off.put (fun _ => 0) i 3 })

/-- An unknown event for the island that owns a granule (R582). -/
def Act.wakeGranule (g : Nat) : Act :=
  .look fun s => match s.islandOf g with
    | some i => .wakeIsland i
    | none => .done

/-- Roles (R376). -/
def roleOff : Nat := 0
def roleHome : Nat := 1
def roleLayer : Nat := 2
def roleExpert : Nat := 3
def roleRecall : Nat := 4

/-- The islands of the current chart, by number (R394). -/
def State.islands (s : State) : List (Nat × Island) :=
  (List.range 8).filterMap fun i =>
    let g := s.get F.CHART_ISLAND_GRANULES i
    if g = 0 then none else some (i, ⟨s.get F.CHART_ISLAND_ROLE i, g, s.get F.CHART_ISLAND_ASSIGN i⟩)

/-- The number of the HOME island, which never changes (R378). -/
def State.homeIsland (s : State) : Nat := ((s.islands.find? fun x => x.2.role == roleHome).map (·.1)).getD 0

/-- D of an old island: its open operations stamped with the previous epoch: messages without their answers, crossings
and share moves of a HOME island, share moves of a LAYER island, and queries on indexes in its stacks (R387, R395). -/
def State.drainCount (s : State) (i : Nat) : Nat :=
  if s.flag F.CHART_STATUS_PREV_LIVE then
    let e := s.get F.CHART_STATUS_PREVIOUS
    let old := (s.chart.prev.get (fun _ => none) i).getD ⟨roleOff, 0, 0⟩
    let here (n : Nat) : Bool := match s.hbmKey (s.get F.RCL_INDEX_BASE_ADDR + 256 * n) with
      | some k => bit old.granules (k / granuleBytes)
      | none => false
    (s.mct.ops.filter fun o => o.epoch == e && o.island == i).length
      + (if old.role = roleHome then (s.sdir.moves.filter (·.epoch == e)).length else 0)
      + (if old.role = roleLayer then (s.tier.shares.filter (·.epoch == e)).length else 0)
      + (s.rcl.active.filter fun q => q.epoch == e && here q.index).length
  else 0

/-- CHART_DRAIN shows the drain counts (R395). -/
def Act.showDrain : Act := .look fun s => .each (List.range 8) fun i => .set F.CHART_DRAIN_COUNT (s.drainCount i) i

/-- An operation has ended: the drain counts follow while the previous epoch is live. -/
def Act.opOver : Act := .look fun s => .when (s.flag F.CHART_STATUS_PREV_LIVE) .showDrain

/-- Degrade an island (R548): DEGRADED is set, and a notice carrying the code goes to the chart service. -/
def Act.degrade (island code : Nat) : Act :=
  .all
    [ .modChart fun c =>
        { c with causes := c.causes.put (fun _ => []) island (c.causes.get (fun _ => []) island ++ [code]) },
      .setFlag F.CHART_ISLAND_DEGRADED true island,
      .one (.emit (.degraded island code true)) ]

/-- One cause of DEGRADED goes; the bit clears when none remains, and a notice says so (R548). -/
def Act.undegrade (island code : Nat) : Act :=
  .look fun s =>
    let old := s.chart.causes.get (fun _ => []) island
    let left := old.erase code
    .all
      [ .modChart fun c => { c with causes := c.causes.put (fun _ => []) island left },
        .when (old ≠ [] && left = [])
          ((Act.setFlag F.CHART_ISLAND_DEGRADED false island).andThen (.one (.emit (.degraded island code false)))) ]

/-- Key of a package section. -/
def pkgKey (type index : Nat) : Nat := type * 2 ^ 32 + index

/-- The role whose islands need a section of a type (R487). -/
def pkgRole (type : Nat) : Nat := if type = 1 ∨ type = 3 then roleLayer else if type = 2 then roleExpert else roleHome

/-- A package section awaits a refetch, which degrades the islands that need it (R490, R531, R548). -/
def Act.awaitSection (type index code : Nat) : Act :=
  .look fun s =>
    .when (!s.boot.awaits.any fun e => e.1 == pkgKey type index)
      ((Act.modBoot fun b => { b with awaits := b.awaits ++ [(pkgKey type index, code)] }).andThen
        (.each (s.islands.filter fun i => i.2.role == pkgRole type) fun i => .degrade i.1 code))

/-- The refetch of a section has succeeded (R548). -/
def Act.sectionBack (type index : Nat) : Act :=
  .look fun s =>
    .each (s.boot.awaits.filter fun e => e.1 == pkgKey type index) fun e =>
      (Act.modBoot fun b => { b with awaits := b.awaits.erase e }).andThen
        (.each (s.islands.filter fun i => i.2.role == pkgRole type) fun i => .undegrade i.1 e.2)

/-- Key of a domain. -/
def domKey (dtype i : Nat) : Nat := dtype * 65536 + i

/-- The domain is retired (R542, R549). -/
def State.retired (s : State) (dtype i : Nat) : Bool := s.err.retired.get (fun _ => false) (domKey dtype i)

/-- Retire a domain (R541, R542): it is marked and counted, and the island that holds the part is degraded. What
else the retirement of each kind of part does is carried out at the end of the command. -/
def Act.retire (dtype i code : Nat) : Act :=
  .look fun s =>
    if s.retired dtype i then .done
    else
      .all
        [ .modErr fun e =>
            { e with
              retired := e.retired.put (fun _ => false) (domKey dtype i) true, todo := e.todo ++ [domKey dtype i] },
          .count .ERR_RETIRE_COUNT,
          if dtype = 9 then .degrade i code
          else match (domainGranule dtype i).bind s.islandOf with
            | some isl => .degrade isl code
            | none => .done ]

/-- What an error carries besides its name. -/
structure ErrInfo where
  dindex : Nat := 0
  session : Nat := 0
  tag : Nat := 0
  address : Nat := 0
  detail : Nat := 0
  /-- The action is still running: the domain settles only after it completes (R539). -/
  busy : Bool := false

/-- The default value of a domain. -/
def domDefault (_ : Nat) : Domain := {}

/-- Raise an error with a severity, a domain type and an action of its own (R535 to R541): nesting in the domain's
recovery, escalation, retirement, the record. -/
def Act.raiseAs (e : Err) (sev dtype action : Nat) (x : ErrInfo := {}) : Act :=
  .look fun s =>
    let dom := s.err.domains.get domDefault (domKey dtype x.dindex)
    let depth := if dtype = 0 then 1 else min 3 (dom.depth + 1)
    let sev' := if depth = 1 then sev else if depth = 2 then min 3 (max sev (dom.severity + 1)) else max sev 2
    let esc := decide (sev' > sev)
    let retires := dtype ≠ 0 ∧ sev' ≥ 2 ∧ (depth ≥ 2 ∨ action = 6)
    let action' := if esc ∧ retires then 6 else action
    let r : ErrRec :=
      ⟨0, s.now, e.code, if dtype = 0xA then 3 else sev', depth, esc, dtype, x.dindex, action', x.session, x.tag,
        x.address, x.detail⟩
    .all
      [ .when (dtype ≠ 0 : Bool)
          (.modErr fun er =>
            { er with
              domains := er.domains.put domDefault (domKey dtype x.dindex)
                ⟨depth, sev', x.busy || dom.busy || decide (retires ∧ !s.retired dtype x.dindex ∧ 1 ≤ dtype ∧ dtype ≤ 3),
                  s.now + s.get F.ERR_CFG_SETTLE⟩ }),
        .when esc (.count .ERR_ESCALATE_COUNT),
        .when (decide (sev' ≠ 0) || action' == 5 || s.flag F.ERR_CFG_LOG_CORRECTED) (.record r),
        .when (decide retires) (.retire dtype x.dindex e.code) ]

/-- Raise an error with the severity, domain type and action of the severity table (R621). -/
def Act.raise (e : Err) (x : ErrInfo := {}) : Act := .raiseAs e e.severity e.domain e.action x

/-- A domain's action completes: it leaves recovery SETTLE sailings later (R539). -/
def Act.actionDone (dtype i : Nat) : Act :=
  .look fun s =>
    let dom := s.err.domains.get domDefault (domKey dtype i)
    if dom.depth = 0 then .done
    else
      .modErr fun e =>
        { e with
          domains := e.domains.put domDefault (domKey dtype i)
            { dom with busy := false, settleAt := s.now + s.get F.ERR_CFG_SETTLE } }

/-- The sailings of a rule's window (R542, R554). -/
def State.windowSailings (s : State) (t : Nat) : Nat := s.sailingsIn (s.get F.ERR_RULE_WINDOW_H t * 3600)

/-- An earlier fault event at the same place lies within the window of rule `t` (R542). -/
def State.recurs (s : State) (t dtype dindex place : Nat) : Bool :=
  s.err.notes.any fun n =>
    n.dtype == dtype && n.dindex == dindex && n.place == place && decide (s.now ≤ n.sailing + s.windowSailings t)

/-- Keep a fault event (R542). -/
def Act.note (dtype dindex place : Nat) : Act :=
  .look fun s => .modErr fun e => { e with notes := e.notes ++ [⟨dtype, dindex, place, s.now⟩] }

/-- A fault without retries (R542, R621): CONTAINED at first, the part retired on a second within the window. -/
def Act.fault (e : Err) (t dtype : Nat) (x : ErrInfo) : Act :=
  .look fun s =>
    .all
      [ if s.recurs t dtype x.dindex 0 then .raiseAs e 2 dtype 6 x else .raiseAs e 1 dtype 4 x,
        .note dtype x.dindex 0 ]

/-- The copy of session firmware in HBM: its first byte and its length, once start-up is over (R557). -/
def State.fwCopy (s : State) : Option (Nat × Nat) :=
  let st := s.get F.CFG_STATUS_STAGE
  if st = 8 ∨ st = 9 then
    (s.hbmKey (s.get F.IRQ_FW_BASE_ADDR)).map fun k => (k, (s.irq.local_.map fun e => e.2.length).foldl max 0)
  else none

/-- Copy a frame to a pool frame and mark it preserved (R253). A lost line stays lost in the copy (R244). -/
def Act.preserve (stack f pool : Nat) : Act :=
  .look fun s =>
    let k := frameAddr stack f
    let p := spareAddr stack pool
    .all
      [ .one (.mem p (s.bytesAt k 4096)),
        .each (s.lost.filter fun e => decide (p ≤ e.1) && decide (e.1 < p + 4096)) fun e => .one (.lost e.1 false),
        .each (s.lost.filter fun e => decide (k ≤ e.1) && decide (e.1 < k + 4096) && e.2) fun e =>
          .all
            [ .one (.lost (p + (e.1 - k)) true), .count .NMU_LINE_ECC_COUNT,
              .raise .NMU_LINE_ECC { dindex := domainOf k, address := e.1 } ],
        .modNmu fun n =>
          { n with
            preserved := n.preserved.put (fun _ => 0) (frameKey stack f) (pool + 1),
            poolUsed := n.poolUsed.put (fun _ => false) (stack * 2 ^ 20 + pool) true },
        .set F.NMU_STACK_POOL_FREE (s.get F.NMU_STACK_POOL_FREE stack - 1) stack,
        .count .NMU_COW_COPY_COUNT ]

/-- A write waits for an earlier one: a held write to its frame, or a stalled write of its pseudo-channel (R254,
R255). -/
def State.blocked (s : State) (k : Nat) : Bool :=
  s.nmu.held.any fun h => frameOf h.addr == frameOf k || (h.why == .stalled && domainOf h.addr == domainOf k)

/-- Copy-on-write holds a write. -/
def Act.holdWrite (k : Nat) (bs : List Byte) (why : HoldWhy) : Act :=
  .look fun s => .modNmu fun n => { n with held := n.held ++ [⟨k, bs, why, s.now⟩] }

/-- A write whose frame needs a copy finds no free pool frame: it stalls, and is counted once (R255). -/
def Act.stallWrite (k : Nat) (bs : List Byte) : Act := (Act.holdWrite k bs .stalled).andThen (.count .NMU_COW_STALL_COUNT)

/-- A write that nothing precedes: its frame is preserved first when copy-on-write watches it, and the write stalls when
the pool has no free frame (R253, R255). -/
def Act.storeOpen (k : Nat) (bs : List Byte) : Act :=
  let (stack, f) := frameOf k
  .look fun s =>
    if s.mustPreserve stack f then
      match s.freePool stack with
      | some pool => (Act.preserve stack f pool).andThen (.writeFrame k bs)
      | none => .stallWrite k bs
    else .writeFrame k bs

/-- The held writes of a pseudo-channel are looked at again, in arrival order: those that nothing holds any more
proceed (R253 to R255). -/
def Act.recheck (d : Nat) : Act :=
  .look fun s =>
    let mine (h : HeldWrite) : Bool := domainOf h.addr == d
    (Act.modNmu fun n => { n with held := n.held.filter fun h => !mine h }).andThen
      (.each (s.nmu.held.filter mine) fun h =>
        .look fun s =>
          let fr := frameOf h.addr
          if s.blocked h.addr || (h.why != .behind && s.mustPreserve fr.1 fr.2) then
            .modNmu fun n => { n with held := n.held ++ [h] }
          else .storeOpen h.addr h.bytes)

/-- A write would change the copy of session firmware (R557). -/
def State.fwHit (s : State) (k n : Nat) : Bool :=
  let fw := s.fwCopy.getD (0, 0)
  decide (fw.2 ≠ 0) && decide (k < fw.1 + fw.2) && decide (fw.1 < k + n)

/-- Bytes of all steering records (R161). -/
def State.steerBytes (s : State) : Nat :=
  s.get F.ATTN_STEER_CFG_SETS * s.get F.BERTH_SHAPE_LAYERS * s.get F.ATTN_STEER_CFG_RECORD_KIB * 1024

/-- A range of the granule view touches the steering records (R161). -/
def State.steerHit (s : State) (k n : Nat) : Bool :=
  (piecesOf (s.get F.ATTN_STEER_BASE_ADDR) s.steerBytes).any fun p =>
    match s.hbmKey p.1 with
    | some j => decide (k < j + p.2) && decide (j < k + n)
    | none => false

/-- The steering sets whose records a range of the granule view touches (R161). -/
def State.steerSets (s : State) (k n : Nat) : List Nat :=
  let set := s.get F.BERTH_SHAPE_LAYERS * s.get F.ATTN_STEER_CFG_RECORD_KIB * 1024
  (List.range (s.get F.ATTN_STEER_CFG_SETS)).filter fun v =>
    (piecesOf (s.get F.ATTN_STEER_BASE_ADDR + v * set) set).any fun p =>
      match s.hbmKey p.1 with
      | some j => decide (k < j + p.2) && decide (j < k + n)
      | none => false

/-- The steering records cannot change while the device runs (R161). -/
def State.steerFixed (s : State) (k n : Nat) : Bool :=
  let st := s.get F.CFG_STATUS_STAGE
  (st == 8 || st == 9) && s.steerHit k n

/-- A write to one unit of HBM, held when earlier writes hold it. -/
def Act.storeAny (k : Nat) (bs : List Byte) : Act :=
  .look fun s => if s.blocked k then .holdWrite k bs .behind else .storeOpen k bs

/-- A write to one unit of HBM by an agent: dropped when it would change the copy of session firmware (R557) or a
steering record (R161). -/
def Act.storeUnit (k : Nat) (bs : List Byte) : Act :=
  .look fun s =>
    if s.fwHit k bs.length then .raise .IRQ_FW_WRITE { address := k }
    else if s.steerFixed k bs.length then .done
    else .storeAny k bs

/-- A write to a range of device addresses, unit by unit; bytes that lead to no memory are not written. -/
def Act.storeRaw (a : Nat) (bs : List Byte) : Act :=
  .each (piecesOf a bs.length) fun p =>
    let part := (bs.drop (p.1 - a)).take p.2
    .look fun s =>
      match s.place p.1 with
      | .hbm k => .storeUnit k part
      | .shared k =>
        .all
          [ .one (.mem k part),
            .each (s.lost.filter fun e => decide (k ≤ e.1) && decide (e.1 + 8 ≤ k + part.length)) fun e =>
              .one (.lost e.1 false) ]
      | _ => .done

/-- Undefined bytes in general-use HBM or a shared buffer (assumption 3). -/
def Act.freeStore (a n : Nat) : Act :=
  .look fun s => .all [.storeRaw a (freeBytes s.free n), .one (.takeFree n)]

/-- A unit meets an uncorrectable HBM line: ERR_HBM_LINE in the line's pseudo-channel (R532, R621). -/
def Act.lineLost (k : Nat) (x : ErrInfo := {}) : Act :=
  .raise .ERR_HBM_LINE { x with dindex := domainOf k, address := k }

/-- An uncorrectable SRAM word in a bank (R533, R542, R621). -/
def Act.sramFault (bank address : Nat) (x : ErrInfo := {}) : Act :=
  .fault .ERR_SRAM_WORD 6 8 { x with dindex := bank, address := address }

/-- The SRAM bank domain index of a shared-buffer address: 3,840 + 128 × half + bank of 2 MiB (R539). -/
def sharedBank (k : Nat) : Nat := 3840 + (k - sharedBase) / 0x200000

/-- A unit meets a lost line of HBM or a lost word of a shared buffer (R532, R533, R622). -/
def Act.entryLost (k : Nat) (x : ErrInfo := {}) : Act :=
  if sharedBase ≤ k ∧ k < sharedBase + 2 * sharedHalf then .sramFault (sharedBank k) k x else .lineLost k x

/-- An agent names an unmapped address (R598). -/
def Act.unmapped (a : Nat) (x : ErrInfo := {}) : Act := .raise .ERR_UNMAPPED { x with address := a }

/-- A write by a unit: not made, and ERR_HBM_LINE recorded, when it covers part of a lost line (R532). -/
def Act.store (a : Nat) (bs : List Byte) : Act :=
  .look fun s =>
    match s.lostPart a bs.length with
    | some k => .lineLost k
    | none => .storeRaw a bs

/-! ### Completion records -/

/-- The control core is live: watched, and not retired (R559, R566). -/
def State.coreLive (s : State) (c : Nat) : Bool :=
  bit (s.get F.SAIL_WATCH_CFG_CORES) c && !bit (s.get F.SAIL_WATCH_STATUS_RETIRED) c

/-- The core whose queue takes a completion with a given TAG (R559, R622). -/
def State.tagCore (s : State) (tag : Nat) : Nat :=
  let named := if tag = 0 then s.get F.IRQ_CFG_HOUSE_CORE else tag / 2 ^ 28 % 16
  if s.coreLive named then named
  else
    let house := s.get F.IRQ_CFG_HOUSE_CORE
    if s.coreLive house then house else ((List.range 16).find? s.coreLive).getD house

/-- A unit completes: its record waits for its queue (R560). -/
def Act.complete (source status index tag result : Nat) : Act :=
  .look fun s =>
    .modIrq fun q =>
      { q with waiting := q.waiting ++ [⟨s.tagCore tag, source, status, index, tag, s.now, result, false⟩] }

/-- As `complete`, reporting values that are packed into RESULT. -/
def Act.completeWith (source status index tag : Nat) (results : List Nat) : Act :=
  .complete source status index tag (Config.packResults source results).toNat

/-- What a unit finds where an entry of `n` bytes was queued: its bytes, or an address that is unmapped, that is not
in general-use HBM where the entry must be, or that is lost. -/
inductive EntryRead where
  | ok (bytes : List Byte)
  | unmapped
  | outside
  | lost (k : Nat)
  deriving DecidableEq, Repr

/-- Read a queued entry (R598, R622); `hbm` says that entries of the unit lie in general-use HBM (R97, R128, R246,
R300). -/
def State.entryAt (s : State) (hbm : Bool) (a n : Nat) : EntryRead :=
  if !s.memRange a n then .unmapped
  else if hbm && !s.hbmRange a n then .outside
  else match s.lostLine a n with
    | some k => .lost k
    | none => .ok (s.readMem a n)

/-- Take entry `a` of a unit's queue: an unreadable one ends with TAG 0 and the given status (R598, R622), as does one
outside the memory its unit takes entries from (assumption 124); otherwise `body` runs on the entry's bytes. `pop` takes
it out of the queue. -/
def Act.takeEntry (hbm : Bool) (a n : Nat) (pop : Act) (unreadable : Act) (body : List Byte → Act) : Act :=
  .look fun s =>
    match s.entryAt hbm a n with
    | .unmapped => .all [pop, .unmapped a, unreadable]
    | .outside => .all [pop, unreadable]
    | .lost k => .all [pop, .entryLost k { detail := a }, unreadable]
    | .ok b => body b

/-- A client address of the text, sampler and recall engines: general-use HBM, or a shared-buffer location when bit
[47] is 1 (R300). -/
def clientAddr (a : Nat) : Option Nat :=
  if bit a 47 then
    if bits a 46 29 = 0 then some (sharedBase + bits a 28 28 * sharedHalf + bits a 27 0) else none
  else some a

/-- The device address of a client range; none when it is not wholly in general-use HBM or one shared buffer. -/
def State.clientRange (s : State) (a n : Nat) : Option Nat :=
  match clientAddr a with
  | none => none
  | some k =>
    if bit a 47 then if bits a 27 0 + n ≤ sharedHalf then some k else none
    else if s.hbmRange k n then some k else none

/-- A tile of a region whose manifests lie at `manifests`: its payload verifies (R529). -/
def State.tileVerifies (s : State) (base manifests i : Nat) : Bool :=
  (s.lostLine (base + 16384 * i) 16384).isNone && (s.lostLine (manifests + 32 * i) 32).isNone
    && manifestOk kindTile (s.readMem (manifests + 32 * i) 32) (s.readMem (base + 16384 * i) 16384)

/-- A failed manifest check is counted (R531). -/
def Act.manifestFail : Act := .count .ERR_MANIFEST_FAIL_COUNT

/-- The lost line that writing `n` bytes as tiles with manifests would cover only in part (R532). -/
def State.tilesLost (s : State) (base manifests n : Nat) : Option Nat :=
  (s.lostPart base (16384 * ceilDiv n 16384)).or (s.lostPart manifests (32 * ceilDiv n 16384))

/-- Write bytes as tiles with manifests: zeros fill the last tile (R303). -/
def Act.writeTiles (base manifests : Nat) (bs : List Byte) : Act :=
  .each (List.range (ceilDiv bs.length 16384)) fun i =>
    let t := padTo 16384 (bs.drop (16384 * i))
    (Act.store (base + 16384 * i) t).andThen (.store (manifests + 32 * i) (manifestOf kindTile t))

/-! ### Bollards -/

/-- A bollard's wait list (R568). -/
def State.waiters (s : State) (b : Nat) : List Taker := s.irq.lists.get (fun _ => []) b

/-- Replace a bollard's list; WAITERS shows whether it is empty (R577). -/
def Act.setWaiters (b : Nat) (l : List Taker) : Act :=
  .all
    [ .modIrq fun q => { q with lists := q.lists.put (fun _ => []) b l },
      .setFlag F.BOLL_COUNT_WAITERS (!l.isEmpty) b ]

/-- A grant reaches its taker (R570). -/
def Act.granted : Taker → Act
  | .slot c =>
    .modSail fun x =>
      { x with
        items := match x.items.get (fun _ => []) c with
          | i :: is => x.items.put (fun _ => []) c ({ i with granted := true, joined := false } :: is)
          | [] => x.items }
  | .ferry f t => .modIrq fun q => { q with ferryGrants := q.ferryGrants.put (fun _ => false) (f * 2 ^ 20 + t) true }
  | .control c => .all [.setFlag F.BOLL_WAIT_PENDING false c, .interrupt (0x30 + c)]

/-- Step 4 of R570: while the count is above 0 and the list is not empty, the head is granted. -/
def Act.grants (b : Nat) : Nat → Act
  | 0 => .done
  | n + 1 =>
    .look fun s =>
      match s.waiters b with
      | [] => .done
      | t :: ts =>
        if s.get F.BOLL_COUNT_COUNT b = 0 then .done
        else
          .all
            [ .set F.BOLL_COUNT_COUNT (s.get F.BOLL_COUNT_COUNT b - 1) b,
              .setWaiters b ts, .granted t, .grants b n ]

/-- Grant what can be granted. -/
def Act.grantAll (b : Nat) : Act := .look fun s => .grants b (s.waiters b).length

/-- Post counts to a bollard (R568, R570): saturating at 65,535 with BOLL_OVERFLOW, then grants. -/
def Act.post (b n : Nat) : Act :=
  .look fun s =>
    let c := s.get F.BOLL_COUNT_COUNT b + n
    .all
      [ .set F.BOLL_COUNT_COUNT (min c 65535) b,
        .when (decide (c > 65535))
          ((Act.count .BOLL_OVERFLOW_COUNT).andThen (.raise .BOLL_OVERFLOW { detail := b })),
        .grantAll b ]

/-- A taker joins a bollard's list; it is granted at once when a count is there and nobody is before it (R570). -/
def Act.join (b : Nat) (t : Taker) : Act :=
  .look fun s => (Act.setWaiters b (s.waiters b ++ [t])).andThen (.grantAll b)

/-- A taker leaves every list without taking a count (R571). -/
def Act.leave (t : Taker) : Act :=
  .look fun s =>
    .each (s.irq.lists.filter fun e => e.2.contains t) fun e => .setWaiters e.1 (e.2.filter (· ≠ t))

end Sys2Proof.Machine
end

