-- ==== Sys2Proof/Machine/Operands.lean ====
section
/-! DEFINITION. The operand forms of tiles: the fields of a tile descriptor (R68), local-store addresses and circular
windows (R69, R86), the placement and extent of every operand (R69, R77, R78, R80, R81, R624), and the packing of
elements in bytes (R69). -/

namespace Sys2Proof.Machine

/-! ### The tile descriptor -/

/-- OP of a descriptor. -/
def tOp (d : BitVec 512) : Nat := bits d.toNat 511 504
def tFmtA (d : BitVec 512) : Nat := bits d.toNat 503 500
def tFmtB (d : BitVec 512) : Nat := bits d.toNat 499 496
def tFmtOut (d : BitVec 512) : Nat := bits d.toNat 495 492
def tSparse (d : BitVec 512) : Nat := bits d.toNat 491 490
def tAccIn (d : BitVec 512) : Bool := bit d.toNat 489
def tPost (d : BitVec 512) : Bool := bit d.toNat 488
def tPostBollard (d : BitVec 512) : Nat := bits d.toNat 487 473
/-- Rows M. -/
def tM (d : BitVec 512) : Nat := bits d.toNat 469 463 + 1
/-- Matrix columns N. -/
def tN (d : BitVec 512) : Nat := bits d.toNat 462 456 + 1
def tKTotalM1 (d : BitVec 512) : Nat := bits d.toNat 447 424
/-- Row length n of a vector-path tile. -/
def tRow (d : BitVec 512) : Nat := tKTotalM1 d + 1
def tKOffset (d : BitVec 512) : Nat := bits d.toNat 423 400
def tKTileM1 (d : BitVec 512) : Nat := bits d.toNat 396 384
/-- Reduction length of the tile. -/
def tK (d : BitVec 512) : Nat := tKTileM1 d + 1
def tAAddr (d : BitVec 512) : Nat := bits d.toNat 375 348
def tBAddr (d : BitVec 512) : Nat := bits d.toNat 347 320
def tOutAddr (d : BitVec 512) : Nat := bits d.toNat 311 284
def tAccAddr (d : BitVec 512) : Nat := bits d.toNat 283 256
def tMetaAddr (d : BitVec 512) : Nat := bits d.toNat 247 220
def tAuxAddr (d : BitVec 512) : Nat := bits d.toNat 219 192
def tScalar (d : BitVec 512) : F32 := BitVec.ofNat 32 (bits d.toNat 191 160)
def tScalarB (d : BitVec 512) : F32 := BitVec.ofNat 32 (bits d.toNat 159 128)
def tStrideA (d : BitVec 512) : Nat := bits d.toNat 127 112
def tStrideB (d : BitVec 512) : Nat := bits d.toNat 111 96
def tStrideOut (d : BitVec 512) : Nat := bits d.toNat 95 80
def tParam (d : BitVec 512) : Nat := bits d.toNat 79 64
def tTag (d : BitVec 512) : Nat := bits d.toNat 63 32
def tNotify (d : BitVec 512) : Bool := bit d.toNat 0

/-- A reserved bit of the descriptor is 1 (R68). -/
def tReserved (d : BitVec 512) : Bool :=
  let w := d.toNat
  bits w 472 470 ≠ 0 || bits w 455 448 ≠ 0 || bits w 399 397 ≠ 0 || bits w 383 376 ≠ 0 || bits w 319 312 ≠ 0
    || bits w 255 248 ≠ 0 || bits w 31 1 ≠ 0

/-- BAND of PARAM (R153). -/
def tBand (d : BitVec 512) : Bool := bit (tParam d) 0
/-- GRAD of PARAM (R153). -/
def tGrad (d : BitVec 512) : Bool := bit (tParam d) 1
/-- k of a ROUTE tile's PARAM (R79). -/
def tRouteK (d : BitVec 512) : Nat := bits (tParam d) 3 0
/-- NORM of a ROUTE tile's PARAM (R79). -/
def tRouteNorm (d : BitVec 512) : Bool := bit (tParam d) 4
/-- k of a COMBINE tile's PARAM (R81). -/
def tCombineK (d : BitVec 512) : Nat := bits (tParam d) 4 1
/-- The shared expert joins a COMBINE tile (R81). -/
def tCombineShared (d : BitVec 512) : Bool := bit (tParam d) 0

/-- The path an operation runs on (R71); none for a reserved OP. -/
def opPath (op : Nat) : Option Path :=
  if op = 0x01 then some .matrix
  else if op = 0x02 then some .prescan
  else if [0x03, 0x04, 0x05, 0x10, 0x11, 0x12, 0x13, 0x14, 0x18, 0x19, 0x20, 0x21, 0x22, 0x23, 0x24, 0x25, 0x26,
      0x27, 0x28, 0x30, 0x31, 0x38, 0x39].contains op then some .vector
  else none

/-! ### Local-store addresses -/

/-- Bytes of a local store: 12 MiB (R82). -/
def lsBytes : Nat := 0xC00000

/-- A resolved local-store address: flat, or an offset in a circular window (R69, R86). -/
inductive Loc where
  | flat (a : Nat)
  | window (base size head off : Nat)
  deriving DecidableEq, Repr

/-- A local-store address field, with the windows captured at issue; none is out of range or misaligned (R69, R86). -/
def resolve (wins : List (BitVec 64)) (fa : Nat) : Option Loc :=
  if bits fa 4 0 ≠ 0 then none
  else if !bit fa 27 then
    if bits fa 26 24 ≠ 0 then none else some (.flat (bits fa 23 0))
  else
    let w := (wins.getD (bits fa 26 24) 0).toNat
    let head := bits w 63 48 * 256
    let size := bits w 47 32 * 256
    let base := bits w 31 16 * 256
    if size = 0 ∨ head ≥ size ∨ base + size > lsBytes then none
    else some (.window base size head (bits fa 23 0))

/-- Every byte of a range of the given length is in range (R69, R86). -/
def Loc.fits (l : Loc) (len : Nat) : Bool :=
  match l with
  | .flat a => decide (a + len ≤ lsBytes)
  | .window _ size _ off => decide (off + len ≤ size)

/-- The contiguous pieces of `len` bytes from offset `o`: local-store address, offset within the range, length. A
range may wrap from the top of a window to its base (R86). -/
def Loc.pieces (l : Loc) (o len : Nat) : List (Nat × Nat × Nat) :=
  match l with
  | .flat a => if len = 0 then [] else [(a + o, 0, len)]
  | .window base size head off =>
    let p := (head + off + o) % size
    if len = 0 then []
    else if p + len ≤ size then [(base + p, 0, len)]
    else [(base + p, 0, size - p), (base, size - p, len - (size - p))]

/-- Read `len` bytes at offset `o`. -/
def Loc.read (s : State) (core : Nat) (l : Loc) (o len : Nat) : List Byte :=
  (l.pieces o len).flatMap fun p => s.readLs core p.1 p.2.2

/-- The writes of bytes at offset `o`: local-store address and bytes. -/
def Loc.write (l : Loc) (o : Nat) (bs : List Byte) : List (Nat × List Byte) :=
  (l.pieces o bs.length).map fun p => (p.1, (bs.drop p.2.1).take p.2.2)

/-! ### Element packing -/

/-- Little-endian numbers of `k` bytes each. -/
def chunksLE (k : Nat) : Nat → List Byte → List Nat
  | 0, _ => []
  | n + 1, bs => ofLE (bs.take k) :: chunksLE k n (bs.drop k)

/-- The codes in a byte: two of 4 bits, the lower first (assumption 20). -/
def nibbles : List Byte → List Nat
  | [] => []
  | b :: bs => b.toNat % 16 :: b.toNat / 16 :: nibbles bs

/-- Four codes of 6 bits in three bytes, lowest first (assumption 20). -/
def sixes : List Byte → List Nat
  | a :: b :: c :: bs =>
    let v := ofLE [a, b, c]
    v % 64 :: v / 64 % 64 :: v / 4096 % 64 :: v / 262144 :: sixes bs
  | _ => []

/-- The codes of `n` packed elements of `w` bits. -/
def unpack (w n : Nat) (bs : List Byte) : List Nat :=
  if w = 4 then (nibbles bs).take n
  else if w = 6 then (sixes bs).take n
  else chunksLE (w / 8) n bs

/-- Pairs of 4-bit codes to bytes. -/
def packNibbles : List Nat → List Byte
  | a :: b :: cs => BitVec.ofNat 8 (a + 16 * b) :: packNibbles cs
  | [a] => [BitVec.ofNat 8 a]
  | [] => []

/-- Fours of 6-bit codes to bytes. -/
def packSixes : List Nat → List Byte
  | a :: b :: c :: d :: cs => leBytes 3 (a + 64 * b + 4096 * c + 262144 * d) ++ packSixes cs
  | _ => []

/-- Codes of `w` bits packed in bytes. -/
def pack (w : Nat) (cs : List Nat) : List Byte :=
  if w = 4 then packNibbles cs
  else if w = 6 then packSixes cs
  else cs.flatMap fun c => leBytes (w / 8) c

/-! ### Rows, pitches and extents -/

/-- Bytes of a packed row of `n` elements, with block scales for an MX format (R69). DESIGN CHOICE (assumption 17): the
padding to 32 bytes is part of no row: nothing writes it. -/
def rowBytes (fmt n : Nat) : Nat := ceilDiv (n * elemBits fmt) 8 + (if isMX fmt then n / 32 else 0)

/-- Round up to a multiple of 32 (R69). -/
def up32 (n : Nat) : Nat := ceilDiv n 32 * 32

/-- The pitch of rows: the stride in 32-byte units, or packed when it is 0 (R69). -/
def pitchOf (stride row : Nat) : Nat := if stride = 0 then up32 row else 32 * stride

/-- The extent of `m` rows, first byte to last. DESIGN CHOICE (assumption 17): the gaps between strided rows lie within
the range that R66 and R75 check. -/
def extent (m pitch row : Nat) : Nat := (m - 1) * pitch + row

/-- Elements that a stored column of B holds: half in 2:4 form, `blocks` of 128 when block-masked (R77, R78). -/
def colElems (d : BitVec 512) (blocks : Nat) : Nat :=
  if tSparse d = 1 then tK d / 2 else if tSparse d = 2 then 128 * blocks else tK d

/-- Scale bytes of a stored column of B: every block's in 2:4 form, 4 per present block when block-masked. -/
def colScales (d : BitVec 512) (blocks : Nat) : Nat :=
  if !isMX (tFmtB d) then 0 else if tSparse d = 2 then 4 * blocks else tK d / 32

/-- Bytes of a stored column of B with a number of present blocks. -/
def colBytes (d : BitVec 512) (blocks : Nat) : Nat :=
  ceilDiv (colElems d blocks * elemBits (tFmtB d)) 8 + colScales d blocks

/-- Bytes of metadata: 64 for each group of four in 2:4 form, the 64-bit mask when block-masked (R77, R78). -/
def metaBytes (d : BitVec 512) : Nat :=
  if tSparse d = 1 then tK d / 4 * 64 else if tSparse d = 2 then 8 else 0

/-- One operand of a tile: the address field, the rows, their pitch, the bytes of a row, and whether the tile writes it. -/
structure OpRange where
  field : Nat
  rows : Nat
  pitch : Nat
  row : Nat
  write : Bool
  deriving DecidableEq, Repr

/-- The length of an operand's range (R66). -/
def OpRange.len (r : OpRange) : Nat := extent r.rows r.pitch r.row

/-- Bytes each ROUTE list spans for range and hazard checks (R80). -/
def routeListBytes : Nat := 16 + 16 * 2048

/-- Every operand that a tile reads or writes, by its operation (R69, R71, R624), when a block-masked B holds `blocks`
blocks and the deferred-in list of ROUTE spans `listLen` bytes. -/
def tileRangesAt (blocks listLen : Nat) (d : BitVec 512) : List OpRange :=
  let op := tOp d
  let m := tM d
  let n := tRow d
  let rd (f len : Nat) : OpRange := ⟨f, 1, 0, len, false⟩
  let wr (f len : Nat) : OpRange := ⟨f, 1, 0, len, true⟩
  let aRow (fmt : Nat) : OpRange := ⟨tAAddr d, m, pitchOf (tStrideA d) (rowBytes fmt n), rowBytes fmt n, false⟩
  let bRow (fmt : Nat) : OpRange := ⟨tBAddr d, m, pitchOf (tStrideB d) (rowBytes fmt n), rowBytes fmt n, false⟩
  let outRow (fmt : Nat) : OpRange := ⟨tOutAddr d, m, pitchOf (tStrideOut d) (rowBytes fmt n), rowBytes fmt n, true⟩
  let mat (fmt : Nat) (w : Bool) (f : Nat) : OpRange :=
    ⟨f, m, pitchOf (tStrideOut d) (rowBytes fmt (tN d)), rowBytes fmt (tN d), w⟩
  let band := if tBand d then [rd (tMetaAddr d) (16 * m)] else []
  if op = 0x01 ∨ op = 0x02 then
    let aLen := rowBytes (tFmtA d) (tK d)
    let bLen := colBytes d blocks
    [ ⟨tAAddr d, m, pitchOf (tStrideA d) aLen, aLen, false⟩,
      ⟨tBAddr d, tN d, pitchOf (tStrideB d) bLen, bLen, false⟩,
      mat (if op = 0x01 then tFmtOut d else 9) true (tOutAddr d) ]
    ++ (if tSparse d = 0 then [] else [rd (tMetaAddr d) (metaBytes d)])
    ++ (if tAccIn d then [mat 9 false (tAccAddr d)] else [])
  else if op = 0x03 ∨ op = 0x04 then [aRow 9, bRow 9, outRow 9]
  else if op = 0x05 then [aRow 9, outRow (tFmtOut d)]
  else if op = 0x10 ∨ op = 0x11 ∨ op = 0x27 then [aRow (tFmtA d), bRow (tFmtB d), outRow (tFmtOut d)]
  else if op = 0x13 ∨ op = 0x14 ∨ op = 0x22 then [aRow (tFmtA d), rd (tAuxAddr d) (4 * n), outRow (tFmtOut d)]
  else if op = 0x18 ∨ op = 0x19 then [aRow (tFmtA d), wr (tOutAddr d) (4 * m)]
  else if op = 0x20 then [aRow (tFmtA d), outRow 6, wr (tAuxAddr d) (8 * m)] ++ band
  else if op = 0x21 then
    [aRow (tFmtA d), outRow 6, rd (tAuxAddr d) (8 * m)] ++ band ++ (if tGrad d then [bRow 7] else [])
  else if op = 0x30 then
    [aRow 7, rd (tAuxAddr d) (2 * n), wr (tAuxAddr d) (2 * n), wr (tOutAddr d) routeListBytes,
      wr (tMetaAddr d) routeListBytes]
    ++ (if tAccIn d then [rd (tAccAddr d) listLen] else [])
  else if op = 0x31 then
    let k := tCombineK d
    let rows := m * (if tCombineShared d then k + 1 else k)
    let row := rowBytes (tFmtA d) n
    [ ⟨tAAddr d, rows, pitchOf (tStrideA d) row, row, false⟩,
      ⟨tBAddr d, m, pitchOf (tStrideB d) 32, 4 * k, false⟩,
      outRow (tFmtOut d) ]
  else if op = 0x38 then
    [ ⟨tAAddr d, m, pitchOf (tStrideA d) n, n, false⟩, ⟨tOutAddr d, m, pitchOf (tStrideOut d) n, n, true⟩ ]
  else if op = 0x39 then []
  else [aRow (tFmtA d), outRow (tFmtOut d)]

/-- Every operand of a tile at the extent that R66 and R75 check: every block of a block-masked B, the full length of the
ROUTE lists (R78, R80). -/
def tileRanges (d : BitVec 512) : List OpRange := tileRangesAt (tK d / 128) routeListBytes d

/-- Every range of a tile is in range (R75, R86). -/
def rangesFit (wins : List (BitVec 64)) (d : BitVec 512) : Bool :=
  (tileRanges d).all fun r => match resolve wins r.field with
    | some l => l.fits r.len
    | none => false

/-- The window of a WIN_ADV tile is enabled and its HEAD lies below SIZE (R71, R86). -/
def winAdvOk (wins : List (BitVec 64)) (d : BitVec 512) : Bool :=
  let w := (wins.getD (bits (tParam d) 2 0) 0).toNat
  decide (bits w 47 32 ≠ 0) && decide (bits w 63 48 < bits w 47 32)

/-- The local-store byte ranges of a tile, with whether it writes them (R66). -/
def tilePieces (wins : List (BitVec 64)) (d : BitVec 512) : List (Nat × Nat × Bool) :=
  (tileRanges d).flatMap fun r => match resolve wins r.field with
    | some l => (l.pieces 0 r.len).map fun p => (p.1, p.2.2, r.write)
    | none => []

/-- The local-store bytes of an operand, row by row: address, length, whether they are written. -/
def OpRange.touches (wins : List (BitVec 64)) (r : OpRange) : List (Nat × Nat × Bool) :=
  match resolve wins r.field with
  | some l => (List.range r.rows).flatMap fun i => (l.pieces (i * r.pitch) r.row).map fun p => (p.1, p.2.2, r.write)
  | none => []

/-- The local-store bytes that a tile may touch, row by row (R85). -/
def tileTouches (wins : List (BitVec 64)) (d : BitVec 512) : List (Nat × Nat × Bool) :=
  (tileRanges d).flatMap (OpRange.touches wins)

/-- HEAD of a window after a WIN_ADV tile, from the window captured at issue, in units of 256 bytes (R71, R86). -/
def advanced (w : BitVec 64) (d : BitVec 512) : Nat :=
  (bits w.toNat 63 48 + tKTileM1 d + 1) % bits w.toNat 47 32

/-- Two byte ranges overlap. -/
def overlaps (a n b m : Nat) : Bool := decide (a < b + m) && decide (b < a + n)

/-- A tile must wait for a tile in flight: one of its ranges overlaps an output of that tile, or one of its outputs
overlaps an input of it (R66). -/
def hazard (mine theirs : List (Nat × Nat × Bool)) : Bool :=
  mine.any fun a => theirs.any fun b => (b.2.2 || a.2.2) && overlaps a.1 a.2.1 b.1 b.2.1

/-- The operand pairs of the matrix engine (R40). -/
def pairOk (a b : Nat) : Bool :=
  (a ≤ 1 && b ≤ 1) || (a == 0 && isMX b) || (isMX a && isMX b) || (a == 5 && b == 5) || (a == 6 && (b == 6 || b ≤ 1))

/-- The reason a tile is rejected before it runs: the first of R75's list that applies, 0 for none (R75, R89). -/
def rejectReason (wins : List (BitVec 64)) (d : BitVec 512) : Nat :=
  let op := tOp d
  let fa := tFmtA d
  let fb := tFmtB d
  let fo := tFmtOut d
  let f32ish (f : Nat) : Bool := f == 6 || f == 7
  let matrix := op = 0x01 ∨ op = 0x02
  let usesA := [0x10, 0x11, 0x12, 0x13, 0x14, 0x18, 0x19, 0x20, 0x21, 0x22, 0x23, 0x24, 0x25, 0x26, 0x27, 0x31].contains op
  let usesB := [0x10, 0x11, 0x27].contains op
  let usesOut := [0x10, 0x11, 0x12, 0x13, 0x14, 0x22, 0x23, 0x24, 0x25, 0x26, 0x27, 0x31].contains op
  let k := tK d
  let badFormat : Bool :=
    if matrix then fa > 6 || fb > 6 || (op == 0x01 && fo > 9)
    else if op = 0x05 then !([7, 6, 0, 1, 8].contains fo)
    else if op = 0x28 then fa ≥ 8 || fo ≥ 9
    else (usesA && !f32ish fa) || (usesB && !f32ish fb) || (usesOut && !f32ish fo)
      || ((op == 0x18 || op == 0x19) && fo != 7) || (op == 0x31 && fb != 7)
  let badPair : Bool := decide matrix &&
    (!pairOk fa fb || (op == 0x01 && !([7, 6, 0, 1, 9].contains fo || (fo == 8 && fa == 5))))
  let badSparse : Bool := tSparse d == 3 || (!decide matrix && tSparse d != 0)
  let mx := isMX fa || isMX fb
  let badDim : Bool :=
    if matrix then
      tKOffset d + tKTileM1 d > tKTotalM1 d
        || (mx && (k % 32 != 0 || tKOffset d % 32 != 0))
        || (tSparse d == 1 && (k % 4 != 0 || tKOffset d % 4 != 0))
        || (tSparse d == 2 && (k % 128 != 0 || tKOffset d % 128 != 0))
        || (op == 0x01 && (mx || fa == 6) && !tAccIn d && !(tKOffset d == 0 && tKTileM1 d == tKTotalM1 d))
    else tKTotalM1 d > 65535 || (op == 0x28 && (isMX fa || isMX fo) && tRow d % 32 != 0)
  let badRange : Bool := if op = 0x39 then !winAdvOk wins d else !rangesFit wins d
  let badParam : Bool :=
    tReserved d
      || (op == 0x20 && (tGrad d || bits (tParam d) 15 2 != 0))
      || (op == 0x21 && bits (tParam d) 15 2 != 0)
      || (op == 0x30 && (tRow d > 256 || tRouteK d == 0 || tRouteK d > 8 || tRouteK d > tRow d || bits (tParam d) 15 5 != 0))
      || (op == 0x31 && (tCombineK d == 0 || tCombineK d > 8 || bits (tParam d) 15 5 != 0))
  if (opPath op).isNone then 1
  else if badFormat then 2
  else if badPair then 3
  else if badSparse then 4
  else if badDim then 5
  else if badRange then 6
  else if badParam then 7
  else 0

end Sys2Proof.Machine
end

