-- ==== Sys2Proof/Machine/Flags.lean ====
section
/-! DEFINITION. The status a tile ends with (R74) and what makes it OK_NONFINITE (R623): the flag computations of the
cores and the near-memory units. -/

namespace Sys2Proof.Machine

/-- Status codes of R74. -/
def stOk : Nat := 0
def stNonfinite : Nat := 1
def stDropped : Nat := 2
def stStrictMiss : Nat := 3
def stRejected : Nat := 4
def stMismatch : Nat := 5
def stUnpowered : Nat := 6
def stFault : Nat := 7

/-- OK or OK_NONFINITE (R623). -/
def okStatus (nonfinite : Bool) : Nat := if nonfinite then stNonfinite else stOk

/-- A code of a floating-point format is NaN or infinite (R623). -/
def codeNonfinite (fmt code : Nat) : Bool := (decodeElem fmt code).nonfinite

/-- An FP32 value is NaN or infinite. -/
def f32Nonfinite (x : F32) : Bool := x.num.nonfinite

/-- A list of rows holds a NaN or an infinity. -/
def rowsNonfinite (rows : List (List F32)) : Bool := rows.any fun r => r.any f32Nonfinite

end Sys2Proof.Machine
end

