-- ==== Sys2Proof/Machine/Tiles.lean ====
section
/-! DEFINITION. What each tile operation computes (R71): a function of the local store, the descriptor and the
windows captured at issue, giving the status, the bytes written and what the tile counts. -/

namespace Sys2Proof.Machine

/-- What a tile gives when it runs: the status and reason it ends with (R74, R75), its writes, and the deferrals
and starved assignments of ROUTE (R80). -/
structure TileOut where
  status : Nat := 0
  reason : Nat := 0
  writes : List (Nat × List Byte) := []
  deferred : Nat := 0
  starved : Nat := 0
  deriving DecidableEq, Repr

/-- A tile that ends REJECTED while it runs (R75). -/
def TileOut.reject (reason : Nat) : TileOut := { status := stRejected, reason := reason }

/-- What a tile reads through: the state, the core, the windows captured at issue. -/
structure TileCtx where
  s : State
  core : Nat
  wins : List (BitVec 64)

/-- Bytes at an offset of an operand; an address that does not resolve gives no bytes. -/
def TileCtx.read (x : TileCtx) (field off len : Nat) : List Byte :=
  match resolve x.wins field with
  | some l => l.read x.s x.core off len
  | none => []

/-- The writes of bytes at an offset of an operand. -/
def TileCtx.write (x : TileCtx) (field off : Nat) (bs : List Byte) : List (Nat × List Byte) :=
  match resolve x.wins field with
  | some l => l.write off bs
  | none => []

/-- The bytes that a tile reads, row by row: the present blocks of a block-masked B, the entries that the deferred-in
list holds (R66, R78, R80, R85). -/
def TileCtx.reads (x : TileCtx) (d : BitVec 512) : List (Nat × Nat) :=
  let mask := ofLE (x.read (tMetaAddr d) 0 8) % 2 ^ (tK d / 128)
  let blocks := if tSparse d = 2 then ((List.range (tK d / 128)).filter (bit mask)).length else tK d / 128
  let count := if tAccIn d then ofLE (x.read (tAccAddr d) 0 4) else 0
  let list := 16 + 16 * (if count + tM d * tRouteK d > 2048 then 0 else count)
  ((tileRangesAt blocks list d).filter fun r => !r.write).flatMap fun r =>
    (r.touches x.wins).map fun p => (p.1, p.2.1)

/-! ### Matrix operands -/

/-- Elements with their block scales: 127 for every element of a format without scales (R38, R41). -/
def withScales (fmt : Nat) (codes : List Nat) (scales : List Nat) : List MElem :=
  codes.mapIdx fun i c => ⟨decodeElem fmt c, if isMX fmt then scales.getD (i / 32) 0 else 127⟩

/-- Row `i` of operand A (R69). -/
def TileCtx.rowA (x : TileCtx) (d : BitVec 512) (i : Nat) : List MElem :=
  let fmt := tFmtA d
  let k := tK d
  let eb := ceilDiv (k * elemBits fmt) 8
  let bs := x.read (tAAddr d) (i * pitchOf (tStrideA d) (rowBytes fmt k)) (rowBytes fmt k)
  withScales fmt (unpack (elemBits fmt) k bs) ((bs.drop eb).map BitVec.toNat)

/-- The 4-bit metadata entries of column `j`, one per group of four (R77). -/
def TileCtx.meta24 (x : TileCtx) (d : BitVec 512) (j : Nat) : List Nat :=
  (List.range (tK d / 4)).map fun g =>
    let b := ofLE (x.read (tMetaAddr d) (64 * g + j / 2) 1)
    if j % 2 = 0 then b % 16 else b / 16

/-- A stored 2:4 column expanded: the kept pair of each group at its indices, zeros elsewhere; none when an entry is
invalid (R77). -/
def expand24 : List Nat → List Nat → Option (List Nat)
  | [], _ => some []
  | m :: ms, cs =>
    let i0 := m % 4
    let i1 := m / 4
    if i0 < i1 then
      (expand24 ms (cs.drop 2)).map fun rest =>
        ((List.range 4).map fun i => if i = i0 then cs.getD 0 0 else if i = i1 then cs.getD 1 0 else 0) ++ rest
    else none

/-- Blocks of `size` entries, zeros for the omitted ones (R78). -/
def expandMask (size : Nat) : List Bool → List Nat → List Nat
  | [], _ => []
  | true :: ps, cs => cs.take size ++ expandMask size ps (cs.drop size)
  | false :: ps, cs => List.replicate size 0 ++ expandMask size ps cs

/-- The present blocks of a block-masked B; none when a bit at or above K_TILE / 128 is 1 (R78). -/
def TileCtx.blockMask (x : TileCtx) (d : BitVec 512) : Option (List Bool) :=
  let m := ofLE (x.read (tMetaAddr d) 0 8)
  let n := tK d / 128
  if m < 2 ^ n then some ((List.range n).map (bit m)) else none

/-- Column `j` of operand B with its zeros filled in; none for invalid metadata (R69, R77, R78). -/
def TileCtx.colB (x : TileCtx) (d : BitVec 512) (mask : List Bool) (j : Nat) : Option (List MElem) :=
  let fmt := tFmtB d
  let blocks := (mask.filter id).length
  let len := colBytes d blocks
  let n := colElems d blocks
  let bs := x.read (tBAddr d) (j * pitchOf (tStrideB d) len) len
  let codes := unpack (elemBits fmt) n bs
  let scales := (bs.drop (ceilDiv (n * elemBits fmt) 8)).map BitVec.toNat
  if tSparse d = 1 then (expand24 (x.meta24 d j) codes).map fun cs => withScales fmt cs scales
  else if tSparse d = 2 then some (withScales fmt (expandMask 128 mask codes) (expandMask 4 mask scales))
  else some (withScales fmt codes scales)

/-- Every element or none. -/
def allSome {α : Type} : List (Option α) → Option (List α)
  | [] => some []
  | some a :: as => (allSome as).map (a :: ·)
  | none :: _ => none

/-- All columns of operand B; none ends the tile REJECTED with reason META (R75). -/
def TileCtx.columns (x : TileCtx) (d : BitVec 512) : Option (List (List MElem)) :=
  let mask := if tSparse d = 2 then x.blockMask d else some []
  match mask with
  | none => none
  | some ps => allSome ((List.range (tN d)).map fun j => x.colB d ps j)

/-- The record at row `i`, column `j` of an array of records. -/
def TileCtx.recAt (x : TileCtx) (field pitch i j : Nat) : AccRec :=
  .ofBits (ofLE (x.read field (i * pitch + 16 * j) 16))

/-- One row of records or of rounded values as bytes, and whether it holds a non-finite value. -/
def encodeRecs (fmt : Nat) (rs : List AccRec) : List Byte × Bool :=
  if fmt = 9 then (rs.flatMap fun r => leBytes 16 r.toBits, rs.any (·.nonfinite))
  else
    let cs := rs.map (roundRec fmt)
    (pack (elemBits fmt) cs, rs.any (·.nonfinite) || cs.any (codeNonfinite fmt))

/-- The writes of rows at OUT_ADDR with a pitch. -/
def TileCtx.outRows (x : TileCtx) (d : BitVec 512) (row : Nat) (rows : List (List Byte)) : List (Nat × List Byte) :=
  (rows.mapIdx fun i bs => x.write (tOutAddr d) (i * pitchOf (tStrideOut d) row) bs).flatten

/-- MM (R71, R41 to R47, R76). -/
def TileCtx.mm (x : TileCtx) (d : BitVec 512) : TileOut :=
  match x.columns d with
  | none => .reject 8
  | some cols =>
    let fo := tFmtOut d
    let row := rowBytes fo (tN d)
    let recs := (List.range (tM d)).map fun i =>
      let a := x.rowA d i
      allSome (cols.mapIdx fun j b =>
        let input := if tAccIn d then
            some (x.recAt (tAccAddr d) (pitchOf (tStrideOut d) (16 * tN d)) i j)
          else none
        mmElem (tFmtA d) (tFmtB d) input a b)
    match allSome recs with
    | none => { status := stMismatch }
    | some rows =>
      let out := rows.map (encodeRecs fo)
      { status := okStatus (out.any (·.2)), writes := x.outRows d row (out.map (·.1)) }

/-- MM_PRESCAN (R71, R41, R42). -/
def TileCtx.prescan (x : TileCtx) (d : BitVec 512) : TileOut :=
  match x.columns d with
  | none => .reject 8
  | some cols =>
    let row := 16 * tN d
    let recs := (List.range (tM d)).map fun i =>
      let a := x.rowA d i
      allSome (cols.mapIdx fun j b =>
        let r := prescanElem (tFmtA d) (tFmtB d) a b
        if tAccIn d then mergeRec (x.recAt (tAccAddr d) (pitchOf (tStrideOut d) row) i j) r else some r)
    match allSome recs with
    | none => { status := stMismatch }
    | some rows =>
      let out := rows.map (encodeRecs 9)
      { status := okStatus (out.any (·.2)), writes := x.outRows d row (out.map (·.1)) }

/-- Two arrays of records combined element by element: WIN_MERGE and ACC_ADD (R71, R45, R624). -/
def TileCtx.recPairs (x : TileCtx) (d : BitVec 512) (f : AccRec → AccRec → Option AccRec) : TileOut :=
  let row := 16 * tRow d
  let recs := (List.range (tM d)).map fun i =>
    allSome ((List.range (tRow d)).map fun j =>
      f (x.recAt (tAAddr d) (pitchOf (tStrideA d) row) i j) (x.recAt (tBAddr d) (pitchOf (tStrideB d) row) i j))
  match allSome recs with
  | none => { status := stMismatch }
  | some rows =>
    let out := rows.map (encodeRecs 9)
    { status := okStatus (out.any (·.2)), writes := x.outRows d row (out.map (·.1)) }

/-- ACC_ROUND (R71, R46, R47). -/
def TileCtx.accRound (x : TileCtx) (d : BitVec 512) : TileOut :=
  let fo := tFmtOut d
  let rows := (List.range (tM d)).map fun i =>
    encodeRecs fo ((List.range (tRow d)).map fun j => x.recAt (tAAddr d) (pitchOf (tStrideA d) (16 * tRow d)) i j)
  { status := okStatus (rows.any (·.2)), writes := x.outRows d (rowBytes fo (tRow d)) (rows.map (·.1)) }

/-! ### Vector operands -/

/-- A code of FP32 or BF16 as FP32; BF16 is widened exactly (R71). -/
def widen (fmt code : Nat) : F32 := if fmt = 6 then BitVec.ofNat 32 (code * 65536) else BitVec.ofNat 32 code

/-- An FP32 result in FP32 or BF16, rounded by R39; a NaN is canonical. -/
def narrow (fmt : Nat) (v : F32) : Nat := encodeElem fmt v.num

/-- Row `i` of an operand of FP32 or BF16 rows of `n` elements. -/
def TileCtx.vrow (x : TileCtx) (field stride fmt n i : Nat) : List F32 :=
  let row := rowBytes fmt n
  (unpack (elemBits fmt) n (x.read field (i * pitchOf stride row) row)).map (widen fmt)

/-- All rows of A. -/
def TileCtx.rowsA (x : TileCtx) (d : BitVec 512) : List (List F32) :=
  (List.range (tM d)).map (x.vrow (tAAddr d) (tStrideA d) (tFmtA d) (tRow d))

/-- All rows of B. -/
def TileCtx.rowsB (x : TileCtx) (d : BitVec 512) : List (List F32) :=
  (List.range (tM d)).map (x.vrow (tBAddr d) (tStrideB d) (tFmtB d) (tRow d))

/-- The n FP32 values at AUX_ADDR (R624). -/
def TileCtx.aux (x : TileCtx) (d : BitVec 512) : List F32 :=
  (chunksLE 4 (tRow d) (x.read (tAuxAddr d) 0 (4 * tRow d))).map (BitVec.ofNat 32)

/-- FP32 rows written in FMT_OUT; the status tells whether an input or an output was non-finite (R623). -/
def TileCtx.vout (x : TileCtx) (d : BitVec 512) (inNonfinite : Bool) (rows : List (List F32)) : TileOut :=
  let fo := tFmtOut d
  let cs := rows.map fun r => r.map (narrow fo)
  { status := okStatus (inNonfinite || cs.any fun r => r.any (codeNonfinite fo)),
    writes := x.outRows d (rowBytes fo (tRow d)) (cs.map (pack (elemBits fo))) }

/-- An elementwise operation of one operand. -/
def TileCtx.map1 (x : TileCtx) (d : BitVec 512) (f : F32 → F32) : TileOut :=
  let a := x.rowsA d
  x.vout d (rowsNonfinite a) (a.map fun r => r.map f)

/-- An elementwise operation of two operands. -/
def TileCtx.map2 (x : TileCtx) (d : BitVec 512) (f : F32 → F32 → F32) : TileOut :=
  let a := x.rowsA d
  let b := x.rowsB d
  x.vout d (rowsNonfinite a || rowsNonfinite b) (List.zipWith (List.zipWith f) a b)

/-- An operation of every row with the row vector at AUX_ADDR. -/
def TileCtx.mapRow (x : TileCtx) (d : BitVec 512) (f : F32 → F32 → F32) : TileOut :=
  let a := x.rowsA d
  let v := x.aux d
  x.vout d (rowsNonfinite a || v.any f32Nonfinite) (a.map fun r => List.zipWith f r v)

/-- SUM_ROW and MAX_ROW: one FP32 value per row at OUT_ADDR + 4i, a NaN in the canonical form (R39, R49, R624). -/
def TileCtx.reduceRows (x : TileCtx) (d : BitVec 512) (f : List F32 → F32) : TileOut :=
  let a := x.rowsA d
  let out := a.map fun r => BitVec.ofNat 32 (narrow 7 (f r))
  { status := okStatus (rowsNonfinite a || out.any f32Nonfinite),
    writes := x.write (tOutAddr d) 0 (out.flatMap fun v => leBytes 4 v.toNat) }

/-- RMSNORM (R55). -/
def TileCtx.rmsnormTile (x : TileCtx) (d : BitVec 512) : TileOut :=
  let a := x.rowsA d
  let g := x.aux d
  x.vout d (rowsNonfinite a || g.any f32Nonfinite) (a.map fun r => rmsnorm r g (tScalar d) (tScalarB d))

/-- The column ranges of a band record, or none when it is invalid (R154). -/
def bandRanges (w n : Nat) : Option (List (Nat × Nat)) :=
  let rs := [(bits w 15 0, bits w 31 16), (bits w 47 32, bits w 63 48), (bits w 79 64, bits w 95 80)]
  let live := rs.filter fun r => r.2 ≠ 0
  let rec ordered : Nat → List (Nat × Nat) → Bool
    | _, [] => true
    | lo, (a, l) :: t => decide (lo ≤ a) && decide (a + l ≤ n) && ordered (a + l) t
  if bits w 127 96 ≠ 0 then none
  else if ordered 0 live then some live else none

/-- The member columns of row `i`, in index order: all of them without BAND (R153 to R155). -/
def TileCtx.members (x : TileCtx) (d : BitVec 512) (i : Nat) : Option (List Nat) :=
  if tBand d then
    (bandRanges (ofLE (x.read (tMetaAddr d) (16 * i) 16)) (tRow d)).map fun rs =>
      rs.flatMap fun r => (List.range r.2).map (r.1 + ·)
  else some (List.range (tRow d))

/-- Values at member columns, +0 elsewhere (R155). -/
def scatter (n : Nat) (cols : List Nat) (vals : List Nat) : List Nat :=
  (List.range n).map fun k => match (cols.zip vals).find? fun p => p.1 == k with
    | some p => p.2
    | none => 0

/-- One row of a softmax tile: BF16 codes of the whole row, the pair written to AUX_ADDR, non-finite. -/
structure SoftRow where
  p : List Nat
  m : F32
  sum : F32
  nonfinite : Bool
  deriving DecidableEq, Repr

/-- SOFTMAX_ROW of one row (R54, R155). -/
def softRow (n : Nat) (row : List F32) (cols : List Nat) (scale : F32) : SoftRow :=
  let s := cols.map fun k => row.getD k 0#32
  let r := softmaxRow s scale
  let ps := r.weights.map toBf16
  ⟨scatter n cols ps, r.m, r.sum,
    r.stopped || s.any f32Nonfinite || f32Nonfinite r.sum || ps.any (codeNonfinite 6)⟩

/-- SOFTMAX_ROW (R54, R153 to R156). -/
def TileCtx.softmax (x : TileCtx) (d : BitVec 512) : TileOut :=
  match allSome ((List.range (tM d)).map (x.members d)) with
  | none => .reject 8
  | some cols =>
    let rows := List.zipWith (fun r c => softRow (tRow d) r c (tScalar d)) (x.rowsA d) cols
    { status := okStatus (rows.any (·.nonfinite)),
      writes := x.outRows d (2 * tRow d) (rows.map fun r => pack 16 r.p)
        ++ x.write (tAuxAddr d) 0 (rows.flatMap fun r => leBytes 4 r.m.toNat ++ leBytes 4 r.sum.toNat) }

/-- m and sum of row `i` at AUX_ADDR + 8i (R624). -/
def TileCtx.stats (x : TileCtx) (d : BitVec 512) (i : Nat) : F32 × F32 :=
  let w := ofLE (x.read (tAuxAddr d) (8 * i) 8)
  (BitVec.ofNat 32 (w % 2 ^ 32), BitVec.ofNat 32 (w / 2 ^ 32))

/-- m stops the row: −Inf or NaN (R54). -/
def mStops (m : F32) : Bool := m = negInf32 || m.isNan

/-- The recomputed probabilities of a row's members (R71). -/
def recalcRow (s : List F32) (scale m sum : F32) : List Nat :=
  let inv := recipf sum
  s.map fun v => toBf16 (fmul (exp2f (fsub (fmul v scale) m)) inv)

/-- ds of a row's members (R165). -/
def gradRow (s dp : List F32) (scale m sum : F32) : List Nat :=
  let p := (recalcRow s scale m sum).map (widen 6)
  let delta := treeSum (List.zipWith fmul p dp)
  let cl := fmul scale constC1
  List.zipWith (fun pk dk => toBf16 (fmul (fmul pk (fsub dk delta)) cl)) p dp

/-- SOFTMAX_RECALC, and with `grad` the backward pass (R71, R153 to R156, R165). -/
def TileCtx.recalc (x : TileCtx) (d : BitVec 512) (grad : Bool) : TileOut :=
  match allSome ((List.range (tM d)).map (x.members d)) with
  | none => .reject 8
  | some cols =>
    let n := tRow d
    let rows := (List.zip (x.rowsA d) cols).mapIdx fun i (r, c) =>
      let (m, sum) := x.stats d i
      let s := c.map fun k => r.getD k 0#32
      let dpRow := if grad then x.vrow (tBAddr d) (tStrideB d) 7 n i else []
      let dp := c.map fun k => dpRow.getD k 0#32
      let out := if mStops m then c.map fun _ => 0
        else if grad then gradRow s dp (tScalar d) m sum else recalcRow s (tScalar d) m sum
      (scatter n c out,
        mStops m || f32Nonfinite m || f32Nonfinite sum || s.any f32Nonfinite || (grad && dp.any f32Nonfinite)
          || out.any (codeNonfinite 6))
    { status := okStatus (rows.any (·.2)), writes := x.outRows d (2 * n) (rows.map fun r => pack 16 r.1) }

/-- Groups of 32. -/
def groups32 {α : Type} : Nat → List α → List (List α)
  | 0, _ => []
  | n + 1, xs => xs.take 32 :: groups32 n (xs.drop 32)

/-- A row of numbers in a format, block scales included (R39, R69), and whether it holds a non-finite value. -/
def encodeRow (fmt : Nat) (vs : List Num) : List Byte × Bool :=
  if isMX fmt then
    let bl := (groups32 (vs.length / 32) vs).map (encodeBlock fmt)
    (pack (elemBits fmt) (bl.flatMap (·.2)) ++ bl.map (fun b => BitVec.ofNat 8 b.1), vs.any Num.nonfinite)
  else
    let cs := vs.map (encodeElem fmt)
    (pack (elemBits fmt) cs, vs.any Num.nonfinite || cs.any (codeNonfinite fmt))

/-- Row `i` of A as numbers, exactly, block scales included (R38, R39). -/
def TileCtx.numRow (x : TileCtx) (d : BitVec 512) (i : Nat) : List Num :=
  let fmt := tFmtA d
  let n := tRow d
  let row := rowBytes fmt n
  let bs := x.read (tAAddr d) (i * pitchOf (tStrideA d) row) row
  let codes := unpack (elemBits fmt) n bs
  let scales := (bs.drop (ceilDiv (n * elemBits fmt) 8)).map BitVec.toNat
  codes.mapIdx fun k c =>
    if isMX fmt then decodeScaled fmt c (scales.getD (k / 32) 0) else decodeElem fmt c

/-- CONVERT (R71, R39). -/
def TileCtx.convert (x : TileCtx) (d : BitVec 512) : TileOut :=
  let rows := (List.range (tM d)).map fun i =>
    let vs := x.numRow d i
    let e := encodeRow (tFmtOut d) vs
    (e.1, e.2 || vs.any Num.nonfinite)
  { status := okStatus (rows.any (·.2)),
    writes := x.outRows d (rowBytes (tFmtOut d) (tRow d)) (rows.map (·.1)) }

/-! ### Routing -/

/-- Strictly before in the order of R79: highest first, +0 and −0 equal, a NaN below every number. -/
def routeBefore (a b : F32) : Bool := if a.isNan then false else if b.isNan then true else b.num.lt a.num

/-- The best expert among the candidates; equal scores go to the lower index (R79). -/
def bestExpert (score : Nat → F32) : List Nat → Option Nat
  | [] => none
  | e :: es => match bestExpert score es with
    | none => some e
    | some b => if routeBefore (score b) (score e) then some b else some e

/-- The first k experts by score, ranks 0 to k − 1 (R79). -/
def topExperts (score : Nat → F32) : Nat → List Nat → List Nat
  | 0, _ => []
  | k + 1, es => match bestExpert score es with
    | none => []
    | some b => b :: topExperts score k (es.erase b)

/-- An assignment entry (R80). -/
structure RouteEntry where
  tag : Nat
  weight : Nat
  expert : Nat
  deferrals : Nat
  rank : Nat
  row : Nat
  deriving DecidableEq, Repr

/-- The 16 bytes of an assignment entry. -/
def RouteEntry.bytes (e : RouteEntry) : List Byte :=
  leBytes 16 (e.row % 128 + e.rank * 2 ^ 45 + e.deferrals * 2 ^ 48 + e.expert * 2 ^ 56 + e.weight * 2 ^ 64 + e.tag * 2 ^ 96)

/-- An assignment entry from its 16 bytes. -/
def RouteEntry.ofBits (w : Nat) : RouteEntry :=
  ⟨bits w 127 96, bits w 95 64, bits w 63 56, bits w 55 48, bits w 47 45, bits w 6 0⟩

/-- The selections of one token (R79). -/
def routeToken (d : BitVec 512) (row : Nat) (scores : List F32) : List RouteEntry × Bool :=
  let sel := topExperts (fun e => scores.getD e 0#32) (tRouteK d) (List.range scores.length)
  let vals := sel.map fun e => scores.getD e 0#32
  let ws := if tRouteNorm d then (softmaxRow vals (tScalar d)).weights else vals.map fun v => f32OfNum v.num
  (sel.mapIdx fun r e => ⟨tTag d, (ws.getD r 0#32).toNat, e, 0, r, row⟩, vals.any F32.isNan)

/-- Admission: the capacity table, the entries admitted and the entries deferred, and how many became starved
(R80). -/
structure Admission where
  caps : List Nat
  admitted : List RouteEntry := []
  deferred : List RouteEntry := []
  starved : Nat := 0
  deriving DecidableEq, Repr

/-- Admit or defer one assignment (R80). -/
def Admission.step (x : Admission) (e : RouteEntry) : Admission :=
  let c := x.caps.getD e.expert 0
  if c > 0 then { x with caps := x.caps.set e.expert (c - 1), admitted := x.admitted ++ [e] }
  else
    { x with
      deferred := x.deferred ++ [{ e with deferrals := min 255 (e.deferrals + 1) }],
      starved := x.starved + (if e.deferrals = 15 then 1 else 0) }

/-- A list's 16-byte header and its entries (R80). -/
def routeList (es : List RouteEntry) : List Byte := leBytes 16 es.length ++ es.flatMap RouteEntry.bytes

/-- ROUTE (R79, R80). -/
def TileCtx.route (x : TileCtx) (d : BitVec 512) : TileOut :=
  let n := tRow d
  let count := if tAccIn d then ofLE (x.read (tAccAddr d) 0 4) else 0
  if count + tM d * tRouteK d > 2048 then .reject 7
  else
    let old := (List.range count).map fun i => RouteEntry.ofBits (ofLE (x.read (tAccAddr d) (16 + 16 * i) 16))
    if old.any fun e => decide (e.expert ≥ n) then .reject 7
    else
      let toks := (List.range (tM d)).map fun i => routeToken d i (x.vrow (tAAddr d) (tStrideA d) 7 n i)
      let caps := chunksLE 2 n (x.read (tAuxAddr d) 0 (2 * n))
      let a := (old ++ toks.flatMap (·.1)).foldl Admission.step { caps := caps }
      { status := okStatus (toks.any (·.2)),
        writes := x.write (tAuxAddr d) 0 (a.caps.flatMap (leBytes 2))
          ++ x.write (tOutAddr d) 0 (routeList a.admitted) ++ x.write (tMetaAddr d) 0 (routeList a.deferred),
        deferred := a.deferred.length, starved := a.starved }

/-- The columns of a list of rows of length `n`. -/
def transposeRows (n : Nat) (rows : List (List F32)) : List (List F32) :=
  (List.range n).map fun k => rows.map fun r => r.getD k 0#32

/-- COMBINE (R81). -/
def TileCtx.combine (x : TileCtx) (d : BitVec 512) : TileOut :=
  let k := tCombineK d
  let per := if tCombineShared d then k + 1 else k
  let n := tRow d
  let toks := (List.range (tM d)).map fun i =>
    let ws := (chunksLE 4 k (x.read (tBAddr d) (i * pitchOf (tStrideB d) 32) (4 * k))).map (BitVec.ofNat 32)
    let rows := (List.range per).map fun r => x.vrow (tAAddr d) (tStrideA d) (tFmtA d) n (i * per + r)
    let scaled := rows.mapIdx fun r xs => if r < k then xs.map (fmul (ws.getD r 0#32)) else xs
    ((transposeRows n scaled).map treeSum, rowsNonfinite rows || ws.any f32Nonfinite)
  x.vout d (toks.any (·.2)) (toks.map (·.1))

/-- COPY: rows of n bytes (R71). -/
def TileCtx.copy (x : TileCtx) (d : BitVec 512) : TileOut :=
  let n := tRow d
  { writes := x.outRows d n ((List.range (tM d)).map fun i => x.read (tAAddr d) (i * pitchOf (tStrideA d) n) n) }

end Sys2Proof.Machine
end

