-- ==== Sys2Proof/Machine/CoreUnit.lean ====
section
/-! DEFINITION. What the core commands share: tiles in flight, bank modes, local-store writes, how a tile ends, core
faults and core retirement (R65 to R67, R74, R75, R85, R542, R547). -/

namespace Sys2Proof.Machine

/-! ### Flights -/

/-- The number of a path within its core. -/
def pathIndex : Path → Nat
  | .matrix => 0
  | .prescan => 1
  | .vector => 2

/-- The three paths. -/
def allPaths : List Path := [.matrix, .prescan, .vector]

/-- The tile in flight on a path (R65). -/
def State.flight (s : State) (c : Nat) (p : Path) : Option Flight := s.core.flights.get (fun _ => none) (3 * c + pathIndex p)

/-- The busy bit of a path (R89). -/
def pathBusy : Path → Field
  | .matrix => F.CORE_STATUS_MATRIX_BUSY
  | .prescan => F.CORE_STATUS_PRESCAN_BUSY
  | .vector => F.CORE_STATUS_VECTOR_BUSY

/-- Put a tile on a path, or clear the path; the busy bit follows. -/
def Act.setFlight (c : Nat) (p : Path) (f : Option Flight) : Act :=
  (Act.modCore fun x => { x with flights := x.flights.put (fun _ => none) (3 * c + pathIndex p) f }).andThen
    (.setFlag (pathBusy p) f.isSome c)

/-- Tiles in flight on a core. -/
def State.flightsOf (s : State) (c : Nat) : List Flight := allPaths.filterMap (s.flight c)

/-- The core is retired (R547). -/
def State.coreRetired (s : State) (c : Nat) : Bool := s.flag F.CORE_STATUS_FAULTED c

/-! ### Banks -/

/-- Bytes of a bank (R82). -/
def bankBytes : Nat := 0x40000

/-- Bank modes (R87). -/
def modeOff : Nat := 0
def modeRetain : Nat := 1
def modeOn : Nat := 2
def modeAuto : Nat := 3

/-- A bank's live mode; a retired bank is held OFF (R547). -/
def State.bankMode (s : State) (c b : Nat) : Nat :=
  if s.retired 8 (48 * c + b) then modeOff else bits (s.get F.CORE_LS_PWR_BANK_MODE c) (2 * b + 1) (2 * b)

/-- The banks that a local-store byte range touches (R82). -/
def banksOf (a n : Nat) : List Nat :=
  if n = 0 then [] else (List.range 48).filter fun b => decide (a / bankBytes ≤ b) && decide (b ≤ (a + n - 1) / bankBytes)

/-- The bank is not accessible: OFF or RETAIN (R85). -/
def State.bankDark (s : State) (c b : Nat) : Bool := decide (s.bankMode c b ≤ 1)

/-- The bank makes an access wait: in AUTO retention, or being zeroed (R85). -/
def State.bankWaits (s : State) (c b : Nat) : Bool :=
  (s.core.retained.get (fun _ => false) (48 * c + b) && s.bankMode c b == modeAuto)
    || s.core.zeroing.get (fun _ => false) (48 * c + b)

/-- A range touches a bank that is not accessible. -/
def State.rangeDark (s : State) (c a n : Nat) : Bool := (banksOf a n).any (s.bankDark c)

/-- A range touches a bank that makes it wait. -/
def State.rangeWaits (s : State) (c a n : Nat) : Bool := (banksOf a n).any (s.bankWaits c)

/-! ### Local-store words -/

/-- Keys of lost local-store words lie above every device address. -/
def lsLostBase : Nat := 2 ^ 60

/-- The first lost word that a local-store range touches (R533). -/
def State.lsLost (s : State) (c a n : Nat) : Option Nat := s.lostIn 8 (lsLostBase + lsKey c a) n

/-- Write bytes of a local store; words covered whole are readable again (R533). -/
def Act.writeLs (c a : Nat) (bs : List Byte) : Act :=
  let k := lsLostBase + lsKey c a
  .look fun s =>
    .all
      [ .one (.ls c a bs),
        .each (s.lost.filter fun e => decide (k ≤ e.1) && decide (e.1 + 8 ≤ k + bs.length)) fun e =>
          .one (.lost e.1 false) ]

/-- Undefined bytes in a local-store range (assumption 3). -/
def Act.freeLs (c a n : Nat) : Act :=
  .look fun s => .all [.writeLs c a (freeBytes s.free n), .one (.takeFree n)]

/-- The uncorrectable local-store word is recorded (R533, R621). -/
def Act.lsWordLost (key : Nat) (x : ErrInfo := {}) : Act :=
  let k := key - lsLostBase
  let c := k / 2 ^ 28
  let a := k % 2 ^ 28
  .sramFault (48 * c + a / bankBytes) (c * 2 ^ 28 + a) x

/-! ### How a tile ends -/

/-- The windows of a core as they stand (R66, R86). -/
def State.winsOf (s : State) (c : Nat) : List (BitVec 64) :=
  (List.range 8).map fun w => (s.reg .CORE_WIN (8 * c + w)).setWidth 64

/-- The windows of a core as a tile that issues now captures them: a WIN_ADV that is in flight and has not moved its window
comes before it in timetable order, so its HEAD is the new one (R66, R86, assumption 77). -/
def State.winsNext (s : State) (c : Nat) : List (BitVec 64) :=
  match (s.flightsOf c).find? fun f => tOp f.desc == 0x39 && !f.ran with
  | some f =>
    let w := bits (tParam f.desc) 2 0
    (s.winsOf c).set w (BitVec.ofNat 64 (putBits ((s.winsOf c).getD w 0).toNat 63 48 (advanced (f.wins.getD w 0) f.desc)))
  | none => s.winsOf c

/-- The parts of a local-store range that lie in accessible banks (R85). -/
def State.litParts (s : State) (c a n : Nat) : List (Nat × Nat) :=
  ((banksOf a n).filter fun b => !s.bankDark c b).map fun b =>
    let lo := max a (b * bankBytes)
    (lo, min (a + n) ((b + 1) * bankBytes) - lo)

/-- The outputs of a tile become undefined, row by row (R74); a bank that is not accessible keeps what it holds (R85). -/
def Act.freeOutputs (c : Nat) (wins : List (BitVec 64)) (d : BitVec 512) : Act :=
  .look fun s =>
    .each (((tileTouches wins d).filter fun p => p.2.2).flatMap fun p => s.litParts c p.1 p.2.1) fun p => .freeLs c p.1 p.2

/-- What a tile's status counts and records (R34, R75, R89, R90, R621). -/
def Act.tileStatus (c status reason tag : Nat) : Act :=
  if status = stNonfinite then .count .CORE_NONFINITE_COUNT
  else if status = stRejected then
    .all
      [ .set F.CORE_STATUS_REJECT_REASON reason c, .count .CORE_REJECT_COUNT,
        .raise .CORE_DESC_REJECTED { tag := tag } ]
  else if status = stMismatch then
    (Act.count .CORE_WINDOW_MISMATCH_COUNT).andThen (.raise .ARITH_WINDOW_MISMATCH { tag := tag })
  else if status = stUnpowered then .count .CORE_BANK_UNPOWERED_COUNT
  else .done

/-- A tile ends: its status is counted, its bollard post is made when it is OK or OK_NONFINITE, and its completion
record is written when it failed or asked for one (R74). -/
def Act.tileEnds (c : Nat) (d : BitVec 512) (status reason : Nat) : Act :=
  .all
    [ .tileStatus c status reason (tTag d),
      .when (decide (status ≤ stNonfinite) && tPost d) (.post (tPostBollard d) 1),
      .when (decide (status > stNonfinite) || tNotify d) (.complete 0x02 status c (tTag d) 0) ]

/-- The tile in flight on a path ends, and the path is free; a LATCH that waited for it begins (R25). -/
def Act.endFlight (c : Nat) (p : Path) (status reason : Nat) : Act :=
  .look fun s =>
    match s.flight c p with
    | none => .done
    | some f =>
      .all
        [ .setFlight c p none, .tileEnds c f.desc status reason,
          .look fun s => .when (s.flightsOf c).isEmpty
            (.modSail fun x => { x with late := x.late.put (fun _ => false) c false }) ]

/-- A tile in flight ends FAULT: its output range is undefined (R74). -/
def Act.faultFlight (c : Nat) (p : Path) : Act :=
  .look fun s =>
    match s.flight c p with
    | none => .done
    | some f => (Act.freeOutputs c f.wins f.desc).andThen (.endFlight c p stFault 0)

/-! ### Slots -/

def slotKind (w : BitVec 128) : Nat := bits w.toNat 127 126
def slotCarry (w : BitVec 128) : Nat := bits w.toNat 125 124
def slotWait (w : BitVec 128) : Bool := bit w.toNat 123
def slotEarliest (w : BitVec 128) : Nat := bits w.toNat 119 96
def slotBollard (w : BitVec 128) : Nat := bits w.toNat 95 81
def slotDesc (w : BitVec 128) : Nat := bits w.toNat 47 6 * 64

/-- A reserved KIND, or a 1 in a reserved bit: the slot is never run (R19). -/
def slotReserved (w : BitVec 128) : Bool :=
  let n := w.toNat
  decide (slotKind w ≥ 2) || bits n 122 120 ≠ 0 || bits n 80 48 ≠ 0 || bits n 5 0 ≠ 0

/-- The tile descriptor at a device address, when it can be read. -/
def State.tileDesc (s : State) (a : Nat) : Option (BitVec 512) :=
  if s.memRange a 64 && (s.lostLine a 64).isNone then some (BitVec.ofNat 512 (s.readLE a 64)) else none

/-- The TAG of a slot, through its descriptor (R559); 0 when that cannot be read. -/
def State.slotTag (s : State) (w : BitVec 128) : Nat :=
  match s.tileDesc (slotDesc w) with
  | some d => tTag d
  | none => 0

/-- Replace a core's unissued slots. -/
def Act.setItems (c : Nat) (l : List SlotItem) : Act :=
  .modSail fun x => { x with items := x.items.put (fun _ => []) c l }

/-- The unissued slots of a core. -/
def State.itemsOf (s : State) (c : Nat) : List SlotItem := s.sail.items.get (fun _ => []) c

/-- A slot completes DROPPED: counted, no posts (R19, R23, R34). -/
def Act.dropSlot (c tag : Nat) : Act :=
  .all
    [ .count .SAIL_DROP_COUNT, .setFlag F.SAIL_STATUS_DROPPED true, .complete 0x01 stDropped c tag 0 ]

/-! ### Core faults -/

/-- A retired core: FAULTED, its slots discarded, its tiles end FAULT (R547). -/
def Act.coreRetire (c : Nat) : Act :=
  .look fun s =>
    if s.coreRetired c then .done
    else
      .all
        [ .setFlag F.CORE_STATUS_FAULTED true c,
          .leave (.slot c),
          .each allPaths (.faultFlight c),
          .each ((s.itemsOf c ++ s.sail.carry.get (fun _ => []) c).filter fun i => slotKind i.word == 1) fun i =>
            .look fun s => .complete 0x02 stFault c (s.slotTag i.word) 0,
          .setItems c [],
          .modSail fun x => { x with carry := x.carry.put (fun _ => []) c [], late := x.late.put (fun _ => false) c false } ]

/-- A core fault (R542, R621). -/
def Act.coreFault (c tag : Nat) : Act := .fault .CORE_FAULT 4 6 { dindex := c, tag := tag }

/-! ### Running a tile -/

/-- Run the tile that is in flight on the path of `op` and has not run: its output is written, or left undefined
when it fails, and its status is kept until it completes. A bank counts as touched when a byte of it is read or written
(R85). A window mismatch and the PARAM reject of ROUTE write nothing (R45, R80). DESIGN CHOICE (assumption 24): the TAG of a
CORE_ROUTE_STARVED record is that of the tile that ran. -/
def Act.runTile (c op : Nat) (pick : BitVec 512 → Bool) (f : TileCtx → BitVec 512 → TileOut) : Act :=
  match opPath op with
  | none => .done
  | some p =>
    .look fun s =>
      match s.flight c p with
      | none => .done
      | some fl =>
        if fl.ran || tOp fl.desc ≠ op || !pick fl.desc then .done
        else
          let x : TileCtx := ⟨s, c, fl.wins⟩
          let ps := x.reads fl.desc
          let o := f x fl.desc
          if (ps.any fun q => s.rangeDark c q.1 q.2) || o.writes.any fun w => s.rangeDark c w.1 w.2.length then
            .all [.freeOutputs c fl.wins fl.desc, .setFlight c p (some { fl with ran := true, status := stUnpowered })]
          else
            match ps.findSome? fun q => s.lsLost c q.1 q.2 with
            | some k =>
              .all
                [ .freeOutputs c fl.wins fl.desc, .setFlight c p (some { fl with ran := true, status := stFault }),
                  .lsWordLost k { tag := tTag fl.desc } ]
            | none =>
              .all
                [ if o.status ≤ stNonfinite then .each o.writes fun w => .writeLs c w.1 w.2
                  else .when (decide (o.reason ≠ 7) && decide (o.status ≠ stMismatch)) (.freeOutputs c fl.wins fl.desc),
                  .countN .CORE_ROUTE_DEFER_COUNT o.deferred,
                  .countN .CORE_ROUTE_STARVED_COUNT o.starved,
                  .each (List.range o.starved) fun _ => .raise .CORE_ROUTE_STARVED { tag := tTag fl.desc },
                  .setFlight c p (some { fl with ran := true, status := o.status, reason := o.reason }) ]

/-- Any descriptor of the operation. -/
def anyDesc (_ : BitVec 512) : Bool := true

end Sys2Proof.Machine
end

