-- ==== Sys2Proof/Machine/Codec.lean ====
section
/-! DEFINITION. Lower-tier images: locators, plane coding of tiles, coded blocks and the layout of an image
(R182 to R186), and the trimmed form of accumulator records (R275, R276). -/

namespace Sys2Proof.Machine

/-! ### Locators -/

/-- KIND of a locator (R182). -/
def locKind (l : Nat) : Nat := bits l 63 60
def locGen (l : Nat) : Nat := bits l 55 40
def locSlot (l : Nat) : Nat := bits l 31 0

/-- A locator from KIND, GEN and SLOT. -/
def mkLoc (kind gen slot : Nat) : Nat := kind * 2 ^ 60 + gen % 65536 * 2 ^ 40 + slot

/-! ### Plane coding -/

/-- Bit `b` of each byte of a group: a plane (R184). -/
def planeBits (b : Nat) (group : List Byte) : List Bool := group.map fun x => bit x.toNat b

/-- Bits packed into bytes, lowest first; a last partial byte is padded with 0. -/
def packBits : Nat → List Bool → List Byte
  | 0, _ => []
  | n + 1, bs =>
    if bs = [] then []
    else
      BitVec.ofNat 8 ((bs.take 8).foldr (fun x acc => 2 * acc + (if x then 1 else 0)) 0) :: packBits n (bs.drop 8)

/-- The bits of bytes, lowest first. -/
def unpackBits (bs : List Byte) : List Bool := bs.flatMap fun x => (List.range 8).map (bit x.toNat)

/-- The indices of the bits equal to `v`, ascending. -/
def indicesOf (v : Bool) (bs : List Bool) : List Nat := (List.range bs.length).filter fun i => bs.getD i (!v) == v

/-- The mode and payload of a plane of 1,024 bits (R184). -/
def codePlane (bs : List Bool) : Nat × List Byte :=
  let ones := (bs.filter id).length
  let c := min ones (1024 - ones)
  if ones = 0 then (0, [])
  else if ones = 1024 then (1, [])
  else if c ≤ 100 then
    let pol := decide (ones > 512)
    let idx := (indicesOf (!pol) bs).flatMap fun k => (List.range 10).map (bit k)
    (2, BitVec.ofNat 8 ((if pol then 128 else 0) + c) :: packBits 126 idx)
  else (3, packBits 128 bs)

/-- The planes of a tile, in order of group, then bit. -/
def planesOf (tile : List Byte) : List (List Bool) :=
  (List.range 16).flatMap fun g =>
    let group := (tile.drop (1024 * g)).take 1024
    (List.range 8).map fun b => planeBits b group

/-- Zeros up to a multiple of `k` bytes. -/
def padMultiple (k : Nat) (bs : List Byte) : List Byte := padTo (ceilDiv bs.length k * k) bs

/-- A block: header, payload and padding (R184). -/
def blockOf (stored : Bool) (modes : Nat) (payload : List Byte) : List Byte :=
  leBytes 4 payload.length ++ leBytes 1 (if stored then 1 else 0) ++ List.replicate 27 0 ++ leBytes 32 modes
    ++ padMultiple 64 payload

/-- A tile as a STORED block. -/
def storedBlock (tile : List Byte) : List Byte := blockOf true 0 tile

/-- A tile plane-coded (R184). -/
def codedBlock (tile : List Byte) : List Byte :=
  let ps := (planesOf tile).map codePlane
  let modes := (ps.mapIdx fun i p => p.1 * 2 ^ (2 * i)).foldl (· + ·) 0
  blockOf false modes (ps.flatMap (·.2))

/-! ### Decoding -/

/-- Ten-bit indices from bits. -/
def tens : Nat → List Bool → List Nat
  | 0, _ => []
  | n + 1, bs => ((bs.take 10).foldr (fun x acc => 2 * acc + (if x then 1 else 0)) 0) :: tens n (bs.drop 10)

/-- Strictly ascending. -/
def ascending : List Nat → Bool
  | a :: b :: t => decide (a < b) && ascending (b :: t)
  | _ => true

/-- A plane from its mode and the payload that follows, with the payload left over; none when a check of R186
fails. -/
def decodePlane (mode : Nat) (bs : List Byte) : Option (List Bool × List Byte) :=
  if mode = 0 then some (List.replicate 1024 false, bs)
  else if mode = 1 then some (List.replicate 1024 true, bs)
  else if mode = 2 then
    match bs with
    | [] => none
    | h :: t =>
      let c := h.toNat % 128
      let pol := decide (h.toNat ≥ 128)
      let n := ceilDiv (10 * c) 8
      let raw := unpackBits (t.take n)
      let idx := tens c raw
      if c = 0 ∨ c > 100 ∨ t.length < n ∨ !ascending idx ∨ (raw.drop (10 * c)).any id then none
      else some ((List.range 1024).map fun i => if idx.contains i then !pol else pol, t.drop n)
  else if bs.length < 128 then none
  else some (unpackBits (bs.take 128), bs.drop 128)

/-- All planes, and nothing left over. -/
def decodePlanes : List Nat → List Byte → Option (List (List Bool))
  | [], bs => if bs = [] then some [] else none
  | m :: ms, bs =>
    match decodePlane m bs with
    | none => none
    | some (p, rest) => (decodePlanes ms rest).map (p :: ·)

/-- The bytes of a group from its eight planes. -/
def bytesOfPlanes (ps : List (List Bool)) : List Byte :=
  (List.range 1024).map fun i =>
    BitVec.ofNat 8 ((List.range 8).foldr (fun b acc => 2 * acc + (if (ps.getD b []).getD i false then 1 else 0)) 0)

/-- Bytes of a block with its padding, from its header. -/
def blockLen (bs : List Byte) : Nat := 64 + ceilDiv (leAt bs 0 4) 64 * 64

/-- The tile of a block; none when a check of R186 fails. -/
def decodeBlock (bs : List Byte) : Option (List Byte) :=
  let len := leAt bs 0 4
  let flags := leAt bs 4 1
  let modes := leAt bs 32 32
  let payload := (bs.drop 64).take len
  if flags ≥ 2 ∨ leAt bs 5 27 ≠ 0 ∨ bs.length ≠ blockLen bs ∨ (bs.drop (64 + len)).any (· ≠ 0) then none
  else if flags = 1 then if len = 16384 ∧ modes = 0 then some payload else none
  else
    (decodePlanes ((List.range 128).map fun i => bits modes (2 * i + 1) (2 * i)) payload).map fun ps =>
      (List.range 16).flatMap fun g => bytesOfPlanes ((ps.drop (8 * g)).take 8)

/-! ### Images -/

/-- One tile of an image: berth tile number, manifest, coded block. -/
structure ImageTile where
  number : Nat
  manifest : List Byte
  block : List Byte
  deriving DecidableEq, Repr

/-- Where each block starts, counted from the start of the image. -/
def blockOffsets : Nat → List ImageTile → List Nat
  | _, [] => []
  | o, t :: ts => o :: blockOffsets (o + ceilDiv t.block.length 64 * 64) ts

/-- The bytes of an image (R183). -/
def imageBytes (session loc cls layers : Nat) (header : List Byte) (tiles : List ImageTile) : List Byte :=
  let n := tiles.length
  let first := ceilDiv (0x1100 + 40 * n) 64 * 64
  let body := tiles.flatMap fun t => padMultiple 64 t.block
  let total := ceilDiv (first + body.length) 4096 * 4096
  let head := leBytes 8 session ++ leBytes 8 loc ++ leBytes 4 n ++ leBytes 4 (cls + 4 * layers) ++ leBytes 8 total
    ++ List.replicate 220 0
  let idx := (List.zip tiles (blockOffsets first tiles)).flatMap fun t => leBytes 8 (t.1.number * 2 ^ 40 + t.2)
  padTo total (padTo first (head ++ leBytes 4 (crc32c head) ++ padTo 4096 header ++ idx
    ++ tiles.flatMap (fun t => padTo 32 t.manifest)) ++ body)

/-- Header fields of an image. -/
def imgSession (b : List Byte) : Nat := leAt b 0 8
def imgLoc (b : List Byte) : Nat := leAt b 8 8
def imgTiles (b : List Byte) : Nat := leAt b 16 4
def imgClass (b : List Byte) : Nat := leAt b 20 1 % 4

/-- The image header's check (R183). -/
def imgHeaderOk (b : List Byte) : Bool :=
  leAt b 0xFC 4 == crc32c (b.take 0xFC) && leAt b 0x20 220 == 0 && bits (leAt b 20 4) 31 8 == 0

/-- Berth tile number of entry `i`. -/
def imgTileNo (b : List Byte) (i : Nat) : Nat := bits (leAt b (0x1100 + 8 * i) 8) 63 40
/-- Block offset of entry `i`. -/
def imgOffset (b : List Byte) (i : Nat) : Nat := bits (leAt b (0x1100 + 8 * i) 8) 39 0
/-- Manifest of entry `i`. -/
def imgManifest (b : List Byte) (i : Nat) : List Byte := (b.drop (0x1100 + 8 * imgTiles b + 32 * i)).take 32
/-- All manifests, in index order (R189). -/
def imgManifests (b : List Byte) : List Byte := (b.drop (0x1100 + 8 * imgTiles b)).take (32 * imgTiles b)
/-- The coded block of entry `i`. -/
def imgBlock (b : List Byte) (i : Nat) : List Byte :=
  let t := b.drop (imgOffset b i)
  t.take (blockLen t)

/-- The tile of entry `i`, decoded and matched with its manifest; none fails the transfer with MANIFEST (R186). -/
def imgTile (b : List Byte) (i : Nat) : Option (List Byte) :=
  match decodeBlock (imgBlock b i) with
  | some t => if manifestOk kindTile (imgManifest b i) t then some t else none
  | none => none

/-- The worst-case image of `n` tiles (R185). -/
def worstImage (n : Nat) : Nat := ceilDiv (4352 + 40 * n + 16448 * n) 4096 * 4096

/-! ### Trimmed accumulator records -/

/-- Trailing zero bits of a number, at most `n`. -/
def trailing : Nat → Nat → Nat
  | 0, _ => 0
  | n + 1, v => if v % 2 = 1 then 0 else 1 + trailing n (v / 2)

/-- The 16 records of a group of 256 bytes. -/
def groupRecs (g : List Byte) : List Nat := (List.range 16).map fun i => leAt g (16 * i) 16

/-- The trimmed form of a group, or none when it must be written at full width (R275). -/
def trimGroup (g : List Byte) : Option (List Byte) :=
  let rs := groupRecs g
  let l0 := bits (rs.getD 0 0) 111 96
  let z := rs.foldl (fun m r => min m (trailing 63 (bits r 95 0))) 63
  let small (r : Nat) : Bool :=
    let v := signed 96 (bits r 95 0) / ((2 ^ z : Nat) : Int)
    decide (-(2 ^ 63 : Nat) ≤ v) && decide (v < (2 ^ 63 : Nat))
  if rs.any (fun r => bits r 127 114 ≠ 0 || bits r 111 96 ≠ l0) || !rs.all small then none
  else
    let flags := (rs.mapIdx fun i r => (bits r 113 113 + 2 * bits r 112 112) * 2 ^ (2 * i)).foldl (· + ·) 0
    some (leBytes 2 l0 ++ leBytes 1 z ++ leBytes 1 0 ++ leBytes 4 flags
      ++ rs.flatMap fun r =>
        leBytes 8 ((signed 96 (bits r 95 0) / ((2 ^ z : Nat) : Int)) % ((2 ^ 64 : Nat) : Int)).toNat)

/-- A trimmed group expanded; none when a reserved byte or bit is not zero (R276). -/
def expandGroup (t : List Byte) : Option (List Byte) :=
  let z := leAt t 2 1
  if z ≥ 64 ∨ leAt t 3 1 ≠ 0 then none
  else
    let l := leAt t 0 2
    let flags := leAt t 4 4
    some ((List.range 16).flatMap fun i =>
      let v := signed 64 (leAt t (8 + 8 * i) 8) * ((2 ^ z : Nat) : Int)
      leBytes 16 ((v % ((2 ^ 96 : Nat) : Int)).toNat + l * 2 ^ 96 + bits flags (2 * i) (2 * i) * 2 ^ 113
        + bits flags (2 * i + 1) (2 * i + 1) * 2 ^ 112))

end Sys2Proof.Machine
end

