-- ==== Sys2Proof/Machine/SecUnit.lean ====
section
/-! DEFINITION. Derived keys, identity, signatures, archive keys and generator key slots (R503 to R507, R514 to R518),
and little-endian fields of byte records. -/

namespace Sys2Proof.Machine

/-! ### Byte records -/

/-- A byte list with `n` bytes at an offset replaced. -/
def setLE (bs : List Byte) (off n v : Nat) : List Byte := bs.take off ++ leBytes n v ++ bs.drop (off + n)

/-- Several fields replaced: offset, size, value. -/
def setAll (bs : List Byte) (fs : List (Nat × Nat × Nat)) : List Byte :=
  fs.foldl (fun b f => setLE b f.1 f.2.1 f.2.2) bs

/-- An ASCII label as bytes. -/
def label (s : String) : List Byte := s.toList.map fun c => BitVec.ofNat 8 c.toNat

/-! ### Keys -/

/-- The debug lock is open (R493, R522). -/
def State.debugOpen (s : State) : Bool := !s.flag F.CFG_LC_STATUS_DEBUG_CLOSED

/-- A 32-byte key from the device unique key (R505). -/
def dukKey (info : List Byte) : List Byte := leBytes 32 (Config.deriveKey 0 [] info).toNat

/-- The prefix of the archive labels (R505, R522). -/
def State.archivePrefix (s : State) : String := if s.debugOpen then "MZD" else "MZ"

/-- A 32-byte key from the fleet archive root, of generation `g` (R505). -/
def State.archiveKey (s : State) (name : String) (g : Nat) : List Byte :=
  leBytes 32 (Config.deriveKey 1 (leBytes 8 (s.get F.SEC_FLEET_FLEET_ID))
    (label s.archivePrefix ++ label name ++ leBytes 1 g)).toNat

/-- Seeds of the identity keys (R505). -/
def idEdSeed : List Byte := dukKey (label "MZ id ed25519")
def idMlSeed : List Byte := dukKey (label "MZ id mldsa65")

/-- SHA-384 as bytes: byte `i` at bits [8i+7:8i]. -/
def sha384 (bs : List Byte) : List Byte := leBytes 48 (Config.sha384 bs).toNat

/-- The identity digest DEVICE (R507). -/
def deviceDigest : List Byte :=
  sha384 (leBytes 32 (Config.ed25519Public idEdSeed).toNat ++ leBytes 1952 (Config.mldsaPublic idMlSeed).toNat)

/-- The identity signatures over a record, Ed25519 then ML-DSA-65 (R340, R507); the second uses one random value. -/
def State.identitySign (s : State) (bs : List Byte) : List Byte :=
  leBytes 64 (Config.ed25519Sign idEdSeed bs).toNat ++ leBytes 3309 (Config.mldsaSign idMlSeed bs (Config.drbg s.free)).toNat

/-- AES-256-GCM of bytes under a key and nonce: the key stream added; it opens what it sealed. -/
def gcmCrypt (key nonce bs : List Byte) : List Byte := bs.mapIdx fun i b => b ^^^ Config.gcmStream key nonce i

/-- The 16-byte tag. -/
def gcmTag (key nonce aad cipher : List Byte) : List Byte := leBytes 16 (Config.gcmTag key nonce aad cipher).toNat

/-! ### The external tiers (R187, R505) -/

/-- The tier key of a tenant: bytes 0 to 31 the data key, 32 to 63 the tweak key; tier 1 moored, 2 laid up and history
(R505). -/
def tierKey (tier tenant : Nat) : List Byte :=
  leBytes 64 (Config.deriveKey 0 [] (label "MZ tier" ++ leBytes 1 tier ++ leBytes 2 tenant)).toNat

/-- The tweak of unit 0: KIND, SLOT, GEN and the low bits of SESSION_ID (R187). -/
def tierTweak (kind slot gen session : Nat) : Nat :=
  kind % 16 * 2 ^ 24 + slot % 2 ^ 32 * 2 ^ 32 + gen % 2 ^ 16 * 2 ^ 64 + session % 2 ^ 48 * 2 ^ 80

/-- An encrypted tweak times alpha: the tweak of the next 16 bytes of a data unit (XTS-AES of IEEE 1619). -/
def xtsNext (t : BitVec 128) : BitVec 128 := (t <<< 1) ^^^ if t.getLsbD 127 then 0x87 else 0

/-- `n` blocks of 16 bytes of a data unit through a block cipher, from an encrypted tweak on. -/
def xtsBlocks (cipher : BitVec 128 → BitVec 128) : Nat → BitVec 128 → List Byte → List Byte
  | 0, _, _ => []
  | n + 1, t, bs =>
    leBytes 16 (cipher (BitVec.ofNat 128 (ofLE (bs.take 16)) ^^^ t) ^^^ t).toNat ++ xtsBlocks cipher n (xtsNext t) (bs.drop 16)

/-- One data unit of 4,096 bytes under a tier key and its tweak (R187). -/
def xtsUnit (decrypt : Bool) (key : List Byte) (tweak : Nat) (unit : List Byte) : List Byte :=
  let p := Config.aes256 (key.take 32)
  xtsBlocks (if decrypt then ⇑p.symm else ⇑p) 256 (Config.aes256 (key.drop 32) (BitVec.ofNat 128 tweak)) unit

/-- Bytes in data units, unit `u` under the tweak with index `u` (R187). -/
def xts (decrypt : Bool) (key : List Byte) (tweak : Nat) (bs : List Byte) : List Byte :=
  (List.range (ceilDiv bs.length 4096)).flatMap fun u =>
    xtsUnit decrypt key (tweak + u % 2 ^ 24) (padTo 4096 ((bs.drop (4096 * u)).take 4096))

/-! ### Generator key slots -/

/-- Address of a key slot (R517). -/
def State.slotAddr (s : State) (slot : Nat) : Nat := s.get F.SEC_KEYSLOT_BASE_ADDR + 64 * slot

/-- Associated data of a slot: SESSION_ID and the slot number (R517). -/
def slotAad (session slot : Nat) : List Byte := leBytes 8 session ++ leBytes 4 slot

/-- The key-slot wrapping key (R505). -/
def wrapKey : List Byte := dukKey (label "MZ keyslot")

/-- The 64 bytes of a slot (R517). -/
def slotBytes (session slot : Nat) (iv key : List Byte) : List Byte :=
  let c := gcmCrypt wrapKey iv key
  iv ++ c ++ gcmTag wrapKey iv (slotAad session slot) c ++ leBytes 4 0

/-- Requests of the DRBG (R506). -/
def Act.drbgDraws (n : Nat) : Act :=
  (Act.one (.takeFree n)).andThen (.modSec fun x => { x with draws := x.draws + n })

/-- Fill a key slot with a key, under an IV drawn from the DRBG (R517, R518). -/
def Act.slotFill (session slot : Nat) (key : List Byte) : Act :=
  .look fun s =>
    .all
      [ .drbgDraws 1,
        .store (s.slotAddr slot) (slotBytes session slot (leBytes 12 (Config.drbg s.free).toNat) key) ]

/-- Draw a generator key and fill a slot (R335, R518). -/
def Act.slotDraw (session slot : Nat) : Act :=
  .look fun s => .all [.drbgDraws 1, .slotFill session slot (leBytes 32 (Config.drbg s.free).toNat)]

/-- Zero a slot (R518). -/
def Act.slotZero (slot : Nat) : Act := .look fun s => .store (s.slotAddr slot) (List.replicate 64 0)

/-- The unwrapped key of a slot; none when it fails its tag (R518). -/
def State.slotKey (s : State) (session slot : Nat) : Option (List Byte) :=
  let b := s.readMem (s.slotAddr slot) 64
  let iv := b.take 12
  let c := (b.drop 12).take 32
  if (s.lostLine (s.slotAddr slot) 64).isNone && (b.drop 44).take 16 == gcmTag wrapKey iv (slotAad session slot) c then
    some (gcmCrypt wrapKey iv c)
  else none

/-- A slot that fails its tag is counted and recorded (R518). -/
def Act.slotTag (session tag : Nat) : Act :=
  (Act.count .SEC_KEYSLOT_TAG_COUNT).andThen (.raise .SEC_KEYSLOT_TAG { session := session, tag := tag })

/-- The report period that has the current second (R521). -/
def State.period (s : State) : Nat := s.taiSeconds / max 1 (s.get F.SEC_COARSE_MIN_S)

/-- The entropy source passes its health tests, so that random values can be drawn (R506). -/
def State.entropyOk (s : State) : Bool := !s.sec.entropyDown

end Sys2Proof.Machine
end

