-- ==== Sys2Proof/Machine/SdirUnit.lean ====
section
/-! DEFINITION. What the directory commands share: session records and the index (R91 to R96), the cache (R93),
quotas (R101, R102, R193), berth numbers (R103), image slots (R182), the crew's LAYER devices, and how moves start,
are cancelled and end (R96, R100, R188, R189). -/

namespace Sys2Proof.Machine

/-! ### The chart and the crew -/

/-- Base of the chart buffer of an epoch (R380). -/
def State.chartBuffer (s : State) (e : Nat) : Nat := s.get F.CHART_BASE_ADDR + e % 4 * 0x800000

/-- One entry of a chart, as its 64 bytes (R379). -/
def State.chartEntry (s : State) (e i : Nat) : List Byte := s.readMem (s.chartBuffer e + 128 + 64 * i) 64

/-- The number of entries of a chart. -/
def State.chartDevices (s : State) (e : Nat) : Nat := s.readLE (s.chartBuffer e + 0x10) 4

def entryAddr (b : List Byte) : Nat := leAt b 0 16
def entryCrew (b : List Byte) : Nat := leAt b 0x10 2
def entryPresent (b : List Byte) : Bool := bit (leAt b 0x12 2) 0
def entryRole (b : List Byte) (i : Nat) : Nat := bits (leAt b 0x14 4) (3 * i + 2) (3 * i)
def entryGranules (b : List Byte) (i : Nat) : Nat :=
  ((List.range 8).filter fun g => bits (leAt b (0x18 + g) 1) 2 0 == i).foldl (fun m g => m + 2 ^ g) 0
def entryAssign (b : List Byte) (i : Nat) : Nat := leAt b (0x20 + 2 * i) 2

/-- The device's own transport address as 128 bits: the prefix and the device address (R402, R405). -/
def State.ownAddr (s : State) : Nat := s.get F.MCT_PREFIX_PREFIX * 2 ^ 64 + s.get F.MCT_ADDR_ADDR

/-- An IPv6 address of a chart entry, whose bytes keep the order of IPv6 (R379), as a number. -/
def beAddr (b : List Byte) : Nat := (b.take 16).foldl (fun a x => a * 256 + x.toNat) 0

/-- The entries of a chart. -/
def State.chartEntries (s : State) (e : Nat) : List (List Byte) :=
  (List.range (min 65536 (s.chartDevices e))).map (s.chartEntry e)

/-- The device's own entry in a chart. -/
def State.ownEntry (s : State) (e : Nat) : Option (List Byte) := (s.chartEntries e).find? fun b => beAddr b == s.ownAddr

/-- The current epoch (R393). -/
def State.epoch (s : State) : Nat := s.get F.CHART_STATUS_CURRENT

/-- The present devices of the device's own crew in the current chart, itself included. -/
def State.crew (s : State) : List (List Byte) :=
  match s.ownEntry s.epoch with
  | none => []
  | some me => (s.chartEntries s.epoch).filter fun b => entryPresent b && entryCrew b == entryCrew me

/-- First model layers of the crew's LAYER islands, ascending (R189, R377). -/
def State.crewShares (s : State) : List Nat :=
  (s.crew.flatMap fun b => ((List.range 8).filter fun i => entryRole b i == 2 && entryGranules b i ≠ 0).map (entryAssign b)).mergeSort
    (fun a b => a ≤ b)

/-- The device has a HOME island (R378). -/
def State.hasHome (s : State) : Bool := s.get F.CHART_CFG_HOME_MASK ≠ 0

/-! ### Records -/

def State.recCount (s : State) : Nat := s.get F.SDIR_CFG_RECORDS
def State.recAddr (s : State) (i : Nat) : Nat := s.get F.SDIR_BASE_ADDR + 256 * i

/-- The set of a record in the directory cache (R93). -/
def cacheSet (i : Nat) : Nat := i % 16384

/-- The entries of a record's set, most recently used first. -/
def State.cacheWays (s : State) (i : Nat) : List CacheEntry := s.sdir.cache.get (fun _ => []) (cacheSet i)

/-- The record's cache entry. -/
def State.cacheEntry (s : State) (i : Nat) : Option CacheEntry := (s.cacheWays i).find? fun e => e.index == i

/-- The record is cached (R93). -/
def State.cached (s : State) (i : Nat) : Bool := (s.cacheEntry i).isSome

/-- Bytes of a record that a cache entry holds: 0x00 to 0x37 (R93). -/
def cachedBytes : Nat := 56

/-- The 256 bytes of a record in HBM. -/
def State.recHbm (s : State) (i : Nat) : List Byte := s.readMem (s.recAddr i) 256

/-- The 256 bytes of a record: the bytes of its cache entry, which are newer than those in HBM, and the rest. -/
def State.recBytes (s : State) (i : Nat) : List Byte :=
  match s.cacheEntry i with
  | some e => e.bytes ++ (s.recHbm i).drop cachedBytes
  | none => s.recHbm i

/-- The record's CRC in HBM verifies and its lines are readable (R94). -/
def State.hbmOk (s : State) (i : Nat) : Bool :=
  let b := s.recHbm i
  (s.lostLine (s.recAddr i) 256).isNone && leAt b 0xFC 4 == crc32c (b.take 0xFC)

/-- A use of the bytes that the cache holds meets no failed CRC: the record is cached, or reads well from HBM (R93,
R94). -/
def State.recOk (s : State) (i : Nat) : Bool := s.cached i || s.hbmOk i

def rId (b : List Byte) : Nat := leAt b 0 8
def rControl (b : List Byte) : Nat := leAt b 8 8
def rState (b : List Byte) : Nat := bits (rControl b) 2 0
def rPrior (b : List Byte) : Nat := bits (rControl b) 10 8
def rClass (b : List Byte) : Nat := bits (rControl b) 17 16
def rMotion (b : List Byte) : Nat := bits (rControl b) 23 20
def rProfile (b : List Byte) : Nat := bits (rControl b) 39 32
def rForeign (b : List Byte) : Bool := bit (rControl b) 44
def rRunAhead (b : List Byte) : Bool := bit (rControl b) 45
def rToolWait (b : List Byte) : Bool := bit (rControl b) 46
def rPinned (b : List Byte) : Bool := bit (rControl b) 47
def rBerth (b : List Byte) : Nat := bits (leAt b 0x10 4) 19 0
def rSteer (b : List Byte) : Nat := leAt b 0x14 4
def rCommitted (b : List Byte) : Nat := bits (leAt b 0x18 8) 47 0
def rLastUse (b : List Byte) : Nat := bits (leAt b 0x20 8) 47 0
def rWake (b : List Byte) : Nat := bits (leAt b 0x28 8) 47 0
def rLower (b : List Byte) : Nat := leAt b 0x30 8
def rHistory (b : List Byte) : Nat := leAt b 0x38 8
def rDigest (b : List Byte) : List Byte := (b.drop 0x40).take 48
def rLogLoc (b : List Byte) : Nat := leAt b 0x70 8
def rLogSeq (b : List Byte) : Nat := leAt b 0x78 8
def rKeySlot (b : List Byte) : Nat := leAt b 0x80 4
def rTurns (b : List Byte) : Nat := leAt b 0x84 4
def rTag (b : List Byte) : Nat := leAt b 0x88 4
def rPeer (b : List Byte) : Nat := leAt b 0x90 8
def rCreated (b : List Byte) : Nat := bits (leAt b 0x98 8) 47 0

/-- STATE codes (R96). -/
def ssFree : Nat := 0
def ssActive : Nat := 1
def ssBerthed : Nat := 2
def ssMoored : Nat := 3
def ssLaidUp : Nat := 4
def ssCrossing : Nat := 5
def ssSealed : Nat := 6
def ssFaulted : Nat := 7

/-- MOTION codes (R96). -/
def moNone : Nat := 0
def moMooring : Nat := 1
def moLayingUp : Nat := 2
def moReviving : Nat := 3
def moSealing : Nat := 4
def moReberthing : Nat := 5
def moRestoring : Nat := 6

/-- A bit field of CONTROL replaced. -/
def setCtl (b : List Byte) (hi lo v : Nat) : List Byte := setLE b 8 8 (putBits (rControl b) hi lo v)

/-- A session in this state holds a locked cache entry (R93). -/
def lockedState (st : Nat) : Bool := st == ssActive || st == ssBerthed || st == ssCrossing

/-- Write a record to HBM with a new CRC (R94). -/
def Act.storeRec (i : Nat) (b : List Byte) : Act :=
  .look fun s =>
    let b := (padTo 256 b).take 0xFC
    .store (s.recAddr i) (b ++ leBytes 4 (crc32c b))

/-- Replace the entries of a record's set. -/
def Act.setWays (i : Nat) (ways : List CacheEntry) : Act :=
  .modSdir fun x => { x with cache := x.cache.put (fun _ => []) (cacheSet i) ways }

/-- Write a record. A cached one changes in its entry, which becomes dirty; HBM is written when bytes change that the
entry does not hold, and the entry is then clean (R93, R94). -/
def Act.writeRec (i : Nat) (b : List Byte) : Act :=
  .look fun s =>
    let b := (padTo 256 b).take 0xFC
    match s.cacheEntry i with
    | none => .storeRec i b
    | some _ =>
      let through := b.drop cachedBytes ≠ ((s.recHbm i).take 0xFC).drop cachedBytes
      (Act.setWays i ((s.cacheWays i).map fun e => if e.index = i then ⟨i, decide (¬through), b.take cachedBytes⟩ else e)).andThen
        (.when (decide through) (.storeRec i b))

/-- Change a status count (R115). -/
def Act.bump (f : Field) (i : Nat) (up down : Nat) : Act := .look fun s => .set f (s.get f i + up - down) i

/-- The counts of R115 follow a change of state. -/
def Act.stateCounts (a b : Nat) : Act :=
  .all
    [ .bump F.SDIR_STATE_COUNT_COUNT a 0 1, .bump F.SDIR_STATE_COUNT_COUNT b 1 0,
      .bump F.SDIR_LOCKED_COUNT 0 (if lockedState b then 1 else 0) (if lockedState a then 1 else 0) ]

/-- A record fails its CRC: counted and recorded, its session FAULTED with FAULT_REASON 0x01, whatever its STATE reads
(R94, R98). -/
def Act.recordBad (i tag : Nat) : Act :=
  .look fun s =>
    let b := s.recBytes i
    let st := rState b
    .all
      [ match s.lostLine (s.recAddr i) 256 with
          | some k => .lineLost k { tag := tag }
          | none => .done,
        .count .SDIR_CRC_FAIL_COUNT, .stateCounts st ssFaulted,
        .writeRec i (setCtl (setCtl (setCtl b 55 48 1) 10 8 (if st = ssFaulted then rPrior b else st)) 2 0 ssFaulted),
        .raise .SDIR_RECORD_CRC { session := rId b, tag := tag, detail := i } ]

/-- Change a record, which is read from HBM first, and checked, unless the cache holds every byte concerned (R93,
R94). -/
def Act.modRec (i : Nat) (f : List Byte → List Byte) : Act :=
  .look fun s =>
    let b := s.recBytes i
    if s.hbmOk i || (s.cached i && (f b).drop cachedBytes == b.drop cachedBytes) then .writeRec i (f b)
    else (Act.recordBad i 0).andThen (.look fun t => .writeRec i (f (t.recBytes i)))

/-- The entry that a miss replaces in a full set: the least recently used one that is not locked (R93). -/
def cacheVictim (ways : List CacheEntry) : Option CacheEntry :=
  if ways.length < 16 then none
  else ways.reverse.find? fun e => !lockedState (rState e.bytes)

/-- A replaced entry is written back when it is dirty; the rest of its record is read for that, and checked (R93,
R94). -/
def Act.writeBack (e : CacheEntry) : Act :=
  .look fun s =>
    .when e.dirty
      ((Act.storeRec e.index (e.bytes ++ (s.recHbm e.index).drop cachedBytes)).andThen
        (.when (!s.hbmOk e.index) (.recordBad e.index 0)))

/-- A record becomes the most recently used entry of its set (R93). -/
def Act.cacheIn (i : Nat) : Act :=
  .look fun s =>
    let ways := s.cacheWays i
    match s.cacheEntry i with
    | some e => .setWays i (e :: ways.filter fun x => x.index != i)
    | none =>
      let fresh : CacheEntry := ⟨i, false, (s.recHbm i).take cachedBytes⟩
      match cacheVictim ways with
      | some v => (Act.setWays i (fresh :: ways.erase v)).andThen (.writeBack v)
      | none => .setWays i (fresh :: ways)

/-- Use a record through the cache: a hit or a miss is counted (R93, R116). -/
def Act.touch (i : Nat) : Act :=
  .look fun s => (Act.count (if s.cached i then .SDIR_HIT_COUNT else .SDIR_MISS_COUNT)).andThen (.cacheIn i)

/-- Move a session to a state, with further changes of its record. A session that goes ACTIVE, BERTHED or IN_CROSSING
has its entry locked in the cache (R93). -/
def Act.setState (i st : Nat) (f : List Byte → List Byte) : Act :=
  .look fun s =>
    let b := s.recBytes i
    .all [.stateCounts (rState b) st, .when (lockedState st) (.cacheIn i), .writeRec i (setCtl (f b) 2 0 st)]

/-! ### The moored list (R91, R111) -/

/-- Address of entry `k` of the moored list, which follows the records and the index (R91). -/
def State.mooredAddr (s : State) (k : Nat) : Nat := s.get F.SDIR_BASE_ADDR + 256 * s.recCount + 0x2000000 + 4 * k

/-- The record indices in the moored list from entry `k` on, to its end (assumption 48). -/
def State.mooredFrom (s : State) : Nat → Nat → List Nat
  | 0, _ => []
  | n + 1, k =>
    let v := s.readLE (s.mooredAddr k) 4
    if v = 0 then [] else (v - 1) :: s.mooredFrom n (k + 1)

/-- The moored list: record indices in the order their moorings completed (R111). -/
def State.moored (s : State) : List Nat := s.mooredFrom s.recCount 0

/-- Write the moored list: the entries that change. -/
def Act.putMoored (l : List Nat) : Act :=
  .look fun s =>
    let old := s.moored
    let entry (x : List Nat) (k : Nat) : Nat := match x[k]? with | some i => i + 1 | none => 0
    .each ((List.range (max old.length l.length)).filter fun k => entry old k ≠ entry l k) fun k =>
      .store (s.mooredAddr k) (leBytes 4 (entry l k))

/-- A mooring has completed: its record joins the list at the end (R111). -/
def Act.joinMoored (i : Nat) : Act := .look fun s => .putMoored (s.moored.filter (· ≠ i) ++ [i])

/-- A record leaves the moored list (R111). -/
def Act.leaveMoored (i : Nat) : Act := .look fun s => .putMoored (s.moored.filter (· ≠ i))

/-! ### The index -/

/-- CRC32C with a seed in place of its usual start value (R92). -/
def crc32cSeeded (seed : BitVec 32) (bs : List Byte) : Nat :=
  (bs.foldl (crcByte 0x82F63B78) (0xFFFFFFFF ^^^ seed.toNat)) ^^^ 0xFFFFFFFF

/-- Address of slot `j` of bucket `k`. -/
def State.indexAddr (s : State) (k j : Nat) : Nat :=
  s.get F.SDIR_BASE_ADDR + 256 * s.recCount + 4 * (8 * (k % 0x100000) + j)

/-- The 32 index entries that may hold an ID: the home bucket and the three after it (R92). -/
def State.indexSlots (s : State) (id : Nat) : List Nat :=
  let home := crc32cSeeded s.sdir.seed (leBytes 8 id) % 0x100000
  (List.range 4).flatMap fun k => (List.range 8).map fun j => s.indexAddr (home + k) j

/-- The record an index entry names; an entry holds the record index plus 1, 0 when it is empty. -/
def State.indexRec (s : State) (a : Nat) : Option Nat :=
  let v := s.readLE a 4
  if v = 0 then none else some (v - 1)

/-- The record index of a session (R92). -/
def State.findSession (s : State) (id : Nat) : Option Nat :=
  (s.indexSlots id).findSome? fun a => match s.indexRec a with
    | some i => if rId (s.recBytes i) = id then some i else none
    | none => none

/-- A free index entry for an ID. -/
def State.freeIndex (s : State) (id : Nat) : Option Nat := (s.indexSlots id).find? fun a => s.readLE a 4 == 0

/-- The lowest free record. -/
def State.freeRec (s : State) : Option Nat := (List.range s.recCount).find? fun i => rState (s.recBytes i) == ssFree

/-- Remove a session's index entry. -/
def Act.unindex (id : Nat) : Act :=
  .look fun s => match s.findSession id with
    | none => .done
    | some i => .each ((s.indexSlots id).filter fun a => s.readLE a 4 == i + 1) fun a => .store a (leBytes 4 0)

/-! ### Locks -/

/-- Records that revivals and restores in progress will lock when they complete (R93). -/
def State.locksPending (s : State) : List Nat :=
  (s.sdir.moves.filter fun m => m.motion == moReviving || m.motion == moRestoring).map (·.index)

/-- Locked entries, with those to come, are below LOCK_MAX (R93). -/
def State.lockFree (s : State) : Bool :=
  decide (s.get F.SDIR_LOCKED_COUNT + s.locksPending.length < s.get F.SDIR_CFG_LOCK_MAX)

/-- Locking one more entry keeps both limits (R93). -/
def State.lockRoom (s : State) (i : Nat) : Bool :=
  s.lockFree
    && decide (((s.cacheWays i).filter fun e => lockedState (rState e.bytes)).length
      + (s.locksPending.filter fun j => cacheSet j == cacheSet i).length < 8)

/-! ### Quotas -/

def tenantOf (id : Nat) : Nat := bits id 63 48

/-- Address of a tenant's quota entry (R101). -/
def State.quotaAddr (s : State) (t : Nat) : Nat := s.get F.SDIR_QUOTA_BASE_ADDR + 64 * t

/-- A field of a quota entry: offset and size. -/
def State.quota (s : State) (t off n : Nat) : Nat := s.readLE (s.quotaAddr t + off) n

/-- `add` more would pass the limit; a limit of all ones is none (R101). -/
def overLimit (n limit used add : Nat) : Bool := decide (limit ≠ 2 ^ (8 * n) - 1) && decide (used + add > limit)

def State.enabled (s : State) (t : Nat) : Bool := bit (s.quota t 0x3C 4) 0
def State.recordsFull (s : State) (t : Nat) : Bool := overLimit 4 (s.quota t 0 4) (s.quota t 4 4) 1
def State.berthQuotaFull (s : State) (t c : Nat) : Bool :=
  overLimit 2 (s.quota t (8 + 2 * c) 2) (s.quota t (0x10 + 2 * c) 2) 1
def State.moorFull (s : State) (t mib : Nat) : Bool := overLimit 8 (s.quota t 0x18 8) (s.quota t 0x20 8) mib
def State.layupFull (s : State) (t mb : Nat) : Bool := overLimit 8 (s.quota t 0x28 8) (s.quota t 0x30 8) mb

/-- Usage of the tenant exceeds a limit (R194). -/
def State.overQuota (s : State) (t : Nat) : Bool :=
  overLimit 4 (s.quota t 0 4) (s.quota t 4 4) 0 || overLimit 8 (s.quota t 0x18 8) (s.quota t 0x20 8) 0
    || overLimit 8 (s.quota t 0x28 8) (s.quota t 0x30 8) 0
    || (List.range 4).any fun c => overLimit 2 (s.quota t (8 + 2 * c) 2) (s.quota t (0x10 + 2 * c) 2) 0

/-- Change a usage field. -/
def Act.use (t off n up down : Nat) : Act :=
  .look fun s => .store (s.quotaAddr t + off) (leBytes n (s.quota t off n + up - down))

def Act.useRecords (t up down : Nat) : Act := .use t 4 4 up down
def Act.useBerth (t c up down : Nat) : Act := .use t (0x10 + 2 * c) 2 up down
def Act.useMoor (t up down : Nat) : Act := .use t 0x20 8 up down
def Act.useLayup (t up down : Nat) : Act := .use t 0x30 8 up down

/-! ### Berth numbers -/

def berthKey (c n : Nat) : Nat := c * 2 ^ 20 + n

/-- A berth number can be allocated (R103, R140). -/
def State.berthFree (s : State) (c n : Nat) : Bool :=
  s.sdir.berthUse.get (fun _ => 0) (berthKey c n) == 0 && !s.sdir.berthGone.get (fun _ => false) (berthKey c n)

/-- The lowest free number of a class. -/
def State.freeBerth (s : State) (c : Nat) : Option Nat :=
  (List.range (s.get F.SDIR_BERTHS_COUNT c)).find? (s.berthFree c)

/-- Numbers free in a class (R115). -/
def State.freeBerths (s : State) (c : Nat) : Nat :=
  ((List.range (s.get F.SDIR_BERTHS_COUNT c)).filter (s.berthFree c)).length

/-- SDIR_FREE shows the free numbers (R115). -/
def Act.showFree (c : Nat) : Act := .look fun s => .set F.SDIR_FREE_COUNT (s.freeBerths c) c

/-- The status registers of an empty directory once its configuration is loaded (R109, R115): every berth number and
every record is free, and each threshold starts at IDLE_MAX. -/
def Act.dirStart : Act :=
  .look fun s =>
    .when (s.hasHome && decide (s.recCount ≠ 0))
      ((Act.set F.SDIR_STATE_COUNT_COUNT s.recCount ssFree).andThen
        (.each (List.range 4) fun c =>
          (Act.showFree c).andThen (.set F.SDIR_THRESHOLD_COUNT (s.get F.SDIR_LOOP_ENV_IDLE_MAX) c)))

/-- A record takes a berth number, charged to its tenant. -/
def Act.takeBerth (c n i tenant : Nat) : Act :=
  .all
    [ .modSdir fun x => { x with berthUse := x.berthUse.put (fun _ => 0) (berthKey c n) (i + 1) },
      .useBerth tenant c 1 0, .showFree c ]

/-- A berth number becomes free. -/
def Act.freeBerth (c n tenant : Nat) : Act :=
  .all
    [ .modSdir fun x => { x with berthUse := x.berthUse.put (fun _ => 0) (berthKey c n) 0 },
      .useBerth tenant c 0 1, .showFree c ]

/-! ### Image slots -/

/-- The lowest free image slot (R182). -/
def State.freeSlot (s : State) : Nat :=
  ((List.range (s.sdir.slotUse.length + 1)).find? fun k => !s.sdir.slotUse.get (fun _ => false) k).getD 0

/-- The locator the next image of a kind takes: the slot's generation is raised at each reuse (R182). -/
def State.newLoc (s : State) (kind : Nat) : Nat :=
  mkLoc kind (s.sdir.gens.get (fun _ => 0) s.freeSlot + 1) s.freeSlot

/-- Take a slot for a locator. -/
def Act.takeLoc (loc : Nat) : Act :=
  .modSdir fun x =>
    { x with
      gens := x.gens.put (fun _ => 0) (locSlot loc) (locGen loc),
      slotUse := x.slotUse.put (fun _ => false) (locSlot loc) true }

/-- An image is freed: its slot once every share has freed its own, the usage charged for it at once (R182, R193). -/
def Act.freeLoc (tenant loc : Nat) : Act :=
  .look fun s =>
    if locKind loc = 1 ∨ locKind loc = 2 then
      let amount := s.sdir.charged.get (fun _ => 0) loc
      .all
        [ .modSdir fun x =>
            { x with
              slotUse := if s.crewShares.isEmpty then x.slotUse.put (fun _ => false) (locSlot loc) false else x.slotUse,
              freeing := x.freeing.put (fun _ => []) loc s.crewShares,
              shareTiles := x.shareTiles.put (fun _ => []) loc [],
              charged := x.charged.put (fun _ => 0) loc 0 },
          if locKind loc = 1 then .useMoor tenant 0 amount else .useLayup tenant 0 amount ]
    else .done

/-- A share has freed its image of a locator; with the last one the slot is free again (R182). -/
def Act.shareFreed (loc share : Nat) : Act :=
  .look fun s =>
    let left := s.sdir.freeing.get (fun _ => []) loc
    .when (left.contains share)
      (.modSdir fun x =>
        { x with
          freeing := x.freeing.put (fun _ => []) loc (left.erase share),
          slotUse := if (left.erase share).isEmpty then x.slotUse.put (fun _ => false) (locSlot loc) false else x.slotUse })

/-- Charge an image to its tenant. -/
def Act.chargeLoc (tenant loc amount : Nat) : Act :=
  .all
    [ .modSdir fun x => { x with charged := x.charged.put (fun _ => 0) loc amount },
      if locKind loc = 1 then .useMoor tenant amount 0 else .useLayup tenant amount 0 ]

/-! ### Share tile counts -/

/-- The shape of a share's berths (R120, R141, R142). -/
structure Shape where
  layers : Nat
  hkv : Nat
  hq : Nat
  w : Nat
  g : Nat
  sp : Nat
  deriving DecidableEq, Repr

/-- The shape of class `c`. -/
def State.shape (s : State) (c : Nat) : Shape :=
  ⟨s.get F.BERTH_SHAPE_LAYERS, 2 ^ s.get F.BERTH_SHAPE_LOG2_HKV, s.get F.BERTH_SHAPE_H_Q,
    128 * s.get F.BERTH_CLASS_W_TILES c, 128 * s.get F.BERTH_CLASS_G_TILES c, s.get F.BERTH_CLASS_S_POS c⟩

/-- Ring tiles per head and kind (R120). -/
def Shape.rt (h : Shape) : Nat := h.w / 128
/-- Global tiles per head and kind. -/
def Shape.gt (h : Shape) : Nat := h.g / 128
/-- Head blocks per speculative group. -/
def Shape.hg (h : Shape) : Nat := ceilDiv h.hkv 4
/-- Speculative tiles per kind. -/
def Shape.st (h : Shape) : Nat := h.sp / 32 * h.hg
/-- Key-value tiles of a layer. -/
def Shape.kv (h : Shape) : Nat := 2 * h.hkv * (h.rt + h.gt) + 2 * h.st
/-- Row-statistics tiles of a layer. -/
def Shape.stat (h : Shape) : Nat := ceilDiv ((h.sp + 1) * h.hq * 8) 16384
/-- Tiles of a layer block. -/
def Shape.lt (h : Shape) : Nat := h.kv + h.stat
/-- Bytes of a berth: control area, tiles, manifests (R119, R120). -/
def Shape.footprint (h : Shape) : Nat := 4096 + h.layers * h.lt * 16416

/-- Tiles of a share's image with a number of committed positions and of valid globals (R183). -/
def Shape.imageTiles (h : Shape) (committed globals : Nat) : Nat :=
  h.layers * (2 * h.hkv * (min h.rt (ceilDiv committed 128) + globals) + h.stat)

/-- A session's berth header on this device, where it holds a share of it. -/
def State.ownHeader (s : State) (b : List Byte) : Option Nat :=
  let a := s.get F.BERTH_CLASS_BASE (rClass b) * 65536 + rBerth b * (s.get F.BERTH_CLASS_STRIDE (rClass b) * 65536)
  if rBerth b < s.get F.BERTH_CLASS_COUNT (rClass b) ∧ s.readLE a 8 = rId b ∧ bit (s.readLE (a + 8) 4) 31 then some a
  else none

/-- The worst case that the HOME island reserves for a session, summed over its shares, in bytes (R185, R193): from the tile
counts that the shares of its lower image reported; else from COMMITTED and the number of valid globals, which it knows
where this device holds a share, and takes as full where it does not (assumption 46). -/
def State.worstBytes (s : State) (b : List Byte) : Nat :=
  match s.sdir.shareTiles.get (fun _ => []) (rLower b) with
  | [] =>
    let p := s.shape (rClass b)
    let globals := match s.ownHeader b with | some a => s.readLE (a + 0x2C) 2 | none => p.gt
    s.crewShares.length * worstImage (p.imageTiles (rCommitted b) globals)
  | ns => (ns.map worstImage).sum

/-! ### Completions and faults -/

/-- A status among the codes of R99, for a command that ends with one the spec does not name (assumption 41). -/
def State.freeStatus (s : State) : Nat := (Config.freeWord s.free).toNat % 17

/-- A directory command ends (R99, R116). -/
def Act.sdirDone (tag status result : Nat) : Act :=
  .all
    [ .when (decide ((3 ≤ status ∧ status ≤ 6) ∨ (0xA ≤ status ∧ status ≤ 0xE))) (.count .SDIR_REFUSE_COUNT),
      .complete 0x05 status 0 tag result ]

/-- A session goes to FAULTED from any state; PRIOR_STATE keeps the state it leaves (R98). -/
def Act.sessionFault (i reason : Nat) : Act :=
  .look fun s =>
    let st := rState (s.recBytes i)
    if st = ssFaulted ∨ st = ssFree then .done
    else .setState i ssFaulted fun b => setCtl (setCtl b 55 48 reason) 10 8 st

/-- A record fails its CRC, and the command concerned ends (R94). -/
def Act.recordCrc (i tag : Nat) : Act := (Act.recordBad i tag).andThen (.sdirDone tag 9 0)

/-- The committed positions of a session as its record takes them (R95, assumption 125): those of its berth header where
this device holds a share of it, else a value that the spec gives no rule for, never below the old one. -/
def State.committedNow (s : State) (b : List Byte) : Nat :=
  match s.ownHeader b with
  | some a => bits (s.readLE (a + 0x10) 8) 47 0
  | none => rCommitted b + (Config.freeWord s.free).toNat % (2 ^ 48 - rCommitted b)

/-- Bring COMMITTED of a record up to date (R95). -/
def Act.showCommitted (i : Nat) : Act :=
  .look fun s =>
    let b := s.recBytes i
    (Act.one (.takeFree 1)).andThen (.writeRec i (setLE b 0x18 8 (s.committedNow b)))

/-! ### Moves -/

/-- The move in progress of a session. -/
def State.moveOf (s : State) (id : Nat) : Option Move := s.sdir.moves.find? fun m => m.session == id

/-- Remove a session's move. -/
def Act.dropMove (id : Nat) : Act :=
  (Act.modSdir fun x => { x with moves := x.moves.filter fun m => m.session ≠ id }).andThen .opOver

/-- Start a move: MOTION is set, the reservation charged, and the LAYER devices are ordered to move their shares
(R96, R188, R193). -/
def Act.startMove (m : Move) : Act :=
  .all
    [ .modSdir fun x => { x with moves := x.moves ++ [m] },
      .modRec m.index fun b => setCtl b 23 20 m.motion,
      .one (.emit (.shareOrder m.session m.motion m.loc m.old m.cls m.berth m.oldClass m.oldBerth)) ]

/-- What a move holds is given back without its completing: its reservation and slot, what the shares have written of its
image, and the berth it was filling (R100, R191, R193). -/
def Act.undoMove (m : Move) : Act :=
  let t := tenantOf m.session
  .all
    [ .dropMove m.session,
      .modRec m.index fun b => setCtl b 23 20 moNone,
      .when (m.motion == moMooring || m.motion == moLayingUp)
        ((Act.freeLoc t m.loc).andThen (.one (.emit (.imageFree m.session m.loc)))),
      .when (m.motion == moReviving || m.motion == moReberthing || m.motion == moRestoring) (.freeBerth m.cls m.berth t),
      .one (.emit (.shareCancel m.session)) ]

/-- What started a move ends with a status: its command, or the loop's work, which carries TAG 0 and counts as no
refused command (R116, R559). -/
def Act.moveTag (m : Move) (status : Nat) : Act :=
  match m.tag with
  | some tag => .sdirDone tag status 0
  | none => .complete 0x05 status 0 0 0

/-- Cancel a move (R100): counted, undone, the command that started it ends CANCELLED. -/
def Act.cancelMove (m : Move) (status : Nat) : Act :=
  .all [.count .SDIR_CANCEL_COUNT, .undoMove m, .moveTag m status]

/-- Idle sessions of a class that the loop may move: index and bytes of every record with a berth of the class
(R109). -/
def State.berthed (s : State) (c : Nat) : List Nat :=
  (s.sdir.berthUse.filter fun e => decide (e.1 / 2 ^ 20 = c)).map fun e => e.2 - 1

/-- MiB of bytes, rounded up. -/
def mibOf (n : Nat) : Nat := ceilDiv n 0x100000
/-- MB of bytes, rounded up. -/
def mbOf (n : Nat) : Nat := ceilDiv n 1000000

/-- Start a lay-up of a session from BERTHED or MOORED with a reservation of `mb` (R98, R182, R193). -/
def Act.startLayup (i : Nat) (tag : Option Nat) (mb : Nat) : Act :=
  .look fun s =>
    let b := s.recBytes i
    let loc := s.newLoc 2
    let moored := rState b == ssMoored
    .all
      [ .takeLoc loc, .chargeLoc (tenantOf (rId b)) loc mb,
        .startMove ⟨moLayingUp, rId b, i, loc, if moored then rLower b else 0, rClass b, rBerth b, rClass b, rBerth b, tag,
          mb, s.now, s.epoch, s.crewShares, [], false, 0, []⟩ ]

/-- Start a mooring with a reservation of `mib` (R98, R193). -/
def Act.startMooring (i : Nat) (tag : Option Nat) (mib : Nat) : Act :=
  .look fun s =>
    let b := s.recBytes i
    let loc := s.newLoc 1
    .all
      [ .takeLoc loc, .chargeLoc (tenantOf (rId b)) loc mib,
        .startMove ⟨moMooring, rId b, i, loc, 0, rClass b, rBerth b, rClass b, rBerth b, tag, mib, s.now, s.epoch, s.crewShares, [],
          false, 0, []⟩ ]

/-- Moor a session, or lay it up when the mooring would pass the tenant's limit; when the lay-up would pass its
limit too, the action given runs (R102). -/
def Act.moorOrLayup (i : Nat) (tag : Option Nat) (refused : Act) : Act :=
  .look fun s =>
    let b := s.recBytes i
    let t := tenantOf (rId b)
    let w := s.worstBytes b
    if !s.moorFull t (mibOf w) then .startMooring i tag (mibOf w)
    else if !s.layupFull t (mbOf w) then .startLayup i tag (mbOf w)
    else refused

end Sys2Proof.Machine
end

