-- ==== Sys2Proof/Machine/BerthUnit.lean ====
section
/-! DEFINITION. What the berth commands share: the layout of a berth (R118 to R121), its header (R122), tile writes
with zero fill and fresh manifests (R124), ring and speculative rows (R123, R132, R133), history records (R190),
withdrawal (R140) and how a command is taken and ends (R128 to R131). -/

namespace Sys2Proof.Machine

/-! ### Layout -/

/-- Base of a berth (R118, R141). -/
def State.berthBase (s : State) (c n : Nat) : Nat :=
  s.get F.BERTH_CLASS_BASE c * 65536 + n * s.get F.BERTH_CLASS_STRIDE c * 65536

/-- Which part of a berth a key-value tile belongs to (R120). -/
inductive Region where
  | ring | global | spec
  deriving DecidableEq, Repr

/-- The tile order of a berth (R120); kind 0 is key, 1 is value. -/
def Shape.tile (p : Shape) (l h kind : Nat) (r : Region) (t : Nat) : Nat :=
  match r with
  | .spec => l * p.lt + 2 * p.hkv * (p.rt + p.gt) + kind * p.st + t
  | .ring => l * p.lt + (h * 2 + kind) * (p.rt + p.gt) + t
  | .global => l * p.lt + (h * 2 + kind) * (p.rt + p.gt) + p.rt + t

/-- The row-statistics tile `j` of layer `l` (R120). -/
def Shape.statsTile (p : Shape) (l j : Nat) : Nat := l * p.lt + p.kv + j

/-- Address of tile `i` of a berth at `base` (R120). -/
def tileAddr (base i : Nat) : Nat := base + 0x1000 + i * 16384

/-- Address of the manifest of tile `i` (R120). -/
def Shape.manifestAddr (p : Shape) (base i : Nat) : Nat := base + 0x1000 + p.layers * p.lt * 16384 + i * 32

/-! ### The header -/

def hSession (b : List Byte) : Nat := leAt b 0 8
def hOpen (b : List Byte) : Bool := bit (leAt b 8 4) 31
def hNumber (b : List Byte) : Nat := bits (leAt b 8 4) 19 0
def hClass (b : List Byte) : Nat := bits (leAt b 8 4) 21 20
def hCommitted (b : List Byte) : Nat := bits (leAt b 0x10 8) 47 0
def hHistory (b : List Byte) : Nat := bits (leAt b 0x18 8) 47 0
def hSpecBase (b : List Byte) : Nat := bits (leAt b 0x20 8) 47 0
def hSpecTag (b : List Byte) : Nat := leAt b 0x28 2
def hSpecOpen (b : List Byte) : Bool := leAt b 0x2A 1 == 1
def hBucket (b : List Byte) : Nat := bits (leAt b 0x2B 1) 2 0
def hGlobals (b : List Byte) : Nat := leAt b 0x2C 2
def hFill (b : List Byte) (l : Nat) : Nat := bits (leAt b (0x40 + 8 * l) 8) 47 0
def hSpecFill (b : List Byte) (l : Nat) : Nat := leAt b (0x140 + 2 * l) 2
def hGlobal (b : List Byte) (j : Nat) : Nat := leAt b (0x200 + 8 * j) 8
def hGlobalValid (b : List Byte) (j : Nat) : Bool := bit (hGlobal b j) 63
def hGlobalPos (b : List Byte) (j : Nat) : Nat := bits (hGlobal b j) 47 0

/-- A berth's control area. -/
def State.header (s : State) (c n : Nat) : List Byte := s.readMem (s.berthBase c n) 4096

/-- The header reads: its lines are readable, and its CRC verifies unless the control area is all zeros, as it is
before a berth is first opened (R122, assumption 32). -/
def State.headerOk (s : State) (c n : Nat) : Bool :=
  let b := s.header c n
  (s.lostLine (s.berthBase c n) 4096).isNone && (leAt b 0xFFC 4 == crc32c (b.take 0xFFC) || b.all (· == 0))

/-- A header with its CRC. -/
def withCrc (b : List Byte) : List Byte :=
  let x := (padTo 4096 b).take 0xFFC
  x ++ leBytes 4 (crc32c x)

/-- Attended tiles per head and kind (R137). -/
def attended (p : Shape) (b : List Byte) : Nat := ceilDiv (min (hCommitted b) p.w) 128 + hGlobals b

/-- The length bucket (R137). -/
def State.bucketOf (s : State) (p : Shape) (b : List Byte) : Nat :=
  ((List.range 7).find? fun k =>
    decide (attended p b ≤ bits (s.get F.BERTH_BUCKET_BOUND) (16 * k + 15) (16 * k))).getD 7

/-- Write a header: COMMITTED is the smallest FILL of the share, GLOBAL_VALID the number of valid entries, BUCKET
follows when one of them changes, and the CRC is fresh (R122, R137). -/
def Act.writeHeader (c n : Nat) (b : List Byte) : Act :=
  .look fun s =>
    let p := s.shape c
    let committed := ((List.range p.layers).map (hFill b)).foldl min (2 ^ 48 - 1)
    let globals := ((List.range p.gt).filter (hGlobalValid b)).length
    let b := setAll b [(0x10, 8, if p.layers = 0 then 0 else committed), (0x2C, 2, globals)]
    let old := s.header c n
    let same := hCommitted b == hCommitted old && hGlobals b == hGlobals old
    let b := setLE b 0x2B 1 (if same then hBucket old else s.bucketOf p b)
    .store (s.berthBase c n) (withCrc b)

/-- Chunks that left the window when COMMITTED moved are reported to the HOME island (R126). -/
def Act.chunkReports (session w old new : Nat) : Act :=
  .each ((List.range (new / 128 + 1)).filter fun k =>
      decide (128 * (k + 1) ≤ new - w) && decide (128 * (k + 1) > old - w)) fun k =>
    .one (.emit (.chunk session (128 * k)))

/-! ### Tiles -/

/-- A tile's bytes when they are readable and its manifest verifies (R124, R529). -/
def State.readTile (s : State) (c n i : Nat) : Option (List Byte) :=
  let base := s.berthBase c n
  let t := s.readMem (tileAddr base i) 16384
  let m := s.readMem ((s.shape c).manifestAddr base i) 32
  if (s.lostLine (tileAddr base i) 16384).isNone && (s.lostLine ((s.shape c).manifestAddr base i) 32).isNone
      && manifestOk kindTile m t then some t
  else none

/-- Write a whole tile with its manifest (R124). -/
def Act.putTile (c n i : Nat) (t : List Byte) : Act :=
  .look fun s =>
    let base := s.berthBase c n
    .all
      [ .store (tileAddr base i) t,
        .store ((s.shape c).manifestAddr base i) (manifestOf kindTile t),
        .modBerth fun x => { x with written := x.written.put (fun _ => false) (tileAddr base i) true } ]

/-- Bytes replaced at offsets. -/
def patch (t : List Byte) (ps : List (Nat × List Byte)) : List Byte :=
  ps.foldl (fun t p => t.take p.1 ++ p.2 ++ t.drop (p.1 + p.2.length)) t

/-- The content a partial write starts from: zeros at the first write since OPEN (R124). -/
def State.tileStart (s : State) (c n i : Nat) : Option (List Byte) :=
  if s.berth.written.get (fun _ => false) (tileAddr (s.berthBase c n) i) then s.readTile c n i
  else some (List.replicate 16384 0)

/-- A whole tile and its manifest can be written: no lost line is covered in part (R124, R532). -/
def State.tileWrites (s : State) (c n i : Nat) : Bool :=
  let base := s.berthBase c n
  (s.lostPart (tileAddr base i) 16384).isNone && (s.lostPart ((s.shape c).manifestAddr base i) 32).isNone

/-- Tiles that a list of patches needs can be read and written. -/
def State.tilesOk (s : State) (c n : Nat) (ps : List (Nat × List (Nat × List Byte))) : Bool :=
  ps.all fun p => (s.tileStart c n p.1).isSome && s.tileWrites c n p.1

/-- Write patches to tiles. -/
def Act.patchTiles (c n : Nat) (ps : List (Nat × List (Nat × List Byte))) : Act :=
  .each ps fun p => .look fun s => match s.tileStart c n p.1 with
    | some t => .putTile c n p.1 (patch t p.2)
    | none => .done

/-- The patch of one row of 128 bytes at row `r` of a key or value tile whose rows lie `pitch` apart (R121). -/
def rowPatch (kind start pitch r : Nat) (row : List Byte) : List (Nat × List Byte) :=
  if kind = 0 then [(start + r * 128, row)]
  else (row.mapIdx fun d b => (start + d * pitch + r, [b]))

/-- Patches of consecutive positions of one head and kind in the ring, one list for each ring tile (R121, R123). -/
def ringPatches (p : Shape) (l h kind pos : Nat) (rows : List (List Byte)) : List (Nat × List (Nat × List Byte)) :=
  let at_ := rows.mapIdx fun i row => ((pos + i) % p.w, row)
  (((List.range p.rt).filter fun t => at_.any fun a => a.1 / 128 == t)).map fun t =>
    (p.tile l h kind .ring t,
      (at_.filter fun a => a.1 / 128 == t).flatMap fun a => rowPatch kind 0 128 (a.1 % 128) a.2)

/-- Patches of speculative rows of one head and kind, one list for each speculative tile (R121). -/
def specPatches (p : Shape) (l h kind : Nat) (rows : List (List Byte)) : List (Nat × List (Nat × List Byte)) :=
  (List.range (ceilDiv rows.length 32)).map fun g =>
    (p.tile l h kind .spec (g * p.hg + h / 4),
      (((rows.drop (32 * g)).take 32).mapIdx fun i row => rowPatch kind (h % 4 * 4096) 32 i row).flatten)

/-- Patches to the same tile joined. -/
def joinPatches (ps : List (Nat × List (Nat × List Byte))) : List (Nat × List (Nat × List Byte)) :=
  ps.foldl (fun acc p =>
    if acc.any fun q => q.1 == p.1 then acc.map fun q => if q.1 = p.1 then (q.1, q.2 ++ p.2) else q
    else acc ++ [p]) []

/-- The speculative row `i` of a head and kind in a tile (R121). -/
def specRow (t : List Byte) (kind h i : Nat) : List Byte :=
  let start := h % 4 * 4096
  if kind = 0 then (t.drop (start + i % 32 * 128)).take 128
  else (List.range 128).map fun d => t.getD (start + d * 32 + i % 32) 0

/-! ### Commands -/

def bOp (e : BitVec 256) : Nat := bits e.toNat 191 184
def bSession (e : BitVec 256) : Nat := bits e.toNat 255 192
def bClass (e : BitVec 256) : Nat := bits e.toNat 183 182
def bNumber (e : BitVec 256) : Nat := bits e.toNat 181 162
def bLayer (e : BitVec 256) : Nat := bits e.toNat 161 157
def bPos (e : BitVec 256) : Nat := bits e.toNat 155 108
def bCount (e : BitVec 256) : Nat := bits e.toNat 107 96
def bSpecTag (e : BitVec 256) : Nat := bits e.toNat 95 80
def bSlot (e : BitVec 256) : Nat := bits e.toNat 79 72
def bTag (e : BitVec 256) : Nat := bits e.toNat 63 32
def bCore (e : BitVec 256) : Nat := bits e.toNat 31 24
def bAddr (e : BitVec 256) : Nat := bits e.toNat 23 0

/-- Berth statuses (R130). -/
def bsOk : Nat := 0
def bsNoPool : Nat := 1
def bsBadBerth : Nat := 2
def bsBadState : Nat := 3
def bsPos : Nat := 4
def bsCount : Nat := 5
def bsHistory : Nat := 6
def bsSpecOpen : Nat := 7
def bsSpecTag : Nat := 8
def bsSpecRange : Nat := 9
def bsOverlap : Nat := 0xA
def bsWithdrawn : Nat := 0xB
def bsCancelled : Nat := 0xC
def bsBadOp : Nat := 0xD

/-- The device has a LAYER island under the current chart (R118). -/
def State.hasLayer (s : State) : Bool := (List.range 8).any fun i => s.get F.CHART_ISLAND_ROLE i == 2

/-- The number of the LAYER island. -/
def State.layerIsland (s : State) : Nat := ((List.range 8).find? fun i => s.get F.CHART_ISLAND_ROLE i == 2).getD 0

/-- A berth command ends (R130, R145). -/
def Act.berthDone (e : BitVec 256) (status : Nat) : Act :=
  .all
    [ .when (status == bsSpecOpen || status == bsSpecTag || status == bsSpecRange) (.count .BERTH_SPEC_REFUSE_COUNT),
      .complete 0x06 status 0 (bTag e) 0 ]

/-- The berth number is withdrawn (R140). -/
def State.berthWithdrawn (s : State) (c n : Nat) : Bool := s.berth.withdrawn.get (fun _ => false) (berthKey c n)

/-- The share's tile or header cannot be read and has no second copy: the share is lost (R140, R531). -/
def Act.shareLost (session c n : Nat) : Act :=
  .look fun s =>
    .all
      [ match s.lostLine (s.berthBase c n) (s.get F.BERTH_CLASS_STRIDE c * 65536) with
          | some k => .lineLost k { session := session }
          | none => .done,
        .count .ERR_MANIFEST_FAIL_COUNT,
        .raiseAs .ERR_MANIFEST 1 0 4 { session := session },
        .one (.emit (.shareLost session)) ]

/-- A share move reads or fills this berth, so that its commands are held (R188). A move from one lower tier to another
touches no berth. -/
def State.berthMoving (s : State) (c n : Nat) : Bool :=
  s.tier.shares.any fun m =>
    (m.cls == c && m.berth == n && !(m.src != 0 && m.dst != 0))
      || (m.motion == moReberthing && m.fromClass == c && m.fromBerth == n)

/-- The HOME island of this device still waits for shares of a move that reads this berth: CLOSE is not accepted before
the last report (R139). Elsewhere the HOME island sends its CLOSE only after it (assumption 128). -/
def State.closeHeld (s : State) (c n : Nat) : Bool :=
  s.sdir.moves.any fun m =>
    ((m.motion == moMooring || m.motion == moLayingUp || m.motion == moSealing) && m.old == 0 && m.cls == c && m.berth == n)
      || (m.motion == moReberthing && m.oldClass == c && m.oldBerth == n)

/-- A command of the berth waits under R125. -/
def State.lapWaits (s : State) (c n : Nat) : Bool :=
  s.berth.laps.any fun j => bClass j.entry == c && bNumber j.entry == n

/-- A command of the berth waits or runs, so later ones are held back (R131). -/
def State.berthHeld (s : State) (c n : Nat) : Bool :=
  s.berth.laps.any (fun j => bClass j.entry == c && bNumber j.entry == n)
    || s.berth.loads.any (fun j => bClass j.entry == c && bNumber j.entry == n)

/-- The entry of a queued command. -/
def State.entry256 (s : State) (a : Nat) : BitVec 256 := BitVec.ofNat 256 (s.readLE a 32)

/-- Queued commands of the berth of command `a`. -/
def State.berthQueued (s : State) (a : Nat) : List Nat :=
  let e := s.entry256 a
  s.berth.queue.filter fun x => bClass (s.entry256 x) == bClass e && bNumber (s.entry256 x) == bNumber e

/-- Take a berth command from the queue and run `body` on it (R128 to R131): the entry at `a` must be queued, be the
oldest queued command of its berth and have operation `ops`; CLOSE passes a wait under R125. An unreadable entry ends
BAD_OP (R598, R622). While the capture point is being reached nothing new starts (R272). -/
def Act.berthTake (a : Nat) (ops : Nat → Bool) (body : BitVec 256 → Act) : Act :=
  let pop : Act := .modBerth fun x => { x with queue := x.queue.erase a }
  .look fun s =>
    if !s.berth.queue.contains a || s.ckState == ckCapture then .done
    else
      .takeEntry true a 32 pop (.complete 0x06 bsBadOp 0 0 0) fun b =>
        let e : BitVec 256 := BitVec.ofNat 256 (ofLE b)
        let c := bClass e
        let n := bNumber e
        let closes := bOp e == 2
        if !ops (bOp e) then .done
        else if (s.berthQueued a).head? ≠ some a && !(closes && s.lapWaits c n) then .done
        else if s.hasLayer && (s.berthMoving c n || (!closes && s.berthHeld c n) || (closes && s.closeHeld c n)) then .done
        else .all [pop, if s.hasLayer then body e else .berthDone e bsNoPool]

/-- The checks that every command but OPEN shares: reserved bits, the number, the owner, OPEN and the layer (R128,
R129); then `body` runs on the header. -/
def Act.berthChecked (e : BitVec 256) (body : List Byte → Act) : Act :=
  .look fun s =>
    let c := bClass e
    let n := bNumber e
    if bit e.toNat 156 || bits e.toNat 71 64 ≠ 0 then .berthDone e bsBadOp
    else if n ≥ s.get F.BERTH_CLASS_COUNT c then .berthDone e bsBadBerth
    else if !s.headerOk c n then (Act.shareLost (bSession e) c n).andThen (.berthDone e bsBadState)
    else
      let b := s.header c n
      if !hOpen b || hSession b ≠ bSession e then .berthDone e bsBadState
      else if bLayer e ≥ (s.shape c).layers then
        (Act.when (bOp e == 7) (.count .BERTH_GLOBAL_REFUSE_COUNT)).andThen (.berthDone e bsCount)
      else body b

/-- The rows a command takes from a local store: 128 bytes for each head, kind and position (R128). -/
def sourceRow (s : State) (e : BitVec 256) (h kind i : Nat) : List Byte :=
  s.readLs (bCore e) (bAddr e + ((h * 2 + kind) * bCount e + i) * 128) 128

/-- The source of a command is in range, aligned, in powered banks and readable. -/
def State.sourceOk (s : State) (e : BitVec 256) (p : Shape) : Bool :=
  let len := p.hkv * 2 * bCount e * 128
  decide (bCore e < 80) && decide (bAddr e % 32 = 0) && decide (bAddr e + len ≤ lsBytes)
    && !s.rangeDark (bCore e) (bAddr e) len && (s.lsLost (bCore e) (bAddr e) len).isNone

/-- Position `q` may be written: its old chunk is safe in history (R125). -/
def lapOk (p : Shape) (b : List Byte) (q : Nat) : Bool := decide (q < p.w) || decide (hHistory b > q - p.w)

/-- A header with no open tag. -/
def noTag (b : List Byte) : List Byte := setAll (setLE b 0x140 64 0) [(0x2A, 1, 0)]

/-- Zero a berth's header; no tile counts as written since OPEN (R124, R129). -/
def Act.clearBerth (c n : Nat) : Act :=
  .look fun s =>
    let base := s.berthBase c n
    let span := s.get F.BERTH_CLASS_STRIDE c * 65536
    (Act.modBerth fun x =>
      { x with written := x.written.filter fun e => !(decide (base ≤ e.1) && decide (e.1 < base + span)) }).andThen
      (.writeHeader c n (List.replicate 4096 0))

/-- Cancel an open speculation tag, and with it the results staged under it (R135, R417); a header that fails its CRC is handled as a tile whose manifest fails (R122). -/
def Act.specOrphan (c n : Nat) : Act :=
  .look fun s =>
    let b := s.header c n
    if !s.headerOk c n then .shareLost (hSession b) c n
    else if !hSpecOpen b then .done
    else
      .all
        [ .count .BERTH_SPEC_ORPHAN_COUNT,
          .raise .BERTH_SPEC_ORPHAN { session := hSession b },
          .modMct fun m => { m with staged := m.staged.filter fun x => x.tag ≠ hSpecTag b },
          .writeHeader c n (noTag b) ]

/-- Withdraw a berth number until reset (R140). -/
def Act.withdraw (c n : Nat) : Act :=
  .look fun s =>
    if s.berthWithdrawn c n then .done
    else
      .all
        [ .modBerth fun x => { x with withdrawn := x.withdrawn.put (fun _ => false) (berthKey c n) true },
          .set F.BERTH_WITHDRAWN_COUNT (s.get F.BERTH_WITHDRAWN_COUNT c + 1) c,
          .count .BERTH_WITHDRAW_COUNT,
          .one (.emit (.berthWithdrawn c n)),
          .modSdir fun x => { x with berthGone := x.berthGone.put (fun _ => false) (berthKey c n) true },
          .when s.hasHome (.showFree c) ]

/-! ### History records -/

/-- Key of a session's history usage in the charge table. -/
def historyCharge (session : Nat) : Nat := 2 ^ 64 + session

/-- A saved history record of `n` bytes adds to the tenant's usage (R194). -/
def Act.chargeHistory (session n : Nat) : Act :=
  (Act.useLayup (tenantOf session) (mbOf n) 0).andThen
    (.modSdir fun x =>
      let held := x.charged.get (fun _ => 0) (historyCharge session)
      { x with charged := x.charged.put (fun _ => 0) (historyCharge session) (held + mbOf n) })

/-- Key of a history record. -/
def historyKey (session pos : Nat) : Nat := pos * 2 ^ 64 + session

/-- The tiles of a chunk in berth tile order: ring tile of its first position, every head, kind and layer (R190). -/
def chunkTiles (p : Shape) (pos : Nat) : List Nat :=
  (List.range p.layers).flatMap fun l => (List.range p.hkv).flatMap fun h => (List.range 2).map fun k =>
    p.tile l h k .ring (pos % p.w / 128)

/-- A history record: tile index, manifests, coded blocks (R190). -/
def historyBytes (tiles : List ImageTile) : List Byte :=
  let n := tiles.length
  let first := ceilDiv (40 * n) 64 * 64
  padTo first ((List.zip tiles (blockOffsets first tiles)).flatMap (fun t => leBytes 8 (t.1.number * 2 ^ 40 + t.2))
    ++ tiles.flatMap fun t => padTo 32 t.manifest) ++ tiles.flatMap fun t => padMultiple 64 t.block

/-- Tile `i` of a history record of `n` tiles, decoded and checked (R186, R190). -/
def historyTile (r : List Byte) (n i : Nat) : Option (List Byte) :=
  let t := r.drop (bits (leAt r (8 * i) 8) 39 0)
  match decodeBlock (t.take (blockLen t)) with
  | some x => if manifestOk kindTile ((r.drop (8 * n + 32 * i)).take 32) x then some x else none
  | none => none

/-- A tile as the coder of a class writes it: coded, or STORED for a class with CODEC NEVER (R184, R198). -/
def State.codeTile (s : State) (cls : Nat) (stored : Bool) (t : List Byte) : List Byte :=
  if s.get F.FERRY_CLASS_CODEC cls = 0 || stored then storedBlock t else codedBlock t

end Sys2Proof.Machine
end

