-- ==== Sys2Proof/Machine/FlashUnit.lean ====
section
/-! DEFINITION. The flash store (R205 to R239): LUNs, blocks and pages, codewords, stripes, the map, the order of a
LUN's operations, and what relocations share. -/

namespace Sys2Proof.Machine

/-! ### Geometry (R206, R210, R211, R214) -/

/-- Chip enables, LUNs and stripe groups. -/
def State.ces (s : State) : Nat := s.get F.FLASH_CFG_CE_M1 + 1
def State.lunsPerCe (s : State) : Nat := s.get F.FLASH_CFG_LUN_M1 + 1
def State.groups (s : State) : Nat := s.ces * s.lunsPerCe
def State.planes (s : State) : Nat := s.flash.profile.planes

/-- The populated LUN indices: channel × 32 + chip enable × 4 + LUN (R206). -/
def State.lunList (s : State) : List Nat :=
  (List.range 16).flatMap fun c =>
    (List.range s.ces).flatMap fun e => (List.range s.lunsPerCe).map fun l => 32 * c + 4 * e + l

/-- The stripe group of a LUN (R211). -/
def State.groupOf (s : State) (lun : Nat) : Nat := lun / 4 % 8 * s.lunsPerCe + lun % 4

/-- STATE of FLASH_LUN_STATUS (R238): 0 ABSENT, 1 ONLINE, 2 REBUILDING, 3 RETIRED. -/
def State.lunState (s : State) (lun : Nat) : Nat := s.get F.FLASH_LUN_STATUS_STATE lun

/-- The members of a group that new stripes use, in channel order (R211, R212). -/
def State.members (s : State) (g : Nat) : List Nat :=
  s.lunList.filter fun n => s.groupOf n == g && s.lunState n == 1

/-- A permanently faulted LUN gives no page any more (R225). -/
def State.lunDead (s : State) (lun : Nat) : Bool := s.flash.dead.contains lun

/-- Key of a block. -/
def blockKey (lun plane b : Nat) : Nat := (lun * 4 + plane) * 65536 + b
/-- Key of a page: block and page within the block. -/
def pageKey (block page : Nat) : Nat := block * 8192 + page
/-- The LUN of a block. -/
def blockLun (block : Nat) : Nat := block / 65536 / 4
/-- The plane of a block. -/
def blockPlane (block : Nat) : Nat := block / 65536 % 4
/-- The LUN of a page. -/
def pageLun (page : Nat) : Nat := blockLun (page / 8192)

/-! ### Blocks: the tables of the SYSTEM area and what HBM holds (R223, R228, R230) -/

def entryDefault (_ : Nat) : BitVec 64 := 0

/-- A block's entry in the tables: both copies hold the same. -/
def State.blockEntry (s : State) (k : Nat) : Nat := (s.nand.tables.get entryDefault k).toNat

/-- STATE: 0 GOOD, 1 FACTORY_BAD, 2 GROWN_BAD, 3 WORN; START_LEVEL; PE_COUNT; PROGRAM_HOURS (R230). -/
def State.blockState (s : State) (k : Nat) : Nat := bits (s.blockEntry k) 63 62
def State.blockLevel (s : State) (k : Nat) : Nat := bits (s.blockEntry k) 61 58
def State.blockPe (s : State) (k : Nat) : Nat := bits (s.blockEntry k) 55 32
def State.blockHours (s : State) (k : Nat) : Nat := bits (s.blockEntry k) 31 0

/-- A field of a block's entry is replaced in both copies, before anything relies on it (R223, R230). -/
def Act.setEntry (k hi lo v : Nat) : Act :=
  .look fun s =>
    let w : BitVec 64 := BitVec.ofNat 64 (putBits (s.blockEntry k) hi lo v)
    .modNand fun n => { n with tables := n.tables.put entryDefault k w, tables2 := n.tables2.put entryDefault k w }

def blockDefault (_ : Nat) : FlashBlock := {}

/-- What HBM holds of a block. -/
def State.block (s : State) (k : Nat) : FlashBlock := s.flash.blocks.get blockDefault k

/-- Change what HBM holds of a block. -/
def Act.modBlock (k : Nat) (f : FlashBlock → FlashBlock) : Act :=
  .modFlash fun n => { n with blocks := n.blocks.put blockDefault k (f (n.blocks.get blockDefault k)) }

/-- The good blocks of a LUN's plane, lowest first. -/
def State.goodBlocks (s : State) (lun plane : Nat) : List Nat :=
  ((List.range s.flash.profile.blocks).map (blockKey lun plane)).filter fun k => s.blockState k == 0

/-- The blocks of the SYSTEM area of a LUN: the two lowest good ones of plane 0 (R210). -/
def State.systemOf (s : State) (lun : Nat) : List Nat := (s.goodBlocks lun 0).take 2

/-- The blocks of the DRAIN area of a LUN's plane: its part of DRAIN_BLOCKS, the highest good ones (R210). -/
def State.drainOf (s : State) (lun plane : Nat) : List Nat :=
  let good := s.goodBlocks lun plane
  let n := (s.get F.FLASH_AREA_DRAIN_BLOCKS + s.planes - 1 - plane) / max 1 s.planes
  let rest := if plane = 0 then good.drop 2 else good
  rest.drop (rest.length - n)

/-- The blocks of an area of a LUN's plane that are in service (R210): DRAIN (2), or MAPPED (3), all other good ones. -/
def State.areaBlocks (s : State) (area lun plane : Nat) : List Nat :=
  (s.goodBlocks lun plane).filter fun k =>
    if area = 2 then s.flash.drain.contains k else !s.flash.drain.contains k && !s.flash.system.contains k

/-- Every MAPPED block of the device, by LUN, plane and block number. -/
def State.allMapped (s : State) : List Nat :=
  s.lunList.flatMap fun n => (List.range s.planes).flatMap fun p => s.areaBlocks 3 n p

/-- LOGICAL_PAGES (R213): the data pages of the full stripes of the MAPPED area, less OP_PCT. -/
def State.logicalPages (s : State) : Nat :=
  let stripes := ((List.range s.groups).flatMap fun g =>
    (List.range s.planes).map fun p =>
      ((s.lunList.filter fun n => s.groupOf n == g).map fun n => (s.areaBlocks 3 n p).length).foldl min 65536
        * s.flash.profile.pages).sum
  stripes * 15 * (100 - s.get F.FLASH_CFG_OP_PCT) / 100

/-- Pages that lay-ups in progress have reserved: a share that writes to flash holds its worst case (R195). -/
def State.flashHeld (s : State) : Nat :=
  ((s.tier.shares.filter fun m => m.window == 255 && decide (m.dst ≠ 0)).map fun m => ceilDiv m.reserved 16384).sum

/-- The tier unit may take `n` more logical pages (R195, R213). -/
def State.flashRoom (s : State) (n : Nat) : Bool := decide (s.flash.used.length + s.flashHeld + n ≤ s.flash.logical)

/-! ### The bytes of a page (R209) -/

/-- The metadata of codeword `i` of a page (R209). -/
def pageMeta (number i area : Nat) (unit : List Byte) : List Byte :=
  let m := leBytes 8 number ++ leBytes 1 i ++ leBytes 1 area ++ List.replicate 18 0
  m ++ leBytes 4 (crc32c (unit ++ m))

/-- A codeword: 4,096 bytes of data, 32 of metadata, 384 of LDPC parity. -/
def codeword (number i area : Nat) (unit : List Byte) : List Byte :=
  let x := unit ++ pageMeta number i area unit
  x ++ leBytes 384 (Config.ldpcParity x).toNat

/-- Unit `i` of 16,384 bytes. -/
def unitOf (data : List Byte) (i : Nat) : List Byte := padTo 4096 ((data.drop (4096 * i)).take 4096)

/-- The bytes of a page of an area: four codewords under the numbers given, and 0xFF in the spare bytes beyond them. -/
def FlashProfile.page (p : FlashProfile) (area : Nat) (nums : List Nat) (data : List Byte) : List Byte :=
  (List.range 4).flatMap (fun i => codeword (nums.getD i 0) i area (unitOf data i))
    ++ List.replicate (p.dataBytes + p.spareBytes - 18048) 0xFF

/-- Codeword `i` of a page. -/
def codewordAt (bytes : List Byte) (i : Nat) : List Byte := (bytes.drop (4512 * i)).take 4512

/-- The data of a page: its four units. -/
def pageData (bytes : List Byte) : List Byte := (List.range 4).flatMap fun i => padTo 4096 ((codewordAt bytes i).take 4096)

/-- The number in the metadata of codeword `i`. -/
def pageNumber (bytes : List Byte) (i : Nat) : Nat := leAt (codewordAt bytes i) 4096 8

/-- Every codeword of a page passes its CRC32C (R209). -/
def pageOk (bytes : List Byte) : Bool :=
  (List.range 4).all fun i =>
    let c := codewordAt bytes i
    leAt c 4124 4 == crc32c (c.take 4124)

/-- The bytewise XOR of pages. -/
def xorBytes (a b : List Byte) : List Byte := List.zipWith (· ^^^ ·) a b

/-! ### Frame versions (R281) -/

/-- The number that a version carries in its codeword's metadata: the low 24 bits of the checkpoint number in [63:40], the
stack, or 0xF for an image frame, in [31:28], the frame in [27:0]. -/
def Version.number (v : Version) : Nat := v.ckpt % 2 ^ 24 * 2 ^ 40 + min 15 (v.key / 2 ^ 28) * 2 ^ 28 + v.key % 2 ^ 28

/-- The checkpoint number nearest to `k` that has the low 24 bits given. -/
def nearCkpt (k low : Nat) : Nat := k - 2 ^ 23 + (low + 2 ^ 24 - (k - 2 ^ 23) % 2 ^ 24) % 2 ^ 24

/-- The frame map found by scanning the DRAIN area; `k` is the newest checkpoint whose commit record is there. -/
def State.scanVersions (s : State) (k : Nat) : List Version :=
  s.nand.pages.flatMap fun e => match e.2 with
    | some x =>
      if x.area = 2 ∧ x.done then
        (List.range 4).filterMap fun i =>
          let n := pageNumber x.bytes i
          let stack := bits n 31 28
          if n = 0 then none
          else some ⟨nearCkpt k (bits n 63 40), (if stack = 15 then 16 else stack) * 2 ^ 28 + bits n 27 0,
            (codewordAt x.bytes i).take 4096, 4 * e.1 + i + 1⟩
      else []
    | none => []

/-! ### The map (R214) and what a stripe gives (R211, R220) -/

/-- Address of a map entry. -/
def State.mapAddr (s : State) (l : Nat) : Nat := s.get F.FLASH_MAP_BASE_ADDR + 8 * l

/-- The map entry of a page. -/
def mapWord (page : Nat) : Nat :=
  let block := page / 8192
  let lun := blockLun block
  2 ^ 63 + (lun / 32) * 2 ^ 44 + (lun / 4 % 8) * 2 ^ 41 + (lun % 4) * 2 ^ 39 + blockPlane block * 2 ^ 37
    + (block % 65536) * 2 ^ 21 + (page % 8192) * 2 ^ 8

/-- The physical page that the map gives a logical page. -/
def State.mapped (s : State) (l : Nat) : Option Nat :=
  let w := s.readLE (s.mapAddr l) 8
  if bit w 63 then
    some (pageKey (blockKey (bits w 47 44 * 32 + bits w 43 41 * 4 + bits w 40 39) (bits w 38 37) (bits w 36 21)) (bits w 20 8))
  else none

/-- The page at a place. -/
def State.page (s : State) (p : Nat) : Option FlashPage := s.nand.pages.get (fun _ => none) p

/-- The pages of a stripe. -/
def State.stripePages (s : State) (n : Nat) : List (Nat × FlashPage) :=
  s.nand.pages.filterMap fun e =>
    match e.2 with
    | some x => if x.stripe = n then some (e.1, x) else none
    | none => none

/-- A stripe counts as written when its XOR page has programmed (R211). -/
def State.stripeDone (s : State) (n : Nat) : Bool := (s.stripePages n).any fun e => e.2.area == 4 && e.2.done

/-- The data of a page made from the other pages of its stripe (R220). -/
def State.rebuilt (s : State) (p : Nat) (x : FlashPage) : List Byte :=
  ((s.stripePages x.stripe).filter fun e => e.1 ≠ p).foldl (fun acc e => xorBytes acc (pageData e.2.bytes))
    (List.replicate 16384 0)

/-- The bytes of a logical page: from the staging area until its stripe is written (R211), from its page, or from the
stripe when its LUN is gone or the page did not program (R220, R225). -/
def State.logicalBytes (s : State) (l : Nat) : List Byte :=
  match s.flash.staged.get (fun _ => []) l with
  | [] =>
    (match s.mapped l with
    | some p =>
      (match s.page p with
      | some x => if x.done && !s.lunDead (pageLun p) then pageData x.bytes else s.rebuilt p x
      | none => List.replicate 16384 0)
    | none => List.replicate 16384 0)
  | bs => bs

/-- The bytes of an image or record in flash. -/
def State.flashBytes (s : State) (owner : Nat) : List Byte := (s.flash.owners.get (fun _ => []) owner).flatMap s.logicalBytes

/-- A physical page is valid (R216, R217): MAPPED, it holds a logical page that is in use and not lost, and the map
points at it or it lies in the stripe that will replace the mapped one; in the DRAIN area, it holds a frame version that
is still needed. -/
def State.pageValid (s : State) (page : Nat) (x : FlashPage) : Bool :=
  if x.area = 2 then s.flash.versions.any fun v => decide (v.place ≠ 0) && decide ((v.place - 1) / 4 = page)
  else match x.lpn with
  | none => false
  | some l =>
    s.flash.used.get (fun _ => false) l && decide (s.flash.pageFault.get (fun _ => 0) l ≠ 2)
      && (s.mapped l == some page || decide (s.flash.moving.get (fun _ => 0) l = x.stripe + 1))

/-- The pages of a block. -/
def State.pagesIn (s : State) (block : Nat) : List (Nat × FlashPage) :=
  s.nand.pages.filterMap fun e =>
    if e.1 / 8192 = block then e.2.map fun x => (e.1, x) else none

/-- The valid pages of a block. -/
def State.validIn (s : State) (block : Nat) : List (Nat × FlashPage) :=
  (s.pagesIn block).filter fun e => s.pageValid e.1 e.2

/-! ### Free blocks (R215, R216) -/

/-- A releasable block may be erased (R216): in the MAPPED area DEFER is 0, or the checkpoint of its stamp has
committed. -/
def State.mayErase (s : State) (k : Nat) : Bool :=
  s.flash.drain.contains k || !s.flag F.FLASH_CFG_DEFER || decide ((s.block k).releaseCk ≤ s.get F.CKPT_COMMITTED_NEWEST)

/-- A block is free. -/
def State.blockFree (s : State) (k : Nat) : Bool :=
  let b := s.block k
  s.blockState k == 0 && (b.use == 0 || (b.use == 3 && s.mayErase k))

/-- The free block of an area that a LUN's plane opens next: the lowest program/erase count, then the lowest number
(R215). -/
def State.nextBlock (s : State) (area lun plane : Nat) : Option Nat :=
  ((s.areaBlocks area lun plane).filter s.blockFree).foldl
    (fun best k =>
      match best with
      | none => some k
      | some b => if s.blockPe k < s.blockPe b then some k else some b) none

/-- Free MAPPED blocks in percent (R238). -/
def State.freePct (s : State) : Nat :=
  let all := s.allMapped
  (all.filter s.blockFree).length * 100 / max 1 all.length

/-- FLASH_STATUS shows the free blocks and the catch-up pass (R229, R238). -/
def Act.showFlash : Act :=
  .look fun s =>
    let reading := (s.flash.ops ++ s.flash.recon).any (·.client == .catchup)
      || s.flash.busy.any fun e => match e.2 with | some o => o.client == .catchup | none => false
    (Act.set F.FLASH_STATUS_FREE_PCT s.freePct).andThen (.setFlag F.FLASH_STATUS_CATCHUP reading)

/-- GROWN_BAD of a LUN: its blocks marked GROWN_BAD or WORN (R238). -/
def Act.showBad (lun : Nat) : Act :=
  .look fun s =>
    .set F.FLASH_LUN_STATUS_GROWN_BAD ((s.nand.tables.filter fun e => blockLun e.1 == lun && 2 ≤ bits e.2.toNat 63 62).length) lun

/-- A block leaves service: GROWN_BAD (2) or WORN (3) (R222, R223, R238). -/
def Act.blockBad (k st : Nat) : Act := (Act.setEntry k 63 62 st).andThen (.showBad (blockLun k))

/-- Closed blocks without a valid page become releasable and are stamped (R216); worn ones leave service (R223). -/
def Act.sweepBlocks : Act :=
  .look fun s =>
    .all
      [ .each (s.flash.blocks.filter fun e => e.2.use == 2 && (s.validIn e.1).isEmpty) fun e =>
          .all
            [ .modBlock e.1 fun b => { b with use := 3, releaseCk := s.ckpt.number + 1 },
              .when (s.blockState e.1 == 0 && decide (s.flash.profile.endurance ≤ s.blockPe e.1)) (.blockBad e.1 3),
              .modFlash fun f => if f.collecting = some e.1 then { f with collecting := none } else f ],
        .showFlash ]

/-! ### LUN operations (R208, R219) -/

/-- An operation on a LUN's bus. -/
def Act.onfi (lun : Nat) (op : Onfi) : Act := .one (.emit (.onfi lun op))

/-- A LUN operation waits. -/
def Act.lunOp (lun : Nat) (kind : FlashKind) (client : FlashClient) (page : Nat) (target : Option Nat := none) : Act :=
  .modFlash fun f => { f with ops := f.ops ++ [⟨f.nextOp, lun, kind, client, page, 0, target⟩], nextOp := f.nextOp + 1 }

/-- The operation a LUN works on. -/
def State.lunBusy (s : State) (lun : Nat) : Option FlashOp := s.flash.busy.get (fun _ => none) lun

/-- The operations that wait or run. -/
def State.allOps (s : State) : List FlashOp := s.flash.ops ++ s.flash.busy.filterMap fun e => e.2

/-- The level of an operation (R219). -/
def State.opLevel (s : State) (o : FlashOp) : Nat :=
  match o.client with
  | .ferry => if o.kind = .read then 1 else 4
  | .drain => 2
  | .collect => if s.freePct < s.get F.FLASH_GC_URGENT then 3 else 6
  | .rebuild => 5
  | .catchup => 5
  | .refresh => 6
  | .patrol => 7

/-- An operation may start on its LUN: one erase at a time in a group, and no program before its block's erase
(R215, R219). -/
def State.opReady (s : State) (o : FlashOp) : Bool :=
  match o.kind with
  | .read => true
  | .program => !s.flash.ops.any fun x => x.kind == .erase && x.page / 8192 == o.page / 8192
  | .erase =>
    !s.flash.busy.any fun e =>
      match e.2 with
      | some x => x.kind == .erase && s.groupOf e.1 == s.groupOf o.lun
      | none => false

/-- The bus operation that starts a LUN operation (R208). -/
def FlashKind.onfi : FlashKind → Onfi
  | .read => .read
  | .program => .program
  | .erase => .erase

/-- An idle LUN takes its next operation (R219). -/
def Act.lunNext (lun : Nat) : Act :=
  .look fun s =>
    if (s.lunBusy lun).isSome then .done
    else
      match (s.flash.ops.filter fun o => o.lun == lun && s.opReady o).foldl
          (fun best o =>
            match best with
            | none => some o
            | some b => if s.opLevel o < s.opLevel b then some o else some b) none with
      | none => .done
      | some o =>
        (Act.modFlash fun f =>
          { f with ops := f.ops.filter (·.id ≠ o.id), busy := f.busy.put (fun _ => none) lun (some o) }).andThen
          (.onfi lun o.kind.onfi)

/-- Every idle LUN with waiting operations takes one. -/
def Act.lunsNext : Act := .look fun s => .each (s.flash.ops.map (·.lun)).eraseDups .lunNext

/-! ### Stripes (R211, R212) -/

/-- Key of an open block. -/
def openKey (area lun plane : Nat) : Nat := area * 4096 + lun * 4 + plane

/-- The open block of a LUN's plane in an area and the page index it is at. -/
def State.openBlock (s : State) (area lun plane : Nat) : Option (Nat × Nat) :=
  match s.flash.openBlocks.get (fun _ => (0, 0)) (openKey area lun plane) with
  | (0, _) => none
  | (b + 1, p) => if p < s.flash.profile.pages then some (b, p) else none

/-- Every member of a group has an open block on a plane, or a free one to open. -/
def State.canStripe (s : State) (area g plane : Nat) : Bool :=
  let ms := s.members g
  decide (4 ≤ ms.length) && ms.all fun m => (s.openBlock area m plane).isSome || (s.nextBlock area m plane).isSome

/-- The next stripe number that can be filled: stripe `n` is on group `n` mod the groups and a plane in turn. -/
def State.nextStripe (s : State) (area : Nat) : Option Nat :=
  ((List.range (s.groups * s.planes)).map fun j => s.flash.stripe + 1 + j).find? fun n =>
    s.canStripe area (n % s.groups) (n / s.groups % s.planes)

/-- A member opens a block, erased just before (R215). -/
def Act.openIn (area lun plane : Nat) (client : FlashClient) : Act :=
  .look fun s =>
    if (s.openBlock area lun plane).isSome then .done
    else match s.nextBlock area lun plane with
      | none => .done
      | some k =>
        .all
          [ .modBlock k fun b => { b with use := 1 },
            .modFlash fun f => { f with openBlocks := f.openBlocks.put (fun _ => (0, 0)) (openKey area lun plane) (k + 1, 0) },
            .modNand fun n => { n with pages := n.pages.filter fun e => e.1 / 8192 ≠ k },
            .lunOp lun .erase client (pageKey k 0) ]

/-- The XOR member of a stripe (R211). -/
def State.xorMember (s : State) (n : Nat) : Nat :=
  let ms := s.members (n % s.groups)
  ms.getD (n % max 1 ms.length) 0

/-- The stripe of an area that is being filled, and the member places it has left. -/
def State.fill (s : State) (area : Nat) : Nat × List Nat := s.flash.filling.get (fun _ => (0, [])) area

/-- The stripe being filled changes. -/
def Act.setFill (area n : Nat) (left : List Nat) : Act :=
  .modFlash fun f => { f with filling := f.filling.put (fun _ => (0, [])) area (if left = [] then (0, []) else (n, left)) }

/-- Begin to fill a stripe. -/
def Act.openStripe (area n : Nat) (client : FlashClient) : Act :=
  .look fun s =>
    let ms := s.members (n % s.groups)
    .all
      [ .each ms fun m => .openIn area m (n / s.groups % s.planes) client,
        .modFlash fun f => { f with stripe := n }, .setFill area n (ms.filter (· ≠ s.xorMember n)) ]

/-- Place a page of stripe `n` on a member (R209, R211); the frame versions of a DRAIN page lie there from now on
(R281). -/
def Act.placePage (n lun area : Nat) (j : PageJob) : Act :=
  .look fun s =>
    let plane := n / s.groups % s.planes
    match s.openBlock area lun plane with
    | none => .done
    | some (k, p) =>
      let at_ := pageKey k p
      .all
        [ .modNand fun x =>
            { x with
              pages := x.pages.put (fun _ => none) at_
                (some ⟨j.area, j.lpn, n, false, s.flash.profile.page j.area j.nums j.data⟩) },
          .modFlash fun f =>
            { f with
              openBlocks := f.openBlocks.put (fun _ => (0, 0)) (openKey area lun plane) (k + 1, p + 1),
              moving := match j.lpn with | some l => f.moving.put (fun _ => 0) l (n + 1) | none => f.moving,
              versions := if j.area ≠ 2 then f.versions else f.versions.map fun v =>
                match if v.place = 0 then j.nums.findIdx? (· == v.number) else none with
                | some u => { v with place := 4 * at_ + u + 1 }
                | none => v },
          .lunOp lun .program j.client at_ ]

/-- The XOR page closes a stripe of an area (R211): the XOR of its data pages, under the stripe's number. -/
def Act.closeStripe (area n : Nat) (client : FlashClient) : Act :=
  .look fun s =>
    let data := (s.stripePages n).foldl (fun acc e => xorBytes acc (pageData e.2.bytes)) (List.replicate 16384 0)
    .placePage n (s.xorMember n) area ⟨4, client, none, List.replicate 4 n, data⟩

/-- Pages of an area that wait for a stripe are placed; the XOR page closes a full stripe (R211). -/
def Act.fillStripes (area : Nat) : Nat → Act
  | 0 => .done
  | fuel + 1 =>
    .look fun s =>
      match s.flash.staging.find? fun j => j.area == area with
      | none => .done
      | some j =>
        match s.fill area with
        | (_, []) =>
          match s.nextStripe area with
          | none => .done
          | some k => (Act.openStripe area k j.client).andThen (.fillStripes area fuel)
        | (n, m :: ms) =>
          .all
            [ .placePage n m area j,
              .modFlash fun f => { f with staging := f.staging.erase j },
              .setFill area n ms,
              .when ms.isEmpty (.closeStripe area n j.client),
              .fillStripes area fuel ]

/-- Place what waits and start what can start. Until the first sailing nothing is written to the MAPPED area
(R492). -/
def Act.flashGo : Act :=
  .look fun s =>
    let fuel := 2 * s.flash.staging.length
    .all [.fillStripes 2 fuel, .when (s.sail.ran || s.ckState == ckRestore || s.ckState == ckResume) (.fillStripes 3 fuel), .lunsNext, .showFlash]

/-- A logical page waits for a stripe with its bytes; until that stripe is written it is staged (R211). -/
def Act.stage (l : Nat) (client : FlashClient) (data : List Byte) : Act :=
  .look fun s =>
    .when (s.flash.used.get (fun _ => false) l && !s.flash.staging.any fun j => j.lpn == some l)
      (.modFlash fun f =>
        { f with
          staging := f.staging ++ [⟨3, client, some l, List.replicate 4 l, data⟩],
          staged := f.staged.put (fun _ => []) l data,
          moving := f.moving.put (fun _ => 0) l 0 })

/-- Frame versions wait for a page of the DRAIN area, four to a page (R281). -/
def Act.stageVersions (client : FlashClient) (vs : List Version) : Act :=
  .modFlash fun f =>
    { f with
      staging := f.staging ++ [⟨2, client, none, vs.map Version.number, vs.flatMap fun v => padTo 4096 v.bytes⟩],
      versions := f.versions.map fun v => if vs.contains v then { v with place := 0 } else v }

/-- What a page holds waits for a new stripe, if it is still needed (R222, R225, R281). -/
def Act.stagePage (p : Nat) (x : FlashPage) (client : FlashClient) (data : List Byte) : Act :=
  .look fun s =>
    .when (s.pageValid p x)
      (match x.lpn with
      | some l => .stage l client data
      | none => .stageVersions client (s.flash.versions.filter fun v => decide (v.place ≠ 0) && decide ((v.place - 1) / 4 = p)))

/-- The data pages of a stripe that is not written go into new stripes, from the staging area (R222). -/
def Act.restage (n : Nat) (client : FlashClient) : Act :=
  .look fun s => .each ((s.stripePages n).filter fun e => e.2.area ≠ 4) fun e => .stagePage e.1 e.2 client (pageData e.2.bytes)

/-- A page that could not be programmed goes elsewhere (R222): with its whole stripe while that is not written. -/
def Act.unplaced (p : Nat) (client : FlashClient) : Act :=
  .look fun s => match s.page p with
    | none => .done
    | some x => if s.stripeDone x.stripe then .stagePage p x client (s.rebuilt p x) else .restage x.stripe client

/-- A stripe is written: the map takes its pages (R211, R217). -/
def Act.stripeWritten (n : Nat) : Act :=
  .look fun s =>
    .each (s.stripePages n) fun e =>
      match e.2.lpn with
      | some l =>
        .when (decide (s.flash.moving.get (fun _ => 0) l = n + 1))
          (.all
            [ .storeRaw (s.mapAddr l) (leBytes 8 (mapWord e.1)),
              .modFlash fun f =>
                { f with moving := f.moving.put (fun _ => 0) l 0, staged := f.staged.put (fun _ => []) l [] } ])
      | none => .done

/-- The open blocks of a group on a plane are closed, and the stripes being filled there are given up. -/
def Act.closeGroup (g plane : Nat) (client : FlashClient) : Act :=
  .each [2, 3] fun area =>
    .look fun s =>
      let (n, left) := s.fill area
      .all
        [ .each (s.lunList.filter fun m => s.groupOf m == g) fun m =>
            match s.openBlock area m plane with
            | some (k, _) =>
              .all
                [ .modBlock k fun b => { b with use := 2 },
                  .modFlash fun f => { f with openBlocks := f.openBlocks.put (fun _ => (0, 0)) (openKey area m plane) (0, 0) } ]
            | none => .done,
          .when (!left.isEmpty && decide (n % s.groups = g) && decide (n / s.groups % s.planes = plane))
            ((Act.setFill area 0 []).andThen (.restage n client)) ]

/-! ### Logical pages (R213, R216) -/

/-- Take logical pages for an image or record and write it; zeros fill the last page (R213). -/
def Act.flashWrite (owner : Nat) (bytes : List Byte) (client : FlashClient) : Act :=
  .look fun s =>
    let n := ceilDiv bytes.length 16384
    let ls := ((List.range (s.flash.used.length + n)).filter fun l => !s.flash.used.get (fun _ => false) l).take n
    .all
      [ .modFlash fun f =>
          { f with
            used := ls.foldl (fun m l => m.put (fun _ => false) l true) f.used,
            owners := f.owners.put (fun _ => []) owner ls },
        .each ls.zipIdx fun e => .stage e.1 client (padTo 16384 ((bytes.drop (16384 * e.2)).take 16384)), .flashGo ]

/-- Release the logical pages of an image or record; a copy under way is invalid as well (R216, R217). -/
def Act.flashDrop (owner : Nat) : Act :=
  .look fun s =>
    let ls := s.flash.owners.get (fun _ => []) owner
    .when (!ls.isEmpty)
      (.all
        [ .each ls fun l => .when (s.mapped l).isSome (.storeRaw (s.mapAddr l) (leBytes 8 0)),
          .modFlash fun f =>
            { f with
              used := ls.foldl (fun m l => m.put (fun _ => false) l false) f.used,
              moving := ls.foldl (fun m l => m.put (fun _ => 0) l 0) f.moving,
              staged := ls.foldl (fun m l => m.put (fun _ => []) l []) f.staged,
              pageFault := ls.foldl (fun m l => m.put (fun _ => 0) l 0) f.pageFault,
              staging := f.staging.filter fun j => match j.lpn with | some l => !ls.contains l | none => true,
              owners := f.owners.put (fun _ => []) owner [] },
          .sweepBlocks ])

/-- The other pages of a page's stripe are read to make it (R220, R225); one that a LUN can no longer give makes it
impossible at once. -/
def Act.reconReads (p : Nat) (x : FlashPage) (client : FlashClient) : Act :=
  .look fun s =>
    let others := (s.stripePages x.stripe).filter fun e => e.1 ≠ p
    (Act.each others fun e => .lunOp (pageLun e.1) .read client e.1 (some p)).andThen
      (.when (others.any fun e => s.lunDead (pageLun e.1) || !e.2.done)
        (.modFlash fun f => { f with reconBad := f.reconBad.put (fun _ => false) p true }))

/-- A page is read for a client: from its LUN, or from its stripe when the LUN is permanently faulted (R225). -/
def Act.readPage (p : Nat) (client : FlashClient) : Act :=
  .look fun s =>
    if !s.lunDead (pageLun p) then .lunOp (pageLun p) .read client p
    else match s.page p with
      | some x => .reconReads p x client
      | none => .done

/-- Reads of an image's pages are queued for the ferries (R219); pages still in staging are served from it (R211). -/
def Act.flashRead (owner : Nat) : Act :=
  .look fun s =>
    (Act.each (s.flash.owners.get (fun _ => []) owner) fun l =>
      match s.mapped l with
      | some p =>
        .when (decide (s.flash.pageFault.get (fun _ => 0) l ≠ 2) && s.flash.staged.get (fun _ => []) l == [])
          (.readPage p .ferry)
      | none => .done).andThen .lunsNext

/-- The logical pages under a byte range of an image or record. -/
def State.pagesUnder (s : State) (owner off len : Nat) : List Nat :=
  let ls := s.flash.owners.get (fun _ => []) owner
  (ls.drop (off / 16384)).take (ceilDiv (off % 16384 + len) 16384)

/-- A read of a range waits for a LUN. -/
def State.flashWaits (s : State) (owner off len : Nat) : Bool :=
  let pages := (s.pagesUnder owner off len).filterMap s.mapped
  (s.allOps ++ s.flash.recon).any fun o =>
    o.kind == .read && o.client == .ferry
      && (pages.contains o.page || (match o.target with | some t => pages.contains t | none => false))

/-- A read of a range fails (R220, R226). -/
def State.flashFails (s : State) (owner off len : Nat) : Bool :=
  (s.pagesUnder owner off len).any fun l => s.flash.pageFault.get (fun _ => 0) l ≠ 0

/-! ### Relocation (R217, R225, R227) -/

/-- Relocate the valid pages of a block: each is read and then written into a new stripe. -/
def Act.relocate (block : Nat) (client : FlashClient) : Act :=
  .look fun s => (Act.each (s.validIn block) fun e => .readPage e.1 client).andThen .lunsNext

/-- A block becomes due for refresh; a closed one is relocated at once (R227). -/
def Act.due (block : Nat) : Act :=
  .look fun s =>
    let b := s.block block
    if b.due then .done
    else
      .all
        [ .modBlock block fun b => { b with due := true },
          .when (b.use == 2) ((Act.count .FLASH_REFRESH_COUNT).andThen (.relocate block .refresh)) ]

/-- Hours of TAI (R230). -/
def State.taiHours (s : State) : Nat := s.taiSeconds / 3600

/-- The triggers of R227 that hold without a read: age, read disturb and wear spread (R215). -/
def State.isDue (s : State) (block : Nat) : Bool :=
  let pes := (s.allMapped.filter fun k => s.blockState k == 0).map s.blockPe
  let pe := s.blockPe block
  let lo := pes.foldl min pe
  let hi := pes.foldl max pe
  decide (s.blockHours block ≠ 0 ∧ s.get F.FLASH_REFRESH_AGE_DAYS * 24 ≤ s.taiHours - s.blockHours block)
    || decide (s.get F.FLASH_REFRESH_DISTURB_K * 1000 ≤ (s.block block).reads)
    || (decide (hi > lo + 2000) && decide (pe = lo))

/-! ### Reads that have ended (R217, R220, R225) -/

/-- The clients that move a page. -/
def FlashClient.moves : FlashClient → Bool
  | .collect | .rebuild | .refresh => true
  | _ => false

/-- A page has been read, or made from its stripe, for a client: its bytes go into a new stripe for one that moves
pages; a read that failed is recorded, and the logical page cannot be read (R217, R220, R226). -/
def Act.readServes (p : Nat) (client : FlashClient) (ok : Bool) (data : List Byte) : Act :=
  .look fun s =>
    match s.page p with
    | none => .done
    | some x =>
      if ok then
        .all
          [ (match x.lpn with
            | some l =>
              .when (decide (s.flash.pageFault.get (fun _ => 0) l = 1))
                (.modFlash fun f => { f with pageFault := f.pageFault.put (fun _ => 0) l 0 })
            | none => .done),
            .when client.moves (.stagePage p x client data) ]
      else
        .all
          [ .count .FLASH_UNCORRECTABLE_COUNT,
            .raise .FLASH_UNCORRECTABLE { address := pageLun p },
            (match x.lpn with
            | some l =>
              .when (s.mapped l == some p && s.flash.staged.get (fun _ => []) l == [])
                (.modFlash fun f => { f with pageFault := f.pageFault.put (fun _ => 0) l (if client.moves then 2 else 1) })
            | none =>
              .when client.moves (.modFlash fun f =>
                { f with versions := f.versions.filter fun v => !(decide (v.place ≠ 0) && decide ((v.place - 1) / 4 = p)) })),
            .when client.moves .sweepBlocks ]

/-! ### Die faults (R224 to R226) -/

/-- Written stripes of a group that lack two or more members, all permanently faulted, lose the pages that were there
(R226): recorded once for each stripe. -/
def Act.stripesLost (g : Nat) : Act :=
  .look fun s =>
    let gone (e : Nat × FlashPage) : Bool := s.lunDead (pageLun e.1)
    let hit := (s.nand.pages.filterMap fun e => e.2.map fun x => (e.1, x)).filter fun e =>
      gone e && s.groupOf (pageLun e.1) == g
    let stripes := (hit.map fun e => e.2.stripe).eraseDups.filter fun n =>
      s.stripeDone n && (hit.filter fun e => e.2.stripe == n).length ≥ 2
        && (s.stripePages n).any fun e => s.pageValid e.1 e.2
    .each stripes fun n =>
      .all
        [ .when (!s.flash.lostStripes.get (fun _ => false) n)
            (.all
              [ .count .FLASH_STRIPE_LOST_COUNT,
                .raise .FLASH_STRIPE_LOST { address := pageLun ((((s.stripePages n).filter gone).map (·.1)).headD 0) },
                .modFlash fun f => { f with lostStripes := f.lostStripes.put (fun _ => false) n true } ]),
          .each ((s.stripePages n).filter fun e => gone e && s.pageValid e.1 e.2) fun e =>
            match e.2.lpn with
            | some l =>
              .when (s.flash.staged.get (fun _ => []) l == [])
                (.modFlash fun f => { f with pageFault := f.pageFault.put (fun _ => 0) l 2 })
            | none => .modFlash fun f =>
                { f with versions := f.versions.filter fun v => !(decide (v.place ≠ 0) && decide ((v.place - 1) / 4 = e.1)) } ]

/-- A LUN leaves its group (R212, R225): REBUILDING, its open blocks closed, its programs and erases given up and their
pages written elsewhere, as is every stripe with a page on it that is not yet written. -/
def Act.lunLeaves (lun : Nat) : Act :=
  .look fun s =>
    let mine := s.allOps.filter fun o => o.lun == lun && o.kind ≠ .read
    .all
      [ .set F.FLASH_LUN_STATUS_STATE 2 lun,
        .modFlash fun f =>
          { f with
            rebuilding := f.rebuilding ++ [lun],
            ops := f.ops.filter fun o => o.lun ≠ lun || o.kind == .read,
            busy := match f.busy.get (fun _ => none) lun with
              | some o => if o.kind == .read then f.busy else f.busy.put (fun _ => none) lun none
              | none => f.busy },
        .each (List.range s.planes) fun p => .closeGroup (s.groupOf lun) p .rebuild,
        .each mine fun o => .when (o.kind == .program) (.unplaced o.page .rebuild),
        .look fun s =>
          .each ((s.nand.pages.filterMap fun e => e.2.map fun x => (pageLun e.1, x.stripe)).filterMap fun e =>
              if e.1 = lun ∧ !s.stripeDone e.2 then some e.2 else none).eraseDups fun n => .restage n .rebuild ]

/-- A LUN is permanently faulted (R225, R226): it leaves its group, stripes that lack another member too are lost, and
the reads that wait for it are served by stripe reconstruction. -/
def Act.lunFault (lun : Nat) : Act :=
  .look fun s =>
    let reads := s.allOps.filter fun o => o.lun == lun && o.kind == .read
    .all
      [ .modFlash fun f => { f with dead := f.dead ++ [lun] },
        .lunLeaves lun,
        .modFlash fun f =>
          { f with ops := f.ops.filter fun o => o.lun ≠ lun, busy := f.busy.put (fun _ => none) lun none },
        .stripesLost (s.groupOf lun),
        .each reads fun o => match o.target with
          | some t => .modFlash fun f => { f with reconBad := f.reconBad.put (fun _ => false) t true }
          | none => .readPage o.page o.client,
        .flashGo ]

/-- Valid data pages of the stripes that have a page on a LUN. -/
def State.stillOn (s : State) (lun : Nat) : List (Nat × FlashPage) :=
  let stripes := ((s.nand.pages.filterMap fun e => e.2.map fun x => (e.1, x)).filter fun e =>
    pageLun e.1 == lun).map fun e => e.2.stripe
  (s.nand.pages.filterMap fun e => e.2.map fun x => (e.1, x)).filter fun e =>
    stripes.contains e.2.stripe && s.pageValid e.1 e.2

/-- The rebuild of the first LUN is complete: RETIRED; a group of fewer than 4 members is retired as a whole, and the
data of the members left is relocated from them (R212, R225). -/
def Act.rebuildCheck : Act :=
  .look fun s =>
    match s.flash.rebuilding with
    | [] => .done
    | n :: rest =>
      if !s.flash.started || !(s.stillOn n).isEmpty then .done
      else
        .all
          [ .set F.FLASH_LUN_STATUS_STATE 3 n,
            .modFlash fun f => { f with rebuilding := rest, started := false },
            .actionDone 2 n,
            .look fun s =>
              let ms := s.members (s.groupOf n)
              .when (decide (ms.length < 4)) ((Act.each ms .lunLeaves).andThen .flashGo) ]

end Sys2Proof.Machine
end

