-- ==== Sys2Proof/Machine/HostUnit.lean ====
section
/-! DEFINITION. What the host commands share: memory windows (R461, R467), rings and their control blocks
(R455 to R457), open requests, completion entries (R459) and the record area. -/

namespace Sys2Proof.Machine

/-! ### Windows -/

/-- A window of the HOST or the CXL space: bus address, bytes, USE, LOST, LINK (R467). -/
structure Window where
  base : Nat
  size : Nat
  use : Nat
  lost : Bool
  drain : Bool
  link : Nat
  deriving DecidableEq, Repr

/-- Window `w`; CXL windows count from 64. -/
def State.window (s : State) (w : Nat) : Window :=
  if w < 64 then
    ⟨s.get F.HOST_WIN_BASE w, s.get F.HOST_WIN_SIZE w * 0x200000, s.get F.HOST_WIN_USE w, s.flag F.HOST_WIN_LOST w,
      s.flag F.HOST_WIN_DRAIN w, s.get F.HOST_WIN_LINK w⟩
  else
    let x := w - 64
    ⟨s.get F.HOST_CXL_WIN_BASE x, s.get F.HOST_CXL_WIN_SIZE x * 0x200000, s.get F.HOST_CXL_WIN_USE x,
      s.flag F.HOST_CXL_WIN_LOST x, s.flag F.HOST_CXL_WIN_DRAIN x, s.get F.HOST_CXL_WIN_LINK x⟩

/-- The windows: 64 of the HOST space, 16 of the CXL space. -/
def allWindows : List Nat := List.range 80

/-- The window that a HOST (3) or CXL (4) address names (R178). -/
def winOf (space a : Nat) : Option Nat :=
  let w := bits a 63 56
  if space = 3 then if w < 64 then some w else none
  else if w < 16 then some (64 + w) else none

/-- The bus address of a range of the HOST or CXL space; none when the window is disabled or the range lies beyond
SIZE (R461). -/
def State.busAddr (s : State) (space a len : Nat) : Option Nat :=
  match winOf space a with
  | none => none
  | some w =>
    let x := s.window w
    if x.use = 0 ∨ bits a 55 0 + len > x.size then none else some (x.base + bits a 55 0)

/-- As `busAddr`, in a DATA window. -/
def State.dataAddr (s : State) (space a len : Nat) : Option Nat :=
  match winOf space a with
  | none => none
  | some w => if (s.window w).use = 2 then s.busAddr space a len else none

/-- A bus range lies in one DATA window (R455). -/
def State.busInData (s : State) (a len : Nat) : Bool :=
  allWindows.any fun w =>
    let x := s.window w
    x.use == 2 && decide (x.base ≤ a) && decide (a + len ≤ x.base + x.size)

/-- MOOR capacity in MiB (R203, R461). -/
def State.moorCap (s : State) : Nat :=
  (allWindows.map fun w => let x := s.window w; if x.use = 1 then x.size / 0x100000 else 0).foldl (· + ·) 0

/-- Write host memory. -/
def Act.writeHost (a : Nat) (bs : List Byte) : Act := .one (.hostMem a bs)

/-! ### Rings -/

/-- Entries of a ring: 64 << LOG2_ENTRIES (R455). -/
def State.ringE (s : State) (r : Nat) : Nat := 64 * 2 ^ s.get F.HOST_RING_LOG2_ENTRIES r
def State.ringBase (s : State) (r : Nat) : Nat := s.get F.HOST_RING_BASE r
/-- Address of slot `i` of the request ring. -/
def State.reqAddr (s : State) (r i : Nat) : Nat := s.ringBase r + i % s.ringE r * 64
/-- Address of slot `i` of the completion ring. -/
def State.cplAddr (s : State) (r i : Nat) : Nat := s.ringBase r + (s.ringE r + i % s.ringE r) * 64
/-- Address of the control block (R455). -/
def State.ctlAddr (s : State) (r : Nat) : Nat := s.ringBase r + 2 * s.ringE r * 64
/-- Bytes of a ring's allocation. -/
def State.ringBytes (s : State) (r : Nat) : Nat := 2 * s.ringE r * 64 + 64

/-- What the device knows of a ring. -/
def State.ring (s : State) (r : Nat) : Ring := s.host.rings.get (fun _ => {}) r

/-- CQ_CONSUMED as the host driver last wrote it (R456). -/
def State.cqConsumed (s : State) (r : Nat) : Nat := ofLE (s.readHost (s.ctlAddr r + 0x10) 8)

/-- Change what the device knows of a ring. -/
def Act.modRing (r : Nat) (f : Ring → Ring) : Act :=
  .modHost fun h => { h with rings := h.rings.put (fun _ => {}) r (f (h.rings.get (fun _ => {}) r)) }

/-- Set STATE of a ring in the device and in its control block (R456). -/
def Act.ringState (r st : Nat) : Act :=
  .all [.modRing r fun x => { x with state := st }, .look fun s => .writeHost (s.ctlAddr r + 0x20) (leBytes 4 st)]

/-- An entry's 64 bytes end with CRC32C over the first 60 (R457). -/
def withEntryCrc (b : List Byte) : List Byte := let x := padTo 60 b; x ++ leBytes 4 (crc32c x)

/-- The bytes of a completion entry (R459). -/
def HostEntry.bytes (e : HostEntry) (seq sailing : Nat) : List Byte :=
  withEntryCrc (leBytes 8 seq ++ leBytes 1 e.kind ++ leBytes 1 e.status ++ leBytes 2 e.detail ++ leBytes 4 e.tag
    ++ leBytes 8 e.session ++ leBytes 8 e.offset ++ leBytes 4 e.length ++ leBytes 4 0 ++ leBytes 8 e.addr
    ++ leBytes 8 sailing ++ leBytes 4 0)

/-- A completion entry waits for its ring. -/
def Act.hostEntry (e : HostEntry) : Act := .modHost fun h => { h with waiting := h.waiting ++ [e] }

/-- The open request with a TAG on a ring. -/
def State.request (s : State) (ring tag : Nat) : Option HostReq :=
  s.host.requests.find? fun r => r.ring == ring && r.tag == tag

/-- End a request with a DONE entry and free it (R459, R561). -/
def Act.endRequest (r : HostReq) (status detail : Nat) : Act :=
  .all
    [ .modHost fun h => { h with requests := h.requests.erase r },
      .hostEntry ⟨r.ring, 2, status, detail, r.tag, r.session, 0, 0, 0, []⟩ ]

/-- Moored images in a window. -/
def State.windowCount (s : State) (w : Nat) : Nat :=
  (s.tier.images.filter fun e => match e.2 with | some i => i.window == w | none => false).length

/-- A window that holds no image is EMPTY; a draining one then says so by vector 0 (R462). -/
def Act.showEmpty (w : Nat) (tell : Bool) : Act :=
  .look fun s =>
    let n := s.windowCount w
    .all
      [ if w < 64 then .setFlag F.HOST_WIN_EMPTY (n == 0) w else .setFlag F.HOST_CXL_WIN_EMPTY (n == 0) (w - 64),
        .when (tell && n == 0 && (s.window w).drain) (.hostEvent F.HOST_EVENT_WIN_EMPTY) ]

/-- Bytes of the record area: the window named by RECORD_WIN (R459, R465). -/
def State.recordArea (s : State) : Window := s.window (s.get F.HOST_CFG_RECORD_WIN)

/-- Write a record into the record area, cycling through it in order of writing (R459); records start at multiples
of 64 bytes. The action gets the HOST address of the record, as entries name it. -/
def Act.writeRecord (bs : List Byte) (k : Nat → Act) : Act :=
  .look fun s =>
    let w := s.recordArea
    let n := ceilDiv bs.length 64 * 64
    let o := if s.host.recordNext + n > w.size then 0 else s.host.recordNext
    if w.use ≠ 2 ∨ n > w.size then k 0
    else
      .all
        [ .writeHost (w.base + o) bs, .modHost fun h => { h with recordNext := o + n },
          k (s.get F.HOST_CFG_RECORD_WIN * 2 ^ 56 + o) ]

/-! ### Polls, and entries that are written -/

/-- A draining ring whose last request has ended and whose entries are written is QUIESCED (R460). -/
def Act.quiesce (r : Nat) : Act :=
  .look fun s =>
    .when ((s.ring r).draining && !(s.host.requests.any (·.ring == r)) && !(s.host.waiting.any (·.ring == r)))
      (.all
        [ .ringState r 2, .modRing r fun x => { x with draining := false },
          .hostEvent F.HOST_EVENT_RING_QUIESCED ])

/-- A range that a request names: empty, or in a DATA window of the HOST space (R458). -/
def State.requestRange (s : State) (a n : Nat) : Bool := n == 0 || (s.dataAddr 3 a n).isSome

/-- An entry that is taken and ended with BAD_REQUEST: a reserved OP, a reserved byte that is not zero, a length beyond
its limit, or a range outside a DATA window (R458). -/
def State.badEntry (s : State) (e : List Byte) : Bool :=
  decide (leAt e 8 1 = 0) || decide (leAt e 8 1 > 4) || leAt e 9 3 ≠ 0 || leAt e 0x30 12 ≠ 0
    || decide (leAt e 0x20 4 > 16777216) || !s.requestRange (leAt e 0x18 8) (leAt e 0x20 4)
    || !s.requestRange (leAt e 0x28 8) (leAt e 0x24 4)

/-- The request of an entry of ring `r` (R458). -/
def reqOf (r : Nat) (e : List Byte) : HostReq :=
  { ring := r, op := leAt e 8 1, tag := leAt e 0xC 4, session := leAt e 0x10 8, data := leAt e 0x18 8,
    dataLen := leAt e 0x20 4, outLen := leAt e 0x24 4, out := leAt e 0x28 8 }

/-- An entry is taken: its request is open, or ends at once (R458, R561). -/
def Act.takeRequest (r : Nat) (e : List Byte) : Act :=
  .look fun s =>
    (Act.modRing r fun x => { x with consumed := x.consumed + 1, badPolls := 0 }).andThen
      (if s.badEntry e then .hostEntry ⟨r, 2, 2, 0, leAt e 0xC 4, leAt e 0x10 8, 0, 0, 0, []⟩
       else .modHost fun h => { h with requests := h.requests ++ [reqOf r e] })

/-- The entries of a poll, in order, up to the first that is not there or fails its CRC; the third poll in a row that
finds the same slot failing fails the ring, as `fails` says (R457). -/
def Act.pollEntries (r : Nat) (fails : Act) : Nat → Act
  | 0 => .done
  | n + 1 =>
    .look fun s =>
      let x := s.ring r
      let e := s.readHost (s.reqAddr r x.consumed) 64
      if leAt e 0 8 ≠ x.consumed + 1 then .modRing r fun x => { x with badPolls := 0 }
      else if crc32c (e.take 60) ≠ leAt e 60 4 then
        .all
          [ .count .HOST_ENTRY_CRC_COUNT, .modRing r fun x => { x with badPolls := x.badPolls + 1 },
            .when (decide (x.badPolls + 1 ≥ 3)) fails ]
      else (Act.takeRequest r e).andThen (.pollEntries r fails n)

/-- Write RQ_CONSUMED and POLLED (R456, R457). -/
def Act.showPoll (r : Nat) : Act :=
  .look fun s =>
    (Act.writeHost (s.ctlAddr r) (leBytes 8 (s.ring r).consumed)).andThen
      (.writeHost (s.ctlAddr r + 0x18) (leBytes 8 s.now))

/-- The oldest entry that waits for a ring. -/
def State.nextEntry (s : State) (r : Nat) : Option HostEntry := s.host.waiting.find? fun e => e.ring == r

/-- The ring has room for one more completion entry (R459). -/
def State.ringRoom (s : State) (r : Nat) : Bool := decide ((s.ring r).produced < s.cqConsumed r + s.ringE r)

/-- The entry takes its slot; then CQ_PRODUCED is written (R456, R459). -/
def Act.placeEntry (e : HostEntry) : Act :=
  .look fun s =>
    let i := (s.ring e.ring).produced
    .all
      [ .writeHost (s.cplAddr e.ring i) (e.bytes (i + 1) s.now),
        .modRing e.ring fun x => { x with produced := i + 1, wrote := true, stalled := false },
        .writeHost (s.ctlAddr e.ring + 8) (leBytes 8 (i + 1)) ]

/-- A completion entry is written, after everything it names (R459): text into the output buffer, a ticket or a seal
record into the record area. -/
def Act.writeEntry (e : HostEntry) : Act :=
  .all
    [ .modHost fun h => { h with waiting := h.waiting.erase e },
      if e.kind = 1 then
        .look fun s =>
          (match s.dataAddr 3 e.addr e.data.length with
            | some b => Act.writeHost b e.data
            | none => .done).andThen (.placeEntry e)
      else if e.data = [] then .placeEntry e
      else .writeRecord e.data fun a => .placeEntry { e with addr := a },
      .quiesce e.ring ]

end Sys2Proof.Machine
end

