-- ==== Sys2Proof/Machine/FerryUnit.lean ====
section
/-! DEFINITION. What the ferry commands share: descriptors and address spaces (R177 to R181), how a tile is read and
written (R176, R179, R530, R532), how a transfer ends (R180), images (R182, R183) and share moves
(R188, R189, R191). -/

namespace Sys2Proof.Machine

/-! ### Descriptors -/

def fClass (d : BitVec 512) : Nat := bits d.toNat 511 508
def fSrcSpace (d : BitVec 512) : Nat := bits d.toNat 507 504
def fDstSpace (d : BitVec 512) : Nat := bits d.toNat 503 500
def fWait (d : BitVec 512) : Bool := bit d.toNat 499
def fPost (d : BitVec 512) : Bool := bit d.toNat 498
def fNotify (d : BitVec 512) : Bool := bit d.toNat 497
def fTranspose (d : BitVec 512) : Bool := bit d.toNat 496
def fWaitBollard (d : BitVec 512) : Nat := bits d.toNat 495 481
def fPostBollard (d : BitVec 512) : Nat := bits d.toNat 480 466
def fTiles (d : BitVec 512) : Nat := bits d.toNat 463 448 + 1
/-- Tile pitches in bytes (R177). -/
def fSrcPitch (d : BitVec 512) : Nat := let p := bits d.toNat 447 432; if p = 0 then 16384 else 32 * p
def fDstPitch (d : BitVec 512) : Nat := let p := bits d.toNat 431 416; if p = 0 then 16384 else 32 * p
def fRowPitch (d : BitVec 512) : Nat := bits d.toNat 415 400
def fDeadline (d : BitVec 512) : Nat := bits d.toNat 399 392
def fSrcAddr (d : BitVec 512) : Nat := bits d.toNat 383 320
def fDstAddr (d : BitVec 512) : Nat := bits d.toNat 319 256
def fImageTile (d : BitVec 512) : Nat := bits d.toNat 255 232
def fSession (d : BitVec 512) : Nat := bits d.toNat 223 160
def fTag (d : BitVec 512) : Nat := bits d.toNat 159 128

/-- A reserved bit of the descriptor is 1, IMAGE_TILE included outside the IMAGE space (R177). -/
def fReserved (d : BitVec 512) : Bool :=
  let w := d.toNat
  bits w 465 464 ≠ 0 || bits w 391 384 ≠ 0 || bits w 255 232 ≠ 0 || bits w 231 224 ≠ 0 || bits w 127 0 ≠ 0

/-- READY mode (R179, R199). -/
def State.fReady (s : State) (d : BitVec 512) : Bool := s.get F.FERRY_CLASS_MODE (fClass d) == 2

/-- Ferry statuses (R180). -/
def fsOk : Nat := 0
def fsLate : Nat := 1
def fsRead : Nat := 2
def fsWrite : Nat := 3
def fsManifest : Nat := 4
def fsNoSpace : Nat := 5
def fsBank : Nat := 6
def fsRejected : Nat := 7
def fsCancelled : Nat := 8

/-- Bytes that source tile `i` spans from its address: a whole tile, or 128 rows (R179). -/
def State.fSrcSpan (s : State) (d : BitVec 512) : Nat :=
  if s.fReady d then 127 * 32 * fRowPitch d + 128 else 16384

/-- A tile range of an address space is in range and aligned (R178, R181). Local-store windows are checked when the
transfer starts. -/
def State.spaceOk (s : State) (space a len : Nat) : Bool :=
  if space = 0 then
    decide (bits a 63 36 = 0) && decide (bits a 35 28 < 80) && decide (a % 32 = 0)
      && (bit a 27 || (decide (bits a 26 24 = 0) && decide (bits a 23 0 + len ≤ lsBytes)))
  else if space = 1 then decide (bits a 63 29 = 0) && decide (a % 64 = 0) && decide (bits a 27 0 + len ≤ sharedHalf)
  else if space = 2 then decide (a < 2 ^ 48) && decide (a % 64 = 0) && s.hbmRange a len
  else if space = 3 ∨ space = 4 then decide (a % 64 = 0) && (s.busAddr space a len).isSome
  else decide (space = 7)

/-- A range that a local-store address names through the windows captured at the start resolves and lies within its
window (R86, R178). -/
def winRange (wins : List (BitVec 64)) (a len : Nat) : Bool :=
  match resolve wins (bits a 27 0) with
  | some l => l.fits len
  | none => false

/-- Every tile of a transfer that names a window lies within it (R86, R178): whole tiles, or the rows of a READY tile. -/
def State.winsFit (s : State) (d : BitVec 512) (src dst : List (BitVec 64)) : Bool :=
  (List.range (fTiles d)).all fun i =>
    let a := fSrcAddr d + i * fSrcPitch d
    (fSrcSpace d ≠ 0
        || (if s.fReady d then (List.range 128).all fun r => winRange src (a + r * (32 * fRowPitch d)) 128
          else winRange src a 16384))
      && (fDstSpace d ≠ 0 || winRange dst (fDstAddr d + i * fDstPitch d) 16384)

/-- The reason a descriptor of session firmware is rejected; 0 for none (R181, R201). -/
def State.fReject (s : State) (d : BitVec 512) : Nat :=
  let n := fTiles d
  let badSpace (x : Nat) : Bool := decide (x = 5) || decide (x = 6) || decide (x ≥ 8)
  let each (f : Nat → Bool) : Bool := (List.range n).all f
  if s.get F.FERRY_CLASS_MODE (fClass d) = 0 then 1
  else if badSpace (fSrcSpace d) || badSpace (fDstSpace d) then 2
  else if !(each fun i => s.spaceOk (fSrcSpace d) (fSrcAddr d + i * fSrcPitch d) (s.fSrcSpan d))
      || !(each fun i => s.spaceOk (fDstSpace d) (fDstAddr d + i * fDstPitch d) 16384) then 3
  else if (fTranspose d && !s.fReady d) || (s.fReady d && decide (fRowPitch d < 4)) then 4
  else if fReserved d then 5
  else 0

/-- The HBM address that makes a descriptor's range unmapped, if any (R598). -/
def State.fUnmapped (s : State) (d : BitVec 512) : Option Nat :=
  let chk (space a len : Nat) : Option Nat := if space = 2 && !s.hbmRange a len then some a else none
  (List.range (fTiles d)).findSome? fun i =>
    (chk (fSrcSpace d) (fSrcAddr d + i * fSrcPitch d) (s.fSrcSpan d)).or
      (chk (fDstSpace d) (fDstAddr d + i * fDstPitch d) 16384)

/-! ### Transfers -/

/-- A transfer by ferry and identity. -/
def State.xfer (s : State) (f id : Nat) : Option Xfer := s.tier.xfers.find? fun x => x.ferry == f && x.id == id

/-- QUEUED and IN_FLIGHT show the transfers of a ferry (R201). -/
def Act.showFerry (f : Nat) : Act :=
  .look fun s =>
    let mine := s.tier.xfers.filter fun x => x.ferry == f
    .all
      [ .set F.FERRY_STATUS_QUEUED ((mine.filter fun x => x.phase == 0).length) f,
        .set F.FERRY_STATUS_IN_FLIGHT ((mine.filter fun x => x.phase ≠ 0).length) f ]

/-- Replace a transfer. -/
def Act.setXfer (x : Xfer) : Act :=
  .modTier fun t => { t with xfers := t.xfers.map fun y => if y.ferry = x.ferry ∧ y.id = x.id then x else y }

/-- The grants of a ferry. -/
def State.ferryGrant (s : State) (f : Nat) : FerryGrants := s.tier.grants.get (fun _ => {}) f

/-- Change the grants of a ferry. -/
def Act.modGrants (f : Nat) (g : FerryGrants → FerryGrants) : Act :=
  .modTier fun t => { t with grants := t.grants.put (fun _ => {}) f (g (t.grants.get (fun _ => {}) f)) }

/-- OP_ID of a transfer to or from a peer (R406). -/
def Xfer.op (x : Xfer) : Nat := 2 ^ 63 + x.id

/-- Remove a transfer, with the tiles that a peer has sent for it. -/
def Act.dropXfer (x : Xfer) : Act :=
  .all
    [ .modTier fun t => { t with xfers := t.xfers.filter fun y => !(y.ferry == x.ferry && y.id == x.id) },
      .modGrants x.ferry fun g => { g with out := g.out.filter (· ≠ x.id) },
      .when (x.epoch != 0) (.modMct fun m => { m with arrived := m.arrived.filter fun p => p.op ≠ x.op }),
      .leave (.ferry x.ferry x.id),
      .modIrq fun q => { q with ferryGrants := q.ferryGrants.put (fun _ => false) (x.ferry * 2 ^ 20 + x.id) false },
      .showFerry x.ferry ]

/-- What a ferry status counts and records (R204, R621). -/
def Act.ferryStatus (status tag session : Nat) : Act :=
  if status = fsLate then .count .FERRY_LATE_COUNT
  else if status = fsRead then .count .FERRY_READ_FAIL_COUNT
  else if status = fsWrite then .count .FERRY_WRITE_FAIL_COUNT
  else if status = fsManifest then .count .FERRY_MANIFEST_FAIL_COUNT
  else if status = fsBank then .raise .FERRY_BANK_UNPOWERED { tag := tag, session := session }
  else if status = fsRejected then
    (Act.count .FERRY_REJECT_COUNT).andThen (.raise .FERRY_DESC_REJECTED { tag := tag, session := session })
  else .done

/-- Undefined bytes in host memory (assumption 3). -/
def Act.freeHost (a n : Nat) : Act :=
  .look fun s => .all [.writeHost a (freeBytes s.free n), .one (.takeFree n)]

/-- Device address of a SHARED space address (R178, R594). -/
def sharedAddr (a : Nat) : Nat := sharedBase + bits a 28 28 * sharedHalf + bits a 27 0

/-- The destination tiles of a transfer become undefined (R180). -/
def Act.freeDest (x : Xfer) : Act :=
  .each (List.range (fTiles x.desc)) fun i =>
    let a := fDstAddr x.desc + i * fDstPitch x.desc
    let space := fDstSpace x.desc
    .look fun s =>
      if space = 0 then
        match resolve x.dstWins (bits a 27 0) with
        | some l => .each (l.pieces 0 16384) fun p => .freeLs (bits a 35 28) p.1 p.2.2
        | none => .done
      else if space = 1 then .freeStore (sharedAddr a) 16384
      else if space = 2 then .freeStore a 16384
      else if space = 3 ∨ space = 4 then
        match s.busAddr space a 16384 with
        | some b => .freeHost b 16384
        | none => .done
      else .done

/-- A transfer of session firmware ends (R176, R180). -/
def Act.ferryEnds (f : Nat) (d : BitVec 512) (status : Nat) : Act :=
  .all
    [ .ferryStatus status (fTag d) (fSession d),
      .when (status == fsOk && fPost d) (.post (fPostBollard d) 1),
      .when (status ≠ fsOk || fNotify d) (.complete 0x03 status f (fTag d) 0) ]

/-- A transfer of session firmware ends without success: its destination is undefined (R180). -/
def Act.xferFails (x : Xfer) (status : Nat) : Act :=
  .all [.dropXfer x, .freeDest x, .when (status == fsManifest) .manifestFail, .ferryEnds x.ferry x.desc status]

/-! ### Peers (R405) -/

/-- The chart entry that a PEER address names in the chart of the transfer's epoch. -/
def State.peerOf (s : State) (x : Xfer) (a : Nat) : Option (List Byte) :=
  let i := bits a 63 48
  if i < s.chartDevices x.epoch then some (s.chartEntry x.epoch i) else none

/-- Device address of a chart entry (R405). -/
def entryDevice (b : List Byte) : Nat := beAddr b % 2 ^ 64

/-- The tile of a peer's receive window that a PEER address names (R405, R407). -/
def peerTileOf (a : Nat) : Nat := bits a 47 0 / 16384

/-- The device address of the peer that a transfer writes to or reads from. -/
def State.xferPeer (s : State) (x : Xfer) : Option Nat :=
  if fDstSpace x.desc = 7 then (s.peerOf x (fDstAddr x.desc)).map entryDevice
  else if fSrcSpace x.desc = 7 then (s.peerOf x (fSrcAddr x.desc)).map entryDevice
  else none

/-- The virtual channels on which a transfer to or from a peer has its packets (R199, R407, R415). -/
def State.xferOn (s : State) (x : Xfer) (vc : Nat) : Bool :=
  if fDstSpace x.desc = 7 then s.get F.FERRY_CLASS_VC (fClass x.desc) == vc else vc == 0 || vc == 1

/-- The status that ends a transfer whose peer cannot be reached (R405). -/
def Xfer.peerFails (x : Xfer) : Nat := if fDstSpace x.desc = 7 then fsWrite else fsRead

/-! ### Berth tiles by address -/

/-- The berth tile that a device range of `len` bytes lies in: class, number, tile, and the offset in it (R118, R120). -/
def State.berthTileAt (s : State) (a len : Nat) : Option (Nat × Nat × Nat × Nat) :=
  (List.range 4).findSome? fun c =>
    let base := s.berthBase c 0
    let stride := s.get F.BERTH_CLASS_STRIDE c * 65536
    let n := (a - base) / max 1 stride
    let o := (a - base) % max 1 stride
    let p := s.shape c
    if stride ≠ 0 ∧ base ≤ a ∧ n < s.get F.BERTH_CLASS_COUNT c ∧ 0x1000 ≤ o ∧ (o - 0x1000) % 16384 + len ≤ 16384
        ∧ (o - 0x1000) / 16384 < p.layers * p.lt then some (c, n, (o - 0x1000) / 16384, (o - 0x1000) % 16384)
    else none

/-- What a tile read gives: the bytes, or the status that ends the transfer with the lost line or word found; `wait`
while a bank is not ready (R85). -/
inductive TileRead where
  | ok (bytes : List Byte)
  | wait
  | bad (status : Nat) (lost : Option Nat) (word : Bool)
  deriving DecidableEq, Repr

/-- Read bytes of a local store through windows captured at the start (R85, R86, R178, R533). -/
def State.ferryLs (s : State) (wins : List (BitVec 64)) (a len : Nat) : TileRead :=
  let c := bits a 35 28
  match resolve wins (bits a 27 0) with
  | none => .bad fsRejected none false
  | some l =>
    if !l.fits len then .bad fsRejected none false
    else
      let ps := l.pieces 0 len
      if ps.any fun p => s.rangeDark c p.1 p.2.2 then .bad fsBank none false
      else if ps.any fun p => s.rangeWaits c p.1 p.2.2 then .wait
      else match ps.findSome? fun p => s.lsLost c p.1 p.2.2 with
        | some k => .bad fsRead (some k) true
        | none => .ok (l.read s c 0 len)

/-- Read `len` bytes of a source space. A berth tile is checked before any byte of it moves, and one that has not been
written since its berth was opened holds zeros (R124, R530). -/
def State.ferryRead (s : State) (wins : List (BitVec 64)) (space a len : Nat) : TileRead :=
  if space = 0 then s.ferryLs wins a len
  else if space = 1 then
    let k := sharedAddr a
    if s.retired 8 (sharedBank k) then .bad fsBank none false
    else match s.lostLine k len with
      | some w => .bad fsRead (some w) false
      | none => .ok (s.readMem k len)
  else if space = 2 then
    match s.lostLine a len with
    | some w => .bad fsRead (some w) false
    | none =>
      match s.berthTileAt a len with
      | some (c, n, i, o) =>
        match s.tileStart c n i with
        | some t => .ok ((t.drop o).take len)
        | none => .bad fsManifest none false
      | none => .ok (s.readMem a len)
  else
    match s.busAddr space a len with
    | some b => .ok (s.readHost b len)
    | none => .bad fsRead none false

/-- The rows of a READY tile, gathered; the first row that cannot be read decides (R179). -/
def State.ferryRows (s : State) (wins : List (BitVec 64)) (space a pitch : Nat) : Nat → TileRead
  | 0 => .ok []
  | r + 1 =>
    match s.ferryRows wins space a pitch r, s.ferryRead wins space (a + r * pitch) 128 with
    | .ok bs, .ok row => .ok (bs ++ row)
    | .ok _, e => e
    | e, _ => e

/-- The columns of 128 rows of 128 bytes: the value layout (R179). -/
def transposeTile (t : List Byte) : List Byte :=
  (List.range 128).flatMap fun d => (List.range 128).map fun r => t.getD (r * 128 + d) 0

/-- A tile of a share as another device sends it, its manifest after it, is checked before it is used (R172, R530). -/
def sentTile (data : List Byte) : TileRead :=
  let t := padTo 16384 (data.take 16384)
  if manifestOk kindTile (data.drop 16384) t then .ok t else .bad fsManifest none false

/-- Source tile `i` of a firmware transfer (R179); a peer's tile is read once it has arrived (R405). -/
def State.ferrySource (s : State) (x : Xfer) (i : Nat) : TileRead :=
  let d := x.desc
  let a := fSrcAddr d + i * fSrcPitch d
  if fSrcSpace d = 7 then
    match s.mct.arrived.find? fun p => p.op == x.op && p.tile == peerTileOf a with
    | some p => .ok (if s.fReady d && fTranspose d then transposeTile p.bytes else p.bytes)
    | none => .wait
  else if s.fReady d then
    match s.ferryRows x.srcWins (fSrcSpace d) a (32 * fRowPitch d) 128 with
    | .ok t => .ok (if fTranspose d then transposeTile t else t)
    | e => e
  else s.ferryRead x.srcWins (fSrcSpace d) a 16384

/-- Record a lost line or word that a ferry met. -/
def Act.ferryLost (lost : Option Nat) (word : Bool) (tag : Nat) : Act :=
  match lost with
  | none => .done
  | some k => if word then .lsWordLost k { tag := tag } else .entryLost k { tag := tag }

/-- The status that keeps a destination tile from being written, if any (R85, R532). -/
def State.ferryDestBad (s : State) (x : Xfer) (i : Nat) : TileRead :=
  let a := fDstAddr x.desc + i * fDstPitch x.desc
  let space := fDstSpace x.desc
  if space = 0 then
    match s.ferryLs x.dstWins a 16384 with
    | .bad st (some _) _ => if st = fsRead then .ok [] else .bad st none false
    | e => e
  else if space = 1 then
    if s.retired 8 (sharedBank (sharedAddr a)) then .bad fsBank none false else .ok []
  else if space = 2 then
    match s.lostPart a 16384 with
    | some k => .bad fsWrite (some k) false
    | none => .ok []
  else if space = 7 then .ok []
  else if (s.busAddr space a 16384).isSome then .ok [] else .bad fsWrite none false

/-- Write a destination tile on this device or in host memory, with its manifest when it is a berth tile (R176, R530). -/
def Act.ferryWrite (x : Xfer) (i : Nat) (t : List Byte) : Act :=
  let a := fDstAddr x.desc + i * fDstPitch x.desc
  let space := fDstSpace x.desc
  .look fun s =>
    if space = 0 then
      match resolve x.dstWins (bits a 27 0) with
      | some l => .each (l.write 0 t) fun w => .writeLs (bits a 35 28) w.1 w.2
      | none => .done
    else if space = 1 then .storeRaw (sharedAddr a) t
    else if space = 2 then
      match s.berthTileAt a 16384 with
      | some (c, n, k, _) => .putTile c n k t
      | none => .storeRaw a t
    else
      match s.busAddr space a 16384 with
      | some b => .writeHost b t
      | none => .done

/-! ### Images and tier capacity -/

/-- An image of this device. -/
def State.image (s : State) (loc : Nat) : Option Image := s.tier.images.get (fun _ => none) loc

/-- A share move writes an image of the moored tier (R195). -/
def ShareMove.moors (m : ShareMove) : Bool := locKind m.dst == 1 && decide (m.window < 254)

/-- Bytes of moored images. -/
def State.mooredBytes (s : State) : Nat :=
  (s.tier.images.map fun e => match e.2 with
    | some i => if i.window < 254 then i.len else 0
    | none => 0).sum

/-- Bytes that moorings in progress hold (R195). -/
def State.moorHeld (s : State) : Nat := ((s.tier.shares.filter ShareMove.moors).map (·.reserved)).sum

/-- TIER_MOOR_STATUS and the high mark follow use, capacity and TIER_MOOR_MARK (R195, R203). -/
def Act.showMoor : Act :=
  .look fun s =>
    let used := mibOf (s.mooredBytes + s.moorHeld)
    let cap := s.moorCap
    let hi := s.get F.TIER_MOOR_MARK_HIGH
    let lo := s.get F.TIER_MOOR_MARK_LOW
    .all
      [ .set F.TIER_MOOR_STATUS_USED_MIB used, .set F.TIER_MOOR_STATUS_CAP_MIB cap,
        .modTier fun t =>
          { t with aboveMark := if used * 100 > hi * cap then true else if used * 100 < lo * cap then false else t.aboveMark } ]

/-- Bytes in extents of 64 KiB (R182). -/
def extentsOf (n : Nat) : Nat := ceilDiv n 65536

/-- A MOOR window that takes a new image of `n` bytes (R195, R462): enabled, neither lost nor draining, on a link that is not
retired, with room beside its images and the moorings into it. -/
def State.moorWindow (s : State) (n : Nat) : Option Nat :=
  allWindows.find? fun w =>
    let x := s.window w
    let images := (s.tier.images.map fun e => match e.2 with
      | some i => if i.window = w then i.extents.length else 0
      | none => 0).sum
    let moves := ((s.tier.shares.filter fun m => m.moors && m.window == w).map fun m => extentsOf m.reserved).sum
    x.use == 1 && !x.lost && !x.drain && !s.retired 4 x.link && decide ((images + moves + extentsOf n) * 65536 ≤ x.size)

/-- The extents that images in a window take. -/
def State.extentsIn (s : State) (w : Nat) : List Nat :=
  s.tier.images.flatMap fun e => match e.2 with
    | some i => if i.window = w then i.extents else []
    | none => []

/-- The lowest `n` free extents of a window (R182). -/
def State.freeExtents (s : State) (w n : Nat) : List Nat :=
  let used := s.extentsIn w
  ((List.range (used.length + n)).filter fun e => !used.contains e).take n

/-- The key and the tweak of an image's encryption (R187, R505). -/
def imageKey (loc session : Nat) : List Byte := tierKey (if locKind loc = 1 then 1 else 2) (tenantOf session)
def imageTweak (loc session : Nat) : Nat := tierTweak (locKind loc) (locSlot loc) (locGen loc) session

/-- The bytes of an image as its tier holds them: in flash, or in the extents of a window (R182, R187). -/
def State.imageCipher (s : State) (loc : Nat) (i : Image) : List Byte :=
  if i.window = 255 then (s.flashBytes loc).take i.len
  else (i.extents.flatMap fun e => s.readHost ((s.window i.window).base + 65536 * e) 65536).take i.len

/-- The bytes of an image, decrypted (R187). -/
def State.imagePlain (s : State) (loc : Nat) : List Byte :=
  match s.image loc with
  | none => []
  | some i =>
    if i.window = 254 then i.staged else xts true (imageKey loc i.session) (imageTweak loc i.session) (s.imageCipher loc i)

/-- The map names an image. -/
def Act.mapImage (loc : Nat) (i : Option Image) : Act :=
  .modTier fun t => { t with images := t.images.put (fun _ => none) loc i }

/-- Store an image, encrypted under the tenant's tier key (R182, R187): a laid-up one (window 255) on logical pages (R213),
a moored one in extents of its window; one staged for a sealed bundle (window 254) takes no tier's space and stays plain
(R343). -/
def Act.putImage (loc session window : Nat) (b : List Byte) : Act :=
  .look fun s =>
    let crypt (x : List Byte) : List Byte := xts false (imageKey loc session) (imageTweak loc session) x
    (if window = 254 then .mapImage loc (some ⟨session, b.length, 254, [], b⟩)
    else if window = 255 then
      (Act.mapImage loc (some ⟨session, b.length, 255, [], []⟩)).andThen
        (.flashWrite loc (crypt (padMultiple 16384 b)) .ferry)
    else
      let c := crypt b
      let ex := s.freeExtents window (extentsOf b.length)
      .all
        [ .mapImage loc (some ⟨session, b.length, window, ex, []⟩),
          .each ex.zipIdx fun e => .writeHost ((s.window window).base + 65536 * e.1) ((c.drop (65536 * e.2)).take 65536),
          .showEmpty window false ]).andThen .showMoor

/-- Free an image of this device (R182, R462). -/
def Act.dropImage (loc : Nat) : Act :=
  .look fun s => match s.image loc with
    | none => .done
    | some i =>
      .all
        [ .mapImage loc none,
          if i.window = 255 then .flashDrop loc else .when (decide (i.window < 254)) (.showEmpty i.window true), .showMoor ]

/-! ### History records (R187, R190) -/

/-- The owner of a history record's logical pages. -/
def historyOwner (session pos : Nat) : Nat := (pos + 1) * 2 ^ 64 + session

/-- The tweak of a history record (R187). -/
def historyTweak (session pos : Nat) : Nat := tierTweak 4 (pos / 128) 0 session

/-- Bytes of a history record of this device; 0 for none. -/
def State.historyLen (s : State) (session pos : Nat) : Nat := s.tier.history.get (fun _ => 0) (historyKey session pos)

/-- The bytes of a history record, decrypted (R187). -/
def State.historyPlain (s : State) (session pos : Nat) : List Byte :=
  (xts true (tierKey 2 (tenantOf session)) (historyTweak session pos) (s.flashBytes (historyOwner session pos))).take
    (s.historyLen session pos)

/-- A history record is kept under its key in flash, encrypted (R187, R190, R213). -/
def Act.storeHistory (session pos : Nat) (b : List Byte) : Act :=
  (Act.modTier fun t => { t with history := t.history.put (fun _ => 0) (historyKey session pos) b.length }).andThen
    (.flashWrite (historyOwner session pos)
      (xts false (tierKey 2 (tenantOf session)) (historyTweak session pos) (padMultiple 16384 b)) .ferry)

/-- The positions of a session's history records on this device. -/
def State.historyOf (s : State) (session : Nat) : List Nat :=
  (s.tier.history.filter fun e => e.1 % 2 ^ 64 == session).map fun e => e.1 / 2 ^ 64

/-- A session's history records on this device are freed (R190). -/
def Act.dropHistory (session : Nat) : Act :=
  .look fun s =>
    .each (s.historyOf session) fun pos =>
      (Act.modTier fun t => { t with history := t.history.put (fun _ => 0) (historyKey session pos) 0 }).andThen
        (.flashDrop (historyOwner session pos))

/-! ### Share moves -/

/-- The move of a session's share on this device. -/
def State.shareOf (s : State) (session : Nat) : Option ShareMove := s.tier.shares.find? fun m => m.session == session

/-- Replace a share move. -/
def Act.setShare (m : ShareMove) : Act :=
  .modTier fun t => { t with shares := t.shares.map fun x => if x.session = m.session then m else x }

/-- The tiles of a share's image, in berth tile order (R183). -/
def imageTileList (p : Shape) (b : List Byte) : List Nat :=
  let rt := min p.rt (ceilDiv (hCommitted b) 128)
  let globals := (List.range p.gt).filter (hGlobalValid b)
  (List.range p.layers).flatMap fun l =>
    ((List.range p.hkv).flatMap fun h => (List.range 2).flatMap fun k =>
      ((List.range rt).map fun t => p.tile l h k .ring t) ++ (globals.map fun t => p.tile l h k .global t))
    ++ (List.range p.stat).map fun j => p.statsTile l j

/-- A share move is over or cancelled: its transfers go, and what it read so far and its reservation are released (R100,
R191, R195). -/
def Act.shareCancel (session : Nat) : Act :=
  .all
    [ .look fun s => .each (s.tier.xfers.filter fun x => x.work == .share session) .dropXfer,
      .modTier fun t => { t with shares := t.shares.filter fun m => m.session ≠ session }, .opOver,
      .showMoor ]

/-- A move ends on this device: its transfers go, its reservation is released and the HOME island gets the report
(R189, R195), with the image and the history records for a bundle or a crossing (R343, R419). -/
def Act.shareEnds (session motion status bytes : Nat) (manifests : List Byte) (image : List Byte := []) : Act :=
  .look fun s0 =>
  let history := if status = fsOk ∧ (motion = 4 ∨ motion = 8) then
      (s0.historyOf session).map fun pos => (pos, s0.historyPlain session pos)
    else []
  .all
    [ .shareCancel session,
      .when (status == fsNoSpace && motion == moLayingUp) (.count .TIER_NO_SPACE_COUNT),
      .one (.emit (.shareReport session motion status bytes manifests image history)) ]

/-- A share move names a moored image that was lost, so that it is reported to the HOME island (R192). -/
def State.imageLost (s : State) (loc : Nat) : Bool := s.tier.lostImages.get (fun _ => false) loc

/-- The transfers of a share move: tile `i` goes to ferry `i` mod the number of ferries of the LAYER island, retired
ones left out (R188, R547). -/
def State.shareFerries (s : State) : List Nat :=
  let g := s.get F.CHART_ISLAND_GRANULES s.layerIsland
  (List.range 32).filter fun f => bit g (f / 4) && !s.flag F.FERRY_STATUS_FAULTED f

/-- A ferry retires: FAULTED, every transfer queued or in flight ends READ_FAILED (R547). -/
def Act.ferryRetire (f : Nat) : Act :=
  .look fun s =>
    .all
      [ .setFlag F.FERRY_STATUS_FAULTED true f,
        .each (s.tier.xfers.filter fun x => x.ferry == f) fun x =>
          match x.work with
          | .firmware =>
            .all [.dropXfer x, .when (x.phase ≠ 0) (.freeDest x), .ferryEnds f x.desc fsRead]
          | .share session =>
            .all [.dropXfer x, .count .FERRY_READ_FAIL_COUNT,
              .look fun s => match s.shareOf session with
                | some m => .shareEnds session m.motion fsRead 0 []
                | none => .done] ]

/-! ### The codec loop (R198) -/

/-- Blocks of a class are written STORED, with `backlog` of its tiles waiting for the coder. -/
def State.storesBlock (s : State) (cls backlog : Nat) : Bool :=
  s.get F.FERRY_CLASS_CODEC cls == 0
    || (s.get F.FERRY_CLASS_CODEC cls == 2 && decide (backlog > 256) && !s.tier.aboveMark)

/-- A ferry writes `n` blocks of a class: STORED ones are counted, and its tension once in a sailing (R196, R198). -/
def Act.codecNote (f cls backlog n : Nat) : Act :=
  .look fun s =>
    .all
      [ .when (s.storesBlock cls backlog) (.each (List.range n) fun _ => .count .TIER_STORED_COUNT),
        .when (s.get F.FERRY_CLASS_CODEC cls == 2 && decide (backlog > 256) && s.tier.aboveMark
            && s.tier.tension.get (fun _ => 0) f != s.now + 1)
          ((Act.count .TIER_CODEC_TENSION_COUNT).andThen
            (.modTier fun t => { t with tension := t.tension.put (fun _ => 0) f (s.now + 1) })) ]

/-! ### Rates (R173, R202) -/

/-- The moves that write an image. -/
def writesImage (m : ShareMove) : Bool :=
  m.motion == moMooring || m.motion == moLayingUp || m.motion == moSealing || (m.motion == 9 && m.dst != 0)

/-- The rate that stops a move's traffic is 0 (R202, R430). -/
def State.moveHeld (s : State) (m : ShareMove) : Bool :=
  let reads := match s.image m.src with
    | some i => if i.window = 255 then s.get F.TIER_RATE_FLASH_READ == 0 else i.window < 254 && s.get F.TIER_RATE_MOOR_READ == 0
    | none => false
  reads || ((m.motion == 8 || m.motion == 9) && s.get F.MCT_CROSS_RATE == 0)
    || (writesImage m && m.window == 255 && s.get F.TIER_RATE_FLASH_WRITE == 0)
    || (writesImage m && decide (m.window < 254) && s.get F.TIER_RATE_MOOR_WRITE == 0)

/-- A transfer's traffic is stopped by a rate of 0: its share move's, or that of the HOST or CXL space (R173, R202). -/
def State.xferHeld (s : State) (x : Xfer) : Bool :=
  match x.work with
  | .share session => (match s.shareOf session with | some m => s.moveHeld m | none => false)
  | .firmware =>
    let outside (space : Nat) : Bool := space == 3 || space == 4
    (outside (fSrcSpace x.desc) && s.get F.TIER_RATE_MOOR_READ == 0)
      || (outside (fDstSpace x.desc) && s.get F.TIER_RATE_MOOR_WRITE == 0)

/-! ### Grants (R175) -/

/-- The priority level that each of the 16 grants of a round goes to first: 8, 4, 2 and 2 (assumption 129). -/
def grantLevel (pos : Nat) : Nat := if pos < 8 then 0 else if pos < 12 then 1 else if pos < 14 then 2 else 3

/-- The transfers of a level that can use a grant, oldest first: moving, not stopped by a rate, with a tile that no grant is
out for. -/
def State.grantReady (s : State) (f level : Nat) : List Nat :=
  (s.tier.xfers.filter fun x =>
    x.ferry == f && x.phase == 2 && s.get F.FERRY_CLASS_PRIORITY (fClass x.desc) == level && !s.xferHeld x
      && decide (((s.ferryGrant f).out.filter (· == x.id)).length < (x.tiles.filter fun i => fDstSpace x.desc ≠ 7 || !x.sent.contains i).length)).map (·.id)

/-- The level and the transfer of a ferry's next grant: a level without a ready transfer passes it to the next that has one;
within a level the transfers take turns, oldest first. -/
def State.nextGrant (s : State) (f : Nat) : Option (Nat × Nat) :=
  let g := s.ferryGrant f
  (List.range 4).findSome? fun k =>
    let level := (grantLevel g.pos + k) % 4
    let ready := s.grantReady f level
    let last := g.last.get (fun _ => 0) level
    ((ready.find? fun id => decide (last < id + 1)).or ready.head?).map fun id => (level, id)

/-- Grants are made until a transfer holds one (R175). -/
def Act.grantFor (f id : Nat) : Nat → Act
  | 0 => .done
  | fuel + 1 =>
    .look fun s =>
      if (s.ferryGrant f).out.contains id then .done
      else match s.nextGrant f with
        | none => .done
        | some (level, k) =>
          (Act.modGrants f fun g =>
            { pos := (g.pos + 1) % 16, last := g.last.put (fun _ => 0) level (k + 1), out := g.out ++ [k] }).andThen
            (.grantFor f id fuel)

/-- A granted tile move is over: the grant is used, and the tile is done. -/
def Act.tileMoved (x : Xfer) (j : Nat) : Act :=
  if x.tiles.erase j = [] then .dropXfer x
  else
    (Act.modGrants x.ferry fun g => { g with out := g.out.erase x.id }).andThen (.setXfer { x with tiles := x.tiles.erase j })

end Sys2Proof.Machine
end

