-- ==== Sys2Proof/Machine/Submit.lean ====
section
/-! DEFINITION. Submission: a write of a SUBMIT register puts the address it names into the queue of its unit, or is
dropped when the queue is full (R117, R146, R174, R245, R299, R328, R345, R367). While the checkpoint unit writes the
on-chip image, submissions by control cores are held (R271). -/

namespace Sys2Proof.Machine

/-- The units that take submissions. -/
inductive SubmitUnit where
  | sdir | berth | ferry | nmu | text | samp | seal | rcl
  deriving DecidableEq, Repr

/-- The units by number, as held submissions name them. -/
def submitUnits : List SubmitUnit := [.sdir, .berth, .ferry, .nmu, .text, .samp, .seal, .rcl]

/-- The number of a unit. -/
def SubmitUnit.code (u : SubmitUnit) : Nat := submitUnits.findIdx (· == u)

/-- A queue that holds 256 entries is full: the write is dropped and recorded. -/
def Act.queueFull (c : Ctr) (e : Err) : Act := (Act.count c).andThen (.raise e)

/-- Queue a directory command (R117). -/
def Act.submitSdir (a : Nat) : Act :=
  .look fun s =>
    if s.sdir.queue.length ≥ 256 then .queueFull .SDIR_QUEUE_FULL_COUNT .SDIR_QUEUE_FULL
    else .modSdir fun x => { x with queue := x.queue ++ [a] }

/-- Queue a berth command (R146). -/
def Act.submitBerth (a : Nat) : Act :=
  .look fun s =>
    if s.berth.queue.length ≥ 256 then .queueFull .BERTH_QUEUE_FULL_COUNT .BERTH_QUEUE_FULL
    else .modBerth fun x => { x with queue := x.queue ++ [a] }

/-- Queue a near-memory descriptor (R245). -/
def Act.submitNmu (a : Nat) : Act :=
  .look fun s =>
    if s.nmu.queue.length ≥ 256 then .queueFull .NMU_QUEUE_FULL_COUNT .NMU_QUEUE_FULL
    else
      .all
        [ .modNmu fun x => { x with queue := x.queue ++ [a] },
          .set F.NMU_STATUS_QUEUED (s.nmu.queue.length + 1) ]

/-- Queue a text command (R299). -/
def Act.submitText (a : Nat) : Act :=
  .look fun s =>
    if s.text.queue.length ≥ 256 then .queueFull .TEXT_QUEUE_FULL_COUNT .TEXT_QUEUE_FULL
    else
      .all
        [ .modText fun x => { x with queue := x.queue ++ [a] },
          .set F.TEXT_STATUS_QUEUED (s.text.queue.length + 1) ]

/-- Queue a sampler command (R328). -/
def Act.submitSamp (a : Nat) : Act :=
  .look fun s =>
    if s.sealer.sampQueue.length ≥ 256 then .queueFull .SAMP_QUEUE_FULL_COUNT .SAMP_QUEUE_FULL
    else
      .all
        [ .modSealer fun x => { x with sampQueue := x.sampQueue ++ [a] },
          .set F.SAMP_STATUS_QUEUED (s.sealer.sampQueue.length + 1) ]

/-- Queue a seal engine command (R345). -/
def Act.submitSeal (a : Nat) : Act :=
  .look fun s =>
    if s.sealer.queue.length ≥ 256 then .queueFull .SEAL_QUEUE_FULL_COUNT .SEAL_QUEUE_FULL
    else .modSealer fun x => { x with queue := x.queue ++ [a] }

/-- Queue a recall command (R367). -/
def Act.submitRcl (a : Nat) : Act :=
  .look fun s =>
    if s.rcl.queue.length ≥ 256 then .queueFull .RCL_QUEUE_FULL_COUNT .RCL_QUEUE_FULL
    else
      .all
        [ .modRcl fun x => { x with queue := x.queue ++ [a] },
          .set F.RCL_STATUS_QUEUED (s.rcl.queue.length + 1) ]

/-- A descriptor that no ferry transfer comes of: REJECTED with its reason, or READ_FAILED on a retired ferry (R180,
R181, R547). -/
def Act.ferryRefuse (f : Nat) (d : BitVec 512) (reason : Nat) : Act :=
  (Act.set F.FERRY_STATUS_REJECT_REASON reason f).andThen (.ferryEnds f d fsRejected)

/-- Queue a ferry descriptor, or reject it (R174, R177, R181, R598, R622). -/
def Act.submitFerry (f a : Nat) : Act :=
  .look fun s =>
    if (s.tier.xfers.filter fun x => x.ferry == f && x.phase == 0).length ≥ 256 then
      .queueFull .FERRY_QUEUE_FULL_COUNT .FERRY_QUEUE_FULL
    else match s.entryAt false a 64 with
      | .unmapped => (Act.unmapped a).andThen (.ferryRefuse f 0 3)
      | .outside => .ferryRefuse f 0 3
      | .lost k => (Act.entryLost k { detail := a }).andThen (.ferryRefuse f 0 3)
      | .ok b =>
        let d : BitVec 512 := BitVec.ofNat 512 (ofLE b)
        if s.flag F.FERRY_STATUS_FAULTED f then .ferryEnds f d fsRead
        else
          let r := s.fReject d
          if r ≠ 0 then
            (match if r = 3 then s.fUnmapped d else none with
              | some b => Act.unmapped b { tag := fTag d, session := fSession d }
              | none => .done).andThen (.ferryRefuse f d r)
          else
            .all
              [ .modTier fun t =>
                  { t with
                    xfers := t.xfers ++ [{ id := t.nextId, ferry := f, desc := d, addr := a, work := .firmware, tiles := List.range (fTiles d) }],
                    nextId := t.nextId + 1 },
                .showFerry f ]

/-- Carry a submission out. -/
def Act.submitNow (u : SubmitUnit) (i a : Nat) : Act :=
  match u with
  | .sdir => .submitSdir a
  | .berth => .submitBerth a
  | .ferry => .submitFerry i a
  | .nmu => .submitNmu a
  | .text => .submitText a
  | .samp => .submitSamp a
  | .seal => .submitSeal a
  | .rcl => .submitRcl a

/-- A control core submits an entry: held while the on-chip image is written (R271). -/
def Act.submit (u : SubmitUnit) (i a : Nat) : Act :=
  .look fun s =>
    if s.ckpt.writing then .modCkpt fun c => { c with held := c.held ++ [(u.code, i, a)] } else .submitNow u i a

/-- Held submissions are released, oldest first (R271). -/
def Act.releaseSubmits : Act :=
  .look fun s =>
    .all
      [ .modCkpt fun c => { c with held := [], writing := false },
        .each s.ckpt.held fun h => .submitNow (submitUnits.getD h.1 .sdir) h.2.1 h.2.2 ]

end Sys2Proof.Machine
end

