-- ==== Sys2Proof/Machine/CkptUnit.lean ====
section
/-! DEFINITION. What the checkpoint commands share: the schedule (R266, R270), the capture point (R271, R272), the
copy frontier (R253 to R255, R277, R278), trimming of accumulator records (R275), the drain stream and the commit
record (R280 to R283), and abandonment (R279). -/

namespace Sys2Proof.Machine

/-- Capture sailings of one checkpoint: X of R270. -/
def State.captureX (s : State) : Nat := ceilDiv 150 (s.periodUs - 5)

/-- The checkpoint whose capture occupies a sailing by the schedule (R266, R270). -/
def State.scheduled (s : State) (n : Nat) : Option Nat :=
  let i := s.get F.CKPT_SCHED_INTERVAL
  let p := s.get F.CKPT_SCHED_PHASE
  if i = 0 ∨ n < p then none
  else if (n - p) % i < s.captureX then some ((n - p) / i + 1) else none

/-- The capture sailing of a checkpoint (R266). -/
def State.captureAt (s : State) (k : Nat) : Nat := (k - 1) * s.get F.CKPT_SCHED_INTERVAL + s.get F.CKPT_SCHED_PHASE

/-- Sailing `n` is a capture sailing: its checkpoint was not skipped for a drain still under way (R267, R270). A capture
that was late ends with its first sailing. -/
def State.inCapture (s : State) (n : Nat) : Bool :=
  match s.scheduled n with
  | none => false
  | some k =>
    (decide (s.ckpt.skipped ≠ k) || (s.ckpt.number == k && n == s.captureAt k))
      && !(s.ckState == ckDrain && s.ckpt.number ≠ k)

/-- Frames of a stack's general-use HBM (R277). -/
def stackFrames : Nat := 8912896

/-- The frontier moves to the next frame of DRAIN_SET at or above `f`, or to the end (R278). -/
def Act.frontier (stack f : Nat) : Act :=
  .look fun s => .set F.NMU_COW_FRONTIER ((s.nmu.drainSet.next stack f stackFrames).getD stackFrames) stack

/-- Every pool frame of a stack that was not given away (R544) is free (R261). -/
def Act.poolWhole (st : Nat) : Act :=
  .look fun s =>
    .set F.NMU_STACK_POOL_FREE (s.get F.NMU_POOL_FRAMES - s.nmu.poolGone.get (fun _ => 0) st) st

/-- Copy-on-write is armed on every stack (R278). -/
def Act.arm : Act :=
  .all
    [ .modNmu fun n => { n with drainSet := n.dirty, dirty := ⟨false, [], []⟩, preserved := [], poolUsed := [] },
      .each (List.range 16) fun st =>
        .all
          [ .set F.NMU_COW_LIMIT stackFrames st, .set F.NMU_COW_ARMED 1 st, .set F.NMU_STACK_COW_ARMED 1 st,
            .poolWhole st, .frontier st 0 ] ]

/-- Held writes proceed without copies (R254). -/
def Act.releaseWrites : Act :=
  .look fun s =>
    .all
      [ .modNmu fun n => { n with held := [] },
        .each s.nmu.held fun h => .writeFrame h.addr h.bytes ]

/-- ARMED falls to 0: held writes proceed and the pool is freed (R254). -/
def Act.disarm : Act :=
  .all
    [ .each (List.range 16) fun st =>
        .all [.set F.NMU_COW_ARMED 0 st, .set F.NMU_STACK_COW_ARMED 0 st, .poolWhole st],
      .modNmu fun n => { n with preserved := [], poolUsed := [] },
      .releaseWrites ]

/-- A frame's copy is done, or the drain has read it: its held writes proceed, and what they held (R254, R255). -/
def Act.releaseFrame (stack f : Nat) : Act := .recheck (domainOf (frameAddr stack f))

/-- Free the pool frame of a preserved frame (R254). -/
def Act.freePreserved (stack f : Nat) : Act :=
  .look fun s =>
    match s.nmu.preserved.get (fun _ => 0) (frameKey stack f) with
    | 0 => .done
    | p + 1 =>
      .all
        [ .modNmu fun n =>
            { n with
              preserved := n.preserved.put (fun _ => 0) (frameKey stack f) 0,
              poolUsed := n.poolUsed.put (fun _ => false) (stack * 2 ^ 20 + p) false },
          .set F.NMU_STACK_POOL_FREE (s.get F.NMU_STACK_POOL_FREE stack + 1) stack ]

/-- What a drain read of a frame returns: the pool copy when the frame is preserved (R254). -/
def State.drainBytes (s : State) (stack f : Nat) : List Byte :=
  match s.nmu.preserved.get (fun _ => 0) (frameKey stack f) with
  | 0 => s.bytesAt (frameAddr stack f) 4096
  | p + 1 => s.bytesAt (spareAddr stack p) 4096

/-- The number of a frame in a drain: stack and frame; stack 16 stands for the image. -/
def drainKey (stack f : Nat) : Nat := stack * 2 ^ 28 + f

/-- The drained frame belongs to the on-chip image. -/
def isImage (key : Nat) : Bool := decide (16 ≤ key / 2 ^ 28)

/-- A frame number as the metadata carries it: the stack in [31:28], 0xF for an image frame, the frame in [27:0]
(R281). -/
def drainNumber (key : Nat) : Nat := min 15 (key / 2 ^ 28) * 2 ^ 28 + key % 2 ^ 28

/-- DRAIN_DIGEST over every frame number and its frame, in the order sent (R280). -/
def drainDigest (x : List (Nat × List Byte)) : List Byte :=
  sha384 (x.flatMap fun v => leBytes 4 (drainNumber v.1) ++ v.2)

/-- Bytes of the on-chip image share of one stack: 25,600 frames at most (R277). -/
def imageFrames : Nat := 25600

/-- The part of the on-chip image in a stack's spare region, from frame 0 on (R277). -/
def State.imageShare (s : State) (stack : Nat) : List Byte := (Config.imageShare s.free stack).take (4096 * imageFrames)

/-- The frames of the on-chip image, stack by stack (R280). -/
def State.imageParts (s : State) : List (Nat × List Byte) :=
  (List.range 16).flatMap fun st =>
    (List.range (ceilDiv (s.imageShare st).length 4096)).map fun i =>
      (drainKey 16 (imageFrames * st + i), padTo 4096 ((s.imageShare st).drop (4096 * i)))

/-- The on-chip image is written into the spare regions and sent to the buddy (R271, R277, R280). -/
def Act.writeImage : Act :=
  .look fun s =>
    .all
      [ .each (List.range 16) fun st => .one (.mem (spareAddr st 0) (s.imageShare st)),
        .modCkpt fun c => { c with stream := c.stream ++ s.imageParts },
        .one (.emit (.drainImage s.ckpt.number s.imageParts)), .one (.takeFree 1) ]

/-- Send a frame to the buddy. -/
def Act.sendFrame (key : Nat) (bytes : List Byte) : Act :=
  .look fun s =>
    .all
      [ .modCkpt fun c => { c with stream := c.stream ++ [(key, bytes)] },
        .one (.emit (.drain s.ckpt.number key bytes)) ]

/-- The whole drain set has been read on every stack. -/
def State.drainDone (s : State) : Bool :=
  (List.range 16).all fun st => decide (s.get F.NMU_COW_FRONTIER st ≥ s.get F.NMU_COW_LIMIT st)

/-- The commit record of a checkpoint, without and with its manifest (R282). -/
def State.commitRecord (s : State) : List Byte :=
  let st := s.ckpt.stream
  let body := leBytes 8 s.ckpt.number ++ leBytes 8 (s.captureAt s.ckpt.number)
    ++ leBytes 4 ((s.ckpt.snap.map fun x => bits (x.regs.get regDefault (regKey .CHART_STATUS 0)).toNat 63 32).getD 0)
    ++ leBytes 1 (s.get F.CFG_AP_STATUS_ACTIVE) ++ leBytes 3 0 ++ leBytes 8 (4096 * (st.filter fun v => isImage v.1).length)
    ++ leBytes 8 ((st.filter fun v => !isImage v.1).length) ++ leBytes 8 0
    ++ s.boot.configDigest ++ drainDigest st ++ deviceDigest ++ List.replicate 3872 0
  body ++ manifestOf kindRecord body

/-- The commit record comes last (R280); with it the buddy holds the whole checkpoint. -/
def Act.sendCommit : Act :=
  .look fun s =>
    .when (s.ckState == ckDrain && !s.ckpt.writing && !s.ckpt.sent && s.drainDone)
      (.all
        [ .one (.emit (.commitRecord s.commitRecord)),
          .modCkpt fun c =>
            { c with
              sent := true,
              remote := c.remote ++ c.stream.map fun v => (c.number, v),
              snaps := c.snaps.put (fun _ => none) c.number c.snap } ])

/-- The checkpoint in progress ends: READY and what it holds are cleared. -/
def Act.ckptEnds (result : Nat) : Act :=
  .all
    [ .set F.CKPT_STATUS_STATE ckIdle, .set F.CKPT_STATUS_LAST_RESULT result, .set F.CKPT_CONTROL_READY 0,
      .releaseSubmits,
      .modCkpt fun c => { c with snap := none, stream := [], sent := false } ]

/-- Abandon the checkpoint in capture or drain (R279), with the cause of LAST_RESULT. -/
def Act.ckptAbandon (cause : Nat) : Act :=
  .look fun s =>
    if s.ckState ≠ ckCapture ∧ s.ckState ≠ ckDrain then .done
    else
      .all
        [ .disarm,
          .modNmu fun n => { n with dirty := n.dirty.union n.drainSet, drainSet := ⟨false, [], []⟩ },
          .one (.emit (.ckptAbandoned s.ckpt.number)),
          .count .CKPT_ABANDON_COUNT,
          .raise .CKPT_ABANDONED { detail := s.ckpt.number },
          .ckptEnds cause ]

/-! ### The buddy's side (R281 to R283) -/

def crNumber (b : List Byte) : Nat := leAt b 0 8
def crSailing (b : List Byte) : Nat := leAt b 8 8 % 2 ^ 48
def crProfile (b : List Byte) : Nat := leAt b 0x14 1
def crConfig (b : List Byte) : List Byte := (b.drop 0x30).take 48
def crDigest (b : List Byte) : List Byte := (b.drop 0x60).take 48

/-- A commit record's manifest verifies and its reserved bytes are zero (R282, R284). -/
def crOk (b : List Byte) : Bool :=
  b.length == 4096 && manifestOk kindRecord (b.drop 4064) (b.take 4064) && leAt b 0x15 3 == 0 && leAt b 0x28 8 == 0
    && ((b.drop 0xC0).take 3872).all (· == 0) && leAt b 0xE 2 == 0

/-- The checkpoints whose commit records stand in the slots. -/
def State.slotCkpts (s : State) : List Nat :=
  ([0, 1].map fun k => s.nand.slots.get (fun _ => []) k).filterMap fun r => if crOk r then some (crNumber r) else none

/-- The versions that some committed checkpoint of `ks` still needs (R281). -/
def neededVersions (ks : List Nat) (vs : List Version) : List Version :=
  vs.filter fun v =>
    ks.any fun k =>
      decide (v.ckpt ≤ k) && !(vs.any fun w => w.key == v.key && decide (v.ckpt < w.ckpt) && decide (w.ckpt ≤ k))

/-- Versions that no verifying commit record needs are freed (R281); those of the drain under way stay. -/
def Act.keepVersions : Act :=
  .look fun s =>
    .modFlash fun f =>
      { f with versions :=
          (neededVersions s.slotCkpts (f.versions.filter fun v => v.ckpt ≠ s.ckpt.receiving))
            ++ f.versions.filter fun v => v.ckpt == s.ckpt.receiving }

/-- The versions that wait for a page of the DRAIN area. -/
def State.versionsWait (s : State) : List Version :=
  s.flash.versions.filter fun v =>
    decide (v.place = 0) && !s.flash.staging.any fun j => j.area == 2 && j.nums.contains v.number

/-- Frame versions go into a page once four wait, or the last of them when the drain is over (R281). -/
def Act.stageDrain (last : Bool) : Act :=
  .look fun s =>
    let vs := s.versionsWait
    .when (decide (4 ≤ vs.length) || (last && !vs.isEmpty)) ((Act.stageVersions .drain (vs.take 4)).andThen .flashGo)

/-- The last stripe of a drain is filled with pages of zeros, so that its XOR page closes it. -/
def Act.padDrain : Act :=
  .look fun s =>
    let left := (s.fill 2).2
    .when (!left.isEmpty && !s.flash.staging.any fun j => j.area == 2)
      ((Act.modFlash fun f =>
        { f with staging := f.staging ++ List.replicate left.length ⟨2, .drain, none, [], List.replicate 16384 0⟩ }).andThen
        .flashGo)

/-- The buddy's commit record is written once every page of the drain, parity included, has programmed (R283). -/
def State.drainWritten (s : State) : Bool :=
  !(s.allOps.any fun o => o.client == .drain) && !(s.flash.staging.any fun j => j.area == 2) && (s.fill 2).2.isEmpty

/-- The commit record that waits for its drain is written, and the source hears of it (R283). -/
def Act.commitWritten : Act :=
  .look fun s =>
    let r := s.ckpt.commitWaits
    .when (decide (r ≠ []))
      (.all
        [ .padDrain,
          .look fun s => .when s.drainWritten
            (.all
              [ .modNand fun n => { n with slots := n.slots.put (fun _ => []) (crNumber r % 2) r },
                .modCkpt fun c => { c with commitWaits := [], receiving := 0, received := [] },
                .keepVersions, .one (.emit (.ckptConfirm (crNumber r))), .sweepBlocks ]) ])

/-! ### Trimming -/

/-- The declared record ranges: core, base and bytes (R296). -/
def State.accRanges (s : State) : List (Nat × Nat × Nat) :=
  (List.range 640).filterMap fun n =>
    let size := s.get F.CKPT_ACC_RANGE_SIZE n
    if size = 0 then none else some (n / 8, s.get F.CKPT_ACC_RANGE_BASE n * 256, size * 256)

/-- A group is written trimmed: it can be, and it expands to itself (R275). -/
def trims (g : List Byte) : Bool :=
  match trimGroup g with
  | some t => decide (expandGroup t = some g)
  | none => false

/-- Trimmed and full groups of the declared ranges are counted (R275, R297). -/
def Act.countTrims : Act :=
  .look fun s =>
    .each s.accRanges fun r =>
      .each (List.range (r.2.2 / 256)) fun i =>
        .count (if trims (s.readLs r.1 (r.2.1 + 256 * i) 256) then .CKPT_TRIM_GROUP_COUNT
          else .CKPT_TRIM_FALLBACK_COUNT)

/-! ### The capture point -/

/-- Every control core that is watched and not retired has set READY (R271). -/
def State.allReady (s : State) : Bool :=
  (List.range 16).all fun c => !s.coreLive c || bit (s.get F.CKPT_CONTROL_READY) c

/-- The other present devices of the crew, by device address. -/
def State.crewPeers (s : State) : List Nat :=
  (s.crew.map fun b => beAddr b % 2 ^ 64).filter (· ≠ s.get F.MCT_ADDR_ADDR)

/-- A cut message of the checkpoint has arrived from every other device of the crew (R271). -/
def State.allCut (s : State) : Bool := s.crewPeers.all fun p => s.mct.cuts.contains (s.ckpt.number, p)

/-- Every unit is at an operation boundary (R272): no tile in flight, no near-memory command started. -/
def State.atBoundary (s : State) : Bool := s.core.flights.isEmpty && s.nmu.active.isEmpty

/-- The on-chip state as a checkpoint holds it (R268). -/
def State.snapshot (s : State) : Snapshot :=
  { ls := s.ls, shared := s.mem.filter fun e => decide (sharedBase ≤ e.1) && decide (e.1 < sharedBase + 2 * sharedHalf),
    regs := s.regs, shadow := s.shadow, core := s.core, carry := s.sail.carry, items := s.sail.items,
    lists := s.irq.lists, sdir := s.sdir, berth := s.berth, tier := s.tier, chart := s.chart, text := s.text,
    rcl := s.rcl, nmuQueue := s.nmu.queue, flash := s.flash, ops := s.mct.ops, cq := s.irq.waiting,
    commit := s.sail.commit }

end Sys2Proof.Machine
end

