-- ==== Sys2Proof/Machine/FabUnit.lean ====
section
/-! DEFINITION. Fabric ports: which lanes a port has, its state, and how it narrows when a lane is retired
(R397, R400, R425). -/

namespace Sys2Proof.Machine

/-- STATE codes of FAB_PORT_STATUS (R425). -/
def psDown : Nat := 0
def psTraining : Nat := 1
def psUp : Nat := 2

/-- The lane group of a lane (R397). -/
def laneGroup (l : Nat) : Nat := l / 8

/-- Lanes per port as configured (R424). -/
def State.groupWidth (s : State) (q : Nat) : Nat := 8 / 2 ^ s.get F.FAB_GROUP_WIDTH q

/-- Lane `p` begins a port of its group (R397). -/
def State.beginsPort (s : State) (p : Nat) : Bool :=
  s.flag F.FAB_GROUP_ENABLE (laneGroup p) && decide (p % s.groupWidth (laneGroup p) = 0)

/-- The ports of the device, by first lane. -/
def State.ports (s : State) : List Nat := (List.range 32).filter s.beginsPort

/-- The port is UP. -/
def State.portUp (s : State) (p : Nat) : Bool := s.get F.FAB_PORT_STATUS_STATE p == psUp

/-- The UP ports in ascending lane order (R432). -/
def State.upPorts (s : State) : List Nat := s.ports.filter s.portUp

/-- The lane is retired (R425). -/
def State.laneRetired (s : State) (l : Nat) : Bool :=
  bit (s.get F.FAB_PORT_STATUS_RETIRED (laneGroup l * 8)) (l % 8)

/-- The lanes a port may use: halved until none of them is retired or one is left (R400). -/
def halvings (gone : Nat → Bool) : Nat → Nat → Nat → Nat × Nat
  | 0, lo, n => (lo, n)
  | k + 1, lo, n =>
    if !(List.range n).any (fun i => gone (lo + i)) then (lo, n)
    else if n ≤ 1 then (lo, 0)
    else if (List.range (n / 2)).any (fun i => gone (lo + i)) then halvings gone k (lo + n / 2) (n / 2)
    else halvings gone k lo (n / 2)

/-- Where a port starts, and its width once it has trained: first lane and lanes; 0 lanes when none is left. -/
def State.portLanes (s : State) (p : Nat) : Nat × Nat :=
  let w := s.groupWidth (laneGroup p)
  halvings s.laneRetired 5 p w

/-- The port that a lane belongs to by configuration. -/
def State.portOf (s : State) (l : Nat) : Nat := l - l % s.groupWidth (laneGroup l)

/-- A lane is retired: its port retrains on what is left of its lanes, or goes DOWN (R400). -/
def Act.laneRetire (l : Nat) : Act :=
  .look fun s =>
    let base := laneGroup l * 8
    let old := s.portLanes (s.portOf l)
    .all
      [ .each (List.range 8) fun i =>
          .set F.FAB_PORT_STATUS_RETIRED (s.get F.FAB_PORT_STATUS_RETIRED base ||| 2 ^ (l % 8)) (base + i),
        .look fun s =>
          let p := s.portOf l
          let now := s.portLanes p
          if old = now then .actionDone 3 l
          else if now.2 = 0 then
            .all [.set F.FAB_PORT_STATUS_STATE psDown p, .set F.FAB_PORT_STATUS_LANES 0 p, .actionDone 3 l]
          else .set F.FAB_PORT_STATUS_STATE psTraining p ]

end Sys2Proof.Machine
end

