-- ==== Sys2Proof/Machine/Retire.lean ====
section
/-! DEFINITION. What the retirement of each kind of part does (R400, R541, R544 to R547), and the frame of every
command: a FATAL device acts on nothing but a reset (R464, R550), and parts that a command retired are dealt with
before the command ends. -/

namespace Sys2Proof.Machine

/-- Units of general-use HBM in a pseudo-channel (R594). -/
def pcUnits : Nat := 278528

/-- Berths of a class that a retired unit of a domain touches, among units from `first` on (R140, R544). -/
def State.berthsOn (s : State) (domain first c : Nat) : List Nat :=
  (List.range (s.get F.BERTH_CLASS_COUNT c)).filter fun n =>
    (List.range (s.get F.BERTH_CLASS_STRIDE c * 16)).any fun u =>
      match s.hbmKey (s.berthBase c n + 4096 * u) with
      | some k => domainOf k == domain && decide (first ≤ (frameOf k).2 / 32)
      | none => false

/-- A pseudo-channel is retired (R544): a checkpoint in progress is abandoned, its own frames of the spare region leave the
pool, its units are remapped into frames from the top of the stack's pool, DIRTY is set for them, and the units that are
left fail every access; their berth numbers are withdrawn. POOL_FREE falls by the frames used. -/
def Act.pcRetire (d : Nat) : Act :=
  .look fun s =>
    let stack := d / 32
    .all
      [ .when (s.ckState == ckCapture || s.ckState == ckDrain)
          (.all
            [ .one (.takeFree 1), .ckptAbandon (4 + (Config.freeWord s.free).toNat % 4) ]),
        .look fun s =>
          let gone := s.nmu.poolGone.get (fun _ => 0) stack
          let n := min pcUnits (s.poolRank stack (s.get F.NMU_POOL_FRAMES) - gone)
          .all
            [ .modErr fun e => { e with moved := e.moved.put (fun _ => 0) d n },
              .modNmu fun x =>
                { x with
                  poolGone := x.poolGone.put (fun _ => 0) stack (gone + n),
                  dirty := { x.dirty with channels := x.dirty.channels ++ [d] } },
              .set F.NMU_STACK_POOL_FREE (s.get F.NMU_STACK_POOL_FREE stack - n) stack,
              .when (decide (n < pcUnits))
                (.each (List.range 4) fun c => .look fun s => .each (s.berthsOn d n c) fun b => .withdraw c b) ] ]

/-- A ring fails (R460): its open requests end without DONE entries, and what waits for its completion ring goes. -/
def Act.ringFail (r : Nat) : Act :=
  .look fun s =>
    if (s.ring r).state = 3 then .done
    else
      .all
        [ .ringState r 3,
          .modHost fun h =>
            { h with
              requests := h.requests.filter fun q => q.ring ≠ r, waiting := h.waiting.filter fun e => e.ring ≠ r },
          .count .HOST_RING_FAIL_COUNT,
          .raise .HOST_RING_FAILED { detail := r },
          .hostEvent F.HOST_EVENT_RING_FAILED ]

/-- Every moored image in a window is lost (R192, R462): a share move that reads one of them is reported as lost, and one
that writes into the window ends WRITE_FAILED. -/
def Act.windowLost (w : Nat) : Act :=
  .look fun s =>
    let lost := s.tier.images.filter fun e => match e.2 with | some i => i.window == w | none => false
    .all
      [ .each (s.tier.shares.filter fun m => m.src ≠ 0 && lost.any fun e => e.1 == m.src) fun m =>
          (Act.shareCancel m.session).andThen (.one (.emit (.shareLost m.session))),
        .each (s.tier.shares.filter fun m => m.moors && m.window == w) fun m =>
          (Act.ferryStatus fsWrite 0 m.session).andThen (.shareEnds m.session m.motion fsWrite 0 []),
        .each lost fun e =>
          (Act.modTier fun t => { t with lostImages := t.lostImages.put (fun _ => false) e.1 true }).andThen
            (.dropImage e.1) ]

/-- A host link is retired (R546): its windows are lost and its rings fail; without a link the device is FATAL. -/
def Act.linkRetire (l : Nat) : Act :=
  .look fun s =>
    let mine (w : Nat) : Bool := (s.window w).link == l
    .all
      [ .each (allWindows.filter mine) .windowLost,
        .each ((List.range 64).filter fun r => s.get F.HOST_RING_LINK r == l && (s.ring r).state ≠ 0) .ringFail,
        .actionDone 4 l,
        .when (s.get F.HOST_CFG_BIFURCATION == 0 || s.retired 4 (1 - l)) (.goFatal Err.HOST_LINK_RETIRED.code) ]

/-- A causeway group is retired; fewer than 8 groups in a direction make the device FATAL (R545). -/
def Act.groupRetire (n : Nat) : Act :=
  .all
    [ .set F.ERR_CAUSEWAY_RETIRED 1 n, .actionDone 5 n,
      .look fun s =>
        .when (decide (((List.range 16).filter fun g => !s.flag F.ERR_CAUSEWAY_RETIRED (n / 16 * 16 + g)).length < 8))
          (.raise .ERR_CAUSEWAY_LOW) ]

/-- A bank is retired: held OFF for good (R547); what it held is gone. -/
def Act.bankRetire (b : Nat) : Act :=
  .all
    [ if b < 3840 then .one (.wipeLs (b / 48) (b % 48 * bankBytes) ((b % 48 + 1) * bankBytes)) else .done,
      .actionDone 8 b ]

/-- Carry a retirement out. -/
def Act.retireNow (k : Nat) : Act :=
  let t := k / 65536
  let i := k % 65536
  if t = 1 then .pcRetire i
  else if t = 2 then .lunFault i
  else if t = 3 then .laneRetire i
  else if t = 4 then .linkRetire i
  else if t = 5 then .groupRetire i
  else if t = 6 then (Act.coreRetire i).andThen (.actionDone 6 i)
  else if t = 7 then (Act.ferryRetire i).andThen (.actionDone 7 i)
  else if t = 8 then .bankRetire i
  else .actionDone t i

/-- Carry out the retirements that wait; one may bring another about. -/
def Act.retirements : Nat → Act
  | 0 => .done
  | n + 1 =>
    .look fun s =>
      match s.err.todo with
      | [] => .done
      | k :: ks => .all [.modErr fun e => { e with todo := ks }, .retireNow k, .retirements n]

/-- A command: nothing happens on a FATAL device; the retirements it brought about are carried out. -/
def Act.command (a : Act) : Act :=
  .look fun s => if s.fatal then .done else a.andThen (.retirements 64)

/-- A register write by software: a host write to a register outside the HOST_ block is dropped and counted (R453). -/
def Act.byCore (agent : Agent) (body : Act) : Act :=
  match agent with
  | .host => .count .HOST_WRITE_DENIED_COUNT
  | _ => body

end Sys2Proof.Machine
end

