-- ==== Sys2Proof/Machine/Berth.lean ====
section
/-! DEFINITION. The berth commands (R118 to R146), history saves and global loads (R125, R127, R190). -/

namespace Sys2Proof.Machine

/-! ### Open and close (R129) -/

/-- BERTH_OPEN: opens a number that is closed and not withdrawn (R128, R129, R140); with LAYERS 0 there is no berth to open
(R142). -/
def execBerthOpen (addr : BitVec 48) (s : State) : Host.Outcome State Fault Refusal :=
  (Act.command <| Act.berthTake addr.toNat (· == 1) fun e =>
    let c := bClass e
    let n := bNumber e
    .look fun s =>
      if bit e.toNat 156 || bits e.toNat 71 64 ≠ 0 then .berthDone e bsBadOp
      else if n ≥ s.get F.BERTH_CLASS_COUNT c then .berthDone e bsBadBerth
      else if bLayer e ≥ (s.shape c).layers then .berthDone e bsCount
      else if s.berthWithdrawn c n then .berthDone e bsWithdrawn
      else if !s.headerOk c n then (Act.shareLost (hSession (s.header c n)) c n).andThen (.berthDone e bsBadState)
      else if hOpen (s.header c n) then .berthDone e bsBadState
      else
        .all
          [ .clearBerth c n,
            .look fun s =>
              .writeHeader c n (setAll (s.header c n)
                [(0, 8, bSession e), (8, 4, putBits (putBits n 21 20 c) 31 31 1), (0xC, 4, s.epoch)]),
            .set F.BERTH_IN_USE_COUNT (s.get F.BERTH_IN_USE_COUNT c + 1) c,
            .berthDone e bsOk ]).outcome s

/-- The commands of a berth that wait or run end with a status. -/
def Act.endWaiting (c n status : Nat) (laps work : Bool) : Act :=
  .look fun s =>
    let mine (j : BerthJob) : Bool := bClass j.entry == c && bNumber j.entry == n
    let gone := (if laps then s.berth.laps.filter mine else [])
      ++ (if work then s.berth.saves.filter mine ++ s.berth.loads.filter mine else [])
    (Act.modBerth fun x =>
      { x with
        laps := if laps then x.laps.filter fun j => !mine j else x.laps,
        saves := if work then x.saves.filter fun j => !mine j else x.saves,
        loads := if work then x.loads.filter fun j => !mine j else x.loads }).andThen
      (.each gone fun j => .berthDone j.entry status)

/-- Berth commands queued before the one at `a` for its berth, held back behind one that waits, end CANCELLED (R129). -/
def Act.endQueued (mine : List Nat) (a : Nat) : Act :=
  .each (mine.takeWhile fun x => x ≠ a) fun x =>
    .look fun s =>
      (Act.modBerth fun y => { y with queue := y.queue.erase x }).andThen (.berthDone (s.entry256 x) bsCancelled)

/-- BERTH_CLOSE: waiting commands end CANCELLED, an open tag is cancelled, the header is zeroed (R129, R131, R135). -/
def execBerthClose (addr : BitVec 48) (s : State) : Host.Outcome State Fault Refusal :=
  (Act.command <| .look fun s => Act.berthTake addr.toNat (· == 2) fun e =>
    let c := bClass e
    let n := bNumber e
    .berthChecked e fun _ =>
      .all
        [ .endWaiting c n bsCancelled true true, .endQueued (s.berthQueued addr.toNat) addr.toNat,
          .specOrphan c n, .clearBerth c n,
          .look fun s => .set F.BERTH_IN_USE_COUNT (s.get F.BERTH_IN_USE_COUNT c - 1) c,
          .berthDone e bsOk ]).outcome s

/-! ### Writing positions (R123, R125) -/

/-- The rows of a layer that a command brings, by head and kind. -/
def State.rowsFor (s : State) (e : BitVec 256) (h kind : Nat) : List (List Byte) :=
  (List.range (bCount e)).map fun i => sourceRow s e h kind i

/-- The share cannot be read: it is reported lost, and the command ends (R124, R140). -/
def Act.berthLost (e : BitVec 256) : Act :=
  (Act.shareLost (bSession e) (bClass e) (bNumber e)).andThen (.berthDone e bsBadState)

/-- Change a berth's header and report the chunks that leave the window (R122, R126, R137). -/
def Act.advance (c n : Nat) (f : List Byte → List Byte) : Act :=
  .look fun s =>
    let old := s.header c n
    (Act.writeHeader c n (f old)).andThen
      (.look fun t => .chunkReports (hSession old) (s.shape c).w (hCommitted old) (hCommitted (t.header c n)))

/-- The head and kind pairs of a layer, in berth tile order. -/
def headKinds (p : Shape) : List (Nat × Nat) :=
  (List.range p.hkv).flatMap fun h => [(h, 0), (h, 1)]

/-- APPEND writes its positions (R123, R129). -/
def Act.appendNow (e : BitVec 256) : Act :=
  .look fun s =>
    let c := bClass e
    let n := bNumber e
    let p := s.shape c
    let ps := joinPatches ((headKinds p).flatMap fun x => ringPatches p (bLayer e) x.1 x.2 (bPos e) (s.rowsFor e x.1 x.2))
    if !s.sourceOk e p then .berthDone e bsCount
    else if !s.tilesOk c n ps then .berthLost e
    else
      .all
        [ .patchTiles c n ps,
          .advance c n fun b => setLE b (0x40 + 8 * bLayer e) 8 (bPos e + bCount e),
          .berthDone e bsOk ]

/-- A command waits until HISTORY_UPTO has advanced (R125). -/
def Act.lapWait (a : Nat) (e : BitVec 256) : Act :=
  (Act.count .BERTH_LAP_STALL_COUNT).andThen (.modBerth fun x => { x with laps := x.laps ++ [⟨a, e⟩] })

/-- APPEND on a berth with header `b`; `wait` runs while its lap must wait (R125, R129, R140). -/
def Act.appendTry (e : BitVec 256) (wait : Act) (b : List Byte) : Act :=
  .look fun s =>
    let c := bClass e
    let p := s.shape c
    if s.berthWithdrawn c (bNumber e) then .berthDone e bsWithdrawn
    else if bPos e ≠ hFill b (bLayer e) then .berthDone e bsPos
    else if bCount e = 0 ∨ bCount e > min p.w 1024 then .berthDone e bsCount
    else if hSpecOpen b && decide (bPos e + bCount e > hSpecBase b) then .berthDone e bsCount
    else if !lapOk p b (bPos e + bCount e - 1) then wait
    else .appendNow e

/-- APPEND (R125, R129, R140). -/
def execAppend (addr : BitVec 48) (s : State) : Host.Outcome State Fault Refusal :=
  (Act.command <| Act.berthTake addr.toNat (· == 3) fun e =>
    .berthChecked e (.appendTry e (.lapWait addr.toNat e))).outcome s

/-! ### Speculation (R132 to R134) -/

/-- The speculative tiles of a layer (R120). -/
def specTiles (p : Shape) (l : Nat) : List Nat :=
  (List.range 2).flatMap fun k => (List.range p.st).map fun t => p.tile l 0 k .spec t

/-- Zero every speculative tile of the share when a tag opens (R124). -/
def Act.zeroSpec (c n : Nat) (p : Shape) : Act :=
  .each (List.range p.layers) fun l => .each (specTiles p l) fun i => .putTile c n i (List.replicate 16384 0)

/-- SPEC_WRITE (R124, R132, R140). Of several conditions that fail, COUNT_RANGE is reported before SPEC_OPEN, and that
before POS_MISMATCH: the spec gives no order (assumption 95). -/
def execSpecWrite (addr : BitVec 48) (s : State) : Host.Outcome State Fault Refusal :=
  (Act.command <| Act.berthTake addr.toNat (· == 4) fun e =>
    let c := bClass e
    let n := bNumber e
    .berthChecked e fun b => .look fun s =>
      let p := s.shape c
      let opens := !hSpecOpen b
      let ps := joinPatches ((headKinds p).flatMap fun x => specPatches p (bLayer e) x.1 x.2 (s.rowsFor e x.1 x.2))
      if s.berthWithdrawn c n then .berthDone e bsWithdrawn
      else if bCount e = 0 ∨ bCount e > p.sp then .berthDone e bsCount
      else if !opens && hSpecTag b != bSpecTag e then .berthDone e bsSpecOpen
      else if bPos e ≠ hFill b (bLayer e) || (!opens && bPos e != hSpecBase b) then .berthDone e bsPos
      else if !s.sourceOk e p then .berthDone e bsCount
      else if !opens && !s.tilesOk c n ps then .berthLost e
      else if opens && !((List.range p.layers).all fun l => (specTiles p l).all (s.tileWrites c n)) then .berthLost e
      else
        .all
          [ .when opens (.zeroSpec c n p), .patchTiles c n ps,
            .advance c n fun b =>
              let b := if opens then setAll b [(0x28, 2, bSpecTag e), (0x20, 8, bPos e), (0x2A, 1, 1)] else b
              setLE b (0x140 + 2 * bLayer e) 2 (bCount e),
            .berthDone e bsOk ]).outcome s

/-- Bytes of a run that crosses row-statistics tiles, by tile and offset (R121). -/
def statPieces (p : Shape) (l off : Nat) (bytes : List Byte) : List (Nat × List (Nat × List Byte)) :=
  let first := off / 16384
  let k := 16384 - off % 16384
  if bytes.length ≤ k then [(p.statsTile l first, [(off % 16384, bytes)])]
  else [(p.statsTile l first, [(off % 16384, bytes.take k)]), (p.statsTile l (first + 1), [(0, bytes.drop k)])]

/-- Statistics row `i` of a layer, when its tiles can be read (R121). -/
def State.statRow (s : State) (c n : Nat) (p : Shape) (l i : Nat) : Option (List Byte) :=
  let off := i * p.hq * 8
  let first := off / 16384
  let last := (off + p.hq * 8 - 1) / 16384
  match s.tileStart c n (p.statsTile l first), s.tileStart c n (p.statsTile l last) with
  | some a, some b => some (((if first = last then a else a ++ b).drop (off % 16384)).take (p.hq * 8))
  | _, _ => none

/-- The patches that commit the first `j` drafts of a layer: rows to the ring, statistics row `j` - 1 to row S; none
when a tile cannot be read (R133). -/
def State.resolvePatches (s : State) (c n : Nat) (p : Shape) (base j l : Nat) : Option (List (Nat × List (Nat × List Byte))) :=
  let tile (h k i : Nat) : Nat := p.tile l h k .spec (i / 32 * p.hg + h / 4)
  let ok := (headKinds p).all fun x => (List.range j).all fun i => (s.tileStart c n (tile x.1 x.2 i)).isSome
  match ok, s.statRow c n p l (j - 1) with
  | true, some st =>
    some (((headKinds p).flatMap fun x =>
      ringPatches p l x.1 x.2 base
        ((List.range j).map fun i => specRow ((s.tileStart c n (tile x.1 x.2 i)).getD []) x.2 x.1 i))
      ++ statPieces p l (p.sp * p.hq * 8) st)
  | _, _ => none

/-- SPEC_RESOLVE commits its drafts (R133). -/
def Act.resolveNow (e : BitVec 256) : Act :=
  .look fun s =>
    let c := bClass e
    let n := bNumber e
    let p := s.shape c
    let j := bCount e
    let b := s.header c n
    let all := (List.range p.layers).map (s.resolvePatches c n p (hSpecBase b) j)
    let ps := joinPatches ((all.map fun x => x.getD []).flatten)
    if j ≠ 0 && (all.any (·.isNone) || !s.tilesOk c n ps) then .berthLost e
    else
      .all
        [ .when (decide (j ≠ 0)) (.patchTiles c n ps),
          .advance c n fun b =>
            let b := (List.range p.layers).foldl (fun b l => setLE b (0x40 + 8 * l) 8 (hFill b l + j)) b
            setLE (setLE b 0x140 64 0) 0x2A 1 0,
          .count (if j = 0 then .BERTH_SPEC_CANCEL_COUNT else .BERTH_SPEC_COMMIT_COUNT),
          .berthDone e bsOk ]

/-- SPEC_RESOLVE on a berth with header `b`; `wait` runs while its lap must wait (R125, R133, R134). -/
def Act.resolveTry (e : BitVec 256) (wait : Act) (b : List Byte) : Act :=
  .look fun s =>
    let p := s.shape (bClass e)
    let j := bCount e
    if !hSpecOpen b || hSpecTag b != bSpecTag e then .berthDone e bsSpecTag
    else if (List.range p.layers).any fun l => hFill b l != hSpecBase b || decide (hSpecFill b l < j) then
      .berthDone e bsSpecRange
    else if j ≠ 0 && !lapOk p b (hSpecBase b + j - 1) then wait
    else .resolveNow e

/-- SPEC_RESOLVE (R125, R133, R134). -/
def execSpecResolve (addr : BitVec 48) (s : State) : Host.Outcome State Fault Refusal :=
  (Act.command <| Act.berthTake addr.toNat (· == 5) fun e =>
    .berthChecked e (.resolveTry e (.lapWait addr.toNat e))).outcome s

/-- APPEND_LAP_RESUME: the command of a berth that waits for its lap runs once HISTORY_UPTO has advanced far enough; a
tag that was cancelled meanwhile, as a restore does, ends its SPEC_RESOLVE (R125, R134, R135). -/
def execAppendLapResume (cls : Fin 4) (number : BitVec 20) (s : State) : Host.Outcome State Fault Refusal :=
  (Act.command <| Act.look fun s =>
    match s.berth.laps.find? fun j => bClass j.entry == cls.val && bNumber j.entry == number.toNat with
    | none => .done
    | some j =>
      let e := j.entry
      let wait : Act := .modBerth fun x => { x with laps := s.berth.laps }
      .when (s.ckState != ckCapture && !s.berthMoving cls.val number.toNat)
        ((Act.modBerth fun x => { x with laps := x.laps.erase j }).andThen
          (.berthChecked e (if bOp e = 5 then .resolveTry e wait else .appendTry e wait)))).outcome s

/-! ### History and globals (R125, R127, R190) -/

/-- HISTORY_SAVE: the chunk at HISTORY_UPTO, once it is complete (R125). A second save of a chunk whose save is under way
waits for its end (assumption 96). -/
def execHistorySave (addr : BitVec 48) (s : State) : Host.Outcome State Fault Refusal :=
  (Act.command <| Act.berthTake addr.toNat (· == 6) fun e =>
    .berthChecked e fun b =>
      if bPos e ≠ hHistory b then .berthDone e bsPos
      else if hCommitted b < bPos e + 128 then .berthDone e bsCount
      else .modBerth fun x => { x with saves := x.saves ++ [⟨addr.toNat, e⟩] }).outcome s

/-- The saves that wait for the end of a berth's save end with a status. -/
def Act.otherSaves (c n status : Nat) : Act :=
  .look fun s =>
    let mine (j : BerthJob) : Bool := bClass j.entry == c && bNumber j.entry == n
    (Act.modBerth fun x => { x with saves := x.saves.filter fun j => !mine j }).andThen
      (.each (s.berth.saves.filter mine) fun j => .berthDone j.entry status)

/-- A save fails: it and every command that waits on it end HISTORY_FAILED (R125, R145). -/
def Act.saveFails (e : BitVec 256) : Act :=
  .all
    [ .count .BERTH_HISTORY_FAIL_COUNT, .berthDone e bsHistory, .otherSaves (bClass e) (bNumber e) bsHistory,
      .endWaiting (bClass e) (bNumber e) bsHistory true false ]

/-- The record of a chunk is kept under its key in flash (R190, R213), and charged to its tenant where the directory is
here; elsewhere the HOME island is told (R194). -/
def Act.keepHistory (session pos : Nat) (bytes : List Byte) : Act :=
  .look fun s =>
    (Act.storeHistory session pos bytes).andThen
      (if s.hasHome && (s.findSession session).isSome then .chargeHistory session bytes.length
      else .one (.emit (.historySaved session bytes.length)))

/-- A chunk's tiles are written over the ferries of the LAYER island, each of which notes its blocks (R188, R198). -/
def Act.historyNote (cls backlog n : Nat) : Act :=
  .look fun s =>
    let fs := s.shareFerries
    .each (List.range fs.length) fun q =>
      let k := ((List.range n).filter fun i => i % fs.length == q).length
      .when (decide (k ≠ 0)) (.codecNote (fs.getD q 0) cls backlog k)

/-- HISTORY_SAVE_DONE: the save under way for a berth ends with a ferry status, `backlog` tiles waiting for the coder;
when its record is written HISTORY_UPTO advances by 128 (R125, R190, R191). A rate of 0 holds it (R202). -/
def execHistorySaveDone (cls : Fin 4) (number : BitVec 20) (status : BitVec 4) (backlog : BitVec 16) (s : State) :
    Host.Outcome State Fault Refusal :=
  (Act.command <| Act.look fun s =>
    let c := cls.val
    let n := number.toNat
    match s.berth.saves.find? fun j => bClass j.entry == c && bNumber j.entry == n with
    | none => .done
    | some j =>
      let e := j.entry
      let p := s.shape c
      let hc := s.get F.TIER_CLASSES_HISTORY_CLASS
      let tiles := chunkTiles p (bPos e)
      let read := tiles.map fun i => (i, s.readTile c n i)
      let rec_ := historyBytes (read.map fun x =>
        let t := x.2.getD []
        ⟨x.1, manifestOf kindTile t, s.codeTile hc (s.storesBlock hc backlog.toNat) t⟩)
      .when (decide (status.toNat = fsLate) || (s.get F.TIER_RATE_FLASH_WRITE != 0 && s.ckState != ckCapture)) <| .all
        [ .modBerth fun x => { x with saves := x.saves.erase j },
          if status.toNat = fsLate then (Act.count .FERRY_LATE_COUNT).andThen (.saveFails e)
          else if status.toNat = fsWrite then (Act.count .FERRY_WRITE_FAIL_COUNT).andThen (.saveFails e)
          else if status.toNat = fsNoSpace || !s.flashRoom (ceilDiv rec_.length 16384) then
            (Act.count .TIER_NO_SPACE_COUNT).andThen (.saveFails e)
          else if !s.headerOk c n || read.any fun x => x.2.isNone then
            (Act.shareLost (bSession e) c n).andThen (.saveFails e)
          else
            .all
              [ .historyNote hc backlog.toNat tiles.length, .keepHistory (bSession e) (bPos e) rec_,
                .advance c n fun b => setLE b 0x18 8 (hHistory b + 128),
                .berthDone e bsOk, .otherSaves c n bsPos ] ]).outcome s

/-- A load ends with a status that BERTH_GLOBAL_REFUSE_COUNT counts. -/
def Act.loadRefused (e : BitVec 256) (status : Nat) : Act :=
  (Act.count .BERTH_GLOBAL_REFUSE_COUNT).andThen (.berthDone e status)

/-- GLOBAL_LOAD (R127, R140): the reads of the chunk's record are queued. A POS that is no multiple of 128 ends
COUNT_RANGE, which the spec does not say (assumption 45). -/
def execGlobalLoad (addr : BitVec 48) (s : State) : Host.Outcome State Fault Refusal :=
  (Act.command <| Act.berthTake addr.toNat (· == 7) fun e =>
    .berthChecked e fun b => .look fun s =>
      let p := s.shape (bClass e)
      let pos := bPos e
      if s.berthWithdrawn (bClass e) (bNumber e) then .berthDone e bsWithdrawn
      else if pos % 128 ≠ 0 ∨ pos + 128 > hHistory b ∨ bSlot e ≥ p.gt then .loadRefused e bsCount
      else if hGlobalValid b (bSlot e) then .berthDone e bsBadState
      else if pos + 128 > hCommitted b - p.w
          ∨ (List.range p.gt).any (fun j => hGlobalValid b j && hGlobalPos b j == pos) then .loadRefused e bsOverlap
      else
        (Act.modBerth fun x => { x with loads := x.loads ++ [⟨addr.toNat, e⟩] }).andThen
          (.flashRead (historyOwner (bSession e) pos))).outcome s

/-- GLOBAL_LOAD_DONE: the load under way for a berth ends with a ferry status; while a flash read of the record waits
it does not end OK, and a rate of 0 holds it (R127, R186, R190, R191, R202). -/
def execGlobalLoadDone (cls : Fin 4) (number : BitVec 20) (status : BitVec 4) (s : State) :
    Host.Outcome State Fault Refusal :=
  (Act.command <| Act.look fun s =>
    let c := cls.val
    let n := number.toNat
    match s.berth.loads.find? fun j => bClass j.entry == c && bNumber j.entry == n with
    | none => .done
    | some j =>
      let e := j.entry
      let p := s.shape c
      let pos := bPos e
      let owner := historyOwner (bSession e) pos
      let rec_ := s.historyPlain (bSession e) pos
      let chunk := chunkTiles p pos
      let tiles := (List.range chunk.length).map fun i => historyTile rec_ chunk.length i
      let dest := (List.range p.layers).flatMap fun l => (headKinds p).map fun x => p.tile l x.1 x.2 .global (bSlot e)
      let drop : Act := .modBerth fun x => { x with loads := x.loads.erase j }
      let fail (k : Ctr) : Act := .all [drop, .count k, .berthDone e bsHistory]
      if status.toNat = fsLate then fail .FERRY_LATE_COUNT
      else if s.get F.TIER_RATE_FLASH_READ = 0 || s.ckState == ckCapture || s.flashWaits owner 0 rec_.length then .done
      else if status.toNat = fsRead || s.flashFails owner 0 rec_.length || rec_.isEmpty then fail .FERRY_READ_FAIL_COUNT
      else if status.toNat = fsManifest || tiles.any (·.isNone) then fail .FERRY_MANIFEST_FAIL_COUNT
      else if !s.headerOk c n || !dest.all (s.tileWrites c n) then drop.andThen (.berthLost e)
      else
        .all
          [ drop,
            .each (dest.zip tiles) fun x => .putTile c n x.1 (x.2.getD []),
            .advance c n fun b => setLE b (0x200 + 8 * bSlot e) 8 (putBits pos 63 63 1),
            .berthDone e bsOk ]).outcome s

/-- GLOBAL_CLEAR clears VALID of a slot (R127, R129). A SLOT out of range ends COUNT_RANGE, which the spec does not say
(assumption 45). -/
def execGlobalClear (addr : BitVec 48) (s : State) : Host.Outcome State Fault Refusal :=
  (Act.command <| Act.berthTake addr.toNat (· == 8) fun e =>
    .berthChecked e fun _ => .look fun s =>
      if bSlot e ≥ (s.shape (bClass e)).gt then .berthDone e bsCount
      else
        (Act.advance (bClass e) (bNumber e) fun b =>
          setLE b (0x200 + 8 * bSlot e) 8 (putBits (hGlobal b (bSlot e)) 63 63 0)).andThen (.berthDone e bsOk)).outcome s

/-- BERTH_BAD_OP: a command with a reserved code (R129). -/
def execBerthBadOp (addr : BitVec 48) (s : State) : Host.Outcome State Fault Refusal :=
  (Act.command <| Act.berthTake addr.toNat (fun op => op == 0 || decide (8 < op)) fun e => .berthDone e bsBadOp).outcome s

end Sys2Proof.Machine
end

