-- ==== Sys2Proof/Machine/EgrUnit.lean ====
section
/-! DEFINITION. The egress scheduler (R431 to R443): queues, gates and the fit check, shapers, finish tags, the choice
of the next frame, and the statistics of a sailing. Times are in ps since the boundary of the current sailing, which
makes every wire time exact. -/

namespace Sys2Proof.Machine

/-- What a queue holds when nothing has been put into it. -/
def egrDefault (_ : Nat) : EgrQueue := {}

/-- Queue `t` of port `p` (R431). -/
def queueOf (p t : Nat) : Nat := 8 * p + t

/-- A queue. -/
def State.queue (s : State) (n : Nat) : EgrQueue := s.egr.queues.get egrDefault n

/-- Change a queue. -/
def Act.modQueue (n : Nat) (f : EgrQueue → EgrQueue) : Act :=
  .modEgr fun e => { e with queues := e.queues.put egrDefault n (f (e.queues.get egrDefault n)) }

/-- Time since the origin of sailing numbers, in ps, of an instant in the current sailing. -/
def State.absTime (s : State) (at_ : Nat) : Nat := s.now * s.periodUs * 1000000 + at_

/-- Data rate of a port in bits per ns (R434). -/
def State.portRate (s : State) (p : Nat) : Nat :=
  s.get F.FAB_PORT_STATUS_LANES p
    * (match s.get F.FAB_GROUP_RATE (laneGroup p) with | 0 => 200 | 1 => 100 | 2 => 50 | _ => 25)

/-- W(L) in ps (R434). -/
def State.wireTime (s : State) (p l : Nat) : Nat := (l + 20) * 8000 / max 1 (s.portRate p)

/-! ### Gates -/

/-- The entries of a gate control list up to the one with LAST: interval in ns and gates; none when no entry has LAST
(R438, R440, R448). -/
def State.gcl (s : State) (p list : Nat) : Option (List (Nat × Nat)) :=
  let m (j : Nat) : Nat := 128 * p + 64 * list + j
  match (List.range 64).find? fun j => s.flag F.EGR_GCL_LAST (m j) with
  | some k => some ((List.range (k + 1)).map fun j => (s.get F.EGR_GCL_INTERVAL_NS (m j), s.get F.EGR_GCL_GATES (m j)))
  | none => none

/-- Windows of a list in one sailing, in ps: start, end, gates (R438). -/
def windowsOf (entries : List (Nat × Nat)) (cycle cycles : Nat) : List (Nat × Nat × Nat) :=
  (List.range cycles).flatMap fun c =>
    (entries.foldl
      (fun (acc : List (Nat × Nat × Nat) × Nat) e =>
        (acc.1 ++ [(acc.2, acc.2 + e.1 * 1000, e.2)], acc.2 + e.1 * 1000)) ([], c * cycle)).1

/-- One gate cycle of a port in ps (R438). -/
def State.gateCycle (s : State) (p : Nat) : Nat := s.periodUs * 1000000 / max 1 (s.get F.EGR_GCL_CTRL_CYCLES p)

/-- The windows of the list in use on a port. -/
def State.gates (s : State) (p : Nat) : List (Nat × Nat × Nat) :=
  windowsOf ((s.gcl p (s.get F.EGR_GCL_CTRL_ACTIVE p)).getD []) (s.gateCycle p) (s.get F.EGR_GCL_CTRL_CYCLES p)

/-- Gates apply on a port (R438). -/
def State.gated (s : State) (p : Nat) : Bool := s.flag F.EGR_GCL_CTRL_ENABLE p

/-- Class `t` may send at an instant (R438). -/
def State.gateOpen (s : State) (p t at_ : Nat) : Bool :=
  !s.gated p || (s.gates p).any fun w => decide (w.1 ≤ at_) && decide (at_ < w.2.1) && bit w.2.2 t

/-- The end of the open window that stands open for class `t` from an instant on; consecutive open entries are one
window (R439). -/
def openUntil (t : Nat) : List (Nat × Nat × Nat) → Nat → Nat
  | [], at_ => at_
  | w :: ws, at_ =>
    if w.2.1 ≤ at_ then openUntil t ws at_
    else if decide (w.1 ≤ at_) && bit w.2.2 t then openUntil t ws w.2.1 else at_

/-- The fit check (R439); every gate counts as closing at the next boundary. -/
def State.fits (s : State) (p t l at_ : Nat) : Bool :=
  !s.gated p || decide (at_ + s.wireTime p l ≤ openUntil t (s.gates p) at_)

/-- The lengths of the windows of class `t` in a sailing. -/
def classWindows (t : Nat) (ws : List (Nat × Nat × Nat)) : List Nat :=
  ws.filterMap fun w => if bit w.2.2 t then some (openUntil t ws w.1 - w.1) else none

/-- A list passes the check of R440 on a port. -/
def State.gclOk (s : State) (p list : Nat) : Bool :=
  match s.gcl p list with
  | none => false
  | some es =>
    let ws := windowsOf es (s.gateCycle p) (s.get F.EGR_GCL_CTRL_CYCLES p)
    es.all (fun e => decide (e.1 ≠ 0))
      && decide ((es.map (·.1)).sum * 1000 = s.gateCycle p)
      && (List.range 8).all fun t =>
        !(es.any fun e => bit e.2 t) || (classWindows t ws).any fun w => decide (s.wireTime p 8422 ≤ w)

/-! ### Shapers -/

/-- Shaper credit is kept in units of 1/800,000 byte: RATE of them grow in a ps (R437, R446). -/
def creditUnit : Nat := 800000

/-- The credit of a queue at a time: it starts at BURST, grows at RATE and stops at BURST (R437). -/
def State.creditAt (s : State) (n t : Nat) : Int :=
  let q := s.queue n
  let top : Int := (s.get F.EGR_SHAPER_BURST n * creditUnit : Nat)
  if q.full then top else min top (q.credit + (s.get F.EGR_SHAPER_RATE n * (t - q.at_) : Nat))

/-- The shaper lets the head go (R437). -/
def State.shaped (s : State) (n t : Nat) : Bool :=
  !s.flag F.EGR_QUEUE_CFG_SHAPE_ON n || (decide (s.get F.EGR_SHAPER_RATE n ≠ 0) && decide (0 ≤ s.creditAt n t))

/-- Bring a queue's credit up to a time. -/
def Act.creditTo (n t : Nat) : Act :=
  .look fun s => .modQueue n fun q => { q with credit := s.creditAt n t, at_ := t, full := false }

/-! ### Queues -/

/-- The finish tag of a new head (R436). -/
def State.headTag (s : State) (n l : Nat) (woke : Bool) : Nat :=
  let q := s.queue n
  let start := if woke then s.egr.vtime.get (fun _ => 0) (n / 8) else q.last
  (start + ceilDiv (l * 256) (max 1 (s.get F.EGR_QUEUE_CFG_WEIGHT n))) % 2 ^ 64

/-- A WFQ queue (R435). -/
def State.isWfq (s : State) (n : Nat) : Bool := !s.flag F.EGR_QUEUE_CFG_MODE n

/-- A frame takes its place in a queue that has room (R431, R436, R442). -/
def Act.enqueue (n t : Nat) (f : EgrFrame) : Act :=
  .look fun s =>
    let q := s.queue n
    let tag := if q.frames.isEmpty then s.headTag n f.length true else q.tag
    .modQueue n fun q =>
      { q with
        frames := q.frames ++ [{ f with stamp := t }], tag := tag, maxDepth := max q.maxDepth (q.frames.length + 1) }

/-- A frame descriptor reaches its queue, or is held at its source (R433). -/
def Act.arrive (n t : Nat) (f : EgrFrame) : Act :=
  .look fun s =>
    if (s.queue n).frames.length ≥ s.get F.EGR_QUEUE_CFG_MAX_FRAMES n || !(s.queue n).source.isEmpty then
      (Act.modQueue n fun q => { q with source := q.source ++ [f] }).andThen (.count .EGR_FULL_COUNT)
    else .enqueue n t f

/-- Take the head of a queue out; the next frame becomes its head (R436). -/
def Act.dropHead (n : Nat) : Act :=
  .look fun s =>
    let q := s.queue n
    let rest := q.frames.tail
    let tag := match rest with | f :: _ => s.headTag n f.length false | [] => q.tag
    .modQueue n fun q => { q with frames := rest, tag := tag }

/-- The WFQ queues of a port that hold frames. -/
def State.wfqBusy (s : State) (p : Nat) : Bool :=
  (List.range 8).any fun t => s.isWfq (queueOf p t) && !(s.queue (queueOf p t)).frames.isEmpty

/-- Once every WFQ queue of the port is empty, its virtual time starts again (R436). -/
def Act.wfqEmpty (p : Nat) : Act :=
  .look fun s => .when (!s.wfqBusy p) (.modEgr fun e => { e with vtime := e.vtime.put (fun _ => 0) p 0 })

/-- Heads longer than every window of their class are discarded; a class without a window keeps its frames (R441,
assumption 136). -/
def Act.noFit (p : Nat) : Nat → Act
  | 0 => .done
  | k + 1 =>
    .look fun s =>
      let ws := s.gates p
      match (List.range 8).find? fun t =>
          match (s.queue (queueOf p t)).frames with
          | f :: _ =>
            let mine := classWindows t ws
            s.gated p && !mine.isEmpty && mine.all fun w => decide (w < s.wireTime p f.length)
          | [] => false with
      | none => .done
      | some t =>
        .all [.dropHead (queueOf p t), .wfqEmpty p, .count .EGR_NO_FIT_COUNT, .raise .EGR_NO_FIT { detail := queueOf p t }, .noFit p k]

/-- `a` precedes `b` among finish tags: the sign of their 64-bit difference (R436). -/
def tagLt (a b : Nat) : Bool := decide (signed 64 (a + (2 ^ 64 - b % 2 ^ 64)) < 0)

/-- The class the scheduler serves next among eligible ones (R435): strict ones, highest first; then the smallest
finish tag, the higher class on a tie. -/
def State.pickClass (s : State) (p : Nat) (ok : List Nat) : Option Nat :=
  match (ok.filter fun t => !s.isWfq (queueOf p t)).getLast? with
  | some t => some t
  | none =>
    (ok.filter fun t => s.isWfq (queueOf p t)).foldl
      (fun best t =>
        match best with
        | none => some t
        | some b => if tagLt (s.queue (queueOf p b)).tag (s.queue (queueOf p t)).tag then some b else some t) none

/-- Start the head of a class: statistics, congestion mark, shaper and virtual time (R435, R436, R437, R442, R443). -/
def Act.startFrame (p t at_ : Nat) : Act :=
  .look fun s =>
    let n := queueOf p t
    let now := s.absTime at_
    match (s.queue n).frames with
    | [] => .done
    | f :: _ =>
      let d := (now - f.stamp) / 1000
      let ecn := s.get F.EGR_QUEUE_CFG_ECN_US n
      let mark := decide (ecn ≠ 0) && decide (d > ecn * 1000) && f.ecn && f.pkt.isSome
      let wfq := s.isWfq n
      .all
        [ .modQueue n fun q =>
            { q with
              credit := s.creditAt n now - (f.length * creditUnit : Nat), at_ := now, full := false,
              last := if wfq then q.tag else q.last,
              maxDelay := max q.maxDelay d, sumDelay := q.sumDelay + d, started := q.started + 1 },
          .when wfq (.modEgr fun e => { e with vtime := e.vtime.put (fun _ => 0) p (s.queue n).tag }),
          .dropHead n,
          .wfqEmpty p,
          .when mark (.count .EGR_CE_MARK_COUNT),
          .modEgr fun e => { e with sending := e.sending.put (fun _ => none) p (some (n, f)) },
          .one (.emit (match f.pkt with
            | some k => .packet p f.peer k.hdr k.payload mark
            | none => .frame p f.length)) ]

/-- A head that fails the fit check is counted once (R439). -/
def Act.gateHolds (p at_ : Nat) : Act :=
  .each (List.range 8) fun t =>
    .look fun s =>
      let n := queueOf p t
      match (s.queue n).frames with
      | f :: fs =>
        .when (s.gateOpen p t at_ && !s.fits p t f.length at_ && !f.held)
          ((Act.modQueue n fun q => { q with frames := { f with held := true } :: fs }).andThen
            (.count .EGR_GATE_HOLD_COUNT))
      | [] => .done

/-- The scheduler of an idle UP port picks the next frame (R435, R441). -/
def Act.schedule (p at_ : Nat) : Act :=
  .look fun s =>
    if !s.portUp p || (s.egr.sending.get (fun _ => none) p).isSome then .done
    else
      .all
        [ .noFit p 64,
          .gateHolds p at_,
          .look fun s =>
            let ok := (List.range 8).filter fun t =>
              let n := queueOf p t
              match (s.queue n).frames with
              | f :: _ => s.gateOpen p t at_ && s.fits p t f.length at_ && s.shaped n (s.absTime at_)
              | [] => false
            match s.pickClass p ok with
            | some t => .startFrame p t at_
            | none => .done ]

/-! ### Boundaries -/

/-- The queues whose shaper changes at the boundary. -/
def State.shapersChanged (s : State) : List Nat :=
  let base := regKey .EGR_SHAPER 0
  ((s.regs ++ s.shadow).filterMap fun e => if e.1 / 65536 = base / 65536 then some (e.1 % 65536) else none).dedup.filter fun n =>
    s.shadowReg .EGR_SHAPER n ≠ s.reg .EGR_SHAPER n

/-- The credits of queues whose shaper changes are brought up to the boundary before it does (R437). -/
def Act.creditsToBoundary : Act := .look fun s => .each s.shapersChanged fun n => .creditTo n (s.absTime 0)

/-- The statistics of a sailing go to EGR_QSTAT and start again (R442); a queue never used has none. -/
def Act.latchStats : Act :=
  .look fun s =>
    .each (s.egr.queues.map (·.1)) fun n =>
      let q := s.queue n
      let sat (w x : Nat) : Nat := min x (2 ^ w - 1)
      .all
        [ .set F.EGR_QSTAT_MAX_DELAY_NS (sat 32 q.maxDelay) n,
          .set F.EGR_QSTAT_MEAN_DELAY_NS (sat 32 (q.sumDelay / max 1 q.started)) n,
          .set F.EGR_QSTAT_FRAMES (sat 16 q.started) n,
          .set F.EGR_QSTAT_MAX_DEPTH (sat 16 q.maxDepth) n,
          .set F.EGR_QSTAT_DEPTH (sat 16 q.frames.length) n,
          .modQueue n fun q =>
            { q with maxDelay := 0, sumDelay := 0, started := 0, maxDepth := q.frames.length } ]

/-- The list named by NEXT is checked and used, or rejected (R440). -/
def Act.switchGates : Act :=
  .each (List.range 32) fun p =>
    .look fun s =>
      let next := s.get F.EGR_GCL_CTRL_NEXT p
      let active := s.get F.EGR_GCL_CTRL_ACTIVE p
      if next = active then .done
      else if s.gclOk p next then .set F.EGR_GCL_CTRL_ACTIVE next p
      else
        .all
          [ .set F.EGR_GCL_CTRL_NEXT active p, .setShadow F.EGR_GCL_CTRL_NEXT active p,
            .count .EGR_GCL_REJECT_COUNT, .raise .EGR_GCL_REJECTED { detail := p } ]

end Sys2Proof.Machine
end

