-- ==== Sys2Proof/Machine/SailUnit.lean ====
section
/-! DEFINITION. What a sailing's boundary does (R11, R24, R26): shadows, timetables, bank modes, the governor, the
residency loop, keys, the watch's turn; and the check of a timetable commit (R17 to R22). -/

namespace Sys2Proof.Machine

/-! ### Sailing-latched fields (R26) -/

/-- The bits of a register that belong to its SL fields. -/
def slMask (r : Reg) : BitVec 128 :=
  r.fields.foldl (fun m f => if f.acc = .SL then m ||| BitVec.ofNat 128 (maskBits f.hi f.lo) else m) 0

/-- The register of a key. -/
def keyReg (k : Nat) : Reg := Reg.all.getD (k / 65536) .PKG_ID

/-- Keys whose shadow may differ from the live field. -/
def State.slKeys (s : State) : List Nat :=
  ((s.shadow.map (·.1)) ++ (s.regs.map (·.1))).eraseDups.filter fun k => slMask (keyReg k) ≠ 0

/-- A shadow differs from its live field. -/
def State.shadowDiffers (s : State) (k : Nat) : Bool :=
  (s.shadow.get regDefault k &&& slMask (keyReg k)) ≠ (s.regs.get regDefault k &&& slMask (keyReg k))

/-- SHADOW_PENDING follows the shadows (R32). -/
def Act.showPending : Act := .look fun s => .setFlag F.SAIL_STATUS_SHADOW_PENDING (s.slKeys.any s.shadowDiffers)

/-! ### Bank modes (R85) -/

/-- The banks of a core that the transfers in progress reference (R85). DESIGN CHOICE (assumption 141): a transfer references
them from its start to its end, not while it is queued or waits. -/
def State.ferryBanks (s : State) (c : Nat) : List Nat :=
  let ends (x : Xfer) (space a pitch len : Nat) (wins : List (BitVec 64)) : List Nat :=
    if space ≠ 0 ∨ bits a 35 28 ≠ c then []
    else
      x.tiles.flatMap fun i =>
        match resolve wins (bits a 27 0) with
        | none => []
        | some l => (l.pieces (i * pitch) len).flatMap fun p => banksOf p.1 p.2.2
  (s.tier.xfers.filter fun x => x.phase == 2).flatMap fun x =>
    ends x (fSrcSpace x.desc) (fSrcAddr x.desc) (fSrcPitch x.desc) (s.fSrcSpan x.desc) x.srcWins
      ++ ends x (fDstSpace x.desc) (fDstAddr x.desc) (fDstPitch x.desc) 16384 x.dstWins

/-- Zero a bank: its words are readable again (R85, R533). -/
def Act.zeroBank (c b : Nat) : Act :=
  let k := lsLostBase + lsKey c (b * bankBytes)
  .look fun s =>
    .all
      [ .one (.wipeLs c (b * bankBytes) ((b + 1) * bankBytes)),
        .each (s.lost.filter fun e => decide (k ≤ e.1) && decide (e.1 < k + bankBytes)) fun e => .one (.lost e.1 false) ]

/-- A bank changes mode: a bank that goes OFF loses its contents, and one that leaves OFF is zeroed, at once while the
device is stopped (R85). -/
def Act.bankMode (c b mode : Nat) : Act :=
  .look fun s =>
    let key := 48 * c + b
    let old := bits (s.get F.CORE_LS_PWR_BANK_MODE c) (2 * b + 1) (2 * b)
    .all
      [ .set F.CORE_LS_PWR_BANK_MODE (putBits (s.get F.CORE_LS_PWR_BANK_MODE c) (2 * b + 1) (2 * b) mode) c,
        .modCore fun x =>
          { x with
            waiting := x.waiting.put (fun _ => none) key none,
            retained := if mode = modeAuto then x.retained else x.retained.put (fun _ => false) key false },
        if mode = modeOff then
          (Act.zeroBank c b).andThen (.modCore fun x => { x with zeroing := x.zeroing.put (fun _ => false) key false })
        else if old = modeOff then
          (Act.zeroBank c b).andThen
            (.when (!s.stopped) (.modCore fun x => { x with zeroing := x.zeroing.put (fun _ => false) key true }))
        else .done ]

/-- The bank modes of a core are to become `v`: a bank that a transfer uses changes when the transfer ends (R85). -/
def Act.bankModes (c v : Nat) : Act :=
  .look fun s =>
    let used := s.ferryBanks c
    .each (List.range 48) fun b =>
      let old := bits (s.get F.CORE_LS_PWR_BANK_MODE c) (2 * b + 1) (2 * b)
      let new := bits v (2 * b + 1) (2 * b)
      if old = new then .modCore fun x => { x with waiting := x.waiting.put (fun _ => none) (48 * c + b) none }
      else if used.contains b then
        .modCore fun x => { x with waiting := x.waiting.put (fun _ => none) (48 * c + b) (some new) }
      else .bankMode c b new

/-- Mode changes that waited for a transfer take effect (R85). -/
def Act.banksSettle : Act :=
  .look fun s =>
    .each s.core.waiting fun e =>
      match e.2 with
      | none => .done
      | some mode =>
        .look fun s => .when (!(s.ferryBanks (e.1 / 48)).contains (e.1 % 48)) (.bankMode (e.1 / 48) (e.1 % 48) mode)

/-- The BURST of a queue's shaper rises: a full credit grows from where it is (R437). A lower BURST clamps it. -/
def Act.burstRises (n new : Nat) : Act :=
  .look fun s =>
    let old := s.get F.EGR_SHAPER_BURST n
    .when ((s.queue n).full && decide (old < new))
      (.modQueue n fun q => { q with full := false, credit := (old * creditUnit : Nat), at_ := s.absTime 0 })

/-- SL fields of a register, `mask` of its bits, take new live values (R26, R27): bank modes as R85 says, shapers as R437
says. -/
def Act.setLive (r : Reg) (i : Nat) (mask v : BitVec 128) : Act :=
  .look fun s =>
    let x := (s.reg r i &&& ~~~mask) ||| (v &&& mask)
    if r = .CORE_LS_PWR then .bankModes i x.toNat
    else .all [.when (r == .EGR_SHAPER) (.burstRises i (bits x.toNat 55 32)), .one (.reg r i x)]

/-- Copy a shadow to its live field. -/
def Act.latchKey (k : Nat) : Act :=
  .look fun s => .setLive (keyReg k) (k % 65536) (slMask (keyReg k)) (s.shadow.get regDefault k)

/-- Every shadow is copied to its live field in one step (R26). -/
def Act.latchShadows : Act :=
  .look fun s => (Act.each (s.slKeys.filter s.shadowDiffers) .latchKey).andThen .showPending

/-! ### Timetables (R17 to R22) -/

/-- Device address of timetable buffer `parity` in a half (R17, R36). -/
def State.ttBase (s : State) (half parity : Nat) : Nat :=
  sharedBase + half * sharedHalf + s.get F.SAIL_TT_BASE_OFFSET + parity * 0x300000

/-- The header of a buffer in a half. -/
def State.ttHeader (s : State) (half n : Nat) : List Byte := s.bytesAt (s.ttBase half (n % 2)) 256

def ttTarget (h : List Byte) : Nat := leAt h 0 8 % 2 ^ 48
def ttEpoch (h : List Byte) : Nat := leAt h 8 4
def ttMask (h : List Byte) : Nat := leAt h 0x10 16
def ttCount (h : List Byte) (c : Nat) : Nat := leAt h (0x40 + 2 * c) 2

/-- The epoch that will be current at B(n) (R21). -/
def State.epochAt (s : State) (n : Nat) : Nat :=
  match s.chart.staged with
  | some x => if x.effective ≤ n then x.epoch else s.epoch
  | none => s.epoch

/-- The first reason for which the timetable of sailing `n` is rejected, 0 for none (R21, R32). -/
def State.ttReason (s : State) (n epoch : Nat) : Nat :=
  match s.sail.commit with
  | none => 1
  | some t =>
    let a := s.ttHeader 0 n
    let b := s.ttHeader 1 n
    if t ≠ n ∨ ttTarget a ≠ n ∨ ttTarget b ≠ n then 2
    else if a ≠ b ∨ (s.lostIn 8 (s.ttBase 0 (n % 2)) 256).isSome ∨ (s.lostIn 8 (s.ttBase 1 (n % 2)) 256).isSome then 5
    else if ttEpoch a ≠ epoch then 3
    else if (List.range 80).any fun c => bit (ttMask a) c && decide (ttCount a c > 4096) then 4
    else 0

/-- A timetable is accepted (0), or rejected with a reason (R21). -/
def Act.ttVerdict (r : Nat) : Act :=
  .all
    [ .modSail fun x => { x with commit := none, accepted := r == 0 },
      .when (r ≠ 0)
        (.all
          [ .setFlag F.SAIL_STATUS_TT_REJECTED true, .set F.SAIL_STATUS_TT_REASON r,
            .count .SAIL_TT_REJECT_COUNT, .raise .SAIL_TT_REJECTED { detail := r } ]) ]

/-- The commit for sailing `n` is checked (R21). -/
def Act.ttCheck (n epoch : Nat) : Act := .look fun s => .ttVerdict (s.ttReason n epoch)

/-- Address of slot `j` of a core in the buffer of sailing `n` (R17). -/
def State.slotAt (s : State) (n c j : Nat) : Nat := s.ttBase (c / 40) (n % 2) + 0x100 + c % 40 * 0x10000 + 16 * j

/-- A core's slots in the timetable of sailing `n`, EMPTY ones left out (R18, R19); a slot that cannot be read is
marked (R622). -/
def State.ttSlots (s : State) (n c : Nat) : List SlotItem :=
  let h := s.ttHeader 0 n
  if bit (ttMask h) c then
    (List.range (ttCount h c)).filterMap fun j =>
      let a := s.slotAt n c j
      let w : BitVec 128 := BitVec.ofNat 128 (ofLE (s.bytesAt a 16))
      if (s.lostIn 8 a 16).isSome then some { word := 0, addr := a, bad := true }
      else if slotKind w = 0 ∧ !slotReserved w then none
      else some { word := w, addr := a }
  else []

/-- The slots of a sailing: the carried ones, then those of its timetable (R24). -/
def Act.loadSlots (n : Nat) : Act :=
  .look fun s =>
    .all
      [ .each (List.range 80) fun c =>
          let carried := (s.sail.carry.get (fun _ => []) c).map fun i => { i with carried := true, joined := i.granted }
          .all
            [ .when (decide (s.get F.SAIL_CORE_CARRY_CARRIED c ≠ carried.length)) (.set F.SAIL_CORE_CARRY_CARRIED carried.length c),
              .look fun s =>
                let fresh := if s.sail.accepted && !s.coreRetired c then s.ttSlots n c else []
                .all
                  [ .each (fresh.filter (·.bad)) fun i =>
                      match s.lostIn 8 i.addr 16 with
                      | some k => .entryLost k { detail := i.addr }
                      | none => .done,
                    .when (decide (s.itemsOf c ≠ carried ++ fresh)) (.setItems c (carried ++ fresh)) ] ],
        .modSail fun x => { x with accepted := false, carry := [] } ]

/-! ### The governor (R583, R586) -/

/-- Clock of a step in MHz. -/
def stepMhz (c : Nat) : Nat :=
  match c with
  | 0 => 2400
  | 1 => 2100
  | 2 => 1800
  | 3 => 1200
  | _ => 600

/-- The band of the core rail at a step in mV (R584). -/
def stepBand (c : Nat) : Nat × Nat :=
  match c with
  | 0 => (780, 850)
  | 1 => (750, 810)
  | 2 => (720, 780)
  | 3 => (700, 740)
  | _ => (700, 700)

/-- The clock steps; the rail follows to a point of the step's band that the spec does not fix (R584). -/
def Act.clockStep (c : Nat) : Act :=
  .look fun s =>
    if s.get F.PWR_STATUS_STEP = c then .done
    else
      let (lo, hi) := stepBand c
      .all
        [ .set F.PWR_STATUS_STEP c,
          .set F.PWR_STATUS_VCORE_MV (lo + (Config.freeWord s.free).toNat % (hi - lo + 1)),
          .one (.takeFree 1) ]

/-- A safety limit is in force (R585). -/
def State.limited (s : State) : Bool :=
  s.flag F.PWR_STATUS_LIMIT_CURRENT || s.flag F.PWR_STATUS_LIMIT_POWER || s.flag F.PWR_STATUS_LIMIT_HBM
    || s.flag F.PWR_STATUS_LIMIT_TJ

/-- The governor's choice: the step, and whether it is held at the fastest edge (R583). `busy` of `run` is the largest
fraction of the run phase that a core was busy. A step that the envelope has come to exclude moves to its edge without
tension (R197). -/
def State.governor (s : State) (busy run : Nat) (carried : Bool) : Nat × Bool :=
  let cur := s.get F.PWR_STATUS_STEP
  let target := s.get F.PWR_GOV_ENV_TARGET_PCT
  let lo := s.get F.PWR_GOV_ENV_MAX_STEP
  let hi := s.get F.PWR_GOV_ENV_MIN_STEP
  let fits (c : Nat) : Bool := decide (busy * stepMhz cur * 100 ≤ target * run * stepMhz c)
  let clamp (c : Nat) : Nat := min (max c lo) hi
  let inside := decide (lo ≤ cur) && decide (cur ≤ hi)
  if carried || !fits cur then
    match ((List.range cur).reverse).find? fits with
    | some c => (clamp c, inside && decide (c < lo))
    | none => (clamp lo, inside)
  else if cur < 4 && fits (cur + 1) then (clamp (cur + 1), false)
  else (clamp cur, false)

/-- The governor steps at a boundary: never faster while a limit holds, and one step at a time after one
(R583, R586, R196). -/
def Act.governs (busy : Nat) (carried : Bool) : Act :=
  .look fun s =>
    let (choice, tense) := s.governor busy ((s.periodUs - 5) * 1000) carried
    let cur := s.get F.PWR_STATUS_STEP
    let new := if s.limited then max choice cur else if s.pwr.climbing then max choice (cur - 1) else choice
    .all
      [ .when tense (.count .PWR_TENSION_COUNT), .clockStep new,
        .when (!s.limited && s.pwr.climbing) (.modPwr fun p => { p with climbing := decide (new ≠ choice) }) ]

/-! ### The residency loop (R109 to R111) -/

/-- A candidate of the loop: not over quota, not early, last use, ID (R109); the smallest comes first. -/
structure Candidate where
  calm : Bool
  late : Bool
  use : Nat
  id : Nat
  index : Nat
  idle : Nat

/-- The order of candidates. -/
def candLt (a b : Candidate) : Bool :=
  if a.calm ≠ b.calm then !a.calm
  else if a.late ≠ b.late then !a.late
  else if a.use ≠ b.use then decide (a.use < b.use)
  else decide (a.id < b.id)

/-- Insert a candidate in order. -/
def candInsert (x : Candidate) : List Candidate → List Candidate
  | [] => [x]
  | y :: ys => if candLt x y then x :: y :: ys else y :: candInsert x ys

/-- Sessions that wait for a berth of a class, or for a lock as for a missing berth (R93, R103, R106, R107). -/
def State.berthDemand (s : State) (c : Nat) : Nat :=
  (s.sdir.waits.filter fun w => w.cls == c).length + (s.sdir.revivals.filter fun r => r.cls == c).length

/-- A tenant whose idle berths come first: it is over quota (R109, R194), or has a command that waits because its berth
limit is reached (R102). -/
def State.firstPlace (s : State) (t : Nat) : Bool :=
  s.overQuota t
    || s.sdir.waits.any (fun w => tenantOf (bits w.entry.toNat 255 192) == t && s.berthQuotaFull t w.cls)
    || s.sdir.revivals.any fun r => tenantOf r.session == t && s.berthQuotaFull t r.cls

/-- The candidates of a class at a threshold, in order (R109, R110). -/
def State.candidates (s : State) (c thr : Nat) : List Candidate :=
  let n : Int := (s.now : Nat)
  let em : Int := (s.get F.SDIR_HINT_EARLY_MOOR : Nat)
  let guard : Int := (s.get F.SDIR_HINT_WAKE_GUARD : Nat)
  ((s.berthed c).filterMap fun i =>
    let b := s.recBytes i
    let wake : Int := (rWake b : Nat)
    let idle := s.now - rLastUse b
    let early := rToolWait b && decide (0 < em) && decide (em ≤ wake - n)
    let guarded := decide (wake ≠ 0) && decide (wake - n < guard)
    if s.recOk i && rState b == ssBerthed && rClass b == c && rMotion b == moNone && !rPinned b
        && (decide (thr ≤ idle) || early) && !guarded then
      some (⟨!s.firstPlace (tenantOf (rId b)), !early, rLastUse b, rId b, i, idle⟩ : Candidate)
    else none).foldl (fun l x => candInsert x l) []

/-- One class of the residency step; the action that follows gets the moorings started so far (R109). -/
def Act.residentClass (c started : Nat) (k : Nat → Act) : Act :=
  .look fun s =>
    let hi := s.get F.SDIR_WATER_HIGH c
    let lo := s.get F.SDIR_WATER_LOW c
    let most := s.get F.SDIR_LOOP_ENV_IDLE_MAX
    let least := s.get F.SDIR_LOOP_ENV_IDLE_MIN
    let f : Int := (s.freeBerths c : Nat) - (s.berthDemand c : Nat)
    let old := s.get F.SDIR_THRESHOLD_COUNT c
    let t := min (max (if old = 0 then most else old) least) most
    let thr := if f < (lo : Nat) then max least (t / 2) else if f > (hi : Nat) then min most (t + 1 + t / 8) else t
    let cand := s.candidates c thr
    let need := ((hi : Nat) - f).toNat + (cand.filter fun x => decide (most ≤ x.idle)).length
    let take := min need (s.get F.SDIR_LOOP_ENV_MOOR_BUDGET - started)
    let chosen := cand.take take
    .all
      [ .set F.SDIR_THRESHOLD_COUNT thr c,
        .when (decide (take < ((lo : Nat) - f).toNat)) (.count .SDIR_TENSION_COUNT),
        .each chosen fun x => .moorOrLayup x.index none (.count .SDIR_TENSION_COUNT),
        k (started + chosen.length) ]

/-- The loop's lay-ups, from the head of the moored list (R111). -/
def Act.layups : List Nat → Nat → Act
  | [], _ => .done
  | i :: is, budget =>
    .look fun s =>
      let b := s.recBytes i
      let drop : Act := .leaveMoored i
      if !s.recOk i then .all [.touch i, .recordBad i 0, drop, .layups is budget]
      else if rState b ≠ ssMoored then drop.andThen (.layups is budget)
      else if rMotion b ≠ moNone || rPinned b || s.sdir.revivals.any (·.session == rId b) then .layups is budget
      else if budget = 0 then .done
      else if s.now - rLastUse b < s.get F.SDIR_LOOP_ENV_LAYUP_IDLE * 1024 ∧ !s.tier.aboveMark then .done
      else
        let mb := mbOf (s.worstBytes b)
        if s.layupFull (tenantOf (rId b)) mb then (Act.count .SDIR_TENSION_COUNT).andThen (.layups is budget)
        else .all [.touch i, .startLayup i none mb, .layups is (budget - 1)]

/-- The residency step of a sailing (R109, R111). -/
def Act.residency : Act :=
  .look fun s =>
    .when (s.hasHome && decide (s.recCount ≠ 0))
      ((Act.residentClass 0 0 fun a => .residentClass 1 a fun b => .residentClass 2 b fun d => .residentClass 3 d fun _ => .done).andThen
        (.look fun s => .layups s.moored (s.get F.SDIR_LOOP_ENV_LAYUP_BUDGET)))

/-! ### Windows that drain (R462) -/

/-- A draining window's images are laid up, as R98 does from MOORED. Where the session's record lies on another device,
its HOME island is asked to. An image whose lay-up cannot start yet is tried again at the next boundary. -/
def Act.drainWindow (w : Nat) : Act :=
  .look fun s =>
    .each (s.tier.images.filterMap fun e =>
        match e.2 with | some i => if i.window = w then some (e.1, i.session) else none | none => none) fun e =>
      .look fun s =>
        match if s.hasHome then s.findSession e.2 else none with
        | none => .one (.emit (.layUpAsk e.2 e.1))
        | some i =>
          let b := s.recBytes i
          let mb := mbOf (s.worstBytes b)
          if !s.recOk i || rState b ≠ ssMoored || rMotion b ≠ moNone || rLower b ≠ e.1 then .done
          else if s.layupFull (tenantOf (rId b)) mb then .count .SDIR_TENSION_COUNT
          else .startLayup i none mb

/-- The MOOR windows that drain and still hold images. -/
def State.draining (s : State) : List Nat :=
  (List.range 80).filter fun w => (s.window w).use == 1 && (s.window w).drain && !(s.window w).lost

/-! ### Keys (R512) -/

/-- A loaded key takes effect: an all-zero key erases the slot, and the previous job key of the slot is accepted for
16 sailings more. -/
def Act.keyTakes (k : StoredKey) : Act :=
  .look fun s =>
    let same (x : StoredKey) : Bool := x.kind == k.kind && x.slot == k.slot
    .modSec fun x =>
      { x with
        keys := (x.keys.filter fun y => !same y) ++ (if k.key = 0 then [] else [k]),
        saks := if k.kind = 0 then x.saks.put (fun _ => none) k.slot none else x.saks,
        grace := x.grace ++ ((x.keys.filter fun y => same y && k.kind == 1).map fun y => (y, s.now + 15)) }

/-- The loads of the last sailing take effect at the boundary (R512). -/
def Act.keysTake : Act :=
  .look fun s => (Act.each s.sec.loading .keyTakes).andThen (.modSec fun x => { x with loading := [] })

/-! ### The boundary -/

/-- The watch turns to a new sailing (R565, R576). -/
def Act.watchTurn : Act :=
  .look fun s =>
    .all
      [ .set F.SAIL_WATCH_STATUS_MISSED s.irq.missing.toNat,
        .modIrq fun q =>
          { q with
            misses := q.misses.filter fun e => bit q.missing.toNat e.1, missing := 0, claimed := 0, kicked := 0 } ]

/-- Start levels above a narrowed envelope move to its edge (R197). -/
def Act.levelsFit : Act :=
  .look fun s =>
    let top := s.get F.FLASH_RT_ENV_MAX_START
    .each (s.nand.tables.filter fun e => decide (bits e.2.toNat 61 58 > top)) fun e => .setEntry e.1 61 58 top

/-- What is left to slew after a sailing in which the clock moves by at most `most` ns, which is 100 ppm (R14). -/
def slewed (x : Int) (most : Nat) : Int := if 0 ≤ x then max 0 (x - most) else min 0 (x + most)

/-- LATCH of sailing `n` (R11): the number, the shadows, the slots, SAIL_START, and everything that keeps time by
the boundary. -/
def Act.latch (n busy : Nat) (telem : BitVec 64) (temp : BitVec 32) : Act :=
  .look fun s =>
    let carried := s.sail.carry.any fun e => !e.2.isEmpty
    .all
      [ .set F.SAIL_NUMBER_NUMBER n, .set F.SAIL_STATUS_PHASE 0, .set F.NMU_DIFF_GATE_PRESTART 0,
        .creditsToBoundary, .latchShadows, .levelsFit, .switchGates, .latchStats,
        .loadSlots n,
        .when s.sail.ran (.governs busy carried),
        .modSail fun x => { x with ran := true, slew := slewed x.slew (s.periodUs / 10) },
        .one (.reg .PWR_TELEM 0 (telem.setWidth 128)), .one (.reg .PWR_TEMP 0 (temp.setWidth 128)),
        .watchTurn,
        .each (List.range 16) fun c => .interrupt (0x10 + c),
        .keysTake, .showMoor, .residency, .look fun s => .each s.draining .drainWindow ]

end Sys2Proof.Machine
end

