-- ==== Sys2Proof/Machine/MctUnit.lean ====
section
/-! DEFINITION. The crossing transport's channels (R402 to R414): headers, sending with credit and window,
acknowledgement, retransmission, open operations and their drain counts (R387), and what ends an operation. -/

namespace Sys2Proof.Machine

/-! ### Headers (R406) -/

def hdrBits (h : BitVec 512) (hi lo : Nat) : Nat := bits h.toNat hi lo
def hdrSpecTag (h : BitVec 512) : Nat := hdrBits h 415 400
def hdrOp (h : BitVec 512) : Nat := hdrBits h 399 336
def hdrAssign (h : BitVec 512) : Nat := hdrBits h 319 304
def hdrRole (h : BitVec 512) : Nat := hdrBits h 293 291
def hdrIsland (h : BitVec 512) : Nat := hdrBits h 290 288
def hdrCredit (h : BitVec 512) : Nat := hdrBits h 287 272
def hdrSack (h : BitVec 512) : Nat := hdrBits h 271 240
def hdrAck (h : BitVec 512) : Nat := hdrBits h 239 208
def hdrSeq (h : BitVec 512) : Nat := hdrBits h 207 176
def hdrIncarnation (h : BitVec 512) : Nat := hdrBits h 175 144
def hdrOrigin (h : BitVec 512) : Nat := hdrBits h 143 80
def hdrEpoch (h : BitVec 512) : Nat := hdrBits h 79 48
def hdrVc (h : BitVec 512) : Nat := hdrBits h 42 40
def hdrEcho (h : BitVec 512) : Bool := bit h.toNat 35
def hdrAckValid (h : BitVec 512) : Bool := bit h.toNat 33
def hdrFwd (h : BitVec 512) : Bool := bit h.toNat 32
def hdrType (h : BitVec 512) : Nat := hdrBits h 31 24
def hdrJob (h : BitVec 512) : Nat := hdrBits h 431 416

/-- A reserved bit is set, or VERSION is not 0x1 (R406). -/
def hdrBad (h : BitVec 512) : Bool :=
  let w := h.toNat
  bits w 447 432 ≠ 0 || bits w 303 294 ≠ 0 || bits w 47 43 ≠ 0 || bits w 39 37 ≠ 0 || bits w 23 4 ≠ 0
    || bits w 3 0 ≠ 1 || decide (hdrVc h > 4)

/-- Message types (R407). -/
def mtAck : Nat := 0
def mtRequest : Nat := 1
def mtResponse : Nat := 2
def mtHalf : Nat := 3
def mtPeerRead : Nat := 4
def mtSpecCommit : Nat := 5
def mtSpecCancel : Nat := 6
def mtCut : Nat := 7
def mtRetire : Nat := 8
def mtCreditReq : Nat := 9
def mtBegin : Nat := 0xA
def mtReady : Nat := 0xB
def mtHeld : Nat := 0xC
def mtCommit : Nat := 0xD
def mtAbort : Nat := 0xE
def mtAsk : Nat := 0xF
def mtTell : Nat := 0x10

/-- What a sender puts into a header of its own: type, operation, origin, epoch, target, speculation tag, FWD. -/
structure MctMsg where
  type_ : Nat
  op : Nat := 0
  origin : Nat := 0
  epoch : Nat := 0
  island : Nat := 0
  role : Nat := 0
  assign : Nat := 0
  specTag : Nat := 0
  fwd : Bool := false
  payload : List Byte := []

/-! ### Channels -/

/-- Key of a channel: peer and virtual channel (R409). -/
def chanKey (peer vc : Nat) : Nat := 8 * peer + vc

def txDefault (_ : Nat) : MctTx := {}
def rxDefault (_ : Nat) : MctRx := {}

/-- The sending side towards a peer. -/
def State.tx (s : State) (peer vc : Nat) : MctTx := s.mct.tx.get txDefault (chanKey peer vc)
/-- The receiving side from a peer. -/
def State.rx (s : State) (peer vc : Nat) : MctRx := s.mct.rx.get rxDefault (chanKey peer vc)

def Act.modTx (peer vc : Nat) (f : MctTx → MctTx) : Act :=
  .modMct fun m => { m with tx := m.tx.put txDefault (chanKey peer vc) (f (m.tx.get txDefault (chanKey peer vc))) }
def Act.modRx (peer vc : Nat) (f : MctRx → MctRx) : Act :=
  .modMct fun m => { m with rx := m.rx.put rxDefault (chanKey peer vc) (f (m.rx.get rxDefault (chanKey peer vc))) }

/-- This device's address (R405). -/
def State.selfAddr (s : State) : Nat := s.get F.MCT_ADDR_ADDR

/-- Landing buffers of a virtual channel in use (R413). -/
def State.buffersUsed (s : State) (vc : Nat) : Nat :=
  (s.mct.delivered.filter fun d => hdrVc d.2.hdr == vc).length
    + ((s.mct.rx.filter fun e => e.1 % 8 == vc).map fun e => e.2.held.length).sum

/-- Credit a receiver advertises: its free buffers, at most 256 (R410, R413). -/
def State.freeCredit (s : State) (vc : Nat) : Nat := min 256 (s.get F.MCT_VC_BUFFERS vc - s.buffersUsed vc)

/-- SACK bits of a receiving side (R406). -/
def sackBits (r : MctRx) : Nat :=
  (List.range 32).foldl
    (fun acc i => if (r.held.get (fun _ => none) (r.expected + 1 + i)).isSome then acc + 2 ^ i else acc) 0

/-- Put the acknowledgement of the reverse channel into a header (R406, R409, R414). -/
def State.withAck (s : State) (peer vc : Nat) (h : Nat) : Nat :=
  let r := s.rx peer vc
  let h := putBits h 287 272 (s.freeCredit vc)
  let h := putBits h 271 240 (sackBits r)
  let h := putBits h 239 208 r.expected
  let h := putBits h 33 33 1
  putBits h 35 35 (if r.echo then 1 else 0)

/-- A header without SEQ and acknowledgement. -/
def State.header512 (s : State) (vc : Nat) (m : MctMsg) (job : Nat) : Nat :=
  let h := putBits 0 415 400 m.specTag
  let h := putBits h 399 336 m.op
  let h := putBits h 335 320 m.payload.length
  let h := putBits h 319 304 m.assign
  let h := putBits h 293 291 m.role
  let h := putBits h 290 288 m.island
  let h := putBits h 175 144 s.mct.incarnation
  let h := putBits h 143 80 m.origin
  let h := putBits h 79 48 m.epoch
  let h := putBits h 42 40 vc
  let h := putBits h 36 36 (if s.get F.MCT_SEC_MODE = 2 then 1 else 0)
  let h := putBits h 32 32 (if m.fwd then 1 else 0)
  let h := putBits h 31 24 m.type_
  let h := putBits h 431 416 (if s.get F.MCT_SEC_MODE = 2 then job else 0)
  putBits h 3 0 1

/-- Bytes of the frame of a packet, without a VLAN tag (R406, R434). -/
def State.frameBytes (s : State) (payload : Nat) : Nat :=
  14 + 40 + 8 + 64 + payload + 4 + (if s.get F.MCT_SEC_MODE = 1 then 32 else 0)

/-- Hand a packet to the egress queue of the port that its path index names (R406, R432). E2E_COUNTER rises with every
packet, retransmissions included (R404). -/
def Act.transmit (peer vc at_ : Nat) (pkt : MctPacket) : Act :=
  .look fun s =>
    let ups := s.upPorts
    let path := (s.tx peer vc).path
    let job := hdrJob pkt.hdr
    let e2e := decide (s.get F.MCT_SEC_MODE = 2)
    let h := s.withAck peer vc pkt.hdr.toNat
    let h := if e2e then putBits h 511 448 (s.mct.counters.get (fun _ => 0) job) else h
    let pkt : MctPacket := { pkt with hdr := BitVec.ofNat 512 h }
    .all
      [ .modTx peer vc fun t => { t with path := (t.path + 1) % (s.get F.MCT_UDP_PATHS_M1 + 1) },
        .modRx peer vc fun r =>
          { r with due := false, echo := false, limit := max r.limit (r.expected + s.freeCredit vc) },
        .when e2e
          (.modMct fun m =>
            { m with counters := m.counters.put (fun _ => 0) job (m.counters.get (fun _ => 0) job + 1) }),
        match ups[path % max 1 ups.length]? with
        | none => .done
        | some p =>
          let n := queueOf p (s.get F.MCT_VC_TCLASS vc)
          (Act.arrive n (s.absTime at_) { length := s.frameBytes (pkt.payload.length + (if e2e then 16 else 0)), peer := peer, pkt := some pkt, stamp := 0 }).andThen
            (.schedule p at_) ]

/-- A packet may be sent: its SEQ lies below ACK + CREDIT, and the send window has room (R413, R414). -/
def State.maySend (s : State) (peer vc : Nat) : Bool :=
  let t := s.tx peer vc
  let c := t.credit.getD (s.get F.MCT_VC_INITIAL vc)
  decide (t.next < t.ack + c) && decide (t.next - t.ack < t.window)

/-- Messages on the request, response and crossing channels are not started during capture (R271). -/
def State.mctHeld (s : State) (vc : Nat) : Bool := s.ckState == ckCapture && decide (vc ≤ 2)

/-- Send the packets that wait and may go, oldest first (R409, R413). -/
def Act.pump (peer vc at_ : Nat) : Nat → Act
  | 0 => .done
  | n + 1 =>
    .look fun s =>
      match (s.tx peer vc).waiting with
      | [] => .done
      | k :: ks =>
        if s.mctHeld vc || !s.maySend peer vc then .done
        else
          let seq := (s.tx peer vc).next
          let k : MctPacket := { k with hdr := BitVec.ofNat 512 (putBits k.hdr.toNat 207 176 seq) }
          .all
            [ .modTx peer vc fun t => { t with next := t.next + 1, waiting := ks, sent := t.sent ++ [⟨seq, k, 0⟩] },
              .transmit peer vc at_ k, .pump peer vc at_ n ]

/-- The job a device seals to a peer with: the lowest JOB index loaded (R404). -/
def State.jobOf (s : State) : Nat := ((s.sec.keys.filter fun k => k.kind == 1).head?.map (·.slot)).getD 0

/-- Send an ACK packet: no SEQ, no credit (R407, R409). -/
def Act.sendAck (peer vc at_ : Nat) : Act :=
  .look fun s => .transmit peer vc at_ ⟨BitVec.ofNat 512 (s.header512 vc { type_ := mtAck } s.jobOf), []⟩

/-- A peer can be reached: in MACSEC mode a CAK names it and MKA has agreed a key under it (R403, R512); in E2E mode a
job key is loaded (R404, R512). -/
def State.reachable (s : State) (peer : Nat) : Bool :=
  match s.get F.MCT_SEC_MODE with
  | 1 => s.sec.keys.any fun k => k.kind == 0 && k.peer == peer && (s.sec.saks.get (fun _ => none) k.slot).isSome
  | 2 => s.sec.keys.any fun k => k.kind == 1
  | _ => true

/-! ### Operations (R387) -/

/-- Open an operation. -/
def Act.openOp (o : MctOp) : Act := (Act.modMct fun m => { m with ops := m.ops ++ [o] }).andThen .showDrain

/-- Close an operation. -/
def Act.closeOp (o : MctOp) : Act := (Act.modMct fun m => { m with ops := m.ops.erase o }).andThen .showDrain

/-- The crossing of an operation that has ended is aborted at its source, unless it has been handed over (R420). -/
def Act.crossingEnds (o : MctOp) : Act :=
  .look fun s =>
    .each (s.mct.crossings.filter fun c => c.op == o.id && c.peer == o.peer && c.source && decide (c.step < 4)) fun c =>
      .all
        [ .modMct fun m =>
            { m with
              crossings := m.crossings.map fun x => if x.session = c.session then { x with step := 6, since := s.now } else x },
          .count .MCT_CROSS_ABORT_COUNT, .one (.emit (.shareCancel c.session)), .shareCancel c.session ]

/-- The transport ends an operation (R388, R403, R411, R560): an operation started here completes from MCT. -/
def Act.opEnds (o : MctOp) (why : Nat) : Act :=
  .all
    [ .closeOp o, .when o.started (.complete 0x0B (Config.mctStatus why).toNat o.island o.tag 0), .crossingEnds o ]

/-- An operation ends with CHART_MOVED (R386, R388). -/
def Act.opMoved (o : MctOp) : Act := (Act.opEnds o 0).andThen (.raise .CHART_MOVED { tag := o.tag })

/-- The current chart holds a device address (R405). -/
def State.charted (s : State) (peer : Nat) : Bool := (s.chartEntries s.epoch).any fun b => entryDevice b == peer

/-- The operation of this device that a message to a peer belongs to. -/
def State.ownOp (s : State) (peer : Nat) (m : MctMsg) : Option MctOp :=
  if m.origin = s.selfAddr then s.mct.ops.find? fun o => o.id == m.op && o.peer == peer else none

/-- Queue a message to a peer on a channel. An address that the chart does not hold is NO_ROUTE, which ends the operation
with CHART_MOVED; a peer without a secure channel ends it with MCT_NO_CHANNEL (R388, R403, R405). Without credit, packets
are asked for on the control channel (R413). -/
def Act.mctSend (peer vc at_ : Nat) (m : MctMsg) : Act :=
  .look fun s =>
    let own (f : MctOp → Act) : Act := match s.ownOp peer m with | some o => f o | none => .done
    if !s.charted peer then own .opMoved
    else if !s.reachable peer then
      (Act.raise .MCT_NO_CHANNEL { address := peer, tag := ((s.ownOp peer m).map (·.tag)).getD 0 }).andThen
        (own fun o => .opEnds o 2)
    else
    .all
      [ .modTx peer vc fun t =>
          { t with waiting := t.waiting ++ [⟨BitVec.ofNat 512 (s.header512 vc m s.jobOf), m.payload⟩] },
        .pump peer vc at_ 1024,
        .look fun s =>
          .when (vc ≠ 4 && !s.mctHeld vc && !(s.tx peer vc).waiting.isEmpty && !s.maySend peer vc)
            (.all
              [ .modTx peer 4 fun t =>
                  { t with
                    waiting := t.waiting ++
                      [⟨BitVec.ofNat 512 (s.header512 4 { type_ := mtCreditReq, origin := s.selfAddr, epoch := s.epoch, payload := leBytes 1 vc ++ leBytes 2 (s.tx peer vc).waiting.length } s.jobOf),
                        leBytes 1 vc ++ leBytes 2 (s.tx peer vc).waiting.length⟩] },
                .pump peer 4 at_ 1024 ]) ]

/-- The open operations with a peer on a channel. -/
def State.opsWith (s : State) (peer vc : Nat) : List MctOp := s.mct.ops.filter fun o => o.peer == peer && o.vc == vc

/-- The transfers to or from a peer on a channel end (R405, R411). -/
def Act.xfersLost (peer : Nat) (vc : Nat → Bool) : Act :=
  .look fun s =>
    let xs := s.tier.xfers.filter fun x =>
      x.work == .firmware && x.phase == 2 && s.xferPeer x == some peer && (List.range 5).any fun v => vc v && s.xferOn x v
    .when (!xs.isEmpty) ((Act.each xs fun x => .xferFails x x.peerFails).andThen .banksSettle)

/-- A side that may have missed the outcome of its crossings with a peer asks for it (R421). -/
def Act.askOutcomes (peer at_ : Nat) : Act :=
  .look fun s =>
    .each (s.mct.crossings.filter fun c => c.peer == peer && decide (c.step < 5) && !(c.source && c.step == 4)) fun c =>
      .mctSend peer 4 at_
        { type_ := mtAsk, op := c.op, origin := if c.source then s.selfAddr else peer, epoch := c.epoch,
          payload := leBytes 8 c.session ++ leBytes 8 c.op }

/-- A channel fails (R411): its operations and those of the reverse channel end, and it starts again from SEQ 0; what was lost may be
the outcome of a crossing (R421). A checkpoint whose buddy stops answering is abandoned (R279). -/
def Act.peerLost (peer vc at_ : Nat) : Act :=
  .look fun s =>
    .all
      [ .each (s.opsWith peer vc) fun o => .opEnds o 1,
        .count .MCT_PEER_LOST_COUNT,
        .raise .MCT_PEER_LOST { address := peer, detail := vc },
        .modTx peer vc fun _ => {}, .xfersLost peer (· == vc), .when (vc == 2) (.askOutcomes peer at_),
        .when (vc == 3 && decide (peer = s.ckpt.buddy) && s.ckState == ckDrain) (.ckptAbandon 6) ]

/-- A new incarnation of a peer (R412, R421). -/
def Act.newIncarnation (peer inc at_ : Nat) : Act :=
  .look fun s =>
    let known := s.mct.peers.get (fun _ => none) peer
    if known = some inc then .done
    else
      .all
        [ .modMct fun m => { m with peers := m.peers.put (fun _ => none) peer (some inc) },
          .when known.isSome
            (.all
              [ .each (s.mct.ops.filter fun o => o.peer == peer) fun o => .opEnds o 1,
                .when (s.mct.ops.any fun o => o.peer == peer) (.raise .MCT_PEER_LOST { address := peer }),
                .each (List.range 5) fun vc =>
                  (Act.modTx peer vc fun _ => {}).andThen (.modRx peer vc fun _ => {}),
                .xfersLost peer fun _ => true, .askOutcomes peer at_ ]) ]

/-! ### Acknowledgement and retransmission (R409, R414) -/

/-- The tiles of a transfer that the peer has acknowledged are done, and with the last one the transfer (R415). -/
def Act.tilesAcked (x : Xfer) : Act :=
  .look fun s =>
    let t := s.tx ((s.xferPeer x).getD 0) (s.get F.FERRY_CLASS_VC (fClass x.desc))
    let out (i : Nat) : Bool := (t.sent.map (·.pkt) ++ t.waiting).any fun k =>
      hdrType k.hdr == mtHalf && hdrOp k.hdr == x.op && leAt k.payload 0 4 == peerTileOf (fDstAddr x.desc + i * fDstPitch x.desc)
    .each (x.sent.filter fun i => !out i) fun i =>
      .look fun s => match s.xfer x.ferry x.id with
        | none => .done
        | some y =>
          (Act.tileMoved { y with sent := y.sent.erase i } i).andThen
            (.when (y.tiles.erase i).isEmpty (.ferryEnds y.ferry y.desc fsOk))

/-- An acknowledgement from a peer on a channel may be that of tiles (R415). -/
def Act.peerAcked (peer vc : Nat) : Act :=
  .look fun s =>
    let xs := s.tier.xfers.filter fun x =>
      !x.sent.isEmpty && fDstSpace x.desc == 7 && s.xferPeer x == some peer && s.xferOn x vc
    .when (!xs.isEmpty) ((Act.each xs .tilesAcked).andThen .banksSettle)

/-- Retransmit a packet, with RETX set (R409). -/
def Act.retransmit (peer vc at_ : Nat) (x : MctSent) : Act :=
  .all
    [ .modTx peer vc fun t =>
        { t with sent := t.sent.map fun y => if y.seq = x.seq then { y with tries := y.tries + 1 } else y },
      .count .MCT_RETX_COUNT,
      .transmit peer vc at_ { x.pkt with hdr := BitVec.ofNat 512 (putBits x.pkt.hdr.toNat 34 34 1) } ]

/-- Take an acknowledgement in (R409, R413, R414). -/
def Act.takeAck (peer at_ : Nat) (h : BitVec 512) : Act :=
  .look fun s =>
    let vc := hdrVc h
    if !hdrAckValid h then .done
    else
      let t := s.tx peer vc
      let step := (hdrAck h + 2 ^ 32 - t.ack % 2 ^ 32) % 2 ^ 32
      if step > t.next - t.ack then .done
      else
        let ack := t.ack + step
        let arrived (q : Nat) : Bool := decide (q < ack) || (decide (ack < q) && decide (q ≤ ack + 32) && bit (hdrSack h) (q - ack - 1))
        let left := t.sent.filter fun x => !arrived x.seq
        let fast := left.filter fun x =>
          x.tries == 0 && decide (8 ≤ ((List.range 32).filter fun i => bit (hdrSack h) i && decide (x.seq < ack + 1 + i)).length)
        let window :=
          if hdrEcho h then max 4 (min t.window (hdrCredit h) / 2)
          else if t.grown + step ≥ t.window then min 256 (t.window + 1) else t.window
        let grown := if hdrEcho h then 0 else if t.grown + step ≥ t.window then 0 else t.grown + step
        .all
          [ .modTx peer vc fun t =>
              { t with sent := left, ack := ack, credit := some (hdrCredit h), window := window, grown := grown },
            .each fast fun x => .retransmit peer vc at_ x,
            .pump peer vc at_ 1024, .peerAcked peer vc ]

end Sys2Proof.Machine
end

