-- ==== Sys2Proof/Machine/TextUnit.lean ====
section
/-! DEFINITION. What the text commands share: commands (R300), tables (R305, R306, R309), UTF-8 (R308), tokenising
(R309 to R311), the detokeniser and stop matcher (R314 to R318), grammars and masks (R319 to R323). -/

namespace Sys2Proof.Machine

/-! ### Commands -/

def xOp (e : List Byte) : Nat := bits (leAt e 0 32) 255 248
def xStream (e : List Byte) : Nat := bits (leAt e 0 32) 247 235
def xLast (e : List Byte) : Bool := bit (leAt e 0 32) 234
def xStopOn (e : List Byte) : Bool := bit (leAt e 0 32) 233
def xSlot (e : List Byte) : Nat := bits (leAt e 0 32) 232 223
def xGrammar (e : List Byte) : Nat := bits (leAt e 0 32) 222 207
def xState (e : List Byte) : Nat := bits (leAt e 0 32) 206 183
def xLen (e : List Byte) : Nat := bits (leAt e 0 32) 182 163
def xSrc (e : List Byte) : Nat := bits (leAt e 0 32) 162 115
def xDst (e : List Byte) : Nat := bits (leAt e 0 32) 114 67
def xCap (e : List Byte) : Nat := bits (leAt e 0 32) 66 44
def xReserved (e : List Byte) : Bool := bits (leAt e 0 32) 43 32 ≠ 0
def xTag (e : List Byte) : Nat := bits (leAt e 0 32) 31 0

/-- Text statuses (R302). -/
def xsOk : Nat := 0
def xsStopped : Nat := 1
def xsEnded : Nat := 2
def xsBadOp : Nat := 3
def xsBadStream : Nat := 4
def xsRejected : Nat := 5
def xsManifest : Nat := 6
def xsViolation : Nat := 7
def xsBadStops : Nat := 8
def xsGrammar : Nat := 9

/-- QUEUED and OPEN_STREAMS show the engine's state (R326). -/
def Act.showText : Act :=
  .look fun s =>
    .all
      [ .set F.TEXT_STATUS_QUEUED s.text.queue.length,
        .set F.TEXT_STATUS_OPEN_STREAMS (s.text.streams.filter fun e => e.2.isSome).length ]

/-- A text command ends. -/
def Act.textDone (e : List Byte) (status : Nat) (results : List Nat) : Act :=
  .completeWith 0x07 status (xStream e) (xTag e) results

/-- A stream. -/
def State.stream (s : State) (n : Nat) : Option TextStream := s.text.streams.get (fun _ => none) n

/-- Put a stream's context, or free it. -/
def Act.setStream (n : Nat) (x : Option TextStream) : Act :=
  (Act.modText fun t => { t with streams := t.streams.put (fun _ => none) n x }).andThen .showText

/-- Take the text command queued at `a`, when it is the oldest of its stream, has operation `op`, and the device has a
HOME island; an unreadable entry ends REJECTED (R299, R598, R622). -/
def Act.textTake (a : Nat) (ops : Nat → Bool) (body : List Byte → Act) : Act :=
  let pop := (Act.modText fun t => { t with queue := t.queue.erase a }).andThen .showText
  .look fun s =>
    if !s.text.queue.contains a || s.get F.CHART_CFG_HOME_MASK = 0 || s.ckState == ckCapture then .done
    else
      .takeEntry true a 32 pop (.complete 0x07 xsRejected 0 0 0) fun e =>
        if !ops (xOp e) then .done
        else if (s.text.queue.find? fun x => xStream (s.readMem x 32) == xStream e) ≠ some a then .done
        else .all [pop, body e]

/-- A command meets a lost line of its source or destination: it ends REJECTED (R532, R622). -/
def Act.textLost (e : List Byte) (k : Nat) : Act := (Act.entryLost k { tag := xTag e }).andThen (.textDone e xsRejected [])

/-- A reserved bit ends a command REJECTED (R302). -/
def Act.textChecked (e : List Byte) (body : Act) : Act := if xReserved e then .textDone e xsRejected [] else body

/-! ### Tables -/

def hashBase : Nat := 0
def tokenBase : Nat := 0x1000000
def poolBase : Nat := 0x1300000
def classBase : Nat := 0x1700000

def State.vocab (s : State) : Nat := s.get F.TEXT_CFG_VOCAB

/-- Bytes of a table region. -/
def State.table (s : State) (a n : Nat) : List Byte := SMap.getList (fun _ => 0) s.text.tables a n

/-- A token's entry (R305). -/
def State.tokenEntry (s : State) (t : Nat) : Nat := ofLE (s.table (tokenBase + 8 * t) 8)
def State.tokenText (s : State) (t : Nat) : List Byte :=
  s.table (poolBase + bits (s.tokenEntry t) 63 40) (bits (s.tokenEntry t) 39 32)
def State.tokenEnd (s : State) (t : Nat) : Bool := bit (s.tokenEntry t) 18
def State.tokenSpecial (s : State) (t : Nat) : Bool := bit (s.tokenEntry t) 17

/-- A hash entry by its place in the scan from its home bucket (R306). -/
def State.hashEntry (s : State) (home j : Nat) : Nat :=
  ofLE (s.table (hashBase + (home + j / 2) % 524288 * 32 + j % 2 * 16) 16)

/-- Scan for an entry of a kind and key that passes `more`: a match, or nothing at the first EMPTY entry (R306). -/
def State.hashScan (s : State) (kind key home : Nat) (more : Nat → Bool) : List Nat → Option Nat
  | [] => none
  | j :: js =>
    let e := s.hashEntry home j
    if bits e 127 126 = 0 then none
    else if bits e 127 126 = kind && bits e 63 0 = key && more e then some e
    else s.hashScan kind key home more js

def State.hashFind (s : State) (kind key : Nat) (more : Nat → Bool) : Option Nat :=
  s.hashScan kind key (crc32c (leBytes 8 key) % 524288) more (List.range 16)

/-- The MERGE entry of two tokens: rank and result. -/
def State.mergeFind (s : State) (l r : Nat) : Option (Nat × Nat) :=
  (s.hashFind 1 (l * 2 ^ 20 + r) fun _ => true).map fun e => (bits e 87 64, bits e 107 88)

/-- The token that is a whole piece. -/
def State.pieceFind (s : State) (b : List Byte) : Option Nat :=
  (s.hashFind 2 (b.length * 2 ^ 32 + crc32c b) fun e => s.tokenText (bits e 107 88) == b).map fun e => bits e 107 88

/-- RULE[a] bit b (R309): the header's 16-bit words lead the class table, and 4-byte entries follow at offset 32. -/
def State.breaks (s : State) (a b : Nat) : Bool := bit (ofLE (s.table (classBase + 2 * a) 2)) b

/-- The class of a code point: the last entry at or below it; the entries end where they stop rising (R309). -/
def State.classScan (s : State) (cp : Nat) : Nat → Nat → Nat → Nat
  | 0, _, cls => cls
  | fuel + 1, i, cls =>
    let e := ofLE (s.table (classBase + 32 + 4 * i) 4)
    let first := bits e 20 0
    if (i ≠ 0 ∧ first = 0) ∨ first > cp then cls else s.classScan cp fuel (i + 1) (bits e 27 24)

def State.classOf (s : State) (cp : Nat) : Nat := s.classScan cp 65536 0 0

/-! ### UTF-8 -/

/-- The ranges that the continuation bytes of a lead byte must lie in; none when the byte cannot lead (R308). -/
def contRanges (b : Nat) : Option (List (Nat × Nat)) :=
  let c := (0x80, 0xBF)
  if b ≤ 0x7F then some []
  else if 0xC2 ≤ b ∧ b ≤ 0xDF then some [c]
  else if b = 0xE0 then some [(0xA0, 0xBF), c]
  else if b = 0xED then some [(0x80, 0x9F), c]
  else if 0xE1 ≤ b ∧ b ≤ 0xEF then some [c, c]
  else if b = 0xF0 then some [(0x90, 0xBF), c, c]
  else if 0xF1 ≤ b ∧ b ≤ 0xF3 then some [c, c, c]
  else if b = 0xF4 then some [(0x80, 0x8F), c, c]
  else none

/-- What a byte sequence begins with. -/
inductive Utf8 where
  | empty
  /-- A valid character of `n` bytes. -/
  | char (n : Nat)
  /-- An invalid byte, or a maximal subpart of `n` bytes. -/
  | bad (n : Nat)
  | incomplete
  deriving DecidableEq, Repr

/-- Continuation bytes taken so far. -/
def utf8Cont : List (Nat × Nat) → List Byte → Nat → Utf8
  | [], _, n => .char n
  | _ :: _, [], _ => .incomplete
  | r :: rs, b :: bs, n => if r.1 ≤ b.toNat ∧ b.toNat ≤ r.2 then utf8Cont rs bs (n + 1) else .bad n

def utf8 : List Byte → Utf8
  | [] => .empty
  | b :: bs => match contRanges b.toNat with
    | none => .bad 1
    | some rs => utf8Cont rs bs 1

/-- The code point of a valid character. -/
def codePoint (bs : List Byte) : Nat :=
  match bs with
  | [] => 0
  | [a] => a.toNat
  | a :: rest =>
    rest.foldl (fun v b => v * 64 + b.toNat % 64) (a.toNat % 2 ^ (7 - bs.length))

/-- All of the byte string is valid UTF-8. -/
def validUtf8 : Nat → List Byte → Bool
  | 0, bs => bs.isEmpty
  | fuel + 1, bs => match utf8 bs with
    | .empty => true
    | .char n => validUtf8 fuel (bs.drop n)
    | _ => false

/-! ### Tokenising -/

/-- An item of a stream: a character with its class, or an invalid byte (class 15) (R309). -/
structure TextItem where
  bytes : List Byte
  cls : Nat
  deriving DecidableEq, Repr

/-- The items of a byte string and the incomplete sequence left at its end (R308, R309). -/
def State.items (s : State) : Nat → List Byte → List TextItem × List Byte
  | 0, bs => ([], bs)
  | fuel + 1, bs => match utf8 bs with
    | .empty => ([], [])
    | .incomplete => ([], bs)
    | .char n =>
      let r := s.items fuel (bs.drop n)
      (⟨bs.take n, s.classOf (codePoint (bs.take n))⟩ :: r.1, r.2)
    | .bad n =>
      let r := s.items fuel (bs.drop n)
      ((bs.take n).map (fun b => ⟨[b], 15⟩) ++ r.1, r.2)

/-- Add an item to the open piece: the pieces that close, and the open piece after it (R309). -/
def State.addItem (s : State) (open_ : List Byte) (last : Nat) (i : TextItem) : List (List Byte × Nat) × List Byte :=
  if open_ = [] then ([], i.bytes)
  else if last = 15 || i.cls = 15 || s.breaks last i.cls || decide (open_.length + i.bytes.length > 256) then
    ([(open_, last)], i.bytes)
  else ([], open_ ++ i.bytes)

/-- Add items in order: closed pieces with the class of their last item, and the open piece. -/
def State.addItems (s : State) : List TextItem → List Byte → Nat → List (List Byte × Nat) × List Byte × Nat
  | [], o, last => ([], o, last)
  | i :: is, o, last =>
    let r := s.addItem o last i
    let t := s.addItems is r.2 i.cls
    (r.1 ++ t.1, t.2)

/-- The best merge of a token list: rank, place, result (R310). -/
def State.bestMerge (s : State) (x : List Nat) : Option (Nat × Nat × Nat) :=
  (List.range (x.length - 1)).foldl (fun best i =>
    match s.mergeFind (x.getD i 0) (x.getD (i + 1) 0) with
    | none => best
    | some (rank, res) => match best with
      | none => some (rank, i, res)
      | some b => if rank < b.1 then some (rank, i, res) else best) none

/-- Merge until nothing merges. -/
def State.mergeAll (s : State) : Nat → List Nat → List Nat
  | 0, x => x
  | fuel + 1, x => match s.bestMerge x with
    | none => x
    | some (_, i, res) => s.mergeAll fuel (x.take i ++ [res] ++ x.drop (i + 2))

/-- The tokens of a piece (R310); a piece of class 15 is one byte. -/
def State.pieceTokens (s : State) (p : List Byte × Nat) : List Nat :=
  let byteTokens := p.1.map fun b => s.get F.TEXT_CFG_BYTE_BASE + b.toNat
  if p.2 = 15 then byteTokens
  else
    match if s.flag F.TEXT_CFG_WHOLE_PIECE && decide (p.1.length > 1) then s.pieceFind p.1 else none with
    | some t => [t]
    | none => s.mergeAll p.1.length byteTokens

/-- What a feed gives: the tokens, the stream after it, the invalid bytes it met. -/
structure FeedOut where
  tokens : List Nat
  stream : TextStream
  bad : Nat
  deriving DecidableEq, Repr

/-- Feed bytes to a tokenising stream (R311, R313). -/
def State.feed (s : State) (x : TextStream) (bs : List Byte) (last : Bool) : FeedOut :=
  let all := x.carry ++ bs
  let r := s.items all.length all
  let tail := if last then r.2.map fun b => (⟨[b], 15⟩ : TextItem) else []
  let t := s.addItems (r.1 ++ tail) x.piece x.lastClass
  let bad := (r.1.filter fun i => i.cls == 15).length
  let pieces := if last then t.1 ++ (if t.2.1 = [] then [] else [(t.2.1, t.2.2)]) else t.1
  let badAll := bad + tail.length
  { tokens := pieces.flatMap s.pieceTokens,
    bad := badAll,
    stream :=
      { x with
        carry := if last then [] else r.2, piece := if last then [] else t.2.1,
        lastClass := if last then 0 else t.2.2,
        invalidCount := min 0xFFFFFFFF (x.invalidCount + badAll),
        invalid := x.invalid || decide (bad ≠ 0), truncated := x.truncated || !tail.isEmpty,
        ended := x.ended || last } }

/-! ### Detokenising -/

/-- The stop string that ends at the last byte of `p`: the longest, then the lowest index (R317). -/
def stopAt (stops : List (List Byte)) (p : List Byte) : Option Nat :=
  (List.range stops.length).foldl (fun best i =>
    let t := stops.getD i []
    if t.isSuffixOf p then
      match best with
      | none => some i
      | some j => if (stops.getD j []).length < t.length then some i else best
    else best) none

/-- Feed bytes to the matcher; it stops at the first byte that completes a stop string (R317). -/
def matchBytes (stops : List (List Byte)) : List Byte → List Byte → List Byte × Option Nat
  | [], p => (p, none)
  | b :: bs, p =>
    let p := p ++ [b]
    match stopAt stops p with
    | some i => (p.take (p.length - (stops.getD i []).length), some i)
    | none => matchBytes stops bs p

/-- The longest suffix that is a proper prefix of a stop string (R315). -/
def stopPrefix (stops : List (List Byte)) (p : List Byte) : Nat :=
  ((List.range (min 64 p.length + 1)).filter fun n =>
    stops.any fun t => decide (n < t.length) && t.take n == p.drop (p.length - n)).foldl max 0

/-- U+FFFD (R315). -/
def replacement : List Byte := [0xEF, 0xBF, 0xBD]

/-- What happens to a detokenising stream: its context, what was released, the replacements made, and the index of
the stop string that matched. -/
structure DetOut where
  stream : TextStream
  released : List Byte := []
  replaced : Nat := 0
  stop : Option Nat := none
  deriving DecidableEq, Repr

/-- Characters of the held bytes pass to the matcher; invalid ones are replaced (R315). -/
def drainHeld (stops : List (List Byte)) : Nat → DetOut → DetOut
  | 0, o => o
  | fuel + 1, o =>
    let x := o.stream
    match utf8 x.held with
    | .empty => o
    | .incomplete => o
    | .char n =>
      let r := matchBytes stops (x.held.take n) x.pending
      let o := { o with stream := { x with held := x.held.drop n, pending := r.1 }, stop := r.2 }
      if r.2.isSome then o else drainHeld stops fuel o
    | .bad n =>
      let r := matchBytes stops replacement x.pending
      let o :=
        { o with stream := { x with held := x.held.drop n, pending := r.1 }, stop := r.2, replaced := o.replaced + 1 }
      if r.2.isSome then o else drainHeld stops fuel o

/-- Release pending bytes except a possible stop prefix; after a stop, everything before the match is released and
the rest is discarded (R315, R317). -/
def release (stops : List (List Byte)) (keep : Bool) (o : DetOut) : DetOut :=
  let x := o.stream
  let n := if o.stop.isSome || !keep then 0 else stopPrefix stops x.pending
  let out := x.pending.take (x.pending.length - n)
  { o with
    released := o.released ++ out,
    stream :=
      { x with
        pending := x.pending.drop (x.pending.length - n), offset := x.offset + out.length,
        held := if o.stop.isSome then [] else x.held, ended := x.ended || o.stop.isSome } }

/-- A token's text joins the stream (R314, R315). -/
def State.detToken (s : State) (stops : List (List Byte)) (x : TextStream) (t : Nat) : DetOut :=
  let text := if s.tokenSpecial t then [] else s.tokenText t
  let x := { x with held := x.held ++ text, tokens := x.tokens + 1 }
  release stops true (drainHeld stops x.held.length { stream := x })

/-- The generation ends (R318). -/
def detEnd (stops : List (List Byte)) (x : TextStream) : DetOut :=
  let o : DetOut := { stream := x }
  let o :=
    if x.held = [] then o
    else
      let r := matchBytes stops replacement x.pending
      { o with stream := { x with held := [], pending := r.1 }, replaced := 1, stop := r.2 }
  let o := release stops false o
  { o with stream := { o.stream with ended := true } }

/-- The stop strings a stream matches. -/
def State.stopsOf (s : State) (x : TextStream) : List (List Byte) :=
  match x.slot with
  | some n => s.text.stops.get (fun _ => []) n
  | none => []

/-- Read a stop set of `n` strings (R316). -/
def readStops : Nat → List Byte → Option (List (List Byte))
  | 0, _ => some []
  | n + 1, bs => match bs with
    | [] => none
    | l :: rest =>
      let t := rest.take l.toNat
      if l.toNat = 0 ∨ l.toNat > 64 ∨ t.length < l.toNat ∨ !validUtf8 t.length t then none
      else (readStops n (rest.drop l.toNat)).map (t :: ·)

/-- The bytes that the `n` strings of a stop set take, by their length bytes. -/
def stopSpan : Nat → List Byte → Nat
  | 0, _ => 0
  | n + 1, bs => let l := (bs.headD 0).toNat; 1 + l + stopSpan n (bs.drop (1 + l))

/-- The bytes of a stop set (R316): its count byte alone where the count is out of range. -/
def stopBytes (bs : List Byte) : Nat :=
  let c := (bs.headD 0).toNat
  if c = 0 ∨ c > 8 then 1 else 1 + stopSpan c (bs.drop 1)

/-- A stop set from its bytes; none when it breaks a rule of R316. -/
def stopSet (bs : List Byte) : Option (List (List Byte)) :=
  match bs with
  | [] => none
  | c :: rest =>
    if c.toNat = 0 ∨ c.toNat > 8 then none
    else match readStops c.toNat rest with
      | some l => if (l.map List.length).foldl (· + ·) 0 ≤ 256 then some l else none
      | none => none

/-! ### Grammars -/

/-- A directory entry of the grammar area (R319). -/
def State.gramEntry (s : State) (g : Nat) : List Byte := s.readMem (s.get F.TEXT_GRAM_BASE_ADDR + 16 * g) 16
def State.gramBase (s : State) (g : Nat) : Nat := s.get F.TEXT_GRAM_BASE_ADDR + leAt (s.gramEntry g) 0 8
def State.gramStates (s : State) (g : Nat) : Nat := leAt (s.gramEntry g) 8 4
def State.gramStart (s : State) (g : Nat) : Nat := leAt (s.gramEntry g) 12 4

/-- The record of a grammar state (R319). -/
def State.gramRec (s : State) (g q : Nat) : Nat := s.readLE (s.gramBase g + 8 * q) 8
def State.gramAccepts (s : State) (g q : Nat) : Bool := bit (s.gramRec g q) 63

/-- The runs of a state: first token, count, next state. -/
def State.gramRuns (s : State) (g q : Nat) : List (Nat × Nat × Nat) :=
  (List.range (bits (s.gramRec g q) 47 32)).map fun i =>
    let r := s.readLE (s.gramBase g + 8 * (bits (s.gramRec g q) 31 0 + i)) 8
    (bits r 63 44, bits r 43 24 + 1, bits r 23 0)

/-- What the engine reads of a grammar state has a lost line: the directory entry, the state's record or its runs (R319,
R531). -/
def State.gramDark (s : State) (g q : Nat) : Bool :=
  (s.lostLine (s.get F.TEXT_GRAM_BASE_ADDR + 16 * g) 16).isSome || (s.lostLine (s.gramBase g + 8 * q) 8).isSome
    || (s.lostLine (s.gramBase g + 8 * bits (s.gramRec g q) 31 0) (8 * bits (s.gramRec g q) 47 32)).isSome

/-- A command meets a lost part of the grammar area: it ends MANIFEST, and the area awaits its refetch (R531). -/
def Act.gramLost (e : List Byte) : Act :=
  .all
    [ .manifestFail, .raise .ERR_MANIFEST { tag := xTag e }, .awaitSection 5 0 Err.ERR_MANIFEST.code, .textDone e xsManifest [] ]

/-- The state that a token leads to; none outside the mask. An END token keeps the state (R320 to R322). -/
def State.gramNext (s : State) (g q t : Nat) : Option Nat :=
  if s.tokenEnd t then if s.gramAccepts g q then some q else none
  else ((s.gramRuns g q).find? fun r => decide (r.1 ≤ t) && decide (t < r.1 + r.2.1)).map fun r => r.2.2

/-- The mask of a state, as bytes (R320). -/
def State.gramMask (s : State) (g q : Nat) : List Byte :=
  let runs := s.gramRuns g q
  let on (t : Nat) : Bool :=
    decide (t < s.vocab) && ((runs.any fun r => decide (r.1 ≤ t) && decide (t < r.1 + r.2.1))
      || (s.gramAccepts g q && s.tokenEnd t))
  (List.range (ceilDiv s.vocab 8)).map fun i =>
    BitVec.ofNat 8 ((List.range 8).foldr (fun b acc => 2 * acc + (if on (8 * i + b) then 1 else 0)) 0)

/-- Masks that the cache holds (R320). -/
def State.maskWays (s : State) : Nat := 14 * 0x100000 / (max 1 (ceilDiv (ceilDiv s.vocab 8) 4096) * 4096)

/-- Use a mask through the cache (R320). -/
def Act.touchMask (k : Nat) : Act :=
  .look fun s =>
    .all
      [ .count (if s.text.cache.contains k then .TEXT_MASK_HIT_COUNT else .TEXT_MASK_MISS_COUNT),
        .modText fun t => { t with cache := (k :: t.cache.filter (· ≠ k)).take s.maskWays } ]

end Sys2Proof.Machine
end

