-- ==== Sys2Proof/Machine/SealUnit.lean ====
section
/-! DEFINITION. What the sampler and seal engine commands share: the generator (R334), the sampling procedure (R332),
request contexts (R330, R331), the replay log (R336, R337), tickets and sets (R338 to R340), the Merkle tree and the
seal record (R340). -/

namespace Sys2Proof.Machine

/-! ### The generator -/

/-- Addition and rotation of 32-bit words. -/
def rotl32 (x : BitVec 32) (n : Nat) : BitVec 32 := x <<< n ||| x >>> (32 - n)

/-- The quarter round of ChaCha20 on four places of the state. -/
def quarterRound (m : List (BitVec 32)) (a b c d : Nat) : List (BitVec 32) :=
  let g (i : Nat) := m.getD i 0
  let a1 := g a + g b
  let d1 := rotl32 (g d ^^^ a1) 16
  let c1 := g c + d1
  let b1 := rotl32 (g b ^^^ c1) 12
  let a2 := a1 + b1
  let d2 := rotl32 (d1 ^^^ a2) 8
  let c2 := c1 + d2
  let b2 := rotl32 (b1 ^^^ c2) 7
  (((m.set a a2).set b b2).set c c2).set d d2

/-- A double round. -/
def doubleRound (m : List (BitVec 32)) : List (BitVec 32) :=
  let m := quarterRound m 0 4 8 12
  let m := quarterRound m 1 5 9 13
  let m := quarterRound m 2 6 10 14
  let m := quarterRound m 3 7 11 15
  let m := quarterRound m 0 5 10 15
  let m := quarterRound m 1 6 11 12
  let m := quarterRound m 2 7 8 13
  quarterRound m 3 4 9 14

/-- `n` double rounds. -/
def doubleRounds : Nat → List (BitVec 32) → List (BitVec 32)
  | 0, m => m
  | n + 1, m => doubleRounds n (doubleRound m)

/-- The first word of the ChaCha20 block of RFC 8439 for a key, counter and 12-byte nonce. -/
def chachaWord (key nonce : List Byte) (counter : Nat) : Nat :=
  let words (bs : List Byte) (n : Nat) : List (BitVec 32) := (List.range n).map fun i => BitVec.ofNat 32 (leAt bs (4 * i) 4)
  let m : List (BitVec 32) :=
    [0x61707865#32, 0x3320646e#32, 0x79622d32#32, 0x6b206574#32] ++ words key 8 ++ [BitVec.ofNat 32 counter]
      ++ words nonce 3
  ((doubleRounds 10 m).getD 0 0 + m.getD 0 0).toNat

/-- u(pos, d) of R334. -/
def drawU (key : List Byte) (pos d : Nat) : F32 :=
  f32OfNum (.fin false (chachaWord key (leBytes 8 pos ++ leBytes 4 0) d / 256) (-24))

/-! ### Sampler commands -/

def pWord (e : List Byte) : Nat := leAt e 0 64
def pOp (e : List Byte) : Nat := bits (pWord e) 511 504
def pExpect (e : List Byte) : Nat := bits (pWord e) 503 484
def pExpectOn (e : List Byte) : Bool := bit (pWord e) 483
def pMaskOn (e : List Byte) : Bool := bit (pWord e) 482
def pN (e : List Byte) : Nat := bits (pWord e) 481 475
def pPos (e : List Byte) : Nat := bits (pWord e) 463 416
def pGen (e : List Byte) : Nat := bits (pWord e) 399 368
def pCtx (e : List Byte) : Nat := bits (pWord e) 367 320
def pLogits (e : List Byte) : Nat := bits (pWord e) 319 272
def pMask (e : List Byte) : Nat := bits (pWord e) 271 224
def pTokens (e : List Byte) : Nat := bits (pWord e) 223 176
def pTag (e : List Byte) : Nat := bits (pWord e) 127 96
def pReserved (e : List Byte) : Bool :=
  let w := pWord e
  bits w 474 464 ≠ 0 || bits w 415 400 ≠ 0 || bits w 175 128 ≠ 0 || bits w 95 0 ≠ 0

/-- Sampler statuses (R333). -/
def psOk : Nat := 0
def psEmptyEnd : Nat := 1
def psDeadEnd : Nat := 2
def psMismatch : Nat := 3
def psManifest : Nat := 4
def psRejected : Nat := 5
def psBadOp : Nat := 6

/-- A sampler command ends. -/
def Act.sampDone (e : List Byte) (status : Nat) (results : List Nat) : Act :=
  .completeWith 0x08 status 0 (pTag e) results

/-- A sampler command ends REJECTED with a reason (R348). -/
def Act.sampReject (e : List Byte) (reason : Nat) : Act :=
  (Act.set F.SAMP_STATUS_REJECT_REASON reason).andThen (.sampDone e psRejected [])

/-- Take the sampler command at `a`: the oldest queued one of its context (R328). -/
def Act.sampTake (a : Nat) (ops : Nat → Bool) (body : List Byte → Act) : Act :=
  let pop : Act :=
    (Act.modSealer fun x => { x with sampQueue := x.sampQueue.erase a }).andThen
      (.look fun s => .set F.SAMP_STATUS_QUEUED s.sealer.sampQueue.length)
  .look fun s =>
    if !s.sealer.sampQueue.contains a then .done
    else
      .takeEntry false a 64 pop (.complete 0x08 psRejected 0 0 0) fun e =>
        if !ops (pOp e) then .done
        else if (s.sealer.sampQueue.find? fun x => pCtx (s.readMem x 64) == pCtx e) ≠ some a then .done
        else .all [pop, body e]

/-! ### Request contexts -/

/-- Bytes of a request context (R330). -/
def ctxBytes : Nat := 33024

/-- A command's request context, which lies in general-use HBM (R330). -/
def State.ctxAt (s : State) (e : List Byte) : Option Nat :=
  if pCtx e % 64 = 0 && s.hbmRange (pCtx e) ctxBytes then some (pCtx e) else none

/-- A token of a list of 32-bit IDs, whose bits [31:20] are zero (R303). -/
def State.tokenAt (s : State) (a j : Nat) : Nat := s.readLE (a + 4 * j) 4 % 2 ^ 20

def cF32 (c : List Byte) (off : Nat) : F32 := BitVec.ofNat 32 (leAt c off 4)
def cTopK (c : List Byte) : Nat := leAt c 0x18 2
def cMinTokens (c : List Byte) : Nat := leAt c 0x1C 4
def cEndId (c : List Byte) : Nat := leAt c 0x20 4
def cBanCount (c : List Byte) : Nat := leAt c 0x24 2
def cBan (c : List Byte) : List Nat := (List.range (cBanCount c)).map fun i => leAt c (0x40 + 4 * i) 4
def cEntries (c : List Byte) : Nat := leAt c 0x80 4
def cSticky (c : List Byte) : Nat := leAt c 0x84 4

/-- Count-table entries: token and count (R330). -/
def cCounts (c : List Byte) : List (Nat × Nat) :=
  (List.range (min 4096 (cEntries c))).map fun i =>
    let e := leAt c (0x100 + 8 * i) 8
    (bits e 51 32, bits e 15 0)

/-- A parameter is reserved (R330). -/
def State.ctxReserved (s : State) (c : List Byte) : Bool :=
  let t := cF32 c 0
  let tp := cF32 c 4
  let mp := cF32 c 8
  let rep := cF32 c 0xC
  let zero := F32.num 0#32
  let one := F32.num one32
  t.sign || t.isNan || t.isInf
    || tp.isNan || !(zero.lt tp.num) || one.lt tp.num
    || mp.isNan || mp.num.lt zero || !(mp.num.lt one)
    || rep.isNan || rep.isInf || !(zero.lt rep.num)
    || (cF32 c 0x10).isNan || (cF32 c 0x10).isInf || (cF32 c 0x14).isNan || (cF32 c 0x14).isInf
    || decide (cTopK c > 1024) || bits (leAt c 0x1A 2) 15 1 ≠ 0
    || !s.tokenEnd (cEndId c) || decide (cEndId c ≥ s.vocab) || decide (cBanCount c > 16)
    || leAt c 0x26 26 ≠ 0

/-- Count one token: the table, in ascending token order, and whether it was full (R331). -/
def countToken : List (Nat × Nat) → Nat → List (Nat × Nat) × Bool
  | tab, t =>
    if tab.any fun e => e.1 == t then
      (tab.map fun e => if e.1 = t then (t, min 65535 (e.2 + 1)) else e, false)
    else if tab.length ≥ 4096 then (tab, true)
    else ((tab.filter fun e => decide (e.1 < t)) ++ [(t, 1)] ++ tab.filter fun e => decide (t < e.1), false)

/-- Count tokens in order: the table and how many were not counted. -/
def countTokens : List (Nat × Nat) → List Nat → List (Nat × Nat) × Nat
  | tab, [] => (tab, 0)
  | tab, t :: ts =>
    let r := countToken tab t
    let q := countTokens r.1 ts
    (q.1, q.2 + if r.2 then 1 else 0)

/-- The bytes of a count table. -/
def countBytes (tab : List (Nat × Nat)) : List Byte := tab.flatMap fun e => leBytes 8 (2 ^ 63 + e.1 * 2 ^ 32 + e.2)

/-! ### Sampling -/

/-- What SAMPLE gives. -/
structure SampleOut where
  token : Nat
  status : Nat
  short : Bool := false
  nonfinite : Bool := false
  deriving DecidableEq, Repr

/-- fp32 of a count. -/
def f32OfNat (n : Nat) : F32 := f32OfNum (.fin false n 0)

/-- a ≥ b on FP32 numbers. -/
def fge (a b : F32) : Bool := !a.isNan && !b.isNan && !(a.num.lt b.num)
/-- a > b on FP32 numbers. -/
def fgt (a b : F32) : Bool := b.num.lt a.num

/-- The penalised logit of a token counted `n` times (R332). -/
def penalty (c : List Byte) (rinv l : F32) (n : Nat) : F32 :=
  if n = 0 then l
  else
    let l := if fgt l 0#32 then fmul l rinv else fmul l (cF32 c 0xC)
    fsub l (fadd (fmul (cF32 c 0x10) (f32OfNat n)) (cF32 c 0x14))

/-- The first rank at which the running sum passes the test; the number of ranks taken, or all (R332). -/
def runUntil (test : F32 → Bool) : List F32 → F32 → Nat → Option Nat
  | [], _, _ => none
  | e :: es, acc, r => let acc := fadd acc e; if test acc then some r else runUntil test es acc (r + 1)

/-- SAMPLE (R332): logits, context, the count table with drafts, mask (none when MASK_ON is 0), generated so far,
and the draw u. -/
def State.sample (s : State) (c : List Byte) (counts : List (Nat × Nat)) (logits : List F32) (mask : Option (Nat → Bool))
    (gen : Nat) (u : F32) : SampleOut :=
  let rinv := recipf (cF32 c 0xC)
  let countOf (t : Nat) : Nat := ((counts.find? fun e => e.1 == t).map (·.2)).getD 0
  let allowed (t : Nat) : Bool :=
    (match mask with | some m => m t | none => true) && !(cBan c).contains t
      && !(s.tokenEnd t && decide (gen < cMinTokens c))
  let all := (logits.mapIdx fun t l => (t, penalty c rinv l (countOf t))).filter fun p => allowed p.1
  let fin (l : F32) : Bool := !l.isNan && !l.isInf
  let nonfinite := all.any fun p => !fin p.2
  let cand := (all.filter fun p => fin p.2).mergeSort fun a b => fgt a.2 b.2 || (!fgt b.2 a.2 && decide (a.1 ≤ b.1))
  match cand with
  | [] =>
    if (match mask with | some m => m (cEndId c) | none => true) then ⟨cEndId c, psEmptyEnd, false, nonfinite⟩
    else ⟨0, psDeadEnd, false, nonfinite⟩
  | top :: _ =>
    if cF32 c 0 = 0#32 then ⟨top.1, psOk, false, nonfinite⟩
    else
      let k := cTopK c
      let short := decide (k > 0) && decide (cand.length < k)
      let cand := if k > 0 then cand.take k else cand
      let sc := fmul (recipf (cF32 c 0)) constLOG2E
      let sv := cand.map fun p => fmul p.2 sc
      let s0 := sv.headD 0#32
      let e := sv.map fun x => exp2f (fsub x s0)
      let topP := cF32 c 4
      let keep :=
        if fgt one32 topP then
          let thr := fmul topP (treeSum e)
          ((runUntil (fge · thr) e 0#32 0).map (· + 1)).getD e.length
        else e.length
      let minP := cF32 c 8
      let keep := if fgt minP 0#32 then ((e.take keep).takeWhile (fge · minP)).length else keep
      let target := fmul u (treeSum (e.take keep))
      let r := (runUntil (fgt · target) (e.take keep) 0#32 0).getD (keep - 1)
      ⟨(cand.getD r (0, 0#32)).1, psOk, short, nonfinite⟩

/-! ### Seal engine commands -/

def eWord (e : List Byte) : Nat := leAt e 0 64
def eOp (e : List Byte) : Nat := bits (eWord e) 511 504
def eSession (e : List Byte) : Nat := bits (eWord e) 495 432
def eArg (e : List Byte) : Nat := bits (eWord e) 431 384
def eLength (e : List Byte) : Nat := bits (eWord e) 383 352
def eType (e : List Byte) : Nat := bits (eWord e) 351 336
def eSeqA (e : List Byte) : Nat := bits (eWord e) 335 288
def eSeqB (e : List Byte) : Nat := bits (eWord e) 287 240
def eReqTag (e : List Byte) : Nat := bits (eWord e) 239 208
def eEndReason (e : List Byte) : Nat := bits (eWord e) 207 200
def eStopString (e : List Byte) : Nat := bits (eWord e) 199 192
def eStopIndex (e : List Byte) : Nat := bits (eWord e) 191 160
def eVerdict (e : List Byte) : Nat := bits (eWord e) 159 152
def eTag (e : List Byte) : Nat := bits (eWord e) 127 96
def eReserved (e : List Byte) : Bool :=
  bits (eWord e) 503 496 ≠ 0 || bits (eWord e) 151 128 ≠ 0 || bits (eWord e) 95 0 ≠ 0

/-- Seal engine statuses (R347). -/
def esOk : Nat := 0
def esBadOp : Nat := 1
def esRejected : Nat := 2
def esNoSession : Nat := 3
def esMismatch : Nat := 4
def esLogBroken : Nat := 5
def esManifest : Nat := 6

/-- A seal engine command ends. -/
def Act.sealDone (e : List Byte) (status result : Nat) : Act := .complete 0x09 status 0 (eTag e) result

/-- Take the seal engine command at `a`: the oldest queued one of its session (R345). -/
def Act.sealTake (a : Nat) (ops : Nat → Bool) (body : List Byte → Act) : Act :=
  let pop : Act := .modSealer fun x => { x with queue := x.queue.erase a }
  .look fun s =>
    if !s.sealer.queue.contains a then .done
    else
      .takeEntry true a 64 pop (.complete 0x09 esRejected 0 0 0) fun e =>
        if !ops (eOp e) then .done
        else if (s.sealer.queue.find? fun x => eSession (s.readMem x 64) == eSession e) ≠ some a then .done
        else .all [pop, body e]

/-! ### The replay log -/

/-- The entries of a session's log. -/
def State.log (s : State) (session : Nat) : List (List Byte) := s.nand.logs.get (fun _ => []) session

def lSeq (b : List Byte) : Nat := leAt b 0 8
def lType (b : List Byte) : Nat := leAt b 8 2
def lLength (b : List Byte) : Nat := leAt b 0xC 4
def lStep (b : List Byte) : Nat := bits (leAt b 0x10 8) 47 0
def lChain (b : List Byte) : List Byte := (b.drop 0x20).take 48
def lPayload (b : List Byte) : List Byte := (b.drop 96).take (lLength b)

/-- CHAIN of an entry from the chain before it, its first 32 bytes and its payload (R336). -/
def chainOf (prev head payload : List Byte) : List Byte := sha384 (prev ++ head ++ payload)

/-- An entry (R336). -/
def logEntry (seq type step : Nat) (prev payload : List Byte) : List Byte :=
  let head := leBytes 8 seq ++ leBytes 2 type ++ leBytes 2 0 ++ leBytes 4 payload.length ++ leBytes 8 step ++ leBytes 8 0
  head ++ chainOf prev head payload ++ List.replicate 16 0 ++ padMultiple 64 payload

/-- CHAIN of the entry before `seq`; 48 zero bytes before entry 0. -/
def State.chainBefore (s : State) (session seq : Nat) : List Byte :=
  if seq = 0 then List.replicate 48 0 else lChain ((s.log session).getD (seq - 1) [])

/-- Entry `seq` exists, its CHAIN verifies and its payload parses (R337). -/
def State.logOk (s : State) (session seq : Nat) : Bool :=
  let b := (s.log session).getD seq []
  decide (seq < (s.log session).length) && lSeq b == seq
    && lChain b == chainOf (s.chainBefore session seq) (b.take 32) (lPayload b) && Config.parses (lType b) (lPayload b)

/-- Append an entry to a session's log at LOG_SEQ; LOG_SEQ and LOG_LOC of the record are raised (R346). LOG_LOC's
new value is not given. The COMMITTED that STEP takes is brought up to date while a turn runs (assumption 125). -/
def Act.logAppend (i type : Nat) (payload : List Byte) : Act :=
  .look fun t =>
  (Act.when (rState (t.recBytes i) == ssActive) (.showCommitted i)).andThen <| .look fun s =>
    let b := s.recBytes i
    let id := rId b
    let seq := rLogSeq b
    let e := logEntry seq type (rCommitted b) (s.chainBefore id seq) payload
    .all
      [ .modNand fun n => { n with logs := n.logs.put (fun _ => []) id ((n.logs.get (fun _ => []) id).take seq ++ [e]) },
        .writeRec i (setAll b [(0x78, 8, seq + 1), (0x70, 8, (Config.freeWord s.free).toNat)]),
        .one (.takeFree 1) ]

/-! ### Tickets -/

/-- Fields of an OUTPUT payload, whose sizes and places are not given (R337, assumption 6). -/
def outEndReason (p : List Byte) : Nat := Config.field 6 p 0
def outStopString (p : List Byte) : Nat := Config.field 6 p 1
def outStopIndex (p : List Byte) : Nat := Config.field 6 p 2
def outFlags (p : List Byte) : Nat := Config.field 6 p 3
def outTokens (p : List Byte) : Nat := Config.field 6 p 4

/-- First 32 bytes of a digest (R338). -/
def dig32 (b : List Byte) : List Byte := padTo 32 b

/-- The section table entry of a package section: the digest it carries (R485). -/
def sectionDigest (table : List Byte) (type index : Nat) : Option (List Byte) :=
  ((List.range (leAt table 0xC 4)).findSome? fun i =>
    let o := 4096 + 80 * i
    if leAt table o 2 = type ∧ leAt table (o + 4) 4 = index then some ((table.drop (o + 24)).take 48) else none)

/-- STEER_DIGEST of a steering set (R338, R485). -/
def State.steerDigest (s : State) (set : Nat) : List Byte :=
  if set = 0xFFFFFFFF then List.replicate 32 0
  else dig32 ((sectionDigest s.boot.table 3 set).getD [])

/-- The last PARAMS entry at or before `seq` (R338). -/
def State.paramsBefore (s : State) (session seq : Nat) : List Byte :=
  match ((s.log session).take (seq + 1)).reverse.find? fun b => lType b == 5 with
  | some b => lPayload b
  | none => []

/-- SAILING and LEAF of a ticket filled in (R338, R340). -/
def placeTicket (t : List Byte) (sailing leaf : Nat) : List Byte := setAll t [(0x18, 8, sailing), (0x38, 4, leaf)]

/-- The DECISION ticket of a generation, without SAILING and LEAF (R338, R339). -/
def State.ticketOf (s : State) (e b : List Byte) : List Byte :=
  let id := rId b
  let out := (s.log id).getD (eSeqA e) []
  let p := lPayload out
  let flags := outFlags p % 128 + (if s.debugOpen then 128 else 0) + (if rForeign b then 256 else 0)
  leBytes 4 0x10001 ++ leBytes 4 (rTag b) ++ leBytes 8 id ++ leBytes 8 (eSeqA e) ++ leBytes 8 0
    ++ leBytes 8 (lStep out - outTokens p) ++ leBytes 4 (outTokens p) ++ leBytes 4 (eStopIndex e) ++ leBytes 2 flags
    ++ leBytes 1 (eEndReason e) ++ leBytes 1 (eStopString e) ++ leBytes 1 (rProfile b) ++ leBytes 1 (rClass b)
    ++ leBytes 1 0 ++ leBytes 1 0 ++ leBytes 4 0 ++ leBytes 4 0
    ++ dig32 (lChain ((s.log id).getD (eSeqB e) [])) ++ dig32 s.boot.modelDigest ++ s.steerDigest (rSteer b)
    ++ dig32 s.boot.configDigest ++ dig32 (sha384 p) ++ dig32 (sha384 (s.paramsBefore id (eSeqB e)))

/-- A ticket parses (R338). -/
def ticketParses (t : List Byte) : Bool :=
  t.length == 256 && leAt t 0 4 == 0x10001 && bits (leAt t 0x18 8) 63 48 == 0 && bits (leAt t 0x20 8) 63 48 == 0
    && bits (leAt t 0x30 2) 15 9 == 0 && decide (1 ≤ leAt t 0x32 1) && decide (leAt t 0x32 1 ≤ 7)
    && bits (leAt t 0x35 1) 7 2 == 0 && leAt t 0x36 2 == 0 && leAt t 0x3C 4 == 0

/-- Put a ticket into the current set, or into the next one when the current set is full, and report its place
(R340, R346). -/
def Act.placeInSet (e t : List Byte) : Act :=
  .look fun s =>
    let full := decide (s.sealer.set.length ≥ s.get F.SEAL_CFG_MAX_TICKETS)
    let most := max 1 (s.get F.SEAL_CFG_MAX_TICKETS)
    let waits := s.sealer.deferred.length
    let leaf := if full then waits % most else s.sealer.set.length
    let sailing := if full then s.now + 1 + waits / most else s.now
    .all
      [ if full then
          (Act.modSealer fun x => { x with deferred := x.deferred ++ [t] }).andThen (.count .SEAL_DEFER_COUNT)
        else .modSealer fun x => { x with set := x.set ++ [t] },
        .sealDone e esOk (leaf + sailing % 2 ^ 32 * 2 ^ 32) ]

/-- A tenant's sums brought to a period. -/
def TenantSum.at (x : TenantSum) (p : Nat) : TenantSum :=
  if x.period = p then x
  else if x.period + 1 = p then ⟨p, 0, 0, x.turns, x.tokens⟩
  else ⟨p, 0, 0, 0, 0⟩

/-- A DECISION ticket adds to its tenant's sums (R521). -/
def Act.tenantTicket (tenant tokens : Nat) : Act :=
  .look fun s =>
    .modSealer fun x =>
      let t := (x.sums.get (fun _ => {}) tenant).at s.period
      { x with sums := x.sums.put (fun _ => {}) tenant { t with turns := t.turns + 1, tokens := t.tokens + tokens } }

/-! ### The seal -/

/-- The largest power of two below `n` (for n ≥ 2). -/
def splitPoint (n : Nat) : Nat := 2 ^ (n - 1).log2

/-- The Merkle Tree Hash of RFC 9162 with SHA-384 (R340). -/
def merkle : Nat → List (List Byte) → List Byte
  | 0, _ => sha384 []
  | fuel + 1, ts =>
    match ts with
    | [] => sha384 []
    | [t] => sha384 (0 :: t)
    | _ =>
      let k := splitPoint ts.length
      sha384 (1 :: merkle fuel (ts.take k) ++ merkle fuel (ts.drop k))

/-- The 256 bytes of a seal record that are signed (R340). -/
def State.sealBody (s : State) (sailing : Nat) (tickets : List (List Byte)) : List Byte :=
  leBytes 8 sailing ++ leBytes 4 tickets.length ++ leBytes 4 (if s.debugOpen then 1 else 0)
    ++ merkle tickets.length tickets ++ s.sealer.prev ++ deviceDigest ++ s.boot.configDigest ++ List.replicate 48 0

/-- Write bytes into the seal ring at its current place, wrapping (R342). -/
def Act.ringWrite (bs : List Byte) : Act :=
  .look fun s =>
    let size := s.get F.SEAL_RING_SIZE_BYTES
    let o := s.sealer.written % max 1 size
    let base := s.get F.SEAL_RING_BASE_ADDR
    .all
      [ .store (base + o) (bs.take (size - o)), .store base (bs.drop (size - o)),
        .modSealer fun x => { x with written := x.written + bs.length } ]

end Sys2Proof.Machine
end

