-- ==== Sys2Proof/Machine/RclUnit.lean ====
section
/-! DEFINITION. What the recall commands share: commands (R367), index headers (R352), codes and distances
(R353 to R355), stored records (R356), the search (R357, R358), contexts (R365, R366) and the merge (R364). -/

namespace Sys2Proof.Machine

/-! ### Commands -/

def qWord (e : List Byte) : Nat := leAt e 0 128
def qOp (e : List Byte) : Nat := bits (qWord e) 1023 1016
def qHandle (e : List Byte) : Nat := bits (qWord e) 1015 952
def qNumber (e : List Byte) : Nat := bits (qHandle e) 31 0
def qGen (e : List Byte) : Nat := bits (qHandle e) 47 32
def qSession (e : List Byte) : Nat := bits (qWord e) 951 888
def qVec (e : List Byte) : Nat := bits (qWord e) 887 840
def qResult (e : List Byte) : Nat := bits (qWord e) 839 792
def qBitmap (e : List Byte) : Nat := bits (qWord e) 791 744
def qAttr (e : List Byte) : Nat := bits (qWord e) 743 680
def qPredMask (e : List Byte) : Nat := bits (qWord e) 679 616
def qPredValue (e : List Byte) : Nat := bits (qWord e) 615 552
def qPredOn (e : List Byte) : Bool := bit (qWord e) 551
def qPredNeg (e : List Byte) : Bool := bit (qWord e) 550
def qK (e : List Byte) : Nat := bits (qWord e) 549 542 + 1
def qBeam (e : List Byte) : Nat := bits (qWord e) 541 530 + 1
def qBeamMax (e : List Byte) : Nat := bits (qWord e) 529 518 + 1
def qVisitMax (e : List Byte) : Nat := bits (qWord e) 517 502
def qTag (e : List Byte) : Nat := bits (qWord e) 63 32
def qReserved (e : List Byte) : Bool := bits (qWord e) 501 64 ≠ 0 || bits (qWord e) 31 0 ≠ 0

/-- Recall statuses (R369). -/
def qsOk : Nat := 0
def qsShort : Nat := 1
def qsBadOp : Nat := 2
def qsBadHandle : Nat := 3
def qsRejected : Nat := 4
def qsDenied : Nat := 5
def qsManifest : Nat := 6
def qsNonfinite : Nat := 7
def qsNodeCrc : Nat := 8
def qsSideFull : Nat := 9
def qsIdFull : Nat := 0xA
def qsBusy : Nat := 0xB
def qsNotFound : Nat := 0xC

/-- A recall command ends (R369, R374). -/
def Act.rclDone (e : List Byte) (status : Nat) : Act :=
  .all
    [ .when (status == qsDenied) (.count .RCL_DENIED_COUNT),
      .when (decide (status ≤ qsShort) && qOp e == 4) (.count .RCL_QUERY_COUNT),
      .when (status == qsShort) (.count .RCL_SHORT_COUNT),
      .complete 0x0A status 0 (qTag e) 0 ]

/-- A recall command ends REJECTED with a reason (R372). -/
def Act.rclReject (e : List Byte) (reason : Nat) : Act :=
  (Act.set F.RCL_STATUS_REJECT_REASON reason).andThen (.rclDone e qsRejected)

/-- QUEUED and the pipelines' registers show the engine's state (R372, R373). -/
def Act.showRcl : Act :=
  .look fun s =>
    .all
      [ .set F.RCL_STATUS_QUEUED s.rcl.queue.length,
        .each (List.range 8) fun p =>
          let n := (s.rcl.active.filter fun q => q.pipe == p).length
          (Act.set F.RCL_PIPE_STATUS_ACTIVE n p).andThen (.set F.RCL_PIPE_STATUS_SLOTS_USED n p) ]

/-- Take a command out of the queue. -/
def Act.rclPop (a : Nat) : Act :=
  (Act.modRcl fun x => { x with queue := x.queue.erase a, waiting := x.waiting.erase a }).andThen .showRcl

/-- Take the recall command at `a`: INSERT, DELETE, MERGE and DROP in the order posted for their index (R362). A
reserved bit ends it REJECTED. -/
def Act.rclTake (a : Nat) (ops : Nat → Bool) (body : List Byte → Act) : Act :=
  .look fun s =>
    if !s.rcl.queue.contains a || s.ckState == ckCapture then .done
    else
      .takeEntry false a 128 (.rclPop a) (.complete 0x0A qsRejected 0 0 0) fun e =>
        let ordered (x : List Byte) : Bool := qOp x ≠ 4 && qNumber x == qNumber e
        if !ops (qOp e) then .done
        else if qOp e ≠ 4 && (s.rcl.queue.find? fun x => ordered (s.readMem x 128)) ≠ some a then .done
        else if qOp e ≠ 4 && s.rcl.drops.any (fun d => d.2 == qNumber e) then .done
        else body e

/-! ### Index headers -/

def State.idxAddr (s : State) (n : Nat) : Nat := s.get F.RCL_INDEX_BASE_ADDR + 256 * n
def State.idx (s : State) (n : Nat) : List Byte := s.readMem (s.idxAddr n) 256

def iOwner (h : List Byte) : Nat := leAt h 0 8
def iTenant (h : List Byte) : Nat := leAt h 8 2
def iKind (h : List Byte) : Nat := leAt h 0xA 1
def iShared (h : List Byte) : Bool := bits (iKind h) 1 0 == 1
def iRestricted (h : List Byte) : Bool := bit (iKind h) 2
def iInner (h : List Byte) : Bool := bit (iKind h) 3
def iM (h : List Byte) : Nat := leAt h 0xB 1
def iD (h : List Byte) : Nat := leAt h 0xC 2
def iDegree (h : List Byte) : Nat := leAt h 0xE 1
def iState (h : List Byte) : Nat := leAt h 0xF 1
def iGen (h : List Byte) : Nat := leAt h 0x10 2
def iCodebook (h : List Byte) : Nat := leAt h 0x18 8
def iNodes (h : List Byte) : Nat := leAt h 0x20 8
def iSide (h : List Byte) : Nat := leAt h 0x28 8
def iSideCap (h : List Byte) : Nat := leAt h 0x30 4
def iSideCount (h : List Byte) : Nat := leAt h 0x34 4
def iTomb (h : List Byte) : Nat := leAt h 0x38 8
def iNextId (h : List Byte) : Nat := bits (leAt h 0x40 8) 32 0
def iIdCap (h : List Byte) : Nat := bits (leAt h 0x48 8) 32 0
def iEntry (h : List Byte) : Nat := leAt h 0x50 4
def iGraph (h : List Byte) : Nat := leAt h 0x54 4
def iMergeSide (h : List Byte) : Nat := leAt h 0x58 8
def iMergeCount (h : List Byte) : Nat := leAt h 0x60 4

/-- Write a header with a fresh CRC (R352). -/
def Act.writeIdx (n : Nat) (h : List Byte) : Act :=
  .look fun s =>
    let b := (padTo 256 h).take 0xFC
    .store (s.idxAddr n) (b ++ leBytes 4 (crc32c b))

/-- The header verifies. -/
def State.idxOk (s : State) (n : Nat) : Bool :=
  let h := s.idx n
  (s.lostLine (s.idxAddr n) 256).isNone && leAt h 0xFC 4 == crc32c (h.take 0xFC)

/-- The granules of the island that holds an index's header, when its role is HOME or RECALL (R351). -/
def State.idxIsland (s : State) (n : Nat) : Option Nat :=
  match s.hbmKey (s.idxAddr n) with
  | none => none
  | some k =>
    match s.islandOf (k / granuleBytes) with
    | none => none
    | some i =>
      let r := s.get F.CHART_ISLAND_ROLE i
      if r = 1 ∨ r = 4 then some (s.get F.CHART_ISLAND_GRANULES i) else none

/-- A handle names an index that can be used (R351, R352, R362). -/
def State.handleOk (s : State) (e : List Byte) : Bool :=
  let h := s.idx (qNumber e)
  decide (qNumber e < s.get F.RCL_CFG_INDEXES) && decide (bits (qHandle e) 63 48 = 0) && s.idxOk (qNumber e)
    && iGen h == qGen e && iState h ≠ 0 && (s.idxIsland (qNumber e)).isSome
    && !s.rcl.drops.any fun d => d.2 == qNumber e

/-- A template is one that CREATE may install (R352). -/
def templateOk (h : List Byte) : Bool :=
  let k := iKind h
  decide (bits k 1 0 ≤ 1) && !(bit k 2 && bits k 1 0 ≠ 1) && decide (bits k 7 4 = 0)
    && (iM h == 16 || iM h == 32 || iM h == 64)
    && decide (16 ≤ iD h) && decide (iD h ≤ 4096) && decide (iD h % iM h = 0)
    && decide (8 ≤ iDegree h) && decide (iDegree h ≤ 64) && decide (iDegree h % 8 = 0)
    && leAt h 0x12 6 == 0 && decide (bits (leAt h 0x48 8) 63 33 = 0) && decide (iIdCap h ≤ 2 ^ 32)
    && leAt h 0x64 152 == 0

/-! ### Codes and distances -/

/-- Centroid `c` of subspace `j` (R352). -/
def State.centroid (s : State) (h : List Byte) (j c : Nat) : List F32 :=
  let ds := iD h / iM h
  (List.range ds).map fun i => BitVec.ofNat 32 (s.readLE (iCodebook h + 4 * ((j * 256 + c) * ds + i)) 4)

/-- f_j(c) of R354 for the part of a query in subspace `j`. -/
def centroidF (inner : Bool) (q c : List F32) : F32 :=
  if inner then fneg (treeSum (List.zipWith fmul q c))
  else treeSum (List.zipWith (fun a b => let x := fsub a b; fmul x x) q c)

/-- All f_j(c), by subspace (R354). -/
def State.tableF (s : State) (h : List Byte) (q : List F32) : List (List F32) :=
  let ds := iD h / iM h
  (List.range (iM h)).map fun j => (List.range 256).map fun c =>
    centroidF (iInner h) ((q.drop (j * ds)).take ds) (s.centroid h j c)

/-- The smaller of two numbers, the first on a tie. -/
def fminKeep (a b : F32) : F32 := if b.num.lt a.num then b else a

/-- The smallest of a row. -/
def rowMin (r : List F32) : F32 := r.foldl fminKeep (r.headD 0#32)

/-- min(65535, floor(x)) of a number that is not negative; an overflow is above 65,535, and the floor of a NaN is a
free value (R354, assumption 134). -/
def floor16 (x : F32) : Nat :=
  match x.num with
  | .fin _ m e => min 65535 (if e ≥ 0 then m * 2 ^ e.toNat else m / 2 ^ (-e).toNat)
  | _ => if x.isInf then 65535 else min 65535 (Config.floorNan x)

/-- t16 of R354; none when some f is not finite. -/
def distTable (f : List (List F32)) : Option (List (List Nat)) :=
  if f.any fun r => r.any fun x => x.isNan || x.isInf then none
  else
    let off := f.map fun r => let lo := rowMin r; r.map fun x => fsub x lo
    let big (m x : F32) : F32 := if m.num.lt x.num then x else m
    let span : F32 := off.foldl (fun m r => r.foldl big m) 0#32
    let sc : F32 := if (F32.num 0#32).lt span.num then fmul 0x477FFF00#32 (recipf span) else 0#32
    some (off.map fun r => r.map fun x => floor16 (fmul x sc))

/-- DIST of a code (R355). -/
def distOf (t : List (List Nat)) (code : List Byte) : Nat :=
  (List.zipWith (fun (r : List Nat) (b : Byte) => r.getD b.toNat 0) t code).foldl (· + ·) 0

/-- The code of a vector: per subspace the centroid of the smallest f, the lowest on a tie (R353). -/
def encodeVec (f : List (List F32)) : List Byte :=
  f.map fun r =>
    let m := rowMin r
    BitVec.ofNat 8 (((List.range r.length).find? fun c => !(m.num.lt (r.getD c 0#32).num)).getD 0)

/-- The decoded vector of a code (R364). -/
def State.decodeVec (s : State) (h : List Byte) (code : List Byte) : List F32 :=
  (code.mapIdx fun j b => s.centroid h j b.toNat).flatten

/-! ### Stored records -/

/-- A graph node (R356). -/
structure Node where
  code : List Byte
  attr : Nat
  nbrs : List Nat
  deriving DecidableEq, Repr

/-- Bytes of a node record. -/
def nodeSize (h : List Byte) : Nat := ceilDiv (iM h + 16 + 4 * iDegree h) 64 * 64

/-- The record of a node, with its CRC. -/
def nodeBytes (h : List Byte) (n : Node) : List Byte :=
  let a := padTo (iM h) n.code ++ leBytes 8 n.attr ++ leBytes 1 n.nbrs.length ++ leBytes 3 0
  let b := padTo (nodeSize h - iM h - 16) (n.nbrs.flatMap (leBytes 4))
  a ++ leBytes 4 (crc32c (a ++ b)) ++ b

/-- The node of an ID; none when its record fails its CRC (R356). -/
def State.node (s : State) (h : List Byte) (id : Nat) : Option Node :=
  let m := iM h
  let a := iNodes h + id * nodeSize h
  let r := s.readMem a (nodeSize h)
  if (s.lostLine a (nodeSize h)).isNone && leAt r (m + 12) 4 == crc32c (r.take (m + 12) ++ r.drop (m + 16)) then
    some ⟨r.take m, leAt r m 8, (List.range (min (iDegree h) (leAt r (m + 8) 1))).map fun i => leAt r (m + 16 + 4 * i) 4⟩
  else none

/-- Bytes of a side entry. -/
def sideSize (h : List Byte) : Nat := ceilDiv (16 + iM h) 16 * 16

/-- A side entry: ID, CRC, ATTR, code. -/
def sideBytes (h : List Byte) (id attr : Nat) (code : List Byte) : List Byte :=
  padTo (sideSize h)
    (leBytes 4 id ++ leBytes 4 (crc32c (leBytes 4 id ++ leBytes 8 attr ++ code)) ++ leBytes 8 attr ++ code)

/-- Side entries of a list: ID, attribute, code; none when one fails its CRC. -/
def State.sideList (s : State) (h : List Byte) (base count : Nat) : Option (List (Nat × Nat × List Byte)) :=
  (List.range count).mapM fun i =>
    let a := base + i * sideSize h
    let r := s.readMem a (sideSize h)
    let code := (r.drop 16).take (iM h)
    if (s.lostLine a (sideSize h)).isNone && leAt r 4 4 == crc32c (r.take 4 ++ (r.drop 8).take 8 ++ code) then
      some (leAt r 0 4, leAt r 8 8, code)
    else none

/-- The first lost line of an index's codebook and tombstone bitmap (R532). -/
def State.idxLost (s : State) (h : List Byte) : Option Nat :=
  (s.lostLine (iCodebook h) (1024 * iD h)).or (s.lostLine (iTomb h) (ceilDiv (iNextId h) 8))

/-- TOMB bit of an ID. -/
def State.tomb (s : State) (h : List Byte) (id : Nat) : Bool := bit (s.readLE (iTomb h + id / 8) 1) (id % 8)

/-! ### Search -/

/-- Items are ranked by distance, then ID (R355). -/
def keyLt (a b : Nat × Nat) : Bool := decide (a.1 < b.1) || (a.1 == b.1 && decide (a.2 < b.2))

/-- Insert by key. -/
def insertKey (x : Nat × Nat) : List (Nat × Nat) → List (Nat × Nat)
  | [] => [x]
  | y :: ys => if keyLt x y then x :: y :: ys else y :: insertKey x ys

/-- The state of a search: cand, near, seen, best with attributes, visits, beam, widenings. -/
structure Search where
  cand : List (Nat × Nat) := []
  near : List (Nat × Nat) := []
  seen : List Nat := []
  best : List (Nat × Nat) := []
  attrs : SMap Nat := []
  visits : Nat := 0
  beam : Nat := 1
  widened : Nat := 0
  deriving DecidableEq, Repr

/-- consider(y): an eligible item goes into best, at most k (R357). -/
def Search.consider (x : Search) (k : Nat) (ok : Bool) (d id attr : Nat) : Search :=
  if ok then { x with best := (insertKey (d, id) x.best).take k, attrs := x.attrs.set id attr } else x

/-- What a search needs: k, beam limits, the nodes, their distances, eligibility. -/
structure SearchEnv where
  k : Nat
  beamMax : Nat
  visitMax : Nat
  node : Nat → Option Node
  dist : List Byte → Nat
  ok : Nat → Nat → Bool

/-- Neighbours of an expanded node, in list order (R357). -/
def SearchEnv.expand (v : SearchEnv) : List Nat → Search → Option Search
  | [], x => some x
  | y :: ys, x =>
    if x.seen.contains y then v.expand ys x
    else match v.node y with
      | none => none
      | some n =>
        let d := v.dist n.code
        let x := x.consider v.k (v.ok y n.attr) d y n.attr
        v.expand ys
          { x with
            seen := y :: x.seen, cand := insertKey (d, y) x.cand, near := (insertKey (d, y) x.near).take v.beamMax }

/-- The loop of R357; the fuel bounds expansions and widenings. -/
def SearchEnv.loop (v : SearchEnv) : Nat → Search → Option Search
  | 0, x => some x
  | fuel + 1, x =>
    match x.cand with
    | [] => some x
    | c :: cs =>
      if x.visits = v.visitMax then some x
      else if x.near.length ≥ x.beam ∧ keyLt (x.near.getD (x.beam - 1) (0, 0)) c then
        if x.best.length < v.k ∧ x.beam < v.beamMax then
          v.loop fuel { x with beam := min (2 * x.beam) v.beamMax, widened := x.widened + 1 }
        else some x
      else match v.node c.2 with
        | none => none
        | some n => match v.expand n.nbrs { x with cand := cs, visits := x.visits + 1 } with
          | none => none
          | some y => v.loop fuel y

/-- The graph part of R357 from an entry node. -/
def SearchEnv.graph (v : SearchEnv) (entry : Nat) (x : Search) : Option Search :=
  match v.node entry with
  | none => none
  | some n =>
    let d := v.dist n.code
    let x := x.consider v.k (v.ok entry n.attr) d entry n.attr
    v.loop (v.visitMax + 16) { x with cand := [(d, entry)], near := [(d, entry)], seen := [entry] }

/-- An item is eligible for a query (R358). -/
def State.eligible (s : State) (h e : List Byte) (id attr : Nat) : Bool :=
  !s.tomb h id
    && (!qPredOn e || ((attr &&& qPredMask e == qPredValue e) != qPredNeg e))
    && (qBitmap e == 0 || bit (s.readLE (qBitmap e + id / 8) 1) (id % 8))

/-- What a QUERY finds: status, entries, widenings (R357). -/
def State.query (s : State) (h e : List Byte) (q : List F32) : Nat × List (Nat × Nat × Nat) × Nat :=
  match distTable (s.tableF h q) with
  | none => (qsNonfinite, [], 0)
  | some t =>
    let v : SearchEnv := ⟨qK e, qBeamMax e, qVisitMax e, s.node h, distOf t, s.eligible h e⟩
    let sides :=
      match s.sideList h (iMergeSide h) (if iState h = 2 then iMergeCount h else 0),
          s.sideList h (iSide h) (iSideCount h) with
      | some a, some b => some (a ++ b)
      | _, _ => none
    match sides with
    | none => (qsNodeCrc, [], 0)
    | some l =>
      let x := l.foldl (fun x i => x.consider v.k (v.ok i.1 i.2.1) (distOf t i.2.2) i.1 i.2.1)
        ({ beam := qBeam e } : Search)
      match if iGraph h > 0 then v.graph (iEntry h) x else some x with
      | none => (qsNodeCrc, [], 0)
      | some x =>
        (if x.best.length = qK e then qsOk else qsShort,
          x.best.map fun b => (b.1, b.2, (x.attrs.find b.2).getD 0), x.widened)

/-! ### Contexts -/

/-- A free place below a limit. -/
def freePlace (used : List Nat) (limit : Nat) : Option Nat :=
  (List.range (min limit (used.length + 1))).find? fun i => !used.contains i

/-- The pipeline of an island that has the most free contexts, the lower on a tie (R365). -/
def State.rclPipe (s : State) (granules : Nat) : Option Nat :=
  let n (p : Nat) : Nat := (s.rcl.active.filter fun q => q.pipe == p).length
  (bitList 8 granules).foldl (fun best p => match best with
    | none => some p
    | some b => if n p < n b then some p else best) none

/-- A context and a table slot that a query can take: pipeline, context, slot (R365, R366). -/
def State.rclPlace (s : State) (n : Nat) : Option (Nat × Nat × Nat) :=
  match (s.idxIsland n).bind s.rclPipe with
  | none => none
  | some p =>
    let mine := s.rcl.active.filter fun q => q.pipe == p
    match freePlace (mine.map (·.ctx)) 4096, freePlace (mine.map (·.slot)) (s.get F.RCL_CFG_TABLE_SLOTS) with
    | some c, some t => some (p, c, t)
    | _, _ => none

/-- An index is DAMAGED by a record that fails its CRC (R356). -/
def Act.nodeCrc (n tag : Nat) : Act :=
  .look fun s =>
    .all
      [ .count .RCL_NODE_CRC_COUNT, .writeIdx n (setLE (s.idx n) 0xF 1 3),
        .raise .RCL_NODE_CRC { tag := tag, detail := n } ]

/-- A line of an index is lost: what needed it ends as it does when a record fails its CRC (R356, R532, assumption
134). -/
def Act.rclLost (n : Nat) (e : List Byte) (k : Nat) : Act :=
  .all [.lineLost k { tag := qTag e }, .nodeCrc n (qTag e), .rclDone e qsNodeCrc]

/-- A line of what a command names outside its index is lost: the command ends MANIFEST, as for any recall input that
does not verify (R531, R532, assumption 134). -/
def Act.rclInputLost (e : List Byte) (k : Nat) : Act :=
  (Act.entryLost k { tag := qTag e }).andThen (.rclDone e qsManifest)

/-- Bytes of scratch that a query may need (R366). -/
def scratchNeed (h e : List Byte) : Nat := 16 * (qVisitMax e * iDegree h + 1 + qBeamMax e + qK e)

/-- A query fills its table slot with its distance table, subspace by subspace, and its scratch area, whose layout the
spec does not give, with open bytes (R354, R366, assumption 134). -/
def Act.rclAreas (h e : List Byte) (q : List F32) (p c t : Nat) : Act :=
  .look fun s =>
    let off := s.get F.RCL_TABLE_BASE_ADDR + (p % 4 * s.get F.RCL_CFG_TABLE_SLOTS + t) * 32768
    .all
      [ match distTable (s.tableF h q) with
        | some l => .when (decide (off + 32768 ≤ sharedHalf))
            (.storeRaw (sharedBase + p / 4 * sharedHalf + off) (l.flatMap fun r => r.flatMap (leBytes 2)))
        | none => .done,
        .freeStore (s.get F.RCL_SCRATCH_BASE_ADDR + (p * 4096 + c) * s.get F.RCL_CFG_SCRATCH_KIB * 1024)
          (scratchNeed h e) ]

/-- Start a query: it takes a context and a slot and searches the index as it stands (R357, R362); while none is
free it waits. -/
def Act.rclStart (a : Nat) (e : List Byte) : Act :=
  .look fun s =>
    match s.rclPlace (qNumber e) with
    | none => .modRcl fun x => { x with waiting := x.waiting.filter (· ≠ a) ++ [a] }
    | some (p, c, t) =>
      let h := s.idx (qNumber e)
      let q : List F32 := (List.range (iD h)).map fun i => BitVec.ofNat 32 (s.readLE (((clientAddr (qVec e)).getD 0) + 4 * i) 4)
      let r := s.query h e q
      .all
        [ .rclPop a, .rclAreas h e q p c t,
          .modRcl fun x => { x with active := x.active ++ [⟨a, e, qNumber e, p, c, t, r.1, r.2.1, r.2.2, s.epoch⟩] },
          .showRcl,
          .when (r.1 == qsNodeCrc) (.nodeCrc (qNumber e) (qTag e)) ]

/-! ### Merge -/

/-- A graph held while a merge builds it. -/
abbrev Graph := SMap (Option Node)

def Graph.at (g : Graph) (id : Nat) : Option Node := SMap.get (fun _ => none) g id
def Graph.with (g : Graph) (id : Nat) (n : Node) : Graph := SMap.put (fun _ => none) g id (some n)

/-- At most `n` of a list of IDs, the choice left open (assumption 134). -/
def openPick (n : Nat) (ids : List Nat) : List Nat := ids.filter ((Config.closestOpen n ids).contains ·) |>.take n

/-- The `n` closest of a list of IDs to a code (R364). -/
def State.closest (s : State) (h : List Byte) (g : Graph) (code : List Byte) (n : Nat) (ids : List Nat) : List Nat :=
  match distTable (s.tableF h (s.decodeVec h code)) with
  | none => openPick n ids
  | some t =>
    ((ids.foldl (fun l i => insertKey (distOf t ((g.at i).getD ⟨[], 0, []⟩).code, i) l) []).take n).map (·.2)

/-- A list without repeats, in order of first appearance. -/
def nodupNat (l : List Nat) : List Nat := l.foldl (fun acc x => if acc.contains x then acc else acc ++ [x]) []

/-- The nodes that the graph holds: IDs below the first side item (R361, R364). -/
def graphIds (h : List Byte) : Nat := iNextId h - iSideCount h - iMergeCount h

/-- Step 2 of R364: live nodes copied, tombstoned ones made zero. -/
def State.mergeCopy (s : State) (h : List Byte) : Option Graph :=
  (List.range (graphIds h)).foldlM (fun g i =>
    if s.tomb h i then some (Graph.with g i ⟨List.replicate (iM h) 0, 0, []⟩)
    else (s.node h i).map (Graph.with g i)) []

/-- Step 3: repair of a live node that names tombstoned ones. -/
def State.mergeRepair (s : State) (h : List Byte) (g : Graph) : Option Graph :=
  (List.range (graphIds h)).foldlM (fun acc i =>
    if s.tomb h i then some acc
    else match g.at i with
      | none => some acc
      | some v =>
        if !(v.nbrs.any (s.tomb h)) then some acc
        else
          match (v.nbrs.filter (s.tomb h)).mapM (s.node h) with
          | none => none
          | some dead =>
            let cands := nodupNat ((v.nbrs ++ dead.flatMap (·.nbrs)).filter fun j => !s.tomb h j && j ≠ i)
            some (Graph.with acc i { v with nbrs := s.closest h g v.code (iDegree h) cands })) g

/-- The graph under construction: its nodes, entry, and count of live nodes. -/
structure Building where
  graph : Graph
  entry : Nat
  count : Nat

/-- Step 4 for one side item (R364). -/
def State.mergeInsert (s : State) (h : List Byte) (b : Building) (i : Nat × Nat × List Byte) : Option Building :=
  let deg := iDegree h
  if b.count = 0 then some ⟨b.graph.with i.1 ⟨i.2.2, i.2.1, []⟩, i.1, 1⟩
  else
    let near : Option (List Nat) :=
      match distTable (s.tableF h (s.decodeVec h i.2.2)) with
      | none => some (openPick deg (b.graph.map (·.1)))
      | some t =>
        let v : SearchEnv := ⟨deg, 2 * deg, 65535, b.graph.at, distOf t, fun _ _ => true⟩
        (v.graph b.entry { beam := 2 * deg }).map fun x => x.best.map (·.2)
    near.map fun found =>
      let g := b.graph.with i.1 ⟨i.2.2, i.2.1, found⟩
      let g := found.foldl (fun g r =>
        match g.at r with
        | none => g
        | some n =>
          let l := n.nbrs ++ [i.1]
          g.with r { n with nbrs := if l.length ≤ deg then l else s.closest h g n.code deg l }) g
      ⟨g, b.entry, b.count + 1⟩

/-- Steps 2 to 5 of R364: the new graph; none when a record fails its CRC. -/
def State.merge (s : State) (h : List Byte) : Option Building :=
  match s.sideList h (iMergeSide h) (iMergeCount h), s.mergeCopy h with
  | some side, some g0 =>
    match s.mergeRepair h g0 with
    | none => none
    | some g =>
      let live := ((List.range (graphIds h)).filter fun i => !s.tomb h i).length
      match (side.filter fun i => !s.tomb h i.1).foldlM (s.mergeInsert h) ⟨g, iEntry h, live⟩ with
      | none => none
      | some b =>
        let lowest := ((List.range (iNextId h)).find? fun i => !s.tomb h i && (b.graph.at i).isSome).getD 0
        some (if b.count > 0 ∧ s.tomb h b.entry then { b with entry := lowest } else b)
  | _, _ => none

end Sys2Proof.Machine
end

