-- ==== Sys2Proof/Machine/ChartUnit.lean ====
section
/-! DEFINITION. Islands and the chart (R375 to R389, R597): reading and checking a chart, what becoming current does,
quiet islands, release of granules, forced ends, and the island windows. -/

namespace Sys2Proof.Machine

/-- The islands of a device entry, by number (R379). -/
def entryIslands (b : List Byte) : List (Nat × Island) :=
  (List.range 8).filterMap fun i =>
    let g := entryGranules b i
    if g = 0 then none else some (i, ⟨entryRole b i, g, entryAssign b i⟩)

/-- A device entry follows R379: reserved fields are zero, absent islands have role and ASSIGN 0, present ones no
reserved role. -/
def entryOk (b : List Byte) : Bool :=
  bits (leAt b 0x12 2) 15 1 = 0 && bits (leAt b 0x14 4) 31 24 = 0
    && (List.range 8).all (fun g => bits (leAt b (0x18 + g) 1) 7 3 = 0)
    && leAt b 0x30 16 = 0
    && (List.range 8).all fun i =>
      if entryGranules b i = 0 then decide (entryRole b i = 0) && decide (entryAssign b i = 0)
      else decide (entryRole b i ≤ 4)

/-- A device entry follows R378 under the masks of CHART_CFG. -/
def masksOk (isl : List (Nat × Island)) (home layer : Nat) : Bool :=
  let of (r : Nat) := isl.filter fun i => i.2.role == r
  (if home = 0 then (of roleHome).isEmpty else decide ((of roleHome).map (·.2.granules) = [home]))
    && ((of roleLayer).isEmpty || decide ((of roleLayer).map (·.2.granules) = [layer]))
    && decide (home &&& layer = 0)

/-- The epoch after another (R379). -/
def nextEpoch (e : Nat) : Nat := if e ≥ 0xFFFFFFFF then 1 else e + 1

/-- STATE codes of CHART_ISLAND (R394). -/
def isAbsent : Nat := 0
def isForming : Nat := 1
def isActive : Nat := 2

def State.islandState (s : State) (i : Nat) : Nat := s.get F.CHART_ISLAND_STATE i

/-- The old island of a number is LEAVING (R383). -/
def State.leaving (s : State) (i : Nat) : Option Island := s.chart.old.get (fun _ => none) i

/-- The LEAVING islands. -/
def State.leavers (s : State) : List (Nat × Island) :=
  (List.range 8).filterMap fun i => (s.leaving i).map fun x => (i, x)

/-- Granules that LEAVING islands hold. -/
def State.heldGranules (s : State) : Nat := s.leavers.foldl (fun m x => m ||| x.2.granules) 0

/-! ### Staging (R381) -/

/-- Why a chart cannot be staged; 0 when it can. When several reasons hold, the one of the lowest code is given. -/
def State.stageReason (s : State) (e : Nat) : Nat :=
  let base := s.chartBuffer e
  let h := s.readMem base 128
  let n := leAt h 0x10 4
  let sized := decide (1 ≤ n) && decide (n ≤ 65536)
  let body := s.readMem (base + 128) (64 * n)
  let bad (a len : Nat) : Bool := !s.hbmRange a len || (s.lostLine a len).isSome
  let epoch := leAt h 4 4
  let eff := bits (leAt h 8 8) 47 0
  let first := s.stopped && !s.flag F.CHART_STATUS_HAVE_CHART
  let resume := s.ckState == ckResume && decide (epoch > s.epoch)
  let own := s.ownEntry e
  let ascending := (List.range (n - 1)).all fun i => decide (beAddr (s.chartEntry e i) < beAddr (s.chartEntry e (i + 1)))
  if bad base 128 || decide (crc32c (h.take 124) ≠ leAt h 0x7C 4) then 1
  else if sized && (bad (base + 128) (64 * n) || decide (sha384 body ≠ (h.drop 0x20).take 48)) then 1
  else if leAt h 0 2 ≠ 1 || leAt h 2 2 ≠ 0 || leAt h 0xE 2 ≠ 0 || leAt h 0x14 12 ≠ 0 || leAt h 0x50 44 ≠ 0 || !sized then 2
  else if epoch = 0 || (!first && !resume && (epoch ≠ nextEpoch s.epoch || epoch ≠ e)) then 3
  else if !first && s.flag F.CHART_STATUS_PREV_LIVE then 4
  else if !first && !resume && eff < s.now + 2 then 5
  else if !ascending || own.isNone then 6
  else if !(own.map entryOk).getD false then 7
  else if !masksOk (entryIslands (own.getD [])) (s.get F.CHART_CFG_HOME_MASK) (s.get F.CHART_CFG_LAYER_MASK) then 8
  else match s.chart.staged with
    | some x =>
      if x.epoch = epoch ∧ (x.effective ≤ s.now ∨ (x.effective = s.now + 1 ∧ s.phase = 2)) then 9 else 0
    | none => 0

/-- CHART_STATUS and CHART_EFFECTIVE show the staged chart (R393). -/
def Act.setStaged (x : Option StagedChart) : Act :=
  .all
    [ .modChart fun c => { c with staged := x },
      .set F.CHART_STATUS_STAGED_EPOCH ((x.map (·.epoch)).getD 0),
      .setFlag F.CHART_STATUS_STAGED x.isSome,
      .set F.CHART_EFFECTIVE_SAILING ((x.map (·.effective)).getD 0) ]

/-! ### Quiet islands (R384) -/

/-- Cores and ferries of granules (R375). -/
def coresOf (granules : Nat) : List Nat := (bitList 8 granules).flatMap fun g => (List.range 10).map (10 * g + ·)
def ferriesOf (granules : Nat) : List Nat := (bitList 8 granules).flatMap fun g => (List.range 4).map (4 * g + ·)

/-- A device address lies in the stacks of granules. -/
def State.inGranules (s : State) (granules a : Nat) : Bool :=
  match s.hbmKey a with
  | some k => bit granules (k / granuleBytes)
  | none => false

/-- The index headers in the stacks of an island with a STATE other than FREE (R384). -/
def State.liveIndexes (s : State) (granules : Nat) : List Nat :=
  (List.range (s.get F.RCL_CFG_INDEXES)).filter fun n =>
    let a := s.get F.RCL_INDEX_BASE_ADDR + 256 * n
    s.inGranules granules a && s.readLE (a + 0xF) 1 ≠ 0

/-- The condition of R384 for a role. -/
def State.roleQuiet (s : State) (x : Island) : Bool :=
  if x.role = roleLayer then
    (List.range 4).all (fun c => s.get F.BERTH_IN_USE_COUNT c == 0) && s.berth.queue.isEmpty && s.berth.laps.isEmpty
      && s.berth.saves.isEmpty && s.berth.loads.isEmpty && s.tier.shares.isEmpty
  else if x.role = roleExpert then
    (coresOf x.granules).all (fun c => (s.flightsOf c).isEmpty && (s.sail.carry.get (fun _ => []) c).isEmpty)
      && (ferriesOf x.granules).all fun f => !(s.tier.xfers.any fun t => t.ferry == f)
  else if x.role = roleRecall then
    !(s.rcl.active.any fun q => s.inGranules x.granules (s.get F.RCL_INDEX_BASE_ADDR + 256 * q.index))
      && (s.liveIndexes x.granules).isEmpty
  else decide (x.role = roleOff)

/-- An old island is quiet (R384). -/
def State.quiet (s : State) (i : Nat) (x : Island) : Bool := decide (s.drainCount i = 0) && s.roleQuiet x

/-- CHART_ISLAND[i] as a read gives it: QUIET says whether island `i` of the current chart would be quiet at the time of the
read (R384, R394). -/
def State.islandRead (s : State) (i : Nat) : Nat :=
  let q := match s.islands.find? fun x => x.1 == i with
    | some x => s.quiet i x.2
    | none => false
  putBits (s.reg .CHART_ISLAND i).toNat 24 24 (if q then 1 else 0)

/-! ### Windows and release (R383, R597) -/

/-- The island windows as the charts stand: LEAVING islands first, then ACTIVE ones (R597). -/
def State.windowMap (s : State) : SMap Nat :=
  let low (m : Nat) : Nat := (bitList 8 m).headD 0
  let put (m : SMap Nat) (g v : Nat) : SMap Nat := if m.get (fun _ => 0) g = 0 then m.put (fun _ => 0) g v else m
  let old := s.leavers.foldl (fun m x => if x.2.role = roleOff then m else put m (low x.2.granules) x.2.granules) []
  s.islands.foldl
    (fun m x =>
      if x.2.role = roleOff ∨ s.islandState x.1 ≠ isActive then m else put m (low x.2.granules) x.2.granules) old

/-- The windows follow the charts. -/
def Act.mapWindows : Act := .look fun s => .modChart fun c => { c with windows := s.windowMap }

/-- The contents of a granule's general-use HBM are not kept (R383): what was written there is undefined from now on
(assumption 3). -/
def Act.loseGranule (g : Nat) : Act :=
  .look fun s =>
    let cells := s.mem.filter fun e => decide (g * granuleBytes ≤ e.1) && decide (e.1 < (g + 1) * granuleBytes)
    .all
      [ .each (cells.zipIdx) fun e => .one (.mem e.1.1 [Config.freeByte (s.free + e.2)]),
        .one (.takeFree cells.length) ]

/-- A granule loses its power: it keeps nothing (R376, R579). -/
def Act.darkenGranule (g : Nat) : Act :=
  .all
    [ .one (.wipe (g * granuleBytes) ((g + 1) * granuleBytes)),
      .each (List.range 10) fun c => .one (.wipeLs (10 * g + c) 0 0xC00000),
      .modChart fun c => { c with dark := c.dark ||| 2 ^ g } ]

/-- Granules are released: those that join an OFF island are powered down (R383). -/
def Act.releaseGranules (mask : Nat) : Act :=
  .look fun s =>
    .each (bitList 8 mask) fun g =>
      if s.islands.any fun x => x.2.role == roleOff && bit x.2.granules g then .darkenGranule g else .loseGranule g

/-- A LEAVING island has ended: its granules are released (R383, R385). -/
def Act.islandLeaves (i : Nat) (x : Island) : Act :=
  .all
    [ .modChart fun c => { c with old := c.old.put (fun _ => none) i none },
      .setFlag F.CHART_ISLAND_OLD_LEAVING false i,
      .releaseGranules x.granules,
      .modMct fun m => { m with staged := m.staged.filter fun y => hdrIsland y.pkt.hdr ≠ i },
      .mapWindows ]

/-! ### A chart becomes current (R381 to R383) -/

/-- Show an island of the current chart (R394). -/
def Act.showIsland (i : Nat) (x : Option Island) (st : Nat) : Act :=
  .all
    [ .set F.CHART_ISLAND_ROLE ((x.map (·.role)).getD 0) i,
      .set F.CHART_ISLAND_STATE st i,
      .set F.CHART_ISLAND_ASSIGN ((x.map (·.assign)).getD 0) i,
      .set F.CHART_ISLAND_GRANULES ((x.map (·.granules)).getD 0) i ]

/-- One island number under a new chart: unchanged, or the old island ends and the new one forms (R383). A chart that
ends an island clears the causes of its degradation (R548). -/
def Act.changeIsland (i : Nat) (old new : Option Island) : Act :=
  .look fun s =>
    if old = new then .done
    else
      .all
        [ .when (s.flag F.CHART_ISLAND_DEGRADED i)
            (.all
              [ .setFlag F.CHART_ISLAND_DEGRADED false i,
                .one (.emit (.degraded i ((s.chart.causes.get (fun _ => []) i).headD 0) false)) ]),
          .modChart fun c => { c with causes := c.causes.put (fun _ => []) i [] },
          match old with
          | none => .done
          | some x =>
            .all
              [ .modChart fun c => { c with old := c.old.put (fun _ => none) i (some x) },
                .setFlag F.CHART_ISLAND_OLD_LEAVING true i ],
          .showIsland i new (if new.isSome then isForming else isAbsent) ]

/-- The staged chart becomes current, and the former one becomes the previous one (R383). -/
def Act.applyChart (x : StagedChart) (from_ : Nat) : Act :=
  .look fun s =>
    let old := (List.range 8).map fun i => (s.islands.find? fun y => y.1 == i).map (·.2)
    let new := (List.range 8).map fun i => x.islands[i]?.bind fun y => if y.granules = 0 then none else some y
    .all
      [ .setStaged none,
        .set F.CHART_STATUS_PREVIOUS s.epoch, .setFlag F.CHART_STATUS_PREV_LIVE true,
        .set F.CHART_STATUS_CURRENT x.epoch,
        .modChart fun c =>
          { c with
            since := from_,
            prev := (old.zipIdx.filterMap fun e => e.1.map fun y => (e.2, some y)) },
        .showDrain,
        .each (List.range 8) fun i => .changeIsland i (old.getD i none) (new.getD i none),
        .look fun s => .each s.leavers fun y => .look fun s => .when (s.quiet y.1 y.2) (.islandLeaves y.1 y.2),
        .mapWindows,
        .count .CHART_APPLY_COUNT, .interrupt 0x43 ]

/-- The first chart becomes current at once: there is no previous one, and its islands are ACTIVE (R381). -/
def Act.firstChart (x : StagedChart) : Act :=
  .look fun s =>
    .all
      [ .set F.CHART_STATUS_CURRENT x.epoch, .setFlag F.CHART_STATUS_HAVE_CHART true,
        .modChart fun c =>
          { c with
            since := s.now,
            dark := x.islands.foldl (fun m y => if y.role = roleOff then m ||| y.granules else m) 0 },
        .each (List.range 8) fun i =>
          match x.islands[i]? with
          | some y => if y.granules = 0 then .showIsland i none isAbsent else .showIsland i (some y) isActive
          | none => .done,
        .mapWindows, .count .CHART_APPLY_COUNT, .interrupt 0x43 ]

/-- The chart that an entry of a buffer gives. -/
def State.chartOf (s : State) (e : Nat) : StagedChart :=
  let h := s.readMem (s.chartBuffer e) 128
  let own := (s.ownEntry e).getD []
  ⟨leAt h 4 4, bits (leAt h 8 8) 47 0,
    (List.range 8).map fun i => ⟨entryRole own i, entryGranules own i, entryAssign own i⟩⟩

/-- Stage the chart in the buffer of an epoch, or reject it (R381). -/
def Act.stageChart (e : Nat) : Act :=
  .look fun s =>
    let r := s.stageReason e
    if r ≠ 0 then
      .all
        [ .set F.CHART_STATUS_REJECT_REASON r, .count .CHART_REJECT_COUNT, .raise .CHART_REJECTED { detail := r } ]
    else if s.stopped && !s.flag F.CHART_STATUS_HAVE_CHART then .firstChart (s.chartOf e)
    else .setStaged (some (s.chartOf e))

/-! ### Forced end (R386) -/

/-- Close every berth that is open: the share of its session is lost (R386). -/
def Act.closeAllBerths : Act :=
  .each (List.range 4) fun c =>
    .look fun s =>
      .each (List.range (s.get F.BERTH_CLASS_COUNT c)) fun n =>
        .look fun s =>
          let h := s.header c n
          .when (hOpen h)
            (.all
              [ .one (.emit (.shareLost (hSession h))),
                .clearBerth c n,
                .set F.BERTH_IN_USE_COUNT (s.get F.BERTH_IN_USE_COUNT c - 1) c ])

/-- A running query ends with CHART_MOVED (R386, R388). -/
def Act.queryMoved (q : RclQuery) : Act :=
  .all
    [ .modRcl fun y =>
        { y with
          active := y.active.erase q
          merges := y.merges.map fun m => { m with before := m.before.erase (q.pipe, q.ctx) } },
      .showRcl, .complete 0x0A (Config.mctStatus 0).toNat 0 (qTag q.entry) 0, .raise .CHART_MOVED { tag := qTag q.entry } ]

/-- An old island is ended by force (R386). -/
def Act.forceLeave (i : Nat) (x : Island) : Act :=
  .look fun s =>
    .all
      [ .count .CHART_LEAVE_TIMEOUT_COUNT, .raise .CHART_LEAVE_TIMEOUT { detail := i },
        .each (s.mct.ops.filter fun o => o.island == i && o.epoch == s.get F.CHART_STATUS_PREVIOUS) .opMoved,
        .when (x.role == roleLayer)
          (.all
            [ .look fun s => .each s.tier.shares fun m => .shareCancel m.session,
              .look fun s =>
                .each s.berth.queue fun a =>
                  .look fun s => .berthDone (s.entry256 a) bsCancelled,
              .modBerth fun b => { b with queue := [], laps := [], saves := [], loads := [] },
              .closeAllBerths ]),
        .when (x.role == roleExpert)
          (.all
            [ .each (coresOf x.granules) fun c =>
                .all
                  [ .each allPaths fun p => .look fun s => .when (s.flight c p).isSome (.faultFlight c p),
                    .modSail fun y => { y with carry := y.carry.put (fun _ => []) c [] } ],
              .look fun s =>
                .each (s.tier.xfers.filter fun t => (ferriesOf x.granules).contains t.ferry) fun t =>
                  .all [.dropXfer t, .when (t.phase ≠ 0) (.freeDest t), .ferryEnds t.ferry t.desc fsCancelled] ]),
        .when (x.role == roleRecall)
          (.look fun s =>
            (Act.each (s.rcl.active.filter fun q => s.inGranules x.granules (s.idxAddr q.index)) .queryMoved).andThen
              (.each (s.liveIndexes x.granules) fun n => .look fun s => .writeIdx n (setLE (s.idx n) 0xF 1 3))),
        .islandLeaves i x ]

end Sys2Proof.Machine
end

