-- ==== Sys2Proof/Machine/BootUnit.lean ====
section
/-! DEFINITION. Start-up stages (R473, R482, R491) and what the islands need of the model package (R485, R487). -/

namespace Sys2Proof.Machine

/-- Start-up stages (R473). -/
def sgRom : Nat := 0
def sgImage : Nat := 1
def sgMemory : Nat := 3
def sgLinks : Nat := 4
def sgChart : Nat := 5
def sgPackage : Nat := 6
def sgTime : Nat := 7
def sgHeld : Nat := 8
def sgRunning : Nat := 9
def sgStopped : Nat := 0xA
def sgRecovery : Nat := 0xB

def State.stage (s : State) : Nat := s.get F.CFG_STATUS_STAGE

/-- Start-up stops with an error (R482). -/
def Act.stopStart (e : Err) (detail : Nat := 0) : Act :=
  .all
    [ .set F.CFG_STATUS_ERROR (e.code % 256), .set F.CFG_STATUS_STAGE sgStopped, .raise e { detail := detail } ]

/-! ### The model package (R485 to R489) -/

/-- An entry of the package's section table (R485). -/
structure PkgEntry where
  type : Nat
  index : Nat
  off : Nat
  len : Nat
  digest : List Byte
  deriving DecidableEq, Repr

/-- The entries of a header and table. -/
def pkgEntries (t : List Byte) : List PkgEntry :=
  (List.range (leAt t 0xC 4)).map fun i =>
    let o := 4096 + 80 * i
    ⟨leAt t o 2, leAt t (o + 4) 4, leAt t (o + 8) 8, leAt t (o + 16) 8, (t.drop (o + 24)).take 48⟩

/-- Bytes of the header and table of a package whose header is given. -/
def pkgTableBytes (header : List Byte) : Nat := 4096 + 80 * leAt header 0xC 4

/-- An island needs a package section (R487). -/
def State.islandNeeds (s : State) (x : Island) (type index : Nat) : Bool :=
  if x.role = roleHome then [4, 5, 7].contains type
  else if x.role = roleLayer then
    type == 3 || (type == 1 && decide (x.assign ≤ index) && decide (index < x.assign + s.get F.BERTH_SHAPE_LAYERS))
  else if x.role = roleExpert then type == 2 && Config.holdsExpert x.assign (index % 256)
  else false

/-- The device needs a package section under the current chart (R487). -/
def State.needsSection (s : State) (type index : Nat) : Bool :=
  s.islands.any fun i => s.islandNeeds i.2 type index

/-- A section has landed and verified. -/
def State.landed (s : State) (type index : Nat) : Bool := (s.boot.sections.find (pkgKey type index)).isSome

/-- The package's table and every section that the islands need have been verified (R487, R489). -/
def State.packageUp (s : State) : Bool :=
  !s.boot.table.isEmpty
    && (pkgEntries s.boot.table).all fun e => !s.needsSection e.type e.index || s.landed e.type e.index

/-! ### Stages (R473) -/

/-- The time state that TIME_WAIT waits for: LOCKED, or HOLDOVER on 1PPS (R12, R16, R473). -/
def State.timeReady (s : State) : Bool :=
  s.get F.SAIL_STATUS_TIME_STATE == 2 || (s.get F.SAIL_STATUS_TIME_STATE == 1 && s.sail.ppsPresent)

/-- The stage that start-up has reached once FIELDS has passed: the first whose work is not done. -/
def State.reached (s : State) : Nat :=
  if !s.boot.zeroed then sgMemory
  else if s.ports.any fun p => s.get F.FAB_PORT_STATUS_STATE p == psTraining && decide (0 < (s.portLanes p).2) then sgLinks
  else if !s.flag F.CHART_STATUS_HAVE_CHART then sgChart
  else if !s.packageUp then sgPackage
  else if s.timeReady && s.boot.held then sgHeld
  else sgTime

/-- Start-up moves on as far as its inputs allow; it never goes back to an earlier stage (R473). -/
def Act.advanceStage : Act :=
  .look fun s =>
    .when (decide (sgMemory ≤ s.stage) && decide (s.stage ≤ sgTime))
      (.set F.CFG_STATUS_STAGE (max s.stage s.reached))

/-! ### Locked writes (R483) -/

/-- A locked write at a BAR0 offset is flagged and counted; the first one's offset is kept (R483). -/
def Act.lockedWrite (off : Nat) : Act :=
  .look fun s =>
    .all
      [ .when (!s.flag F.CFG_STATUS_LOCKED_WRITE) (.set F.CFG_LOCKED_ADDR_OFFSET off),
        .setFlag F.CFG_STATUS_LOCKED_WRITE true, .count .CFG_LOCKED_WRITE_COUNT ]

end Sys2Proof.Machine
end

