-- ==== Sys2Proof/Machine/Chart.lean ====
section
/-! DEFINITION. Chart commands (R381 to R389). -/

namespace Sys2Proof.Machine

/-- CHART_STAGE: a write of EPOCH stages the chart of its buffer, or rejects it (R381, R392); start-up goes on
once it has a current chart (R473). -/
def execChartStage (agent : Agent) (epoch : BitVec 32) (s : State) : Host.Outcome State Fault Refusal :=
  (Act.command <| .byCore agent <|
    .all [.set F.CHART_STAGE_EPOCH epoch.toNat, .stageChart epoch.toNat, .advanceStage]).outcome s

/-- CHART_APPLY: in the LATCH of sailing EFFECTIVE the staged chart becomes current (R383). -/
def execChartApply (s : State) : Host.Outcome State Fault Refusal :=
  (Act.command <| .look fun s =>
    match s.chart.staged with
    | some x => .when (s.phase == 0 && decide (x.effective = s.now)) (.applyChart x s.now)
    | none => .done).outcome s

/-- ISLAND_QUIET_RELEASE: a LEAVING island that is quiet at LATCH releases its granules (R384, R385). -/
def execIslandQuietRelease (island : Fin 8) (s : State) : Host.Outcome State Fault Refusal :=
  (Act.command <| .look fun s =>
    match s.leaving island with
    | some x => .when (s.phase == 0 && s.quiet island x) (.islandLeaves island x)
    | none => .done).outcome s

/-- ISLAND_ACTIVATE: a FORMING island becomes ACTIVE at LATCH once its granules are released and, where they were OFF,
powered up and zeroed, as `powered` reports (R383, R597). -/
def execIslandActivate (island : Fin 8) (powered : BitVec 8) (s : State) : Host.Outcome State Fault Refusal :=
  (Act.command <| .look fun s =>
    let g := s.get F.CHART_ISLAND_GRANULES island
    let off := s.get F.CHART_ISLAND_ROLE island == roleOff
    .when (s.phase == 0 && s.islandState island == isForming && decide (g &&& s.heldGranules = 0)
        && (off || decide (g &&& s.chart.dark &&& (255 - powered.toNat) = 0)))
      (.all
        [ .set F.CHART_ISLAND_STATE isActive island,
          .when (!off) (.modChart fun c => { c with dark := c.dark &&& (255 - g) }),
          .mapWindows ])).outcome s

/-- LEAVE_TIMEOUT: an island still LEAVING after LEAVE_LIMIT sailings, and not quiet, is ended by force (R386). -/
def execLeaveTimeout (island : Fin 8) (s : State) : Host.Outcome State Fault Refusal :=
  (Act.command <| .look fun s =>
    match s.leaving island with
    | some x =>
      .when (decide (s.chart.since + s.get F.CHART_CFG_LEAVE_LIMIT ≤ s.now) && !s.quiet island x)
        (.forceLeave island x)
    | none => .done).outcome s

/-- EPOCH_RETIRE: the previous epoch retires at a LATCH, and a notice goes to the chart service (R389). -/
def execEpochRetire (s : State) : Host.Outcome State Fault Refusal :=
  (Act.command <| .look fun s =>
    .when (s.phase == 0 && s.flag F.CHART_STATUS_PREV_LIVE && s.leavers.isEmpty
        && (List.range 8).all (fun i => s.islandState i ≠ isForming && decide (s.drainCount i = 0))
        && decide (s.chart.since + s.get F.CHART_CFG_GRACE ≤ s.now))
      (.all
        [ .setFlag F.CHART_STATUS_PREV_LIVE false,
          .modChart fun c => { c with prev := [] },
          .modMct fun m => { m with notices := m.notices ++ [s.get F.CHART_STATUS_PREVIOUS] },
          .showDrain ])).outcome s

end Sys2Proof.Machine
end

