-- ==== Sys2Proof/Machine/Ckpt.lean ====
section
/-! DEFINITION. Checkpoint commands (R266 to R288): capture, drain and commit on both sides, abandonment, restore and
resumption. -/

namespace Sys2Proof.Machine

/-! ### Capture -/

/-- A new buddy or source takes effect; a new buddy gets a complete drain first (R278, R292). -/
def Act.takeBuddy : Act :=
  .look fun s =>
    let b := s.get F.CKPT_BUDDY_ADDR
    .all
      [ .when (decide (b ≠ s.ckpt.buddy)) (.modNmu fun n => { n with dirty := ⟨true, [], []⟩ }),
        .modCkpt fun c => { c with buddy := b, source := s.get F.CKPT_SOURCE_ADDR } ]

/-- CKPT_CAPTURE_START: at a capture sailing checkpoint k is skipped while an earlier one still drains; otherwise its
capture begins and cut messages go to the crew, `at_` ps after the boundary (R266, R267, R271, R292). -/
def execCkptCaptureStart (at_ : BitVec 40) (s : State) : Host.Outcome State Fault Refusal :=
  (Act.command <|
    .look fun s =>
      match s.scheduled s.now with
      | none => .done
      | some k =>
        if s.phase ≠ 0 ∨ s.captureAt k ≠ s.now ∨ s.ckpt.skipped = k ∨ s.ckpt.number = k then .done
        else if s.ckState = ckDrain then
          .all
            [ .modCkpt fun c => { c with skipped := k }, .set F.CKPT_CONTROL_READY 0,
              .set F.CKPT_STATUS_LAST_RESULT 2, .count .CKPT_SKIP_COUNT, .raise .CKPT_SKIPPED { detail := k } ]
        else
          .when (s.ckState == ckIdle)
            (.all
              [ .takeBuddy,
                .modCkpt fun c => { c with number := k, at_ := s.now, stream := [], sent := false, snap := none },
                .set F.CKPT_STATUS_STATE ckCapture, .interrupt 0x40,
                .each s.crewPeers fun p =>
                  .mctSend p 4 at_.toNat { type_ := mtCut, origin := s.selfAddr, epoch := s.epoch, payload := leBytes 8 k } ])).outcome s

/-- CKPT_READY: control core i sets its READY bit (R271, R293). -/
def execCkptReady (core : Fin 16) (s : State) : Host.Outcome State Fault Refusal :=
  (Act.command <|
    .look fun s => .set F.CKPT_CONTROL_READY (s.get F.CKPT_CONTROL_READY ||| 2 ^ core.val)).outcome s

/-- CKPT_CAPTURE_POINT: every READY bit, every cut and every operation boundary are in: copy-on-write is armed, the
on-chip state is taken, and submissions are held (R271, R272, R275, R278). -/
def execCkptCapturePoint (s : State) : Host.Outcome State Fault Refusal :=
  (Act.command <|
    .look fun s =>
      .when (s.ckState == ckCapture && !s.ckpt.writing && s.allReady && s.allCut && s.atBoundary)
        (.all
          [ .arm, .modCkpt fun c => { c with writing := true, snap := some s.snapshot, at_ := s.now }, .countTrims ])).outcome s

/-- The channels that capture held go on (R271). -/
def Act.reopen (at_ : Nat) : Act :=
  .look fun s =>
    .each (s.mct.tx.filter fun e => decide (e.1 % 8 ≤ 2) && !e.2.waiting.isEmpty) fun e =>
      .pump (e.1 / 8) (e.1 % 8) at_ 1024

/-- CKPT_IMAGE_WRITTEN: the on-chip image is written: held writes go on, the channels reopen and the drain starts with
the image, whose content the spec does not lay out (R271, R277, R280, assumption 6). -/
def execCkptImageWritten (at_ : BitVec 40) (s : State) : Host.Outcome State Fault Refusal :=
  (Act.command <|
    .look fun s =>
      .when (s.ckState == ckCapture && s.ckpt.writing)
        (.all
          [ .releaseSubmits, .set F.CKPT_CONTROL_READY 0, .set F.CKPT_STATUS_STATE ckDrain, .reopen at_.toNat,
            .writeImage, .sendCommit ])).outcome s

/-- Time from B(S_k) to `at_` ps into the present sailing has reached CAPTURE_US (R271, R289). -/
def State.captureOver (s : State) (at_ : Nat) : Bool :=
  decide (s.get F.CKPT_SCHED_CAPTURE_US * 10 ^ 6 ≤ (s.now - s.captureAt s.ckpt.number) * s.periodUs * 10 ^ 6 + at_)

/-- CKPT_CAPTURE_LATE: the capture point was not reached in time: k counts as skipped, DIRTY as it was (R271). -/
def execCkptCaptureLate (at_ : BitVec 40) (s : State) : Host.Outcome State Fault Refusal :=
  (Act.command <|
    .look fun s =>
      .when (s.ckState == ckCapture && !s.ckpt.writing && s.captureOver at_.toNat)
        (.all
          [ .modCkpt fun c => { c with skipped := c.number },
            .set F.CKPT_CONTROL_READY 0, .set F.CKPT_STATUS_STATE ckIdle, .set F.CKPT_STATUS_LAST_RESULT 3,
            .count .CKPT_CAPTURE_LATE_COUNT, .raise .CKPT_CAPTURE_LATE { detail := s.ckpt.number },
            .reopen at_.toNat ])).outcome s

/-! ### Drain and commit -/

/-- DRAIN_FRAME_READ: the drain reads the frame at a stack's frontier, from its pool copy when it was preserved, and
sends it; the frontier moves on and the pool copy is freed. A drain rate of 0 holds the drain (R254, R280, R291). -/
def execDrainFrameRead (stack : Fin 16) (s : State) : Host.Outcome State Fault Refusal :=
  (Act.command <|
    .look fun s =>
      let f := s.get F.NMU_COW_FRONTIER stack
      .when (s.ckState == ckDrain && decide (f < s.get F.NMU_COW_LIMIT stack) && s.get F.CKPT_RATE_DRAIN ≠ 0)
        (.all
          [ .sendFrame (drainKey stack f) (s.drainBytes stack f), .freePreserved stack f,
            .frontier stack (f + 1), .releaseFrame stack f, .sendCommit ])).outcome s

/-- DRAIN_FRAME_RECEIVE: as buddy, the device stores a frame version of its source in the DRAIN area, four to a page
(R280, R281). The versions of an earlier checkpoint that never committed are freed. -/
def execDrainFrameReceive (source : BitVec 64) (k : BitVec 48) (image : Bool) (stack : Fin 16) (frame : BitVec 28)
    (data : List (BitVec 8)) (s : State) : Host.Outcome State Fault Refusal :=
  (Act.command <|
    .look fun s =>
      let key := drainKey (if image then 16 else stack.val) frame.toNat
      let v := padTo 4096 data
      .when (decide (source.toNat = s.ckpt.source) && decide (s.ckpt.source ≠ 0) && decide (k.toNat ≠ 0))
        (.all
          [ .when (decide (k.toNat ≠ s.ckpt.receiving))
              (.all
                [ .modCkpt fun c => { c with receiving := k.toNat, received := [], commitWaits := [] },
                  .keepVersions, .sweepBlocks ]),
            .modCkpt fun c => { c with received := c.received ++ [(key, v)] },
            .modFlash fun f => { f with versions := f.versions ++ [⟨k.toNat, key, v, 0⟩] },
            .stageDrain false ])).outcome s

/-- CKPT_COMMIT_RECORD: as buddy, the device writes the commit record once every page of the drain has programmed and
its own hash of the frames equals DRAIN_DIGEST, and confirms (R282, R283). -/
def execCkptCommitRecord (source : BitVec 64) (rec_ : List (BitVec 8)) (s : State) : Host.Outcome State Fault Refusal :=
  (Act.command <|
    .look fun s =>
      let k := crNumber rec_
      if source.toNat ≠ s.ckpt.source ∨ s.ckpt.source = 0 ∨ k ≠ s.ckpt.receiving ∨ k = 0 then .done
      else if !crOk rec_ || crDigest rec_ ≠ drainDigest s.ckpt.received then
        .all
          [ .when (!crOk rec_) .manifestFail,
            .modCkpt fun c => { c with receiving := 0, received := [], commitWaits := [] },
            .keepVersions, .sweepBlocks ]
      else .all [.modCkpt fun c => { c with commitWaits := rec_ }, .stageDrain true, .commitWritten]).outcome s

/-- CKPT_CONFIRM: the buddy confirms checkpoint k, or refuses the drain (R216, R279, R283). -/
def execCkptConfirm (k : BitVec 48) (accepted : Bool) (s : State) : Host.Outcome State Fault Refusal :=
  (Act.command <|
    .look fun s =>
      if s.ckState ≠ ckDrain ∨ s.ckpt.number ≠ k.toNat then .done
      else if !accepted then .ckptAbandon 6
      else
        .when s.ckpt.sent
          (.all
            [ .disarm,
              .set F.CKPT_COMMITTED_PREVIOUS (s.get F.CKPT_COMMITTED_NEWEST),
              .set F.CKPT_COMMITTED_NEWEST k.toNat,
              .count .CKPT_COMMIT_COUNT,
              .modNmu fun n => { n with drainSet := ⟨false, [], []⟩ },
              .modCkpt fun c => { c with records := c.records.put (fun _ => []) (k.toNat % 2) s.commitRecord },
              .ckptEnds 1, .flashGo ])).outcome s

/-- CKPT_STALL_EXPIRE: a write has stayed stalled for STALL_SAILINGS sailings (R279). -/
def execCkptStallExpire (s : State) : Host.Outcome State Fault Refusal :=
  (Act.command <|
    .look fun s =>
      .when (s.nmu.held.any fun h => h.why == .stalled && decide (h.since + s.get F.CKPT_LIMIT_STALL_SAILINGS ≤ s.now))
        (.ckptAbandon 4)).outcome s

/-- CKPT_DRAIN_EXPIRE: the drain has not committed within DRAIN_S seconds of C (R279). -/
def execCkptDrainExpire (s : State) : Host.Outcome State Fault Refusal :=
  (Act.command <|
    .look fun s =>
      .when (s.ckState == ckDrain && decide (s.ckpt.at_ + s.sailingsIn (s.get F.CKPT_LIMIT_DRAIN_S) ≤ s.now))
        (.ckptAbandon 5)).outcome s

/-- CKPT_ABANDON: a write of CKPT_CONTROL.ABANDON (R279, R293). -/
def execCkptAbandon (agent : Agent) (s : State) : Host.Outcome State Fault Refusal :=
  (Act.command <| .byCore agent <| .ckptAbandon 7).outcome s

/-! ### Restore -/

/-- A commit record that verifies on the buddy: every version it needs is there (R284). -/
def State.recordStands (s : State) (b : List Byte) : Bool :=
  crOk b && (s.ckpt.snaps.get (fun _ => none) (crNumber b)).isSome

/-- The record of the checkpoint to restore: the named one, or the newest that verifies (R285). -/
def State.restoreRecord (s : State) (number : Nat) (a b : List Byte) : Option (List Byte) :=
  let ok := [a, b].filter s.recordStands
  if number ≠ 0 then ok.find? fun r => crNumber r == number
  else ok.foldl (fun best r => match best with
    | none => some r
    | some x => if crNumber x < crNumber r then some r else some x) none

/-- A restore ends without success. -/
def Act.restoreFails (e : Err) (k : Nat) : Act :=
  .all [.set F.CKPT_STATUS_STATE ckIdle, .set F.CKPT_STATUS_LAST_RESULT 9, .raise e { detail := k }]

/-- Start a restore from the two commit records as the buddy gave them (R285). -/
def Act.restoreStart (a b : List Byte) : Act :=
  .look fun s =>
    if !s.stopped then .raise .CFG_RESERVED_WRITE
    else
      .all
        [ .each ([a, b].filter fun r => !r.isEmpty && !crOk r) fun _ => .manifestFail,
          match s.restoreRecord (s.get F.CKPT_RESTORE_NUMBER) a b with
          | none => .restoreFails .CKPT_NO_COMMIT (s.get F.CKPT_RESTORE_NUMBER)
          | some r =>
            if crConfig r ≠ s.boot.configDigest ∨ crProfile r ≠ s.get F.CFG_AP_STATUS_ACTIVE then
              .restoreFails .CKPT_CONFIG_MISMATCH (crNumber r)
            else
              .all
                [ .set F.CKPT_STATUS_STATE ckRestore,
                  .modCkpt fun c => { c with restoring := crNumber r } ] ]

/-- CKPT_RESTORE: a write of CKPT_CONTROL.RESTORE; `slotA` and `slotB` are the commit records read from the buddy
(R285, R293). -/
def execCkptRestore (agent : Agent) (slotA slotB : List (BitVec 8)) (s : State) : Host.Outcome State Fault Refusal :=
  (Act.command <| .byCore agent <| .restoreStart slotA slotB).outcome s

/-- Registers whose device-set fields are unit state that a checkpoint holds (R268). -/
def unitRegs : List Reg :=
  [.SDIR_LOCKED, .SDIR_FREE, .SDIR_THRESHOLD, .SDIR_STATE_COUNT, .BERTH_IN_USE, .TIER_MOOR_STATUS, .NMU_STATUS,
    .TEXT_STATUS, .RCL_STATUS, .RCL_PIPE_STATUS, .CHART_STATUS, .CHART_EFFECTIVE, .CHART_ISLAND, .CHART_DRAIN, .BOLL_WAIT,
    .BOLL_COUNT, .IRQ_CQ_STATUS]

/-- Registers that a restore leaves as they are: time, the restore itself, error records (R268). -/
def unrestored : List Reg := [.SAIL_TAI_SECONDS, .CKPT_CONTROL, .CKPT_RESTORE, .CFG_CONTROL, .ERR_POP, .ERR_SCRUB]

/-- A field comes back with a restore: RW and SL fields, and the fields of units (R268). -/
def restores (f : Field) : Bool :=
  !unrestored.contains f.reg && (f.acc == .RW || f.acc == .SL || unitRegs.contains f.reg)

/-- The live value of a register after a restore. -/
def restoredReg (r : Reg) (saved now : BitVec 128) : BitVec 128 :=
  (r.fields.filter restores).foldl (fun v f => putField v f (bits saved.toNat f.hi f.lo)) now

/-- The registers come back, with pending shadows (R268, R285). -/
def Act.restoreRegs (x : Snapshot) : Act :=
  .look fun s =>
    .all
      [ .each ((x.regs.map (·.1)) ++ (s.regs.map (·.1))).eraseDups fun k =>
          .one (.reg (keyReg k) (k % 65536) (restoredReg (keyReg k) (x.regs.get regDefault k) (s.regs.get regDefault k))),
        .each ((x.shadow.map (·.1)) ++ (s.shadow.map (·.1))).eraseDups fun k =>
          .one (.shadow (keyReg k) (k % 65536) (x.shadow.get regDefault k)),
        .showPending ]

/-- The newest version of every frame at or below a checkpoint (R281). -/
def stateAt (k : Nat) (vs : List (Nat × Nat × List Byte)) : List (Nat × List Byte) :=
  (vs.filter fun v => decide (v.1 ≤ k) && !isImage v.2.1).filterMap fun v =>
    if vs.any fun w => w.2.1 == v.2.1 && decide (v.1 < w.1) && decide (w.1 ≤ k) then none else some v.2

/-- HBM, shared buffers and local stores come back (R276, R285). -/
def Act.restoreMem (k : Nat) (x : Snapshot) : Act :=
  .look fun s =>
    .all
      [ .each s.lost fun e => .one (.lost e.1 false),
        .one (.wipe 0 hbmEnd), .one (.wipe sharedBase (sharedBase + 2 * sharedHalf)),
        .each (stateAt k s.ckpt.remote) fun v => .one (.mem (frameAddr (v.1 / 2 ^ 28) (v.1 % 2 ^ 28)) v.2),
        .each (s.ckpt.remote.filter fun v => v.1 == k && isImage v.2.1) fun v =>
          .one (.mem (spareAddr (v.2.1 % 2 ^ 28 / imageFrames) (v.2.1 % imageFrames)) v.2.2),
        .each x.shared fun c => .one (.mem c.1 [c.2]),
        .each (List.range 80) fun c => .one (.wipeLs c 0 (48 * bankBytes)),
        .each x.ls fun c => .one (.ls (c.1 / 2 ^ 28) (c.1 % 2 ^ 28) [c.2]) ]

/-- A transfer in flight starts again from its first tile (R272). -/
def Xfer.again (x : Xfer) : Xfer :=
  match x.work with
  | .firmware => { x with tiles := List.range (fTiles x.desc) }
  | .share _ => { x with tiles := x.whole }

/-- The units' state comes back (R268). The image map is the checkpoint's (R171, R182): what it names in flash is intact
(R216), and moored images are where host memory still holds them. A withdrawn berth number stays so until reset (R140). -/
def Act.restoreUnits (x : Snapshot) : Act :=
  .all
    [ .modSail fun y =>
        { y with
          carry := x.items.foldl (fun m e => m.put (fun _ => []) e.1 (e.2 ++ m.get (fun _ => []) e.1)) x.carry,
          items := [], commit := x.commit, accepted := false },
      .modCore fun _ => { x.core with flights := [] },
      .modIrq fun q => { q with lists := x.lists, waiting := x.cq },
      .modNmu fun n =>
        { n with queue := x.nmuQueue, active := [], pieces := [], held := [], preserved := [], poolUsed := [], drainSet := ⟨false, [], []⟩ },
      .modChart fun _ => x.chart,
      .modSdir fun d => { x.sdir with berthGone := d.berthGone },
      .modBerth fun b => { x.berth with withdrawn := b.withdrawn },
      .modTier fun t =>
        { x.tier with
          xfers := x.tier.xfers.map Xfer.again, grants := [],
          shares := x.tier.shares.map fun m => { m with parts := [] },
          lostImages := t.lostImages.foldl (fun m e => m.put (fun _ => false) e.1 e.2) x.tier.lostImages },
      .each allWindows fun w => .showEmpty w false, .showMoor,
      .modText fun _ => x.text,
      .modRcl fun _ => x.rcl,
      .modMct fun m => { m with ops := x.ops, incarnation := m.incarnation + 1, tx := [], rx := [] },
      .modSec fun y => { y with keys := [], loading := [], grace := [], saks := [] } ]

/-- The translation layer after a restore (R218): the restored map, the tables of the SYSTEM area; every open block is
closed, and the pages of stripes that were not written are written again. -/
def Act.restoreFlash (x : Snapshot) : Act :=
  .look fun s =>
    .all
      [ .modFlash fun f =>
          { x.flash with
            profile := f.profile, ready := f.ready, system := f.system, drain := f.drain, logical := f.logical,
            versions := f.versions, events := f.events, dead := f.dead, rebuilding := f.rebuilding, started := f.started,
            lostStripes := f.lostStripes,
            ops := [], busy := [], filling := [], openBlocks := [], staging := [], moving := [], recon := [], reconBad := [],
            collecting := none,
            stripe := s.nand.pages.foldl (fun m e => match e.2 with | some y => max m y.stripe | none => m) x.flash.stripe },
        .each ((s.nand.pages.filterMap fun e => e.2.map fun _ => e.1 / 8192) ++ (x.flash.blocks.filter fun e => e.2.use ≠ 0).map (·.1)).eraseDups
          fun k => .modBlock k fun b => { b with use := 2 },
        .each x.flash.staged fun e => .when (decide (e.2 ≠ [])) (.stage e.1 .refresh e.2),
        .look fun s => .each (s.flash.versions.filter fun v => decide (v.place = 0)) fun v => .stageVersions .drain [v],
        .sweepBlocks, .flashGo ]

/-- SPEC_STATE EMPTY is written in every berth with an open tag (R135, R285). -/
def Act.closeTags : Act :=
  .each (List.range 4) fun c =>
    .look fun s => .each (List.range (s.get F.BERTH_CLASS_COUNT c)) fun n =>
      .look fun s => .when (s.headerOk c n && hSpecOpen (s.header c n)) (.writeHeader c n (noTag (s.header c n)))

/-- CKPT_RESTORE_DONE: the state at k has been read back; `groups` are the trimmed groups of the image as read. A group
with a reserved bit set fails the restore (R276, R285). -/
def execCkptRestoreDone (groups : List (List (BitVec 8))) (s : State) : Host.Outcome State Fault Refusal :=
  (Act.command <|
    .look fun s =>
      let k := s.ckpt.restoring
      if s.ckState ≠ ckRestore then .done
      else match s.ckpt.snaps.get (fun _ => none) k with
        | none => .restoreFails .CKPT_IMAGE k
        | some x =>
          if groups.any fun g => (expandGroup g).isNone then .restoreFails .CKPT_IMAGE k
          else
            .all
              [ .restoreMem k x, .restoreRegs x, .restoreUnits x, .each (List.range 32) .showFerry,
                .restoreFlash x, .closeTags,
                .modNmu fun n => { n with dirty := ⟨false, [], []⟩ },
                .modCkpt fun c => { c with number := k },
                .set F.CKPT_STATUS_STATE ckResume, .set F.CKPT_STATUS_LAST_RESULT 8, .count .CKPT_RESTORE_COUNT ]).outcome s

/-- The captured timetable becomes that of sailing `n`: copied to the buffer of its parity and named in both headers
(R274). -/
def Act.moveTimetable (t n : Nat) : Act :=
  .each [0, 1] fun half =>
    .look fun s =>
      .all
        [ .when (decide (t % 2 ≠ n % 2)) (.one (.mem (s.ttBase half (n % 2)) (s.bytesAt (s.ttBase half (t % 2)) 0x280100))),
          .one (.mem (s.ttBase half (n % 2)) (leBytes 6 n)) ]

/-- The timetable of RESUME_AT (R274). -/
def Act.resumeTimetable (n : Nat) : Act :=
  .look fun s =>
    let t := s.captureAt s.ckpt.number + s.captureX
    match s.sail.commit with
    | none => .ttVerdict 1
    | some c =>
      if c ≠ t then .ttVerdict 2
      else
        .all
          [ .moveTimetable t n, .modSail fun x => { x with commit := some n },
            .ttCheck n s.epoch ]

/-- A device restored alone reports its open berths (R287). -/
def Act.reportBerths : Act :=
  .look fun s =>
    .each (List.range 4) fun c =>
      .each (List.range (s.get F.BERTH_CLASS_COUNT c)) fun n =>
        let b := s.header c n
        .when (hOpen b) (.one (.emit (.openBerth (hSession b) c n (s.captureAt s.ckpt.number))))

/-- CKPT_RESUME: at B(RESUME_AT) a restored device starts its first sailing with its carried slots and the captured
timetable; a chart staged in RESUME_WAIT becomes current. `telem` and `temp` are what the sensors read (R274, R286,
R287, R382, R592). -/
def execCkptResume (alone : Bool) (telem : BitVec 64) (temp : BitVec 32) (s : State) : Host.Outcome State Fault Refusal :=
  (Act.command <|
    .look fun s =>
      let n := s.get F.CKPT_RESTORE_RESUME_AT
      .when (s.ckState == ckResume && s.stopped)
        (.all
          [ .resumeTimetable n, .latch n 0 telem temp,
            .set F.CKPT_STATUS_STATE ckIdle, .set F.CFG_STATUS_STAGE 9,
            .look fun s => match s.chart.staged with
              | some x => .applyChart x n
              | none => .done,
            .look fun s => .each (s.mct.crossings.map (·.peer)).dedup fun p => .askOutcomes p 0,
            .interrupt 0x41, .hostEvent F.HOST_EVENT_RESUMED,
            .when alone .reportBerths ])).outcome s

end Sys2Proof.Machine
end

