-- ==== Sys2Proof/Machine/Egr.lean ====
section
/-! DEFINITION. Fabric ports and egress scheduling: lanes that fail, ports that train, frames that enter the queues,
leave them, and the events at which the scheduler looks again (R397 to R400, R431 to R443, R542). -/

namespace Sys2Proof.Machine

/-- FAB_LANE_EVENT (R542): a lane loses lock, or has more than 16 uncorrectable FEC frames in 1 ms. Its port retrains;
a second event in the window, or one that the retrains of ERR_RULE[1] do not clear, retires the lane, and the port
narrows (R400). `failed` is how many retrains fail. -/
def execFabLaneEvent (lane : Fin 32) (lostLock : Bool) (frames : BitVec 32) (failed : Fin 16) (s : State) :
    Host.Outcome State Fault Refusal :=
  (Act.command <| .look fun s =>
    let l := lane.val
    .when ((lostLock || decide (16 < frames.toNat)) && s.flag F.FAB_GROUP_ENABLE (laneGroup l) && !s.retired 3 l)
      (.all
        [ if s.recurs 1 3 l 0 || decide (s.get F.ERR_RULE_RETRIES 1 ≤ failed.val) then
            .raise .FAB_LANE_RETIRED { dindex := l, detail := l, busy := true }
          else
            (Act.set F.FAB_PORT_STATUS_STATE psTraining (s.portOf l)).andThen
              (.raise .FAB_LANE_EVENT { dindex := l, detail := l, busy := true }),
          .note 3 l 0, .advanceStage ])).outcome s

/-- PORT_TRAIN_DONE: a port in training goes UP at the width its lanes allow; what its lanes were under recovery for is
done (R398, R400, R539). -/
def execPortTrainDone (port : Fin 32) (at_ : BitVec 40) (s : State) : Host.Outcome State Fault Refusal :=
  (Act.command <| .look fun s =>
    let p := port.val
    .when (s.beginsPort p && s.get F.FAB_PORT_STATUS_STATE p == psTraining && decide (0 < (s.portLanes p).2))
      (.all
        [ .set F.FAB_PORT_STATUS_STATE psUp p, .set F.FAB_PORT_STATUS_LANES (s.portLanes p).2 p,
          .each (List.range (s.groupWidth (laneGroup p))) fun k => .actionDone 3 (p + k),
          .schedule p at_.toNat, .advanceStage ])).outcome s

/-- FEC_FRAME_DROP (R398). -/
def execFecFrameDrop (s : State) : Host.Outcome State Fault Refusal :=
  (Act.command <| .count .FAB_FEC_UNCORR_COUNT).outcome s

/-- PAUSE_FRAME: ignored and counted (R399). -/
def execPauseFrame (s : State) : Host.Outcome State Fault Refusal :=
  (Act.command <| .count .FAB_PAUSE_RX_COUNT).outcome s

/-- A message of session firmware: a REQUEST opens its operation here; a RESPONSE answers a received one, which closes
and gives its landing buffer back; SPEC_COMMIT and SPEC_CANCEL go on channel 0 behind the drafts they resolve (R387, R407,
R413, R416). -/
def Act.firmwareMessage (peer : Nat) (tag at_ : Nat) (m : MctMsg) : Act :=
  if m.type_ = mtSpecCommit ∨ m.type_ = mtSpecCancel then .mctSend peer 0 at_ m
  else if m.type_ = mtResponse then
    .look fun s =>
      .all
        [ .each (s.mct.ops.filter fun o => o.id == m.op && !o.started) fun o => .closeOp o,
          .modMct fun x => { x with delivered := x.delivered.filter fun d => !(hdrOp d.2.hdr == m.op && hdrType d.2.hdr == mtRequest) },
          .mctSend peer 1 at_ m ]
  else (Act.openOp ⟨m.op, peer, 0, m.epoch, m.island, tag, true⟩).andThen (.mctSend peer 0 at_ m)

/-- Types of the messages of session firmware, by kind. -/
def kindType (kind : Nat) : Nat :=
  if kind = 0 then mtRequest else if kind = 1 then mtResponse else if kind = 2 then mtSpecCommit else mtSpecCancel

/-- EGRESS_ENQUEUE: a frame enters its queue, or is held at its source when the queue is full (R431 to R433). -/
def execEgressEnqueue (source : EgressSource) (at_ : BitVec 40) (s : State) : Host.Outcome State Fault Refusal :=
  (Act.command <| .look fun s =>
    match source with
    | .frame port length =>
      (Act.arrive (queueOf port.val (s.get F.EGR_CFG_CTRL_TCLASS)) (s.absTime at_.toNat)
          { length := length.toNat, peer := 0, pkt := none, stamp := 0 }).andThen (.schedule port.val at_.toNat)
    | .message peer kind op epoch island role assign specTag tag payload =>
      .firmwareMessage peer.toNat tag.toNat at_.toNat
        { type_ := kindType kind.val, op := op.toNat, origin := if kind.val = 1 then peer.toNat else s.selfAddr,
          epoch := epoch.toNat, island := island.val, role := role.val, assign := assign.toNat, specTag := specTag.toNat,
          payload := payload }).outcome s

/-- EGRESS_SOURCE_RESUME: the frame held longest enters its queue once there is room (R433). -/
def execEgressSourceResume (queue : Fin 256) (at_ : BitVec 40) (s : State) : Host.Outcome State Fault Refusal :=
  (Act.command <| .look fun s =>
    let n := queue.val
    match (s.queue n).source with
    | [] => .done
    | f :: fs =>
      .when (decide ((s.queue n).frames.length < s.get F.EGR_QUEUE_CFG_MAX_FRAMES n))
        (.all
          [ .modQueue n fun q => { q with source := fs }, .enqueue n (s.absTime at_.toNat) f,
            .schedule (n / 8) at_.toNat ])).outcome s

/-- FRAME_TX_DONE: the port has sent its frame, and the scheduler picks the next (R435). -/
def execFrameTxDone (port : Fin 32) (at_ : BitVec 40) (s : State) : Host.Outcome State Fault Refusal :=
  (Act.command <| (Act.modEgr fun e => { e with sending := e.sending.put (fun _ => none) port.val none }).andThen
    (.schedule port.val at_.toNat)).outcome s

/-- GATE_CHANGE: with the next entry's gates in effect, the scheduler looks again (R435, R438). -/
def execGateChange (port : Fin 32) (at_ : BitVec 40) (s : State) : Host.Outcome State Fault Refusal :=
  (Act.command <| .look fun s => .when (s.flag F.EGR_GCL_CTRL_ENABLE port.val) (.schedule port.val at_.toNat)).outcome s

/-- SHAPER_CREDIT_ZERO: a queue's credit has reached 0, and the scheduler looks again (R435, R437). -/
def execShaperCreditZero (queue : Fin 256) (at_ : BitVec 40) (s : State) : Host.Outcome State Fault Refusal :=
  (Act.command <| .look fun s =>
    .when (s.shaped queue.val (s.absTime at_.toNat)) (.schedule (queue.val / 8) at_.toNat)).outcome s

end Sys2Proof.Machine
end

