-- ==== Sys2Proof/Machine/Ferry.lean ====
section
/-! DEFINITION. The ferries (R174 to R181) and share moves (R183, R188 to R192, R106). -/

namespace Sys2Proof.Machine

/-- FERRY_DESCRIPTOR: session firmware submits a descriptor to a ferry by writing its address to FERRY_SUBMIT, which keeps
it (R174, R177, R181, R201). -/
def execFerryDescriptor (f : Fin 32) (addr : BitVec 48) (s : State) : Host.Outcome State Fault Refusal :=
  (Act.command <|
    (Act.set F.FERRY_SUBMIT_DESC_ADDR (addr.toNat / 64) f.val).andThen (.submit .ferry f.val (addr.toNat / 64 * 64))).outcome s

/-! ### Starting (R174) -/

/-- Windows of the core that a local-store address names, captured at the start (R178). -/
def State.captureWins (s : State) (space a : Nat) : List (BitVec 64) := if space = 0 then s.winsOf (bits a 35 28) else []

/-- The transfer has taken its count. -/
def State.ferryGranted (s : State) (x : Xfer) : Bool :=
  s.irq.ferryGrants.get (fun _ => false) (x.ferry * 2 ^ 20 + x.id)

/-- The island that the packets of a transfer name at a peer: the lowest-numbered one of its entry, with its role and
ASSIGN (assumption 135). -/
def entryTarget (b : List Byte) : Nat × Nat × Nat :=
  let i := ((List.range 8).find? fun i => entryGranules b i ≠ 0).getD 0
  (i, entryRole b i, entryAssign b i)

/-- A message of a transfer to or from a peer. -/
def State.xferMsg (s : State) (x : Xfer) (b : List Byte) (type_ : Nat) (payload : List Byte) : MctMsg :=
  let t := entryTarget b
  { type_ := type_, op := x.op, origin := s.selfAddr, epoch := x.epoch, island := t.1, role := t.2.1, assign := t.2.2, payload := payload }

/-- Ask the peer for source tiles of a transfer (R405, R407): a missing entry ends it READ_FAILED. -/
def Act.askPeer (x : Xfer) (tiles : List Nat) (at_ : Nat) : Act :=
  .look fun s => match s.peerOf x (fSrcAddr x.desc) with
    | none => .xferFails x fsRead
    | some b =>
      (Act.setXfer { x with sent := x.sent ++ tiles }).andThen
        (.each tiles fun i =>
          .mctSend (entryDevice b) 0 at_
            (s.xferMsg x b mtPeerRead (leBytes 8 (bits (fSrcAddr x.desc + i * fSrcPitch x.desc) 47 0) ++ leBytes 4 1)))

/-- The two TILE_HALF packets of a tile (R407). -/
def halfPayload (tile half : Nat) (bytes manifest : List Byte) : List Byte :=
  leBytes 4 tile ++ leBytes 1 half ++ List.replicate 11 0 ++ (bytes.drop (8192 * half)).take 8192
    ++ (if half = 1 then manifest else [])

/-- Send a tile to the peer on the channel of the transfer's class; it is done once the peer has acknowledged both halves
(R405, R415). A missing entry ends the transfer WRITE_FAILED. -/
def Act.sendPeer (x : Xfer) (i at_ : Nat) (t : List Byte) : Act :=
  .look fun s => match s.peerOf x (fDstAddr x.desc) with
    | none => .xferFails x fsWrite
    | some b =>
      let a := fDstAddr x.desc + i * fDstPitch x.desc
      .all
        [ .modGrants x.ferry fun g => { g with out := g.out.erase x.id },
          .setXfer { x with sent := x.sent ++ [i] },
          .each [0, 1] fun half =>
            .mctSend (entryDevice b) (s.get F.FERRY_CLASS_VC (fClass x.desc)) at_
              (s.xferMsg x b mtHalf (halfPayload (peerTileOf a) half t (manifestOf kindTile t))) ]

/-- A transfer begins to move tiles (R174, R178): the windows that local-store addresses name are captured, and a tile that
does not lie within its window has the transfer REJECTED with reason RANGE (R86, R180). A peer is asked for the tiles of a
PEER source (R405). -/
def Act.beginXfer (x : Xfer) (at_ : Nat) : Act :=
  .look fun s =>
    let src := s.captureWins (fSrcSpace x.desc) (fSrcAddr x.desc)
    let dst := s.captureWins (fDstSpace x.desc) (fDstAddr x.desc)
    if x.work == .firmware && !s.winsFit x.desc src dst then
      (Act.dropXfer x).andThen (.ferryRefuse x.ferry x.desc 3)
    else
      .all
        [ .setXfer { x with phase := 2, srcWins := src, dstWins := dst, epoch := s.epoch },
          .modIrq fun q => { q with ferryGrants := q.ferryGrants.put (fun _ => false) (x.ferry * 2 ^ 20 + x.id) false },
          .showFerry x.ferry,
          .when (x.work == .firmware && fSrcSpace x.desc == 7)
            (.askPeer { x with phase := 2, srcWins := src, dstWins := dst, epoch := s.epoch } x.tiles at_) ]

/-- FERRY_TRANSFER_START: a transfer that holds an in-flight place and has its count begins; otherwise the head of the
queue takes a free place, of 64, and begins, or joins the list of its WAIT bollard (R174, R568). None starts while a capture is under way (R272),
and on an island in POWER_OFF the transfer wakes the island and waits for it (R582). -/
def execFerryTransferStart (turn : FerryTurn) (s : State) : Host.Outcome State Fault Refusal :=
  (Act.command <| .look fun s => .when (s.ckState != ckCapture) <|
    let mine := s.tier.xfers.filter fun x => x.ferry == turn.ferry.val
    if s.asleep (turn.ferry / 4) then .when (mine.any fun x => x.phase ≠ 2) (.wakeGranule (turn.ferry / 4)) else
    match mine.find? fun x => x.phase == 1 && s.ferryGranted x with
    | some x => .beginXfer x turn.at_.toNat
    | none =>
      match mine.find? fun x => x.phase == 0 with
      | none => .done
      | some x =>
        .when (decide ((mine.filter fun x => x.phase ≠ 0).length < 64))
          (let y : Xfer := { x with phase := 1, since := s.now, joined := fWait x.desc }
          .all
            [ .setXfer y, .showFerry turn.ferry.val,
              if fWait x.desc then
                (Act.join (fWaitBollard x.desc) (.ferry turn.ferry.val x.id)).andThen
                  (.look fun s => .when (s.ferryGranted y) (.beginXfer y turn.at_.toNat))
              else .beginXfer y turn.at_.toNat ])).outcome s

/-! ### Share moves: what they read and write -/

/-- What stands at a tile number of a berth (R120). -/
inductive TilePlace where
  | ring (l h kind t : Nat)
  | global (l h kind t : Nat)
  | spec
  | stats (l j : Nat)
  deriving DecidableEq, Repr

/-- The place of tile `i`. -/
def Shape.place (p : Shape) (i : Nat) : TilePlace :=
  let l := i / max 1 p.lt
  let r := i % max 1 p.lt
  let run := max 1 (p.rt + p.gt)
  if r ≥ p.kv then .stats l (r - p.kv)
  else if r ≥ 2 * p.hkv * (p.rt + p.gt) then .spec
  else if r % run < p.rt then .ring l (r / run / 2) (r / run % 2) (r % run)
  else .global l (r / run / 2) (r / run % 2) (r % run - p.rt)

/-- Row `r` of a key or value tile (R121). -/
def tileRow (t : List Byte) (kind r : Nat) : List Byte :=
  if kind = 0 then (t.drop (r * 128)).take 128 else (List.range 128).map fun d => t.getD (d * 128 + r) 0

/-- A tile from its rows. -/
def ofRows (kind : Nat) (rows : List (List Byte)) : List Byte := if kind = 0 then rows.flatten else transposeTile rows.flatten

/-- The chunk of 128 positions that starts at `pos` as a history record has it: the tile of a layer, head and kind. -/
def State.historyTileAt (s : State) (session : Nat) (p : Shape) (pos l h kind : Nat) : Option (List Byte) :=
  let n := p.layers * p.hkv * 2
  historyTile (s.historyPlain session pos) n ((l * p.hkv + h) * 2 + kind)

/-- The position that ring row `i` of a ring of `w` holds when `c` positions are committed (R123). -/
def ringPos (w c i : Nat) : Option Nat :=
  let last := (c - 1) / w * w + i
  if c = 0 then none
  else if last < c then some last
  else if w ≤ last then some (last - w) else none

/-- A tile of the berth that REBERTH fills (R106): ring rows from the old ring, or from history where the old ring no
longer has the position; global tiles and statistics as they are, the last committed row's at its new place. -/
def State.reberthTile (s : State) (m : ShareMove) (i : Nat) : Option (List Byte) :=
  let p := s.shape m.cls
  let q := s.shape m.fromClass
  let c := hCommitted m.header
  let old (j : Nat) : Option (List Byte) := s.tileStart m.fromClass m.fromBerth j
  match p.place i with
  | .ring l h k t =>
    let row (r : Nat) : Option (List Byte) :=
      match ringPos p.w c (t * 128 + r) with
      | none => some (List.replicate 128 0)
      | some pos =>
        if c - q.w ≤ pos then (old (q.tile l h k .ring (pos % q.w / 128))).map fun x => tileRow x k (pos % 128)
        else (s.historyTileAt m.session q (pos / 128 * 128) l h k).map fun x => tileRow x k (pos % 128)
    let rows := (List.range 128).map row
    if rows.all (·.isSome) then some (ofRows k (rows.map fun x => x.getD [])) else none
  | .global l h k t => if t < q.gt then old (q.tile l h k .global t) else some (List.replicate 16384 0)
  | .spec => some (List.replicate 16384 0)
  | .stats l j =>
    let row (r : Nat) : List Byte :=
      let from_ := if r = p.sp then q.sp else r
      if r > p.sp ∨ from_ > q.sp then List.replicate (p.hq * 8) 0
      else (s.statRow m.fromClass m.fromBerth q l from_).getD []
    some (((List.range (p.sp + 1)).flatMap row).drop (16384 * j) |> padTo 16384)

/-- The moves that fill a berth: revivals, re-berthings, restores, and crossings of a berthed session. -/
def fillsBerth (m : ShareMove) : Bool :=
  m.motion == moReviving || m.motion == moReberthing || m.motion == moRestoring || (m.motion == 9 && m.dst == 0)

/-- The ferry class of a share move (R178, R200). -/
def State.moveClass (s : State) (m : ShareMove) : Nat :=
  if m.motion = moMooring then s.get F.TIER_CLASSES_MOOR_CLASS
  else if m.motion = moLayingUp ∨ m.motion = moSealing then s.get F.TIER_CLASSES_LAYUP_CLASS
  else if m.motion = moReberthing then s.get F.TIER_CLASSES_HISTORY_CLASS
  else if m.motion = moReviving ∨ (m.motion = moRestoring ∧ m.src ≠ 0) then
    (if locKind m.src = 1 then s.get F.TIER_CLASSES_MOOR_CLASS else s.get F.TIER_CLASSES_LAYUP_CLASS)
  else s.get F.TIER_CLASSES_CROSS_CLASS

/-- Tile `j` of a share's list, as the move reads it: the tile and, from an image, its block. -/
def State.shareRead (s : State) (m : ShareMove) (j : Nat) (data : List Byte) : TileRead × List Byte :=
  let i := m.tiles.getD j 0
  if m.motion = moReberthing then
    match s.reberthTile m i with
    | some t => (.ok t, [])
    | none => (.bad fsManifest none false, [])
  else if m.motion = 9 ∨ (m.motion = moRestoring ∧ m.src = 0) then (sentTile data, [])
  else if m.src ≠ 0 then
    match s.image m.src with
    | none => (.bad fsRead none false, [])
    | some x =>
      let b := s.imagePlain m.src
      let off := imgOffset b j
      let block := imgBlock b j
      if x.window = 255 && s.flashWaits m.src off block.length then (.wait, [])
      else if x.window = 255 && s.flashFails m.src off block.length then (.bad fsRead none false, [])
      else match imgTile b j with
        | some t => (.ok t, block)
        | none => (.bad fsManifest none false, [])
  else
    match s.lostLine (tileAddr (s.berthBase m.cls m.berth) i) 16384 with
    | some k => (.bad fsRead (some k) false, [])
    | none => match s.tileStart m.cls m.berth i with
      | some t => (.ok t, [])
      | none => (.bad fsManifest none false, [])

/-- A share move takes a tile on ferry `f` (R176, R184, R188, R198): into the image being written, into the berth being
filled, or out to the peer. Blocks copied from one tier to another are not coded again. -/
def Act.sharePut (f : Nat) (m : ShareMove) (j backlog : Nat) (t block : List Byte) : Act :=
  .look fun s =>
    let i := m.tiles.getD j 0
    let cls := s.moveClass m
    if writesImage m then
      let copied := !block.isEmpty
      let b := if copied then block else s.codeTile cls (s.storesBlock cls backlog) t
      (Act.when (!copied) (.codecNote f cls backlog 1)).andThen
        (.modTier fun x =>
          { x with
            shares := x.shares.map fun y =>
              if y.session = m.session then { y with parts := y.parts.put (fun _ => none) j (some ⟨i, manifestOf kindTile t, b⟩) }
              else y })
    else if fillsBerth m then
      (Act.putTile m.cls m.berth i t).andThen
        (.modTier fun x =>
          { x with
            shares := x.shares.map fun y =>
              if y.session = m.session then { y with parts := y.parts.put (fun _ => none) j (some ⟨i, manifestOf kindTile t, []⟩) }
              else y })
    else
      .one (.emit (.peerTile (s.get F.FERRY_CLASS_VC cls) i t (manifestOf kindTile t)))

/-- The header that a filled berth gets (R188): the image's, or the one that came with the share, with the new number
and class, the current epoch, no open tag. -/
def State.filledHeader (s : State) (m : ShareMove) : List Byte :=
  let b := padTo 4096 m.header
  setAll (setLE b 0x140 64 0)
    [(0, 8, m.session), (8, 4, putBits (putBits m.berth 21 20 m.cls) 31 31 1), (0xC, 4, s.epoch), (0x2A, 1, 0)]

/-- The share is complete (R188, R189): an image is stored, or a berth gets its header, and the report is sent. -/
def Act.shareDone (m : ShareMove) : Act :=
  .look fun s =>
    let parts := (List.range m.tiles.length).filterMap fun j => m.parts.get (fun _ => none) j
    let manifests := parts.flatMap fun x => padTo 32 x.manifest
    if writesImage m then
      let bytes := imageBytes m.session m.dst m.cls (s.shape m.cls).layers m.header
        (parts.map fun x => ⟨x.number, x.manifest, x.block⟩)
      (Act.putImage m.dst m.session m.window bytes).andThen
        (.shareEnds m.session m.motion fsOk bytes.length manifests (if m.motion = moSealing then bytes else []))
    else if fillsBerth m then
      .all
        [ .writeHeader m.cls m.berth (s.filledHeader m),
          .when (!hOpen (s.header m.cls m.berth)) (.set F.BERTH_IN_USE_COUNT (s.get F.BERTH_IN_USE_COUNT m.cls + 1) m.cls),
          .shareEnds m.session m.motion fsOk 0 manifests ]
    else .shareEnds m.session m.motion fsOk 0 manifests

/-- A tile of a share move is done, or ends the move (R188, R191). -/
def Act.shareTile (x : Xfer) (m : ShareMove) (j fault : Nat) (data : List Byte) (backlog : Nat) : Act :=
  .look fun s =>
    let fail (status : Nat) (lost : Option Nat) : Act :=
      .all [.ferryLost lost false 0, .ferryStatus status 0 m.session,
        .when (status == fsManifest) .manifestFail, .shareEnds m.session m.motion status 0 []]
    if fault ≠ 0 then fail fault none
    else match s.shareRead m j data with
      | (.wait, _) => .done
      | (.bad status lost _, _) => fail status lost
      | (.ok t, block) =>
        match (if fillsBerth m then s.lostPart (tileAddr (s.berthBase m.cls m.berth) (m.tiles.getD j 0)) 16384 else none) with
        | some k => fail fsWrite (some k)
        | none =>
          .all
            [ .sharePut x.ferry m j backlog t block,
              .tileMoved x j,
              .look fun s =>
                .when (!(s.tier.xfers.any fun y => y.work == .share m.session))
                  (match s.shareOf m.session with | some m => .shareDone m | none => .done) ]

/-! ### Tiles of session firmware's transfers -/

/-- The berth that source tile `i` of a transfer lies in. -/
def State.sourceBerth (s : State) (x : Xfer) (i : Nat) : Option (Nat × Nat) :=
  let a := fSrcAddr x.desc + i * fSrcPitch x.desc
  if fSrcSpace x.desc = 2 then (s.berthTileAt a (min 16384 (s.fSrcSpan x.desc))).map fun b => (b.1, b.2.1) else none

/-- A berth tile that a transfer cannot read means that the share is lost (R140). -/
def Act.sourceLost (x : Xfer) (i : Nat) : Act :=
  .look fun s => match s.sourceBerth x i with
    | some b => .shareLost (hSession (s.header b.1 b.2)) b.1 b.2
    | none => .done

/-- A steering record that fails its manifest degrades the LAYER island until its section is fetched again (R164, R531,
R548). -/
def Act.sectionFails (x : Xfer) (i : Nat) : Act :=
  .look fun s =>
    .each ((if fSrcSpace x.desc = 2 then piecesOf (fSrcAddr x.desc + i * fSrcPitch x.desc) (min 16384 (s.fSrcSpan x.desc)) else []).flatMap
        fun p => match s.hbmKey p.1 with | some k => s.steerSets k p.2 | none => []) fun v =>
      .awaitSection 3 v Err.ERR_MANIFEST.code

/-- A tile of session firmware's transfer (R176, R179, R530, R532). -/
def Act.firmwareTile (x : Xfer) (i fault at_ : Nat) : Act :=
  .look fun s =>
    if fault ≠ 0 then (Act.when (fault == fsManifest) (.sectionFails x i)).andThen (.xferFails x fault)
    else if fDstSpace x.desc = 7 && x.sent.contains i then .done
    else match s.ferrySource x i with
      | .wait => .when (fSrcSpace x.desc == 7 && !x.sent.contains i) (.askPeer x [i] at_)
      | .bad status lost word => .all [.ferryLost lost word (fTag x.desc), .sourceLost x i, .xferFails x status]
      | .ok t =>
        match s.ferryDestBad x i with
        | .wait => .done
        | .bad status lost word => (Act.ferryLost lost word (fTag x.desc)).andThen (.xferFails x status)
        | .ok _ =>
          if fDstSpace x.desc = 7 then .sendPeer x i at_ t
          else .all
            [ .ferryWrite x i t, .tileMoved x i, .when (x.tiles.erase i).isEmpty (.ferryEnds x.ferry x.desc fsOk) ]

/-- FERRY_TILE_DONE: a granted tile move of a transfer ends: with its tile written, or with the ferry status `fault` of
a tier's error or of a failed check (R175, R176, R180, R186). The ferry has made its grants up to one of this transfer.
A tile to a peer is sent, and is done when it is acknowledged; one from a peer is done once it has arrived (R405, R415).
`data` is the tile of a share that another device sent, and its manifest; `backlog` the tiles that wait for the coder (R198). A
ferry moves no tile while a capture is under way (R272). -/
def execFerryTileDone (turn : FerryTurn) (id : BitVec 32) (tile : BitVec 24) (fault : BitVec 4) (data : List (BitVec 8))
    (backlog : BitVec 16) (s : State) : Host.Outcome State Fault Refusal :=
  (Act.command <| .look fun s =>
    match s.xfer turn.ferry.val id.toNat with
    | none => .done
    | some x =>
      .when (x.phase == 2 && x.tiles.contains tile.toNat && !s.xferHeld x && s.ckState != ckCapture
          && [0, fsRead, fsWrite, fsManifest].contains fault.toNat)
        ((Act.grantFor turn.ferry.val id.toNat (16 * (s.tier.xfers.length + 1))).andThen
          (match x.work with
          | .firmware => (Act.firmwareTile x tile.toNat fault.toNat turn.at_.toNat).andThen .banksSettle
          | .share session =>
            match s.shareOf session with
            | some m => .shareTile x m tile.toNat fault.toNat data backlog.toNat
            | none => .dropXfer x))).outcome s

/-- FERRY_LATE: a transfer that left the queue its deadline of sailings ago ends LATE (R177, R180, R191, R199). -/
def execFerryLate (f : Fin 32) (id : BitVec 32) (s : State) : Host.Outcome State Fault Refusal :=
  (Act.command <| .look fun s =>
    match s.xfer f.val id.toNat with
    | none => .done
    | some x =>
      let own := fDeadline x.desc
      let d := if own = 0 then s.get F.FERRY_CLASS_DEADLINE (fClass x.desc) else own
      .when (x.phase != 0 && d != 0 && decide (x.since + d ≤ s.now))
        (match x.work with
        | .firmware => (Act.xferFails x fsLate).andThen .banksSettle
        | .share session =>
          (Act.count .FERRY_LATE_COUNT).andThen
            (match s.shareOf session with
            | some m => .shareEnds session m.motion fsLate 0 []
            | none => .dropXfer x))).outcome s

/-! ### Starting a share move (R188) -/

/-- Every berth command posted before for a berth has completed (R188). -/
def State.berthIdle (s : State) (c n : Nat) : Bool :=
  let mine (e : BitVec 256) : Bool := bClass e == c && bNumber e == n
  !(s.berth.queue.any fun a => mine (s.entry256 a)) && !(s.berth.laps.any fun j => mine j.entry)
    && !(s.berth.saves.any fun j => mine j.entry) && !(s.berth.loads.any fun j => mine j.entry)

/-- The descriptor the tier unit builds for a transfer of a share (R178). -/
def shareDesc (cls session : Nat) : BitVec 512 := BitVec.ofNat 512 (cls * 2 ^ 508 + 5 * 2 ^ 504 + 2 * 2 ^ 500 + session * 2 ^ 160)

/-- A share's transfers: tile `i` on ferry `i` mod the number of ferries (R188). A share with no tile is done at
once. -/
def Act.spreadShare (m : ShareMove) : Act :=
  .look fun s =>
    let fs := s.shareFerries
    let k := max 1 fs.length
    let d := shareDesc (s.moveClass m) m.session
    if m.tiles.isEmpty then (Act.modTier fun t => { t with shares := t.shares ++ [m] }).andThen (.shareDone m)
    else if fs.isEmpty then .shareEnds m.session m.motion fsRead 0 []
    else
      .all
        [ .modTier fun t => { t with shares := t.shares ++ [m] },
          .each (List.range fs.length) fun q =>
            let mine := (List.range m.tiles.length).filter fun j => j % k == q
            .when (!mine.isEmpty)
              (.all
                [ .modTier fun t =>
                    { t with
                      xfers := t.xfers ++ [{ id := t.nextId, ferry := fs.getD q 0, desc := d, addr := 0, work := .share m.session, tiles := mine, whole := mine }],
                      nextId := t.nextId + 1 },
                  .showFerry (fs.getD q 0) ]),
          .showMoor,
          match s.image m.src with
          | some i => .when (i.window == 255) (.flashRead m.src)
          | none => .done ]

/-- The source of a share move: the header and the tile list of a berth, of an image, or of what came with the order. -/
def State.shareSource (s : State) (o : ShareOrder) (src : Nat) : Option (List Byte × List Nat) :=
  let p := s.shape o.cls.val
  if o.motion.toNat = moReberthing then
    let b := s.header o.fromClass.val o.fromBerth.toNat
    if s.headerOk o.fromClass.val o.fromBerth.toNat && hSession b == o.session.toNat then some (b, imageTileList p b) else none
  else if o.motion.toNat = 9 ∨ (o.motion.toNat = moRestoring ∧ src = 0) then
    let b := padTo 4096 o.header
    some (b, imageTileList p b)
  else if src ≠ 0 then
    let i := s.imagePlain src
    if (s.image src).isSome && imgHeaderOk i && imgSession i == o.session.toNat then
      some ((i.drop 256).take 4096, (List.range (imgTiles i)).map (imgTileNo i))
    else none
  else
    let b := s.header o.cls.val o.berth.toNat
    if s.headerOk o.cls.val o.berth.toNat && hSession b == o.session.toNat then some (b, imageTileList p b) else none

/-- Logical pages that the history records coming with a share need. -/
def historyPages (o : ShareOrder) : Nat := (o.history.map fun h => ceilDiv h.2.length 16384).sum

/-- History records that come with a share are kept here, under this device's key (R187, R190, R419). -/
def Act.takeHistory (o : ShareOrder) : Act := .each o.history fun h => .storeHistory o.session.toNat h.1.toNat h.2

/-- An order names a move from one lower tier to another, which touches no berth (R188). -/
def tierToTier (o : ShareOrder) : Bool :=
  (o.motion.toNat == moLayingUp || o.motion.toNat == moSealing) && decide (o.old.toNat ≠ 0)

/-- The window that takes the image of an order of `n` tiles: 255 flash, 254 a bundle; none when its tier has no room for
the worst case (R195). -/
def State.orderWindow (s : State) (mo dst n : Nat) : Option Nat :=
  if mo = moSealing then some 254
  else if locKind dst = 1 then s.moorWindow (worstImage n)
  else if dst ≠ 0 then (if s.flashRoom (ceilDiv (worstImage n) 16384) then some 255 else none)
  else some 255

/-- The share move of an order whose source is known and whose tier has room (R188): a berth to be filled is cleared
first; for a crossing's manifests the report follows at once. -/
def Act.runShare (o : ShareOrder) (src dst window : Nat) (header : List Byte) (tiles : List Nat) : Act :=
  .look fun s =>
    let id := o.session.toNat
    let mo := o.motion.toNat
    if mo = 7 then
      let p := s.shape o.cls.val
      let base := s.berthBase o.cls.val o.berth.toNat
      .shareEnds id mo fsOk 0
        (if src ≠ 0 then imgManifests (s.imagePlain src) else tiles.flatMap fun i => s.readMem (p.manifestAddr base i) 32)
    else
      let m : ShareMove :=
        { session := id, motion := mo, cls := o.cls.val, berth := o.berth.toNat, fromClass := o.fromClass.val,
          fromBerth := o.fromBerth.toNat, src := src, dst := dst, tiles := tiles,
          reserved := if dst ≠ 0 ∧ mo ≠ moSealing then worstImage tiles.length else 0, header := header, window := window,
          epoch := s.epoch }
      .all
        [ .when (fillsBerth m)
            (.modBerth fun x =>
              let base := s.berthBase m.cls m.berth
              let span := s.get F.BERTH_CLASS_STRIDE m.cls * 65536
              { x with written := x.written.filter fun e => !(decide (base ≤ e.1) && decide (e.1 < base + span)) }),
          .spreadShare m ]

/-- An order starts its share move (R188, R192, R195): a source image that is lost is reported; an open tag is cancelled
first (R135, R136); a tier without room ends the share NO_SPACE. -/
def Act.startShare (o : ShareOrder) : Act :=
  .look fun s =>
    let id := o.session.toNat
    let mo := o.motion.toNat
    let src := if mo = moReviving ∨ mo = moRestoring then o.loc.toNat else o.old.toNat
    let dst := if mo = moMooring ∨ mo = moLayingUp ∨ mo = moSealing ∨ mo = 9 then o.loc.toNat else 0
    if src ≠ 0 ∧ s.imageLost src then .one (.emit (.shareLost id))
    else if !s.flashRoom (historyPages o) then .shareEnds id mo fsNoSpace 0 []
    else
      .all
        [ .when (!o.image.isEmpty) (.putImage src id 254 o.image), .takeHistory o,
          .when (src == 0 && mo != moReberthing && mo != 9 && mo != moRestoring) (.specOrphan o.cls.val o.berth.toNat),
          .when (mo == moReberthing) (.specOrphan o.fromClass.val o.fromBerth.toNat),
          .look fun s => match s.shareSource o src with
            | none =>
              if src ≠ 0 then .shareEnds id mo (if (s.image src).isSome then fsManifest else fsRead) 0 []
              else .shareLost id o.cls.val o.berth.toNat
            | some (header, tiles) =>
              match s.orderWindow mo dst tiles.length with
              | none => .shareEnds id mo fsNoSpace 0 []
              | some w => .runShare o src dst w header tiles ]

/-- SHARE_MOVE_START: the HOME island's order reaches this LAYER device; the move starts once every earlier command of
the berths it touches has completed (R188). MOTION 0 cancels the session's move here and frees an image, which is reported
(R98, R100, R182); MOTION 10 frees the session's history records (R190). -/
def execShareMoveStart (order : ShareOrder) (s : State) : Host.Outcome State Fault Refusal :=
  (Act.command <| .look fun s =>
    let id := order.session.toNat
    if !s.hasLayer then .done
    else if order.motion.toNat = 0 then
      .all
        [ .shareCancel id,
          .when (decide (order.old.toNat ≠ 0))
            ((Act.dropImage order.old.toNat).andThen (.one (.emit (.imageFreed id order.old.toNat)))) ]
    else if order.motion.toNat = 10 then .dropHistory id
    else
      .when ((s.shareOf id).isNone && s.ckState != ckCapture
          && (tierToTier order || (s.berthIdle order.cls.val order.berth.toNat
            && s.berthIdle order.fromClass.val order.fromBerth.toNat)))
        (.startShare order)).outcome s

end Sys2Proof.Machine
end

