-- ==== Sys2Proof/Machine/Flash.lean ====
section
/-! DEFINITION. The flash store's commands: a LUN operation completes or times out, rebuild, garbage collection,
patrol, and the catch-up pass (R215 to R230). -/

namespace Sys2Proof.Machine

/-- A second die event on a LUN within the window (R224). -/
def State.dieRecurs (s : State) (lun : Nat) : Bool :=
  s.flash.events.any fun e =>
    e.1 == lun && decide (s.now ≤ e.2 + s.sailingsIn (s.get F.FLASH_DIE_RULE_WINDOW_H * 3600))

/-- A die event of an operation (R208, R224): the LUN is reset and the operation retried, or the LUN is permanently
faulted and `finish` ends the operation. -/
def Act.dieEvent (o : FlashOp) (again finish : Act) : Act :=
  .look fun s =>
    let permanent : Act := (Act.raise .FLASH_DIE_FAULT { dindex := o.lun, address := o.lun }).andThen finish
    .all
      [ .onfi o.lun .resetLun,
        if o.retries = 0 then
          .all
            [ .modFlash fun f => { f with events := f.events ++ [(o.lun, s.now)] },
              .raise .FLASH_DIE_EVENT { dindex := o.lun, address := o.lun },
              if s.dieRecurs o.lun then permanent else again ]
        else if o.retries ≥ s.get F.FLASH_DIE_RULE_RETRIES then permanent
        else again ]

/-- The LUN is idle again. -/
def Act.lunIdle (lun : Nat) : Act := .modFlash fun f => { f with busy := f.busy.put (fun _ => none) lun none }

/-- A retry has succeeded: the die event was transient (R224). -/
def Act.dieTransient (o : FlashOp) : Act := .when (decide (o.retries > 0)) (.count .FLASH_DIE_TRANSIENT_COUNT)

/-- The level at which a read of a block starts (R221): a start level above MAX_START is held there. -/
def State.startsAt (s : State) (block : Nat) : Nat :=
  if s.flag F.FLASH_RT_ENV_ENABLE then min (s.blockLevel block) (s.get F.FLASH_RT_ENV_MAX_START) else 0

/-- The read-threshold loop takes the level at which a read succeeded (R221). -/
def Act.startLevel (block level : Nat) : Act :=
  .look fun s =>
    let top := s.get F.FLASH_RT_ENV_MAX_START
    .when (s.flag F.FLASH_RT_ENV_ENABLE)
      (.all
        [ .when (decide (s.blockLevel block ≠ min level top)) (.setEntry block 61 58 (min level top)),
          .when (decide (level > top) && decide (s.flash.tension.get (fun _ => 0) block ≠ s.now + 1))
            (.all
              [ .count .FLASH_RT_TENSION_COUNT,
                .modFlash fun f => { f with tension := f.tension.put (fun _ => 0) block (s.now + 1) } ]) ])

/-! ### Stripe reconstruction (R220, R225) -/

/-- No read that helps to make a page waits or runs. -/
def State.reconOver (s : State) (p : Nat) : Bool := !s.allOps.any fun o => o.target == some p

/-- The reads for a page made from its stripe are over (R220, R224, R225): a read whose ladder reached this step is served,
and its LUN has a die event; a page of a permanently faulted LUN is served to the client whose reads made it. -/
def Act.reconEnds (p : Nat) (client : FlashClient) : Act :=
  .look fun s =>
    .when (s.reconOver p)
      (match s.page p with
      | none => .done
      | some x =>
        let ok := !s.flash.reconBad.get (fun _ => false) p
        let data := s.rebuilt p x
        .all
          [ .modFlash fun f => { f with reconBad := f.reconBad.put (fun _ => false) p false, recon := f.recon.filter fun o => o.page ≠ p },
            .when ok (.count .FLASH_RECON_COUNT),
            match s.flash.recon.find? fun o => o.page == p with
            | some o =>
              if ok then
                (Act.when (decide (s.get F.FLASH_PATROL_RETRY_REFRESH ≤ s.flash.profile.levels + 2)) (.due (p / 8192))).andThen
                  (.dieEvent o
                    (.modFlash fun f => { f with ops := { o with retries := o.retries + 1 } :: f.ops })
                    (.readServes p o.client true data))
              else .readServes p o.client false []
            | none => .readServes p client ok data ])

/-- A read has ended (R209, R220, R221, R227): it decoded at a step of the ladder and every codeword passes its CRC, or
it did not decode by step L + 1; then the other pages of the stripe are read, except for a read that itself serves such a
reconstruction. -/
def Act.readEnds (o : FlashOp) (ok : Bool) (step corrected : Nat) : Act :=
  .look fun s =>
    let levels := s.flash.profile.levels
    let block := o.page / 8192
    match s.page o.page with
    | none => .lunIdle o.lun
    | some x =>
      let decodes := ok && decide (step ≤ levels + 1) && pageOk x.bytes
      .all
        [ .onfi o.lun .changeColumn, .when (decide (step > 0)) (.onfi o.lun .setFeatures),
          .lunIdle o.lun,
          .when (decide (o.retries = 0) && (decide (step > 0) || !decodes)) (.count .FLASH_RETRY_COUNT),
          .when (decide (o.retries = 0) && (decide (step > levels) || !decodes)) (.count .FLASH_SOFT_COUNT),
          .modBlock block fun b => { b with reads := b.reads + 1, maxBits := max b.maxBits corrected },
          .when (decodes && decide (step ≤ levels)) (.startLevel block ((s.startsAt block + step) % max 1 levels)),
          .look fun s =>
            .when (decide (corrected > s.get F.FLASH_PATROL_REFRESH_BITS)
                || (decodes && decide (s.get F.FLASH_PATROL_RETRY_REFRESH ≤ step)) || s.isDue block) (.due block),
          if decodes then
            (Act.dieTransient o).andThen
              (match o.target with
              | some t =>
                (Act.when (o.client == .rebuild) (.readServes o.page o.client true (pageData x.bytes))).andThen
                  (.reconEnds t o.client)
              | none => .readServes o.page o.client true (pageData x.bytes))
          else match o.target with
            | some t =>
              (Act.modFlash fun f => { f with reconBad := f.reconBad.put (fun _ => false) t true }).andThen
                (.reconEnds t o.client)
            | none =>
              if x.area = 1 ∨ !s.stripeDone x.stripe then .readServes o.page o.client false []
              else
                .all
                  [ .modFlash fun f => { f with recon := f.recon ++ [o] }, .reconReads o.page x o.client,
                    .reconEnds o.page o.client ] ]

/-! ### Programs and erases (R211, R215, R222, R223) -/

/-- The block has been written to its last page: it closes, and one that is due is relocated (R227). -/
def Act.closeBlock (block : Nat) : Act :=
  .look fun s =>
    .all
      [ .modBlock block fun b => { b with use := 2 },
        .when (s.block block).due ((Act.count .FLASH_REFRESH_COUNT).andThen (.relocate block .refresh)) ]

/-- The programs that wait for a block are given up, and their pages go elsewhere (R222). -/
def Act.dropPrograms (block : Nat) : Act :=
  .look fun s =>
    let mine (p : FlashOp) : Bool := p.kind == .program && p.page / 8192 == block
    (Act.modFlash fun f => { f with ops := f.ops.filter fun p => !mine p }).andThen
      (.each (s.flash.ops.filter mine) fun p => .unplaced p.page p.client)

/-- A program has ended (R211, R222). -/
def Act.programEnds (o : FlashOp) (ok : Bool) : Act :=
  .look fun s =>
    let block := o.page / 8192
    match s.page o.page with
    | none => .lunIdle o.lun
    | some x =>
      if ok then
        .all
          [ .lunIdle o.lun, .dieTransient o,
            .modNand fun n => { n with pages := n.pages.put (fun _ => none) o.page (some { x with done := true }) },
            .when (decide (o.page % 8192 = 0)) (.setEntry block 31 0 s.taiHours),
            .when (decide (o.page % 8192 + 1 = s.flash.profile.pages)) (.closeBlock block),
            .when (x.area == 4) ((Act.stripeWritten x.stripe).andThen .sweepBlocks) ]
      else
        .all
          [ .lunIdle o.lun,
            .count .FLASH_PROGRAM_FAIL_COUNT,
            .raise .FLASH_PROGRAM_FAIL { address := o.lun },
            .closeGroup (s.groupOf o.lun) (blockPlane block) o.client,
            .modBlock block fun b => { b with use := 2 },
            .blockBad block 2,
            .unplaced o.page o.client,
            .dropPrograms block,
            .relocate block o.client,
            .sweepBlocks ]

/-- Pages placed in a block whose erase failed go to another block. -/
def Act.movePlaced (old new : Nat) : Act :=
  .all
    [ .modNand fun n =>
        { n with
          pages := (n.pages.filter fun e => e.1 / 8192 = old).foldl
            (fun m e => m.put (fun _ => none) (pageKey new (e.1 % 8192)) e.2) (n.pages.filter fun e => e.1 / 8192 ≠ old) },
      .modFlash fun f =>
        { f with
          ops := f.ops.map fun o => if o.page / 8192 = old then { o with page := pageKey new (o.page % 8192) } else o,
          versions := f.versions.map fun v =>
            if v.place ≠ 0 ∧ (v.place - 1) / 4 / 8192 = old then
              { v with place := 4 * pageKey new ((v.place - 1) / 4 % 8192) + (v.place - 1) % 4 + 1 }
            else v,
          openBlocks := f.openBlocks.map fun e => if e.2.1 = old + 1 then (e.1, (new + 1, e.2.2)) else e } ]

/-- An erase has ended (R215, R223). -/
def Act.eraseEnds (o : FlashOp) (ok : Bool) : Act :=
    let block := o.page / 8192
    if ok then
      .all
        [ .lunIdle o.lun, .dieTransient o,
          .look fun s => .setEntry block 55 32 (min (2 ^ 24 - 1) (s.blockPe block + 1)),
          .setEntry block 61 58 0, .setEntry block 31 0 0,
          .modBlock block fun b => { b with reads := 0, maxBits := 0, due := false, releaseCk := 0 } ]
    else
      .all
        [ .lunIdle o.lun,
          .count .FLASH_ERASE_FAIL_COUNT,
          .raise .FLASH_ERASE_FAIL { address := o.lun },
          .look fun s =>
            let area := if s.flash.drain.contains block then 2 else 3
            .all
              [ .blockBad block 2,
                .look fun s => match s.nextBlock area o.lun (blockPlane block) with
                  | some k =>
                    .all
                      [ .modBlock k fun b => { b with use := 1 },
                        .modNand fun n => { n with pages := n.pages.filter fun e => e.1 / 8192 ≠ k },
                        .movePlaced block k,
                        .lunOp o.lun .erase o.client (pageKey k 0) ]
                  | none =>
                    (Act.closeGroup (s.groupOf o.lun) (blockPlane block) o.client).andThen (.dropPrograms block) ] ]

/-! ### The commands -/

/-- FLASH_OP_COMPLETE: the operation of a LUN ends: with success or failure, for a read the step of the ladder at
which it ended and the largest count of corrected bits; the LUN takes its next operation (R219 to R227). -/
def execFlashOpComplete (lun : Fin 512) (ok : Bool) (step : Fin 18) (corrected : BitVec 16) (s : State) :
    Host.Outcome State Fault Refusal :=
  (Act.command <|
    .look fun s =>
      match s.lunBusy lun with
      | none => .done
      | some o =>
        .all
          [ .onfi lun .readStatus,
            match o.kind with
            | .read => if step.val > s.flash.profile.levels + 2 then .done else .readEnds o ok step corrected.toNat
            | .program => .programEnds o ok
            | .erase => .eraseEnds o ok,
            .flashGo, .rebuildCheck, .commitWritten ]).outcome s

/-- FLASH_BUSY_TIMEOUT: the LUN stays busy past 10 times the maximum time of its operation: a die event (R224). -/
def execFlashBusyTimeout (lun : Fin 512) (s : State) : Host.Outcome State Fault Refusal :=
  (Act.command <|
    .look fun s =>
      match s.lunBusy lun with
      | none => .done
      | some o =>
        .dieEvent o
          (.modFlash fun f => { f with busy := f.busy.put (fun _ => none) lun (some { o with retries := o.retries + 1 }) })
          .done).outcome s

/-- REBUILD_START: the rebuild of the first LUN of the list starts (R212, R225): every stripe that has a page on it and
holds a valid page is read once, and serves both the relocation of the pages read and the reconstruction of the lost
one. -/
def execRebuildStart (s : State) : Host.Outcome State Fault Refusal :=
  (Act.command <|
    .look fun s =>
      match s.flash.rebuilding with
      | [] => .done
      | n :: _ =>
        .when (!s.flash.started)
          (.all
            [ .modFlash fun f => { f with started := true },
              .each ((s.stillOn n).map fun e => e.2.stripe).eraseDups fun k =>
                let pages := s.stripePages k
                match pages.find? fun e => s.lunDead (pageLun e.1) && s.pageValid e.1 e.2 with
                | some d => .reconReads d.1 d.2 .rebuild
                | none => .each (pages.filter fun e => s.pageValid e.1 e.2) fun e => .lunOp (pageLun e.1) .read .rebuild e.1,
              .lunsNext, .rebuildCheck ])).outcome s

/-- The closed block that garbage collection takes: the fewest valid pages, then the lower LUN, then the lower block
number (R217). -/
def State.gcBlock (s : State) : Option Nat :=
  let key (k : Nat) : Nat := ((s.validIn k).length * 512 + blockLun k) * 65536 * 4 + k % 65536 * 4 + blockPlane k
  ((s.flash.blocks.filter fun e => e.2.use == 2 && !s.flash.drain.contains e.1).map (·.1)).foldl
    (fun best k =>
      match best with
      | none => some k
      | some b => if key k < key b then some k else some b) none

/-- GC_START: free blocks are below START: the block with the fewest valid pages is collected (R217). -/
def execGcStart (s : State) : Host.Outcome State Fault Refusal :=
  (Act.command <|
    .look fun s =>
      if s.flash.collecting.isSome || decide (s.get F.FLASH_GC_START ≤ s.freePct) then .done
      else match s.gcBlock with
        | none => .done
        | some k =>
          .all [.modFlash fun f => { f with collecting := some k }, .relocate k .collect, .sweepBlocks]).outcome s

/-- PATROL_READ: the patrol reads a programmed page of the MAPPED or the DRAIN area (R227). -/
def execPatrolRead (lun : Fin 512) (plane : Fin 4) (block : BitVec 16) (page : Fin 8192) (s : State) :
    Host.Outcome State Fault Refusal :=
  (Act.command <|
    .look fun s =>
      let p := pageKey (blockKey lun plane block.toNat) page
      match s.page p with
      | some x => .when (x.done && !s.lunDead lun) (.all [.lunOp lun .read .patrol p, .lunNext lun])
      | none => .done).outcome s

/-- LAST_POWER_WRITE: the TAI time goes to the SYSTEM area (R229). -/
def execLastPowerWrite (s : State) : Host.Outcome State Fault Refusal :=
  (Act.command <| .look fun s => .modNand fun n =>
    { n with
      lastPower := s.taiSeconds,
      profileDays :=
        if s.get F.CFG_STATUS_STAGE = 9 then
          n.profileDays.put (fun _ => 0) (s.get F.CFG_AP_STATUS_ACTIVE) (s.taiSeconds / 86400)
        else n.profileDays }).outcome s

/-- CATCHUP_PASS: the device started more than 24 hours after the last-power time: every programmed block is read
(R229), page by page in the MAPPED and DRAIN areas, and the blocks of the SYSTEM area that hold the tables. -/
def execCatchupPass (s : State) : Host.Outcome State Fault Refusal :=
  (Act.command <|
    .look fun s =>
      .when (!s.flag F.FLASH_STATUS_CATCHUP && decide (s.nand.lastPower + 86400 < s.taiSeconds))
        (.all
          [ .each (s.flash.system.filter fun k => !s.lunDead (blockLun k)) fun k => .lunOp (blockLun k) .read .catchup (pageKey k 0),
            .each (s.nand.pages.filterMap fun e => e.2.bind fun x => if x.done && !s.lunDead (pageLun e.1) then some e.1 else none) fun p =>
              .lunOp (pageLun p) .read .catchup p,
            .lunsNext, .showFlash ])).outcome s

end Sys2Proof.Machine
end

