-- ==== Sys2Proof/Machine/HostPort.lean ====
section
/-! DEFINITION. Commands of the host port (R451 to R471, R546, R562). -/

namespace Sys2Proof.Machine

/-! ### Requests (R562) -/

/-- The oldest request of a ring that has been taken and has not begun. -/
def State.nextRequest (s : State) (r : Nat) : Option HostReq := s.host.requests.find? fun q => q.ring == r && !q.begun

/-- The payload of a request as it lies in host memory. -/
def State.payload (s : State) (q : HostReq) : List Byte :=
  match s.dataAddr 3 q.data q.dataLen with
  | some a => s.readHost a q.dataLen
  | none => []

/-- The tile manifests the host port makes as a payload enters (R530). -/
def manifestsOf (bs : List Byte) : List Byte :=
  (List.range (ceilDiv bs.length 16384)).flatMap fun i => manifestOf kindTile (padTo 16384 (bs.drop (16384 * i)))

/-- A request's payload is in, and it begins. -/
def Act.beginRequest (q : HostReq) (p : List Byte) : Act :=
  .modHost fun h =>
    { h with
      requests := h.requests.map fun x => if x = q then { q with begun := true, payload := p, manifests := manifestsOf p } else x }

/-- The next request of a ring, when it has the given OP: a request that was cancelled before it began ends CANCELLED,
one whose payload holds a reserved value ends with BAD_REQUEST, and otherwise `body` runs (R562). -/
def Act.request (ring op : Nat) (ok : List Byte → State → Bool) (body : HostReq → List Byte → Act) : Act :=
  .look fun s =>
    match s.nextRequest ring with
    | some q =>
      let p := s.payload q
      if q.op ≠ op then .done
      else if q.cancelled then .endRequest q 1 0
      else if !ok p s then .endRequest q 2 0
      else body q p
    | none => .done

/-- The segments of a TURN payload: each fits, and its reserved bits are 0 (R562). -/
def segmentsOk : Nat → List Byte → Bool
  | 0, _ => true
  | n + 1, p =>
    let h := leAt p 0 8
    let len := ceilDiv (bits h 31 0) 8 * 8
    decide (8 ≤ p.length) && decide (h / 2 ^ 33 = 0) && decide (8 + len ≤ p.length) && segmentsOk n (p.drop (8 + len))

/-- A TURN payload holds no reserved value (R330, R562). -/
def turnOk (p : List Byte) (s : State) : Bool :=
  decide (0x1A0 ≤ p.length) && leAt p 0 4 ≠ 0 && decide (1 ≤ leAt p 6 2) && decide (leAt p 6 2 ≤ 4096)
    && decide (leAt p 8 4 < 4) && leAt p 0xC 4 == 0 && !s.ctxReserved ((p.drop 0x10).take 128)
    && segmentsOk (leAt p 6 2) (p.drop 0x1A0)

/-- HOST_TURN (R562): a TURN request begins with its payload. -/
def execHostTurn (ring : Fin 64) (s : State) : Host.Outcome State Fault Refusal :=
  (Act.command <| .request ring 1 turnOk .beginRequest).outcome s

/-- HOST_CANCEL (R562): the named request is to end at its next step boundary. -/
def execHostCancel (ring : Fin 64) (s : State) : Host.Outcome State Fault Refusal :=
  (Act.command <| .request ring 2 (fun p _ => decide (8 ≤ p.length) && decide (leAt p 0 8 < 2 ^ 38)) fun q p => .look fun s =>
    match s.request (bits (leAt p 0 8) 37 32) (bits (leAt p 0 8) 31 0) with
    | some x =>
      if x = q then .endRequest q 2 0
      else
        (Act.modHost fun h =>
          { h with requests := h.requests.map fun y => if y = x then { x with cancelled := true } else y }).andThen
          (.endRequest q 0 0)
    | none => .endRequest q 2 0).outcome s

/-- HOST_CONTROL (R562): one directory command, for session firmware to post; it ends the request with the status. -/
def execHostControl (ring : Fin 64) (s : State) : Host.Outcome State Fault Refusal :=
  (Act.command <| .request ring 3
    (fun p _ =>
      decide (p.length = 32) && bits (leAt p 0 32) 179 176 == 0 && bits (leAt p 0 32) 31 0 == 0
        && decide (1 ≤ bits (leAt p 0 32) 191 184) && decide (bits (leAt p 0 32) 191 184 ≤ 0x12))
    .beginRequest).outcome s

/-- HOST_REPLAY (R344, R562): logged turns of a sealed bundle are to be run in replay mode. -/
def execHostReplay (ring : Fin 64) (s : State) : Host.Outcome State Fault Refusal :=
  (Act.command <| .request ring 4 (fun p _ => decide (p.length = 32) && leAt p 24 8 == 0) .beginRequest).outcome s

/-! ### Completion rings (R459, R460, R463) -/

/-- What session firmware hands to a ring: the text of a request, a ticket, a seal record or an event (R459). DONE
entries come from the ends of requests. -/
def Act.offer (ring kind tag session offset place : Nat) (data : List Byte) : Act :=
  .look fun s =>
    if kind = 1 then
      match s.request ring tag with
      | some q =>
        .when (decide (place + data.length ≤ q.outLen))
          (.hostEntry ⟨ring, 1, 0, 0, tag, q.session, offset, data.length, q.out + place, data⟩)
      | none => .done
    else if kind = 3 then
      .when (decide (data.length = 256)) (.hostEntry ⟨ring, 3, 0, 0, tag, session, 0, 256, 0, data⟩)
    else if kind = 4 then
      .when (decide (data.length = 3648)) (.hostEntry ⟨ring, 4, 0, 0, tag, 0, 0, 3648, 0, data⟩)
    else .when (decide (kind = 5)) (.hostEntry ⟨ring, 5, 0, 0, tag, session, 0, data.length, 0, data⟩)

/-- CQ_ENTRY_WRITE (R459): what firmware offers joins the entries that wait for the ring, and the oldest of these is
written once the ring has room. KIND 2 offers nothing. -/
def execCqEntryWrite (ring : Fin 64) (kind : BitVec 8) (tag : BitVec 32) (session offset : BitVec 64) (place : BitVec 32)
    (data : List (BitVec 8)) (s : State) : Host.Outcome State Fault Refusal :=
  (Act.command <| .look fun s =>
    if (s.ring ring).state = 1 then
      (Act.offer ring kind.toNat tag.toNat session.toNat offset.toNat place.toNat data).andThen (.look fun s =>
        match s.nextEntry ring with
        | some e => .when (s.ringRoom ring) (.writeEntry e)
        | none => .done)
    else
      -- The ticket of a request that its ring's failure ended is written, and no entry names it (R460).
      .when ((s.ring ring).state == 3 && kind == 3#8 && data.length == 256) (.writeRecord data fun _ => .done)).outcome s

/-- A completion waits for room in a ring. -/
def State.ringHeld (s : State) (r : Nat) : Bool := (s.nextEntry r).isSome && !s.ringRoom r

/-- CQ_STALL_TIMEOUT (R460): a completion has waited LIMIT_US. -/
def execCqStallTimeout (ring : Fin 64) (s : State) : Host.Outcome State Fault Refusal :=
  (Act.command <| .look fun s =>
    .when (s.ringHeld ring && !(s.ring ring).stalled)
      (.all
        [ .modRing ring fun x => { x with stalled := true }, .count .HOST_CQ_STALL_COUNT, .msix 2,
          .raise .HOST_CQ_STALL { detail := ring.val } ])).outcome s

/-- RING_FAIL_TIMEOUT (R460): a completion has waited FAIL_MS. -/
def execRingFailTimeout (ring : Fin 64) (s : State) : Host.Outcome State Fault Refusal :=
  (Act.command <| .look fun s => .when (s.ringHeld ring) (.ringFail ring)).outcome s

/-- RING_ENABLE (R455, R460): at a boundary, a ring whose ENABLE is set and whose allocation lies in one DATA window
runs, from SEQ 1. -/
def execRingEnable (ring : Fin 64) (s : State) : Host.Outcome State Fault Refusal :=
  (Act.command <| .look fun s =>
    if s.phase ≠ 0 ∨ !s.flag F.HOST_RING_ENABLE ring ∨ (s.ring ring).en then .done
    else if s.busInData (s.ringBase ring) (s.ringBytes ring) then
      .all
        [ .modRing ring fun x => { x with en := true, consumed := 0, produced := 0, badPolls := 0, draining := false },
          .writeHost (s.ctlAddr ring) (leBytes 16 0), .ringState ring 1 ]
    else
      .all
        [ .modRing ring fun x => { x with en := true, state := 0, draining := false },
          .raise .HOST_RING_RANGE { address := s.ringBase ring, detail := ring.val } ]).outcome s

/-- RING_DISABLE (R460): from a boundary at which ENABLE is 0, no entry is taken; open requests run on. -/
def execRingDisable (ring : Fin 64) (s : State) : Host.Outcome State Fault Refusal :=
  (Act.command <| .look fun s =>
    .when (s.phase == 0 && !s.flag F.HOST_RING_ENABLE ring && (s.ring ring).en)
      (.all
        [ .modRing ring fun x => { x with en := false, draining := x.state == 1 },
          .quiesce ring ])).outcome s

/-- A vector is unmasked: a pending message is sent once (R463). -/
def Act.vectorUnmasked (v : Nat) : Act :=
  .look fun s =>
    (Act.modHost fun h => { h with msixPending := h.msixPending &&& ~~~(BitVec.ofNat 72 (2 ^ v)) }).andThen
      (.when (bit s.host.msixPending.toNat v) (.one (.emit (.msix v))))

/-- MSIX_UNMASK (R463): a vector is unmasked; a pending one is sent once. -/
def execMsixUnmask (vector : Fin 72) (s : State) : Host.Outcome State Fault Refusal :=
  (Act.command <| .look fun s =>
    let e := s.host.msixTable.get msixDefault vector
    (Act.modHost fun h => { h with msixTable := h.msixTable.put msixDefault vector (e &&& ~~~(1#128 <<< 96)) }).andThen
      (.vectorUnmasked vector)).outcome s

/-! ### Windows and the link -/

/-- Set LOST of a window. -/
def Act.setLost (w : Nat) : Act :=
  if w < 64 then .setFlag F.HOST_WIN_LOST true w else .setFlag F.HOST_CXL_WIN_LOST true (w - 64)

/-- Set DRAIN of a window. -/
def Act.setDrain (w : Nat) : Act :=
  if w < 64 then .setFlag F.HOST_WIN_DRAIN true w else .setFlag F.HOST_CXL_WIN_DRAIN true (w - 64)

/-- The host reports a window's memory lost (R192, R462). -/
def Act.reportLost (w : Nat) : Act :=
  .look fun s => .when (!(s.window w).lost) ((Act.setLost w).andThen (.windowLost w))

/-- WIN_LOST (R462): windows from 64 on are those of the CXL space. -/
def execWinLost (window : Fin 80) (s : State) : Host.Outcome State Fault Refusal := (Act.command <| .reportLost window).outcome s

/-- WIN_DRAIN (R462): DRAIN is set on a MOOR window, and the images it holds are laid up. -/
def execWinDrain (window : Fin 80) (s : State) : Host.Outcome State Fault Refusal :=
  (Act.command <| .look fun s =>
    .when (decide ((s.window window).use = 1)) ((Act.setDrain window).andThen (.drainWindow window))).outcome s

/-- A link has been retired. -/
def State.linkGone (s : State) (l : Nat) : Bool := s.retired 4 l

/-- HOST_LINK_EVENT (R542, R546): link down, completion timeout or poisoned completion. The link retrains; a second
event within the window, or retries that are exhausted, retire it, and the last link takes the device with it. -/
def execHostLinkEvent (link : Fin 2) (exhausted : Bool) (s : State) : Host.Outcome State Fault Refusal :=
  (Act.command <| .look fun s =>
    if s.linkGone link then .done
    else
      let last := s.get F.HOST_CFG_BIFURCATION == 0 || s.linkGone (1 - link)
      .all
        [ .set F.HOST_LINK_STATUS_RATE 0 link, .set F.HOST_LINK_STATUS_WIDTH 0 link, .set F.HOST_LINK_STATUS_CXL 0 link,
          if exhausted || s.recurs 2 4 link 0 then
            if last then .raiseAs .HOST_LINK_RETIRED 3 4 8 { dindex := link.val }
            else .raise .HOST_LINK_RETIRED { dindex := link.val, busy := true }
          else .raise .HOST_LINK_EVENT { dindex := link.val, busy := true },
          .note 4 link 0 ]).outcome s

/-- HOST_LINK_TRAIN_DONE (R451, R454, R468, R474): a link has trained at a rate (code of R468) and width, in CXL mode
or not; the host port answers configuration requests on it. -/
def execHostLinkTrainDone (link : Fin 2) (rate : BitVec 4) (width : BitVec 5) (cxl : Bool) (s : State) :
    Host.Outcome State Fault Refusal :=
  (Act.command <| .look fun s =>
    let two := s.get F.HOST_CFG_BIFURCATION == 1
    let ok := !s.linkGone link && decide (1 ≤ rate.toNat) && decide (rate.toNat ≤ 4)
      && [1, 2, 4, 8, 16].contains width.toNat && (two || decide (link.val = 0)) && (!two || decide (width.toNat ≤ 8))
    .when ok
      (.all
        [ .set F.HOST_LINK_STATUS_RATE rate.toNat link, .set F.HOST_LINK_STATUS_WIDTH width.toNat link,
          .setFlag F.HOST_LINK_STATUS_CXL (cxl && !two && rate.toNat == 3 && width.toNat == 16) link,
          .modHost fun h => { h with linkUp := h.linkUp ||| BitVec.ofNat 2 (2 ^ link.val) },
          .actionDone 4 link ])).outcome s

/-- CXL_MEM_STORE (R471): a host store into the range of the CXL.mem decoder is dropped and counted. -/
def execCxlMemStore (offset : BitVec 37) (s : State) : Host.Outcome State Fault Refusal :=
  (Act.command <| .look fun s =>
    .when (s.flag F.HOST_LINK_STATUS_CXL 0 && decide (offset.toNat < s.get F.HOST_CXL_MEM_SIZE_GIB * 0x40000000))
      (.count .HOST_WRITE_DENIED_COUNT)).outcome s

end Sys2Proof.Machine
end

