-- ==== Sys2Proof/Machine/Integrity.lean ====
section
/-! DEFINITION. Errors that memories and links report, their retries, remaps and retirements, scrubbing, domains that
settle, and the record queue (R532 to R547). -/

namespace Sys2Proof.Machine

/-! ### HBM (R532, R542 to R544) -/

/-- A line of HBM by its address in the granule view or in a spare region, and the pseudo-channel it lies in (R539, R594). -/
def State.hbmLine (s : State) (a : Nat) : Option (Nat × Nat) :=
  match s.hbmKey a with
  | some k => some (k / 64 * 64, domainOf k)
  | none =>
    if spareBase ≤ a ∧ a < spareBase + 16 * 0x80000000 then
      let o := a - spareBase
      some (a / 64 * 64, 32 * (o / 0x80000000) + o % 0x80000000 / 4096 % 32)
    else none

/-- A row needs a permanent action: it is remapped to a spare row, or the pseudo-channel is retired when none is left
(R543, R544). -/
def Act.rowPermanent (sev d row : Nat) (x : ErrInfo) : Act :=
  .look fun s =>
    let free := s.get F.ERR_SPARE_ROWS_FREE d
    if free = 0 then .raiseAs .ERR_HBM_LINE 2 1 6 x
    else
      .all
        [ .set F.ERR_SPARE_ROWS_FREE (free - 1) d,
          .modErr fun e => { e with rows := e.rows.put (fun _ => 0) (d * 2 ^ 24 + row) 1 },
          .raiseAs .ERR_HBM_LINE sev 1 5 { x with busy := true } ]

/-- A line is lost: no read gives its data any more (R532, R542). -/
def Act.loseLine (line : Nat) : Act :=
  .look fun s => .all [.one (.mem line (freeBytes s.free 64)), .one (.takeFree 64), .one (.lost line true)]

/-- A read of an HBM line of row `row` finds an error that the code corrects at once (`tries` 0), that the retry of a
number corrects, or that no retry of ERR_RULE[0] does (R532, R542). An error that needed a retry is a fault event: the
second in a row within the window is permanent. A line that a near-memory unit read counts as corrected in its counter
too (R244). -/
def Act.hbmRead (line d row tries : Nat) (lostAction : Nat) (nmu : Bool := false) : Act :=
  .look fun s =>
    let x : ErrInfo := { dindex := d, address := line }
    let again := s.recurs 0 1 d row
    let corrected := (Act.count .ERR_HBM_CORRECTED_COUNT).andThen (.when nmu (.count .NMU_LINE_CORRECTED_COUNT))
    if tries = 0 then corrected
    else if tries ≤ s.get F.ERR_RULE_RETRIES 0 then
      .all
        [ corrected,
          if again then .rowPermanent 0 d row x else .raiseAs .ERR_HBM_LINE 0 1 2 x,
          .note 1 d row ]
    else
      .all
        [ .count .ERR_HBM_UNCORRECTABLE_COUNT, .loseLine line,
          if again then .rowPermanent 1 d row x else .raiseAs .ERR_HBM_LINE 1 1 lostAction x,
          .note 1 d row ]

/-- HBM_LINE_ERROR (R244, R532, R542). -/
def execHbmLineError (addr : BitVec 48) (row : BitVec 24) (read : LineRead) (s : State) :
    Host.Outcome State Fault Refusal :=
  (Act.command <| .look fun s => match s.hbmLine addr.toNat with
    | some (line, d) => .hbmRead line d row.toNat read.tries.val 4 read.nmu
    | none => .done).outcome s

/-- HBM_SCRUB: a scrub read of a line, which handles what it finds as any read would (R534); a line that is lost
already is found lost again. -/
def execHbmScrub (addr : BitVec 48) (row : BitVec 24) (found : Option (Fin 16)) (s : State) :
    Host.Outcome State Fault Refusal :=
  (Act.command <| .look fun s => match s.hbmLine addr.toNat with
    | none => .done
    | some (line, d) =>
      if (s.lost.get (fun _ => false) line) then .hbmRead line d row.toNat 16 2
      else match found with
        | some n => .hbmRead line d row.toNat n.val 2
        | none => .done).outcome s

/-- ROW_REMAP_DONE: the row's addresses lead to the spare row (R543). -/
def execRowRemapDone (pc : Fin 512) (row : BitVec 24) (s : State) : Host.Outcome State Fault Refusal :=
  (Act.command <| .look fun s =>
    let k := pc.val * 2 ^ 24 + row.toNat
    .when (s.err.rows.get (fun _ => 0) k == 1)
      (.all
        [ .modErr fun e => { e with rows := e.rows.put (fun _ => 0) k 2 }, .count .ERR_REMAP_COUNT,
          .actionDone 1 pc.val ])).outcome s

/-- The place that command, parity and training failures of a pseudo-channel are noted under: no row has it. -/
def pcPlace : Nat := 2 ^ 24

/-- HBM_PC_FAULT: a command, parity or training failure. A retrain clears it, unless it is the second in the window or
no retrain does (R542, R544). `failed` is how many retrains fail. -/
def execHbmPcFault (pc : Fin 512) (failed : Fin 16) (s : State) : Host.Outcome State Fault Refusal :=
  (Act.command <| .look fun s =>
    let x : ErrInfo := { dindex := pc.val }
    .when (!s.retired 1 pc.val)
      (.all
        [ if s.recurs 0 1 pc.val pcPlace || decide (s.get F.ERR_RULE_RETRIES 0 ≤ failed.val) then
            .raiseAs .ERR_HBM_PC 2 1 6 x
          else .raiseAs .ERR_HBM_PC 0 1 2 x,
          .note 1 pc.val pcPlace ])).outcome s

/-- PC_RETIRE_DONE: the last unit of a retired pseudo-channel has been remapped or retired (R539, R544). -/
def execPcRetireDone (pc : Fin 512) (s : State) : Host.Outcome State Fault Refusal :=
  (Act.command <| .look fun s => .when (s.retired 1 pc.val) (.actionDone 1 pc.val)).outcome s

/-! ### SRAM (R533, R542, R547) -/

/-- A corrected word is written back; it is CORRECTED in its bank (R533, R621). -/
def Act.sramCorrected (word : SramWord) : Act :=
  (Act.count .ERR_SRAM_CORRECTED_COUNT).andThen
    (match word with
    | .localStore c a =>
      .raiseAs .ERR_SRAM_WORD 0 8 1 { dindex := 48 * c.val + a.toNat / bankBytes, address := c.val * 2 ^ 28 + a.toNat }
    | .shared a => .raiseAs .ERR_SRAM_WORD 0 8 1 { dindex := sharedBank (sharedBase + a.toNat), address := sharedBase + a.toNat }
    | .table | .keyStore | .unserved => .raiseAs .ERR_SRAM_WORD 0 0 1)

/-- An uncorrectable word: it is lost until it is written again, and what reads it ends (R533). In an area that no
domain serves, and in the seal engine's key store, it is FATAL (R550). -/
def Act.sramLost (word : SramWord) : Act :=
  (Act.count .ERR_SRAM_UNCORRECTABLE_COUNT).andThen
    (match word with
    | .localStore c a =>
      let w := c.val * 2 ^ 28 + a.toNat / 8 * 8
      (Act.one (.lost (lsLostBase + lsKey c.val (a.toNat / 8 * 8)) true)).andThen
        (.sramFault (48 * c.val + a.toNat / bankBytes) w)
    | .shared a =>
      let w := sharedBase + a.toNat / 8 * 8
      (Act.one (.lost w true)).andThen (.sramFault (sharedBank w) w)
    | .table => .raiseAs .ERR_SRAM_WORD 1 0 4
    | .keyStore => .raise .SEC_KEYSTORE
    | .unserved => .raise .ERR_UNSERVED)

/-- The word exists: a local store holds 12 MiB (R82). -/
def wordExists : SramWord → Bool
  | .localStore _ a => decide (a.toNat < 48 * bankBytes)
  | _ => true

/-- SRAM_WORD_ERROR (R533). -/
def execSramWordError (word : SramWord) (uncorrectable : Bool) (s : State) : Host.Outcome State Fault Refusal :=
  (Act.command <| .when (wordExists word) (if uncorrectable then .sramLost word else .sramCorrected word)).outcome s

/-- SRAM_SCRUB: a scrub read of a word, which handles what it finds as any read would (R534): `found` says whether the
error is uncorrectable. -/
def execSramScrub (word : SramWord) (found : Option Bool) (s : State) : Host.Outcome State Fault Refusal :=
  (Act.command <| .when (wordExists word) (match found with
    | none => .done
    | some true => .sramLost word
    | some false => .sramCorrected word)).outcome s

/-! ### Ferries and the causeway -/

/-- FERRY_PARITY_FAULT: the ferry's oldest transfer in flight ends READ_FAILED; on a second fault within the window the
ferry is retired, and every transfer of it ends (R542, R547, R621). -/
def execFerryParityFault (ferry : Fin 32) (s : State) : Host.Outcome State Fault Refusal :=
  (Act.command <| .look fun s =>
    let f := ferry.val
    .when (!s.retired 7 f)
      (.all
        [ match s.tier.xfers.find? fun x => x.ferry == f && x.phase ≠ 0 with
          | some x =>
            (match x.work with
            | .firmware => .all [.dropXfer x, .freeDest x, .ferryEnds f x.desc fsRead]
            | .share session =>
              .all
                [ .dropXfer x, .count .FERRY_READ_FAIL_COUNT,
                  match s.shareOf session with
                  | some m => .shareEnds session m.motion fsRead 0 []
                  | none => .done ])
          | none => .done,
          .fault .FERRY_FAULT 5 7 { dindex := f } ])).outcome s

/-- CAUSEWAY_LANE_EVENT: more than 8 flit replays in a row on a lane. The lane retrains; the second event in the window,
or one that the retrains of ERR_RULE[3] do not clear, takes a spare lane, and without one the group is retired
(R542, R545). -/
def execCausewayLaneEvent (group : Fin 32) (lane : Fin 100) (replays : BitVec 16) (failed : Fin 16) (s : State) :
    Host.Outcome State Fault Refusal :=
  (Act.command <| .look fun s =>
    let g := group.val
    let x : ErrInfo := { dindex := g, detail := lane.val }
    let spares := s.get F.ERR_CAUSEWAY_SPARES g
    .when (decide (8 < replays.toNat) && !s.retired 5 g)
      (.all
        [ if !s.recurs 3 5 g lane.val && decide (failed.val < s.get F.ERR_RULE_RETRIES 3) then
            .raiseAs .ERR_CAUSEWAY_LANE 0 5 2 x
          else if spares = 0 then .raiseAs .ERR_CAUSEWAY_LANE 2 5 6 x
          else
            (Act.set F.ERR_CAUSEWAY_SPARES (spares - 1) g).andThen
              (.raiseAs .ERR_CAUSEWAY_LANE 0 5 1 { x with busy := true }),
          .note 5 g lane.val ])).outcome s

/-- SPARE_LANE_DONE: the spare lane has taken over (R539, R545). -/
def execSpareLaneDone (group : Fin 32) (s : State) : Host.Outcome State Fault Refusal :=
  (Act.command <| .look fun s =>
    .when (s.err.domains.get domDefault (domKey 5 group.val)).busy (.actionDone 5 group.val)).outcome s

/-! ### Domains and records -/

/-- DOMAIN_SETTLE: a domain whose action has completed leaves recovery SETTLE sailings later (R539). -/
def execDomainSettle (dtype : Fin 16) (index : BitVec 16) (s : State) : Host.Outcome State Fault Refusal :=
  (Act.command <| .look fun s =>
    let k := domKey dtype.val index.toNat
    let d := s.err.domains.get domDefault k
    .when (decide (0 < d.depth) && !d.busy && decide (d.settleAt ≤ s.now))
      (.modErr fun e => { e with domains := e.domains.put domDefault k {} })).outcome s

/-- The oldest record goes (R538). -/
def Act.errPop : Act := .look fun s => .setErrQueue s.err.queue.tail

/-- ERR_POP: management firmware removes the oldest record; a write by another agent removes nothing (R453, R538). -/
def execErrPop (agent : Agent) (s : State) : Host.Outcome State Fault Refusal :=
  (Act.command <| match agent with
    | .mgmt => .errPop
    | .control _ => .done
    | .host => .count .HOST_WRITE_DENIED_COUNT).outcome s

end Sys2Proof.Machine
end

