-- ==== Sys2Proof/Machine/Irq.lean ====
section
/-! DEFINITION. Commands of the interrupt controller, the completion queues, the bollards and the watch (R557 to R578,
R622). -/

namespace Sys2Proof.Machine

/-- A write carried a reserved encoding: recorded, and no action is performed (R6). -/
def Act.reservedWrite : Act := .raise .CFG_RESERVED_WRITE

/-! ### Interrupts (R563, R564) -/

/-- The source that a claim by core `c` returns: the lowest pending one that is unmasked or presented. -/
def State.claimable (s : State) (c : Nat) : Option Nat :=
  irqSources.find? fun src =>
    s.irqTarget src == c && s.flag F.IRQ_SRC_PENDING src && (!s.flag F.IRQ_SRC_MASK src || s.flag F.IRQ_SRC_PRESENTED src)

/-- Core `c` reads IRQ_CLAIM[c]. -/
def Act.claim (c : Nat) : Act :=
  .look fun s =>
    match s.claimable c with
    | none => .modIrq fun q => { q with claims := q.claims ++ [(c, 0x3FF)] }
    | some src =>
      .all
        [ .when (s.flag F.IRQ_SRC_MASK src) (.count .IRQ_MASKED_CLAIM_COUNT),
          .setFlag F.IRQ_SRC_PENDING false src,
          match s.presented c with
          | some p => .setFlag F.IRQ_SRC_PRESENTED false p
          | none => .done,
          .modIrq fun q =>
            { q with
              claims := q.claims ++ [(c, src)],
              claimed := if src = 0x10 + c then q.claimed ||| BitVec.ofNat 16 (2 ^ c) else q.claimed },
          .present c ]

/-- IRQ_CLAIM (R564, R573): a read of IRQ_CLAIM[core]; another agent than that core claims nothing. -/
def execIrqClaim (agent : Agent) (core : Fin 16) (s : State) : Host.Outcome State Fault Refusal :=
  (Act.command <|
    match agent with
    | .control c => if c = core then .claim core else .modIrq fun q => { q with claims := q.claims ++ [(core.val, 0x3FF)] }
    | _ => .modIrq fun q => { q with claims := q.claims ++ [(core.val, 0x3FF)] }).outcome s

/-- MASK of a source changes; WATCH sources cannot be masked (R564, R572). -/
def Act.maskWrite (src : Nat) (mask : Bool) : Act :=
  .when (decide (0x10 ≤ src))
    ((Act.setFlag F.IRQ_SRC_MASK mask src).andThen (.look fun s => .present (s.irqTarget src)))

/-- IRQ_MASK_WRITE (R564): the controller observes a write of MASK. -/
def execIrqMaskWrite (agent : Agent) (source : Fin 69) (mask : Bool) (s : State) : Host.Outcome State Fault Refusal :=
  (Act.command <| .byCore agent (.maskWrite source mask)).outcome s

/-! ### Ends of requests (R561, R575) -/

/-- The counter that counts requests ended with a CODE (R170, R561). -/
def endCounter (code : Nat) : Option Ctr :=
  if code = Err.ATTN_NONFINITE.code then some .ATTN_NONFINITE_COUNT
  else if code = Err.ATTN_STEER_RANGE.code then some .ATTN_STEER_RANGE_COUNT
  else none

/-- IRQ_END[c] is written: the request ends with a DONE entry, or the end is dropped and recorded. A reserved STATUS
ends nothing (R6). -/
def Act.endWrite (c v : Nat) : Act :=
  let code := bits v 63 48
  let status := bits v 47 40
  let ring := bits v 37 32
  let tag := bits v 31 0
  .all
    [ .set F.IRQ_END_CODE code c, .set F.IRQ_END_RING ring c, .set F.IRQ_END_TAG tag c,
      if status ≥ 4 then .reservedWrite
      else
        .all
          [ .set F.IRQ_END_STATUS status c,
            .look fun s => match s.request ring tag with
              | some q =>
                (Act.endRequest q status code).andThen
                  (match endCounter code with
                    | some x => .count x
                    | none => .done)
              | none => (Act.count .IRQ_END_UNKNOWN_COUNT).andThen (.raise .IRQ_END_UNKNOWN { tag := tag, detail := ring }) ] ]

/-- IRQ_END (R561). -/
def execIrqEnd (agent : Agent) (core : Fin 16) (value : BitVec 64) (s : State) : Host.Outcome State Fault Refusal :=
  (Act.command <| .byCore agent (.endWrite core value.toNat)).outcome s

/-! ### Completion queues (R559, R560) -/

/-- Entries of queue `c`. -/
def State.cqSize (s : State) (c : Nat) : Nat := 256 * 2 ^ s.get F.IRQ_CQ_LOG2_ENTRIES c

/-- The queue has room: PRODUCED − CONSUMED < E. -/
def State.cqRoom (s : State) (c : Nat) : Bool :=
  decide ((s.get F.IRQ_CQ_STATUS_PRODUCED c + 2 ^ 32 - s.get F.IRQ_CQ_CONSUMED c) % 2 ^ 32 < s.cqSize c)

/-- The bytes of a completion record (R560). -/
def CqRec.bytes (r : CqRec) (i : Nat) : List Byte :=
  leBytes 1 r.source ++ leBytes 1 r.status ++ leBytes 2 r.index ++ leBytes 4 r.tag ++ leBytes 8 r.sailing
    ++ leBytes 8 r.result ++ leBytes 4 (i + 1) ++ leBytes 4 0

/-- The places, among the completions that wait, of those that units hold for a full queue: the oldest of each unit for
core `c` (R560). -/
def State.cqHolds (s : State) (c : Nat) : List Nat :=
  let mine := (s.irq.waiting.mapIdx fun i r => (i, r)).filter fun e => e.2.core == c
  (mine.filter fun e => (mine.find? fun x => x.2.source == e.2.source && x.2.index == e.2.index).map (·.1) == some e.1).map (·.1)

/-- Completions that their units hold are counted, each hold once (R560). -/
def Act.cqHold (c : Nat) : Act :=
  .look fun s =>
    let new := (s.cqHolds c).filter fun i => (s.irq.waiting[i]?.map fun r => !r.held).getD false
    (Act.modIrq fun q => { q with waiting := q.waiting.mapIdx fun i x => if new.contains i then { x with held := true } else x }).andThen
      (.countN .IRQ_CQ_FULL_COUNT new.length)

/-- CQ_RECORD_WRITE (R560): the oldest completion for a core's queue is written, or held while the queue is full. -/
def execCqRecordWrite (core : Fin 16) (s : State) : Host.Outcome State Fault Refusal :=
  (Act.command <| .look fun s =>
    match s.irq.waiting.find? fun r => r.core == core.val with
    | none => .done
    | some r =>
      let i := s.get F.IRQ_CQ_STATUS_PRODUCED core
      if s.cqRoom core then
        .all
          [ .modIrq fun q => { q with waiting := q.waiting.erase r },
            .store (s.get F.IRQ_CQ_BASE core + 32 * (i % s.cqSize core)) (r.bytes i),
            .set F.IRQ_CQ_STATUS_PRODUCED ((i + 1) % 2 ^ 32) core,
            .interrupt (0x20 + core) ]
      else .cqHold core).outcome s

/-! ### Bollards (R568 to R571, R577) -/

/-- BOLL_POST is written; N = 0 is reserved (R6). -/
def Act.postWrite (v : Nat) : Act :=
  (Act.set F.BOLL_POST_INDEX (bits v 14 0)).andThen
    (if bits v 31 16 = 0 then .reservedWrite
     else (Act.set F.BOLL_POST_N (bits v 31 16)).andThen (.post (bits v 14 0) (bits v 31 16)))

/-- BOLL_POST (R568, R570): counts are posted, and waiting takers are granted in list order. -/
def execBollPost (agent : Agent) (value : BitVec 32) (s : State) : Host.Outcome State Fault Refusal :=
  (Act.command <| .byCore agent (.postWrite value.toNat)).outcome s

/-- A control core joins a list, one wait at a time (R577). -/
def Act.waitJoin (c b : Nat) : Act :=
  .look fun s =>
    if s.flag F.BOLL_WAIT_PENDING c then .count .BOLL_WAIT_BUSY_COUNT
    else .all [.set F.BOLL_WAIT_INDEX b c, .setFlag F.BOLL_WAIT_PENDING true c, .join b (.control c)]

/-- A control core's wait ends without a count (R571). -/
def Act.waitCancel (c : Nat) : Act := (Act.leave (.control c)).andThen (.setFlag F.BOLL_WAIT_PENDING false c)

/-- BOLL_WAIT_JOIN (R577): a write of BOLL_WAIT[core] with CANCEL 0. -/
def execBollWaitJoin (agent : Agent) (core : Fin 16) (index : BitVec 15) (s : State) : Host.Outcome State Fault Refusal :=
  (Act.command <| .byCore agent (.waitJoin core index.toNat)).outcome s

/-- BOLL_WAIT_CANCEL (R571): a write of BOLL_WAIT[core] with CANCEL 1. -/
def execBollWaitCancel (agent : Agent) (core : Fin 16) (index : BitVec 15) (s : State) : Host.Outcome State Fault Refusal :=
  (Act.command <| .byCore agent <|
    (Act.set F.BOLL_WAIT_INDEX index.toNat core).andThen (.waitCancel core)).outcome s

/-- BOLL_COUNT is written: the count is set, then grants follow (R570, R577). -/
def Act.countWrite (b n : Nat) : Act := (Act.set F.BOLL_COUNT_COUNT n b).andThen (.grantAll b)

/-- BOLL_COUNT_WRITE (R577). -/
def execBollCountWrite (agent : Agent) (bollard : BitVec 15) (count : BitVec 16) (s : State) :
    Host.Outcome State Fault Refusal :=
  (Act.command <| .byCore agent (.countWrite bollard.toNat count.toNat)).outcome s

/-! ### The watch (R565 to R567) -/

/-- The core is watched: in CORES and not retired (R565). -/
def State.watched (s : State) (c : Nat) : Bool := s.coreLive c

/-- WATCH_ACK_DEADLINE (R565): at B(n) + ACK_US a core that has not claimed SAIL_START has missed the sailing. -/
def execWatchAckDeadline (core : Fin 16) (s : State) : Host.Outcome State Fault Refusal :=
  (Act.command <| .look fun s =>
    .when (!s.stopped && s.watched core && !bit s.irq.claimed.toNat core)
      (.modIrq fun q => { q with missing := q.missing ||| BitVec.ofNat 16 (2 ^ core.val) })).outcome s

/-- A core kicks the watch, before the start of CLOSE (R565). -/
def Act.kick (c : Nat) : Act :=
  .look fun s =>
    .when (decide (s.phase < 2)) (.modIrq fun q => { q with kicked := q.kicked ||| BitVec.ofNat 16 (2 ^ c) })

/-- WATCH_KICK (R565, R576): a core kicks the watch, before the start of CLOSE. -/
def execWatchKick (core : Fin 16) (s : State) : Host.Outcome State Fault Refusal := (Act.command <| .kick core).outcome s

/-- A core is reset: its bollard wait is cancelled, and its queue and pending sources are kept (R566, R571). -/
def Act.watchReset (c : Nat) : Act :=
  .all
    [ .count .SAIL_WATCH_RESET_COUNT,
      .look fun s => .modIrq fun q =>
        { q with
          resets := q.resets.put (fun _ => []) c (q.resets.get (fun _ => []) c ++ [s.now]),
          inReset := q.inReset ||| BitVec.ofNat 16 (2 ^ c) },
      .waitCancel c, .raise .SAIL_WATCH_RESET { detail := c } ]

/-- Too few live cores in CORES make the device FATAL (R567). -/
def Act.watchLow (c : Nat) : Act :=
  .look fun s =>
    .when (!s.fatal && decide (((List.range 16).filter s.coreLive).length < s.get F.SAIL_WATCH_CFG_MIN_LIVE))
      (.raise .SAIL_WATCH_LOW { detail := c })

/-- A core is retired: its completions go elsewhere, and too few live cores make the device FATAL (R559, R566, R567). -/
def Act.watchRetire (c : Nat) : Act :=
  .look fun s =>
    .all
      [ .set F.SAIL_WATCH_STATUS_RETIRED (putBits (s.get F.SAIL_WATCH_STATUS_RETIRED) c c 1),
        .look fun s => .modIrq fun q =>
          { q with waiting := q.waiting.map fun r => if r.core = c then { r with core := s.tagCore r.tag } else r },
        .raise .SAIL_WATCH_RETIRED { detail := c },
        .watchLow c ]

/-- What the watch does about a core that missed the sailing (R566). -/
def Act.watchMiss (c : Nat) : Act :=
  .look fun s =>
    let n := s.irq.misses.get (fun _ => 0) c + 1
    let recent := (s.irq.resets.get (fun _ => []) c).filter fun r => decide (s.now ≤ r + s.windowSailings 4)
    .all
      [ .modIrq fun q =>
          { q with
            missing := q.missing ||| BitVec.ofNat 16 (2 ^ c),
            misses := q.misses.put (fun _ => 0) c (if n ≥ 2 then 0 else n) },
        .count .SAIL_WATCH_MISS_COUNT, .raise .SAIL_WATCH_MISS { detail := c },
        if n < 2 then .interrupt c
        else if recent.length < 2 then .watchReset c
        else .watchRetire c ]

/-- WATCH_KICK_DEADLINE (R565, R566): at the start of CLOSE the watch acts on the cores that missed the sailing; a
capture sailing waives the kick (R270). -/
def execWatchKickDeadline (s : State) : Host.Outcome State Fault Refusal :=
  (Act.command <| .look fun s =>
    let waived := s.inCapture s.now
    let missed := (List.range 16).filter fun c =>
      s.watched c && (bit s.irq.missing.toNat c || (!waived && !bit s.irq.kicked.toNat c))
    .when (s.phase == 2) ((Act.each missed .watchMiss).andThen (.watchLow 0))).outcome s

/-- WATCH_CORE_RESTART (R566): a reset core restarts at its firmware entry, its local memory reloaded from IRQ_FW_BASE,
and its misses count from 0 again. -/
def execWatchCoreRestart (core : Fin 16) (s : State) : Host.Outcome State Fault Refusal :=
  (Act.command <| .look fun s =>
    .when (bit s.irq.inReset.toNat core)
      (.modIrq fun q =>
        { q with
          inReset := q.inReset &&& ~~~(BitVec.ofNat 16 (2 ^ core.val)),
          misses := q.misses.put (fun _ => 0) core 0,
          local_ := q.local_.put (fun _ => []) core
            (s.readMem (s.get F.IRQ_FW_BASE_ADDR) (q.local_.get (fun _ => []) core).length) })).outcome s

end Sys2Proof.Machine
end

