-- ==== Sys2Proof/Machine/SdirOps.lean ====
section
/-! DEFINITION. Operations of the directory commands: reading a command (R97), what a session's release frees (R98),
how moves end (R96, R98, R189, R191), sealed bundles (R343, R514 to R516), and the crossing's messages to the peer
(R420). -/

namespace Sys2Proof.Machine

/-! ### The command entry (R97) -/

def dSession (e : Nat) : Nat := bits e 255 192
def dOp (e : Nat) : Nat := bits e 191 184
def dClass (e : Nat) : Nat := bits e 183 182
def dMaxClass (e : Nat) : Nat := bits e 181 180
def dArg48 (e : Nat) : Nat := bits e 175 128
def dArg64 (e : Nat) : Nat := bits e 127 64
def dTag (e : Nat) : Nat := bits e 63 32
/-- A reserved bit of the entry is 1. -/
def dReserved (e : Nat) : Bool := bits e 179 176 ≠ 0 || bits e 31 0 ≠ 0

/-- Completion status codes (R99). -/
def dsOk : Nat := 0
def dsBusy : Nat := 1
def dsBadTransition : Nat := 2
def dsQuotaRecords : Nat := 3
def dsQuotaBerth : Nat := 4
def dsNoBerth : Nat := 5
def dsIndexFull : Nat := 6
def dsNotFound : Nat := 7
def dsExists : Nat := 8
def dsTenantDisabled : Nat := 0xA
def dsCancelled : Nat := 0xB
def dsQuotaPin : Nat := 0xC
def dsProfile : Nat := 0xD
def dsReviveLate : Nat := 0xE
def dsNoDirectory : Nat := 0xF
def dsBadOp : Nat := 0x10

/-- Take a command out of the queue. -/
def Act.sdirPop (a : Nat) : Act := .modSdir fun x => { x with queue := x.queue.erase a }

/-- A command leaves the queue and ends. -/
def Act.sdirEnd (a e status : Nat) : Act := (Act.sdirPop a).andThen (.sdirDone (dTag e) status 0)

/-- The command at `a` is the oldest one of its session: no older one in the queue, none that waits (R97). -/
def State.sdirFirst (s : State) (a session : Nat) : Bool :=
  (s.sdir.queue.takeWhile fun x => x ≠ a).all (fun x => dSession (s.readLE x 32) ≠ session)
    && s.sdir.waits.all fun w => dSession w.entry.toNat ≠ session

/-- Take the directory command at `a` when its code is one of `ops`: the unit runs the commands of a session in the
order posted (R97); without a directory every command ends NO_DIRECTORY (R91, R117). `body` gets the entry and takes
it out of the queue itself, or leaves it waiting. While the capture point is being reached nothing new starts (R271).
DESIGN CHOICE (assumption 142): an entry with reserved bits set ends BAD_OP. -/
def Act.sdirTake (a : Nat) (ops : Nat → Bool) (body : Nat → Act) : Act :=
  .look fun s =>
    if !s.sdir.queue.contains a || s.ckState == ckCapture then .done
    else .takeEntry true a 32 (.sdirPop a) (.complete 0x05 dsBadOp 0 0 0) fun b =>
      let e := ofLE b
      if !ops (dOp e) || !s.sdirFirst a (dSession e) then .done
      else if !s.hasHome || s.recCount = 0 then .sdirEnd a e dsNoDirectory
      else if dReserved e then .sdirEnd a e dsBadOp
      else body e

/-- A record among the index entries of an ID that fails its CRC, so that its ID cannot be trusted (R94). -/
def State.brokenRec (s : State) (id : Nat) : Option Nat :=
  (s.indexSlots id).findSome? fun a => match s.indexRec a with
    | some i => if s.recOk i then none else some i
    | none => none

/-- The commands that use bytes of a record beyond those the cache holds: LOOKUP, BEGIN_TURN, END_TURN, SEAL, UNSEAL,
CROSS_OUT, CROSS_DONE, RESTORE and RELEASE. -/
def wholeOps : List Nat := [0x01, 0x03, 0x04, 0x0C, 0x0D, 0x0E, 0x10, 0x11, 0x12]

/-- The session's record: `absent` runs when there is none; a record that fails its CRC ends the command (R94);
otherwise `body` gets the index and the bytes. -/
def Act.sdirRecord (a e : Nat) (absent : Act) (body : Nat → List Byte → Act) : Act :=
  .look fun s => match s.findSession (dSession e) with
    | some i =>
      if s.hbmOk i || (s.recOk i && !wholeOps.contains (dOp e)) then body i (s.recBytes i)
      else .all [.sdirPop a, .touch i, .recordCrc i (dTag e)]
    | none => match s.brokenRec (dSession e) with
      | some i =>
        .all
          [ .sdirPop a, .count .SDIR_CRC_FAIL_COUNT, .raise .SDIR_RECORD_CRC { tag := dTag e, detail := i },
            .sdirDone (dTag e) 9 0 ]
      | none => absent

/-- A command on a held session; a session not held is in no state the command is listed for (R98). -/
def Act.sdirSession (a op : Nat) (body : Nat → Nat → List Byte → Act) : Act :=
  .sdirTake a (· == op) fun e => .sdirRecord a e (.sdirEnd a e dsBadTransition) (body e)

/-- A command runs on a record: it leaves the queue and the record is used through the cache (R93). -/
def Act.sdirRun (a i : Nat) (body : Act) : Act := .all [.sdirPop a, .touch i, body]

/-- A transfer that no command cancels (R100). -/
def hardMotion (mo : Nat) : Bool := mo == moSealing || mo == moReberthing || mo == moRestoring

/-- A transfer that BEGIN_TURN, REVIVE and PIN cancel (R100). -/
def softMotion (mo : Nat) : Bool := mo == moMooring || mo == moLayingUp

/-- The session waits in the revival queue (R107). -/
def State.reviveQueued (s : State) (id : Nat) : Bool := s.sdir.revivals.any fun r => r.session == id

/-! ### Ends of moves -/

/-- REVIVE commands that merged with a revival end with it (R100). -/
def Act.mergedEnd (session status : Nat) : Act :=
  .look fun s =>
    (Act.each (s.sdir.merged.filter fun m => m.1 == session) fun m => .sdirDone m.2 status 0).andThen
      (.modSdir fun x => { x with merged := x.merged.filter fun m => m.1 ≠ session })

/-- The command that started a move ends, and those merged with it. -/
def Act.moveEnds (m : Move) (status : Nat) : Act := (Act.moveTag m status).andThen (.mergedEnd m.session status)

/-- A move is stopped (R100, R108): counted, undone here and on this device's share, and its command ends. -/
def Act.stopMove (m : Move) (status : Nat) : Act :=
  .all [.cancelMove m status, .mergedEnd m.session status, .shareCancel m.session]

/-- A move in progress of a session is cancelled with CANCELLED (R100). -/
def Act.cancelIfMoving (session : Nat) : Act :=
  .look fun s => match s.moveOf session with
    | some m => .stopMove m dsCancelled
    | none => .done

/-- Free an image: its slot and charge, this device's share, and the shares of the crew (R182, R193). -/
def Act.freeImage (session loc : Nat) : Act :=
  .when (decide (loc ≠ 0))
    (.all [.freeLoc (tenantOf session) loc, .dropImage loc, .one (.emit (.imageFree session loc))])

/-- Every berth number the record holds becomes free (R98). -/
def Act.freeBerthsOf (i tenant : Nat) : Act :=
  .look fun s =>
    .each (s.sdir.berthUse.filter fun e => e.2 == i + 1) fun e => .freeBerth (e.1 / 2 ^ 20) (e.1 % 2 ^ 20) tenant

/-- The session's history records and replay log go, here and on the crew (R190, R336). -/
def Act.freeHistory (session : Nat) : Act :=
  .look fun s =>
    .all
      [ .dropHistory session,
        .useLayup (tenantOf session) 0 (s.sdir.charged.get (fun _ => 0) (historyCharge session)),
        .modSdir fun x => { x with charged := x.charged.put (fun _ => 0) (historyCharge session) 0 },
        .modNand fun x => { x with logs := x.logs.put (fun _ => []) session [] },
        .one (.emit (.imageFree session 0)) ]

/-- A record goes to FREE: its berths, images, history, key slot, index entry and quota use are freed (R98, R518). -/
def Act.freeRecord (i : Nat) : Act :=
  .look fun s =>
    let b := s.recBytes i
    let id := rId b
    let t := tenantOf id
    .all
      [ .freeBerthsOf i t, .freeImage id (rLower b), .freeHistory id, .slotZero (rKeySlot b), .unindex id,
        .stateCounts (rState b) ssFree, .writeRec i [], .useRecords t 0 1, .leaveMoored i,
        .modSdir fun x => { x with revivals := x.revivals.filter fun r => r.session ≠ id } ]

/-- The settled amount replaces the reservation of an image (R193). -/
def Act.settle (tenant loc amount : Nat) : Act :=
  .look fun s =>
    let held := s.sdir.charged.get (fun _ => 0) loc
    .all
      [ .modSdir fun x => { x with charged := x.charged.put (fun _ => 0) loc amount },
        if locKind loc = 1 then .useMoor tenant amount held else .useLayup tenant amount held ]

/-- The reports in ascending order of the shares' first model layers (R189). -/
def sortReports (l : List ShareReport) : List ShareReport := l.mergeSort fun a b => a.assign ≤ b.assign

/-- The digest over the manifests of all shares (R189). -/
def reportDigest (l : List ShareReport) : List Byte := sha384 ((sortReports l).flatMap (·.manifests))

/-- Bytes of all shares. -/
def reportBytes (l : List ShareReport) : Nat := (l.map (·.bytes)).foldl (· + ·) 0

/-- LOWER_DIGEST written. -/
def setDigest (b d : List Byte) : List Byte := b.take 0x40 ++ padTo 48 d ++ b.drop 0x70

/-- A move is over: MOTION falls to NONE and its command ends OK. -/
def Act.moveDone (m : Move) : Act :=
  .all [.dropMove m.session, .modRec m.index fun b => setCtl b 23 20 moNone, .moveEnds m dsOk]

/-- A mooring or a lay-up is complete (R96, R98, R111, R193): the source is freed only now. -/
def Act.loweredDone (m : Move) : Act :=
  .look fun s =>
    let t := tenantOf m.session
    let n := reportBytes m.reports
    let mooring := m.motion == moMooring
    .all
      [ .settle t m.loc (if mooring then mibOf n else mbOf n),
        if m.old ≠ 0 then .freeImage m.session m.old else .freeBerthsOf m.index t,
        .setState m.index (if mooring then ssMoored else ssLaidUp) fun b =>
          setAll (setDigest b (reportDigest m.reports)) [(0x30, 8, m.loc), (0x8C, 4, s.epoch)],
        .modSdir fun x =>
          { x with shareTiles := x.shareTiles.put (fun _ => []) m.loc (m.reports.map fun r => r.manifests.length / 32) },
        .when mooring (.joinMoored m.index),
        .count (if mooring then .SDIR_MOOR_COUNT else .SDIR_LAYUP_COUNT),
        .moveDone m ]

/-- A revival cannot be verified, or its image is lost: the session goes to FAULTED (R98, R108, R192). -/
def Act.moveFaults (m : Move) (reason : Nat) : Act :=
  .all
    [ .undoMove m, .shareCancel m.session, .sessionFault m.index reason, .moveEnds m dsCancelled ]

/-- A revival is complete (R107, R108, R188, R189). -/
def Act.revivedDone (m : Move) : Act :=
  .look fun s =>
    let b := s.recBytes m.index
    if reportDigest m.reports ≠ rDigest b then .moveFaults m 3
    else
      .all
        [ .freeImage m.session (rLower b),
          .setState m.index ssBerthed fun b =>
            setCtl (setCtl (setAll b [(0x10, 4, m.berth), (0x30, 8, 0), (0x8C, 4, s.epoch)]) 17 16 m.cls) 45 45
              (if m.runAhead then 1 else 0),
          .count .SDIR_REVIVE_COUNT, .moveDone m ]

/-- A re-berthing is complete: the old berth is freed, and the change takes effect at the step the command named
(R106). -/
def Act.reberthedDone (m : Move) : Act :=
  .look fun s =>
    .all
      [ .freeBerth m.oldClass m.oldBerth (tenantOf m.session),
        .modRec m.index fun b => setCtl (setAll b [(0x10, 4, m.berth), (0x8C, 4, s.epoch)]) 17 16 m.cls,
        .one (.emit (.classChange m.session m.cls m.step)), .moveDone m ]

/-- RESTORE is complete: the record stands as at k, BERTHED in the new berth (R288); a share that came from an image
must match the digest of the record at k. -/
def Act.restoredDone (m : Move) : Act :=
  .look fun s =>
    let now := s.recBytes m.index
    if m.loc ≠ 0 ∧ reportDigest m.reports ≠ rDigest m.saved then .moveFaults m 3
    else
      .all
        [ .when (decide (rLower now ≠ m.loc)) (.freeImage m.session (rLower now)),
          .freeImage m.session m.loc,
          .each (s.sdir.berthUse.filter fun e => decide (e.2 = m.index + 1 ∧ e.1 ≠ berthKey m.cls m.berth)) fun e =>
            .freeBerth (e.1 / 2 ^ 20) (e.1 % 2 ^ 20) (tenantOf m.session),
          .setState m.index ssBerthed fun b =>
            let r := setAll m.saved [(0x10, 4, m.berth), (0x30, 8, 0), (0x80, 4, rKeySlot b), (0x8C, 4, s.epoch)]
            setCtl (setCtl (setCtl r 55 48 0) 10 8 0) 23 20 moNone,
          .moveDone m ]

/-- A record that fails its CRC when its move completes: the move is undone and its command ends RECORD_CRC (R94). -/
def Act.moveBad (m : Move) : Act :=
  .all [.recordBad m.index (m.tag.getD 0), .undoMove m, .shareCancel m.session, .moveEnds m 9]

/-! ### Sealed bundles (R343, R514, R515) -/

/-- Locator of a bundle: KIND SEALED, the archive generation, the serial (R343). -/
def sealedLoc (g serial : Nat) : Nat := putBits (putBits (3 * 2 ^ 60) 55 52 g) 47 0 serial

/-- The bundle key of a session and serial (R505). -/
def State.bundleKey (s : State) (g session serial : Nat) : List Byte :=
  leBytes 32 (Config.hkdf (s.archiveKey " archive enc" g) []
    (label s.archivePrefix ++ label " bundle" ++ leBytes 8 session ++ leBytes 6 serial)).toNat

/-- Kinds of record in a bundle whose layout is not given (assumption 6): header, stored section, section table. -/
def kHeader : Nat := 0x100
def kSection : Nat := 0x101
def kHistory : Nat := 0x102

/-- The 512-byte header (R343): its fields in the order named, CONTENT_DIGEST last. -/
def bundleHeader (fields : List (List Byte)) (digest : List Byte) : List Byte :=
  padTo 512 (Config.layout kHeader (fields ++ [digest]))

/-- A section to be sealed: its type by its place in the list of R343, and its plain bytes. -/
structure Section where
  type_ : Nat
  plain : List Byte

/-- Associated data of a section (R515): the header has no CONTENT_DIGEST yet. -/
def sectionAad (fields : List (List Byte)) (i : Nat) : List Byte :=
  sha384 (bundleHeader fields (List.replicate 48 0)) ++ leBytes 4 i

/-- The stored bytes of section `i` under an IV. -/
def sealSection (key : List Byte) (fields : List (List Byte)) (i : Nat) (x : Section) (iv : List Byte) : List Byte :=
  let c := gcmCrypt key iv x.plain
  Config.layout kSection
    [leBytes 4 x.type_, leBytes 8 x.plain.length, iv, gcmTag key iv (sectionAad fields i) c, c]

/-- The archive signatures over a header, and their length (R515). -/
def State.archiveSign (s : State) (g : Nat) (h : List Byte) (rnd : BitVec 256) : List Byte :=
  leBytes 64 (Config.ed25519Sign (s.archiveKey " archive ed25519" g) h).toNat
    ++ leBytes 3309 (Config.mldsaSign (s.archiveKey " archive mldsa65" g) h rnd).toNat

/-- A bundle of a session, sealed under the current generation (R343, R514, R515); one draw for the signature and one
per IV, from the draw `from_` on. -/
def State.buildBundle (s : State) (from_ serial : Nat) (b : List Byte) (xs : List Section) : List Byte :=
  let g := s.get F.CFG_LC_STATUS_ARCHIVE_GEN
  let id := rId b
  let key := s.bundleKey g id serial
  let fields : List (List Byte) :=
    [ leBytes 8 id, leBytes 6 serial, leBytes 1 g, leBytes 1 (rProfile b), leBytes 1 (rClass b), leBytes 8 (rCreated b),
      leBytes 8 (rLogSeq b - 1), s.chainBefore id (rLogSeq b), leBytes 4 xs.length ]
  let stored := (xs.mapIdx fun i x => sealSection key fields i x (leBytes 12 (Config.drbg (from_ + 1 + i)).toNat)).flatten
  let h := bundleHeader fields (sha384 stored)
  h ++ s.archiveSign g h (Config.drbg from_) ++ stored

/-- Parts of a bundle: header, signatures, stored sections. -/
def buHeader (b : List Byte) : List Byte := b.take 512
def buEd (b : List Byte) : List Byte := (b.drop 512).take 64
def buMl (b : List Byte) : List Byte := (b.drop 576).take 3309
def buStored (b : List Byte) : List Byte := b.drop 3885
def buField (b : List Byte) (i : Nat) : List Byte := Config.part kHeader (buHeader b) i
def buGen (b : List Byte) : Nat := ofLE (buField b 2)
def buSerial (b : List Byte) : Nat := ofLE (buField b 1)
def buCount (b : List Byte) : Nat := ofLE (buField b 8)
/-- Part `j` of stored section `i`. -/
def buSection (b : List Byte) (i j : Nat) : List Byte := Config.part kSection (buStored b) (8 * i + j)

/-- Section `i` decrypts with a valid tag under the key of a session. -/
def State.sectionOk (s : State) (session : Nat) (b : List Byte) (i : Nat) : Bool :=
  let key := s.bundleKey (buGen b) session (buSerial b)
  let fields := (List.range 9).map (buField b)
  gcmTag key (buSection b i 2) (sectionAad fields i) (buSection b i 4) == buSection b i 3

/-- The plain bytes of the sections of a type, in order. -/
def State.sections (s : State) (session : Nat) (b : List Byte) (t : Nat) : List (List Byte) :=
  let key := s.bundleKey (buGen b) session (buSerial b)
  (List.range (buCount b)).filterMap fun i =>
    if ofLE (buSection b i 0) = t then some (gcmCrypt key (buSection b i 2) (buSection b i 4)) else none

/-- The reason a bundle is refused, by the checks of R516 in order; 0 for none. -/
def State.bundleReject (s : State) (session : Nat) (b : List Byte) : Nat :=
  let h := buHeader b
  let g := buGen b
  if !Config.parses kHeader h then 1
  else if g > s.get F.CFG_LC_STATUS_ARCHIVE_GEN then 2
  else if !(Config.ed25519Verify (leBytes 32 (Config.ed25519Public (s.archiveKey " archive ed25519" g)).toNat) h (buEd b)
      && Config.mldsaVerify (leBytes 1952 (Config.mldsaPublic (s.archiveKey " archive mldsa65" g)).toNat) h (buMl b)) then 3
  else if buField b 9 ≠ sha384 (buStored b) then 4
  else if !(List.range (buCount b)).all (s.sectionOk session b) then 5
  else 0

/-- A bundle is refused (R516). -/
def Act.bundleRefused (session tag reason : Nat) : Act :=
  .all
    [ .set F.SEC_STATUS_LAST_REJECT reason, .count .SEC_BUNDLE_REJECT_COUNT,
      .raise .SEC_BUNDLE_REJECTED { session := session, tag := tag, detail := reason } ]

/-- Section types by their place in the list of R343. -/
def bxRecord : Nat := 0
def bxImage : Nat := 1
def bxHistory : Nat := 2
def bxIndex : Nat := 3
def bxLog : Nat := 4
def bxKey : Nat := 5

/-- The session's recall index as a section carries it: its handle (R343, R370). -/
def indexSection (b : List Byte) : List Byte := leBytes 8 (rHistory b)

/-- A SEAL is complete (R98, R343): the bundle is built of what the shares reported, berths and images are freed, the
key slot is zeroed, and LOWER_LOC names the bundle. -/
def Act.sealedDone (m : Move) : Act :=
  .look fun s =>
    let b := s.recBytes m.index
    let id := m.session
    let rs := sortReports m.reports
    let xs : List Section :=
      [⟨bxRecord, b⟩] ++ rs.map (fun r => ⟨bxImage, r.image⟩)
        ++ rs.flatMap (fun r => r.history.map fun h => ⟨bxHistory, Config.layout kHistory [leBytes 8 h.1, leBytes 4 r.assign, h.2]⟩)
        ++ [⟨bxIndex, indexSection b⟩] ++ (s.log id).map (fun l => ⟨bxLog, l⟩)
        ++ [⟨bxKey, (s.slotKey id (rKeySlot b)).getD []⟩]
    let bytes := s.buildBundle s.free (bits m.loc 47 0) b xs
    .all
      [ .drbgDraws (xs.length + 1),
        .modNand fun x => { x with bundles := x.bundles.put (fun _ => []) m.loc bytes },
        .dropImage m.loc, .freeBerthsOf m.index (tenantOf id), .freeImage id m.old, .freeHistory id,
        .slotZero (rKeySlot b),
        .setState m.index ssSealed fun b => setAll (setDigest b (reportDigest m.reports)) [(0x30, 8, m.loc)],
        .one (.emit (.bundle m.loc)), .moveDone m ]

/-! ### Crossings (R420) -/

/-- The crossing of a session on this device. -/
def State.crossing (s : State) (session : Nat) : Option Crossing := s.mct.crossings.find? fun c => c.session == session

/-- Replace a crossing. -/
def Act.setCrossing (c : Crossing) : Act :=
  .modMct fun m => { m with crossings := m.crossings.map fun x => if x.session = c.session then c else x }

/-- The HOME island of a peer in the current chart, by number (R379). -/
def State.peerHome (s : State) (peer : Nat) : Nat :=
  match (s.chartEntries s.epoch).find? fun b => entryDevice b == peer with
  | some b => ((List.range 8).find? fun i => entryRole b i == roleHome && entryGranules b i ≠ 0).getD 0
  | none => 0

/-- Send a message of a crossing to the peer's HOME island, with the crossing's origin and the epoch it began in (R387,
R406, R407). -/
def Act.crossSend (peer op type_ vc at_ : Nat) (payload : List Byte) : Act :=
  .look fun s =>
    let c := (s.mct.crossings ++ s.mct.offers).find? fun c => c.op == op && c.peer == peer
    let epoch := match c with | some c => c.epoch | none => s.epoch
    let origin := match c with | some c => if c.source then s.selfAddr else peer | none => s.selfAddr
    .mctSend peer vc at_
      { type_ := type_, op := op, origin := origin, epoch := epoch, island := s.peerHome peer, role := roleHome, payload := payload }

/-- The payload of CROSS_BEGIN (R407, R419, R421): record, digest, share count, KEEP_S, and the generator key's
bundle. -/
def State.crossBegin (s : State) (b digest : List Byte) : List Byte :=
  let g := s.get F.CFG_LC_STATUS_ARCHIVE_GEN
  b ++ padTo 48 digest ++ leBytes 4 s.crewShares.length ++ leBytes 4 (s.get F.MCT_CROSS_KEEP_S)
    ++ leBytes 8 (sealedLoc g s.sealer.serial)
    ++ s.buildBundle s.free s.sealer.serial b [⟨bxKey, (s.slotKey (rId b) (rKeySlot b)).getD []⟩]

def cbRecord (p : List Byte) : List Byte := p.take 256
def cbDigest (p : List Byte) : List Byte := (p.drop 256).take 48
def cbShares (p : List Byte) : Nat := leAt p 304 4
def cbKeep (p : List Byte) : Nat := leAt p 308 4
def cbLoc (p : List Byte) : Nat := leAt p 312 8
def cbBundle (p : List Byte) : List Byte := p.drop 320

/-- The source sends CROSS_BEGIN (R420). -/
def Act.sendBegin (session at_ : Nat) (digest : List Byte) : Act :=
  .look fun s => match s.crossing session, s.findSession session with
    | some c, some i =>
      let p := s.crossBegin (s.recBytes i) digest
      .all
        [ .drbgDraws 2, .modSealer fun x => { x with serial := x.serial + 1 },
          .setCrossing { c with step := 2, since := s.now, digest := digest, begin_ := p, waiting := [], reports := [] },
          .crossSend c.peer c.op mtBegin 2 at_ p ]
    | _, _ => .done

/-- The source aborts a crossing before its handover point (R420). -/
def Act.abortCrossing (c : Crossing) (at_ reason : Nat) : Act :=
  .look fun s =>
    .all
      [ .setCrossing { c with step := 6, since := s.now }, .count .MCT_CROSS_ABORT_COUNT,
        .one (.emit (.shareCancel c.session)), .shareCancel c.session,
        .crossSend c.peer c.op mtAbort 2 at_ (leBytes 8 c.session ++ leBytes 1 reason) ]

/-- The crossing is over on this side: its operation closes. -/
def Act.endCrossing (c : Crossing) : Act :=
  .all
    [ .modMct fun m => { m with crossings := m.crossings.filter fun x => x.session ≠ c.session },
      .look fun s => .each (s.mct.ops.filter fun o => o.id == c.op && o.peer == c.peer) .closeOp ]

/-- A share of a crossing fails or arrives (R420): the source's gathering, or the destination's receiving. -/
def Act.crossReport (c : Crossing) (r : ShareReport) (at_ : Nat) : Act :=
  .look fun s =>
    if r.status ≠ fsOk then
      if c.source then .abortCrossing c at_ 2
      else
        .all
          [ .setCrossing { c with step := 6, since := s.now }, .count .MCT_CROSS_ABORT_COUNT,
            .crossSend c.peer c.op mtAbort 2 at_ (leBytes 8 c.session ++ leBytes 1 2) ]
    else
      let c := { c with waiting := c.waiting.erase r.assign, reports := c.reports ++ [r] }
      if !c.waiting.isEmpty then .setCrossing c
      else if c.source then
        (Act.setCrossing c).andThen (.when (c.step == 1) (.sendBegin c.session at_ (reportDigest c.reports)))
      else
        let d := reportDigest c.reports
        if d = c.digest then
          .all [.setCrossing { c with step := 4, since := s.now }, .crossSend c.peer c.op mtHeld 2 at_ d]
        else
          .all
            [ .setCrossing { c with step := 6, since := s.now }, .count .MCT_CROSS_ABORT_COUNT,
              .crossSend c.peer c.op mtAbort 2 at_ (leBytes 8 c.session ++ leBytes 1 1) ]

/-- Motions that name a crossing's work on a share in an order: gathering manifests at the source, sending, receiving
at the destination. -/
def moGather : Nat := 7
def moSend : Nat := 8
def moReceive : Nat := 9

end Sys2Proof.Machine
end

