-- ==== Sys2Proof/Machine/Sdir.lean ====
section
/-! DEFINITION. The directory: its commands (R97 to R106), revivals (R107, R108) and the reports of shares (R98, R189,
R191, R287). -/

namespace Sys2Proof.Machine

/-! ### Records that come to be -/

/-- The class and lowest berth number of the first class of a range that has quota, a free number and a lockable cache
entry (R93, R103). -/
def State.classFor (s : State) (tenant i lo hi : Nat) : Option (Nat × Nat) :=
  if !s.lockRoom i then none
  else (List.range 4).findSome? fun c =>
    if c < lo ∨ hi < c ∨ s.berthQuotaFull tenant c then none else (s.freeBerth c).map fun n => (c, n)

/-- A new record: its bytes, its index entry and its quota use (R92, R95); its STATE follows. -/
def Act.newRecord (i ix : Nat) (b : List Byte) : Act :=
  .all
    [ .writeRec i (setCtl (setCtl b 2 0 ssFree) 23 20 moNone), .store ix (leBytes 4 (i + 1)),
      .useRecords (tenantOf (rId b)) 1 0, .touch i ]

/-- The record of a new session (R95, R103): fields that the spec does not name hold 0, no steering set; the log's
place is open (assumption 3). -/
def State.admitted (s : State) (id i c n : Nat) : List Byte :=
  let b := setAll (List.replicate 256 0)
    [ (0, 8, id), (0x10, 4, n), (0x14, 4, 0xFFFFFFFF), (0x70, 8, (Config.freeWord s.free).toNat), (0x80, 4, i),
      (0x8C, 4, s.epoch), (0x98, 8, s.now) ]
  setCtl (setCtl b 17 16 c) 39 32 (s.get F.CFG_AP_STATUS_ACTIVE)

/-- ADMIT (R92, R93, R101 to R103, R518): `wait` runs when no class of the range qualifies. -/
def Act.tryAdmit (e : Nat) (wait : Act) : Act :=
  .look fun s =>
    let id := dSession e
    let t := tenantOf id
    if dMaxClass e < dClass e then .sdirDone (dTag e) dsBadOp 0
    else if (s.findSession id).isSome then .sdirDone (dTag e) dsExists 0
    else if !s.enabled t then .sdirDone (dTag e) dsTenantDisabled 0
    else if s.recordsFull t then .sdirDone (dTag e) dsQuotaRecords 0
    else match s.freeIndex id, s.freeRec with
      | some ix, some i =>
        (match s.classFor t i (dClass e) (dMaxClass e) with
        | some (c, n) =>
          .all
            [ .one (.takeFree 1), .newRecord i ix (s.admitted id i c n), .takeBerth c n i t, .setState i ssBerthed id_,
              .slotDraw id i, .count .SDIR_ADMIT_COUNT, .sdirDone (dTag e) dsOk 0 ]
        | none => wait)
      | _, _ => .sdirDone (dTag e) dsIndexFull 0
where id_ (b : List Byte) : List Byte := b

/-- REBERTH from its record (R103, R106). -/
def Act.tryReberth (e : Nat) (wait : Act) : Act :=
  .look fun s => match s.findSession (dSession e) with
    | none => .sdirDone (dTag e) dsBadTransition 0
    | some i =>
      let b := s.recBytes i
      let c := dClass e
      let t := tenantOf (dSession e)
      if rState b ≠ ssBerthed ∨ c ≤ rClass b then .sdirDone (dTag e) dsBadTransition 0
      else if rMotion b ≠ moNone || s.berthQuotaFull t c then wait
      else match s.freeBerth c with
        | none => wait
        | some n =>
          (Act.takeBerth c n i t).andThen
            (.startMove ⟨moReberthing, dSession e, i, 0, 0, c, n, rClass b, rBerth b, some (dTag e), 0, s.now, s.epoch, s.crewShares, [], false, dArg48 e, []⟩)

/-- RESTORE once the record at k_s is known (R105, R106, R288): a session that had a berth gets its shares from the
buddies, one that had none is revived from the image the record names. -/
def Act.tryRestore (e : Nat) (data : List Byte) (wait : Act) : Act :=
  .look fun s => match s.findSession (dSession e) with
    | none => .sdirDone (dTag e) dsBadTransition 0
    | some i =>
      let c := rClass data
      let t := tenantOf (dSession e)
      let image := rState data == ssMoored || rState data == ssLaidUp
      let loc := if image then rLower data else 0
      if rState (s.recBytes i) ≠ ssFaulted then .sdirDone (dTag e) dsBadTransition 0
      else if rId data ≠ dSession e ∨ rState data = ssFree ∨ rState data = ssSealed
          ∨ (image ∧ locGen loc < s.sdir.gens.get (fun _ => 0) (locSlot loc)) then .sdirDone (dTag e) dsNotFound 0
      else if rProfile data ≠ s.get F.CFG_AP_STATUS_ACTIVE then .sdirDone (dTag e) dsProfile 0
      else if s.berthQuotaFull t c || !s.lockRoom i then wait
      else match s.freeBerth c with
        | none => wait
        | some n =>
          (Act.takeBerth c n i t).andThen
            (.startMove ⟨moRestoring, dSession e, i, loc, 0, c, n, c, n, some (dTag e), 0, s.now, s.epoch, s.crewShares, [], false, 0, data⟩)

/-- CROSS_IN ends, and the source is answered (R420). -/
def Act.crossInEnds (e : Nat) (c : Crossing) (status berth at_ : Nat) : Act :=
  .all
    [ .sdirDone (dTag e) status 0,
      .modMct fun m => { m with offers := m.offers.filter fun x => x.session ≠ c.session },
      .crossSend c.peer c.op mtReady 2 at_ (leBytes 1 status ++ leBytes 4 berth) ]

/-- CROSS_IN takes the session: its record, its key, its place for berth shares or lower images (R420, R518). -/
def Act.crossTake (e : Nat) (c : Crossing) (i ix : Nat) (berth : Option Nat) (at_ : Nat) : Act :=
  .look fun s =>
    let r := cbRecord c.begin_
    let id := dSession e
    let t := tenantOf id
    let prior := rPrior r
    let w := s.worstBytes (setLE r 0x30 8 0)
    let loc := if prior = ssMoored then s.newLoc 1 else if prior = ssLaidUp then s.newLoc 2 else 0
    let n := berth.getD 0
    let key := ((s.sections id (cbBundle c.begin_) bxKey).head?).getD []
    let b := setAll r
      [ (0x10, 4, n), (0x30, 8, loc), (0x38, 8, (Config.freeWord s.free).toNat), (0x70, 8, (Config.freeWord (s.free + 1)).toNat),
        (0x80, 4, i), (0x8C, 4, s.epoch), (0x90, 8, c.peer), (0x98, 8, s.now) ]
    .all
      [ .one (.takeFree 2), .newRecord i ix b,
        (match berth with | some n => .takeBerth (rClass r) n i t | none => .done),
        .when (decide (loc ≠ 0))
          ((Act.takeLoc loc).andThen (.chargeLoc t loc (if prior = ssMoored then mibOf w else mbOf w))),
        .setState i ssCrossing fun b => setCtl b 10 8 prior,
        .slotFill id i key,
        .modMct fun m =>
          { m with
            crossings := m.crossings ++
              [{ c with step := 3, since := s.now, digest := cbDigest c.begin_, berth := n, waiting := s.crewShares, reports := [] }] },
        .openOp ⟨c.op, c.peer, 2, c.epoch, s.homeIsland, dTag e, false⟩,
        .one (.emit (.shareOrder id moReceive loc 0 (rClass r) n (rClass r) n)),
        .crossInEnds e c dsOk n at_ ]

/-- CROSS_IN (R101, R102, R105, R420, R516): the bundle with the key is checked first, then what R105 asks, then the
quotas of ADMIT. Without a CROSS_BEGIN for the session there is nothing to take in. -/
def Act.tryCrossIn (e at_ : Nat) (wait : Act) : Act :=
  .look fun s =>
    let id := dSession e
    let t := tenantOf id
    match s.mct.offers.find? fun c => c.session == id with
    | none => .sdirDone (dTag e) dsNotFound 0
    | some c =>
      let r := cbRecord c.begin_
      let reject := s.bundleReject id (cbBundle c.begin_)
      if (s.findSession id).isSome then .crossInEnds e c dsBadTransition 0 at_
      else if reject ≠ 0 then (Act.bundleRefused id (dTag e) reject).andThen (.crossInEnds e c dsNotFound 0 at_)
      else if rProfile r ≠ s.get F.CFG_AP_STATUS_ACTIVE then .crossInEnds e c dsProfile 0 at_
      else if !s.enabled t then .crossInEnds e c dsTenantDisabled 0 at_
      else if s.recordsFull t then .crossInEnds e c dsQuotaRecords 0 at_
      else match s.freeIndex id, s.freeRec with
        | some ix, some i =>
          if rPrior r = ssMoored ∨ rPrior r = ssLaidUp then
            (if s.lockRoom i then .crossTake e c i ix none at_ else wait)
          else
            (match s.classFor t i (rClass r) (rClass r) with
            | some (_, n) => .crossTake e c i ix (some n) at_
            | none => wait)
        | _, _ => .crossInEnds e c dsIndexFull 0 at_

/-- Run a command that may wait for a berth, a lock or quota. -/
def Act.tryWaiter (w : SdirWait) (at_ : Nat) (wait : Act) : Act :=
  let e := w.entry.toNat
  if dOp e = 0x02 then .tryAdmit e wait
  else if dOp e = 0x08 then .tryReberth e wait
  else if dOp e = 0x0F then .tryCrossIn e at_ wait
  else if dOp e = 0x11 then .tryRestore e w.data wait
  else .done

/-- A command joins those that wait (R103). -/
def Act.joinWaits (w : SdirWait) : Act := .modSdir fun x => { x with waits := x.waits ++ [w] }

/-- A command that may wait leaves the queue and runs or waits. -/
def Act.runWaiter (a e : Nat) (data : List Byte) (at_ : Nat) : Act :=
  .look fun s =>
    let w : SdirWait :=
      ⟨BitVec.ofNat 256 e, s.now, data, if dOp e = 0x0F ∨ dOp e = 0x11 then rClass data else dClass e⟩
    (Act.sdirPop a).andThen (.tryWaiter w at_ (.joinWaits w))

/-! ### Commands -/

/-- LOOKUP: the completion returns the record (R98), packed as results are (assumption 3). -/
def execLookup (addr : BitVec 48) (s : State) : Host.Outcome State Fault Refusal :=
  (Act.command <| Act.sdirTake addr.toNat (· == 0x01) fun e =>
    .sdirRecord addr.toNat e (.sdirEnd addr.toNat e dsNotFound) fun i _ =>
      .sdirRun addr.toNat i
        (.look fun s =>
          .sdirDone (dTag e) dsOk (Config.packResults 0x05 ((s.recBytes i).map (·.toNat))).toNat)).outcome s

/-- ADMIT: into the lowest class of the range that qualifies; it waits while the entropy source fails (R103, R506). -/
def execAdmitSession (addr : BitVec 48) (s : State) : Host.Outcome State Fault Refusal :=
  (Act.command <| Act.sdirTake addr.toNat (· == 0x02) fun e =>
    .sdirRecord addr.toNat e
      (.look fun s => .when s.entropyOk (.runWaiter addr.toNat e [] 0))
      fun i _ => .sdirRun addr.toNat i
        (.sdirDone (dTag e) (if dMaxClass e < dClass e then dsBadOp else dsExists) 0)).outcome s

/-- ADMIT_WAIT_RESUME: a waiting command of a session runs once a class of its range qualifies (R93, R103). -/
def execAdmitWaitResume (session : BitVec 64) (at_ : BitVec 40) (s : State) : Host.Outcome State Fault Refusal :=
  (Act.command <| Act.look fun s => match s.sdir.waits.find? fun w => dSession w.entry.toNat == session.toNat with
    | none => .done
    | some w =>
      .when (s.ckState != ckCapture && dOp w.entry.toNat != 0x0F && (s.entropyOk || dOp w.entry.toNat != 0x02))
        ((Act.modSdir fun x => { x with waits := x.waits.erase w }).andThen
          (.tryWaiter w at_.toNat (.modSdir fun x => { x with waits := s.sdir.waits })))).outcome s

/-- Berths of some class a waiting command may take are short, or a lock is, or only quota is (R93, R103). -/
def State.waitStatus (s : State) (w : SdirWait) : Nat :=
  let e := w.entry.toNat
  let hi := if dOp e = 0x02 then dMaxClass e else w.cls
  if s.lockFree && (List.range 4).all fun c =>
      decide (c < w.cls) || decide (hi < c)
        || ((s.freeBerth c).isSome && s.berthQuotaFull (tenantOf (dSession e)) c)
  then dsQuotaBerth else dsNoBerth

/-- ADMIT_WAIT_EXPIRE: a command that has waited ADMIT_WAIT sailings ends NO_BERTH, or QUOTA_BERTH when only quota was
short (R103, R106). -/
def execAdmitWaitExpire (session : BitVec 64) (at_ : BitVec 40) (s : State) : Host.Outcome State Fault Refusal :=
  (Act.command <| Act.look fun s => match s.sdir.waits.find? fun w => dSession w.entry.toNat == session.toNat with
    | none => .done
    | some w =>
      .when (decide (w.since + s.get F.SDIR_WAIT_ADMIT_WAIT ≤ s.now))
        ((Act.modSdir fun x => { x with waits := x.waits.erase w }).andThen
          (match s.mct.offers.find? fun c => c.session == session.toNat && dOp w.entry.toNat == 0x0F with
          | some c => .crossInEnds w.entry.toNat c (s.waitStatus w) 0 at_.toNat
          | none => .sdirDone (dTag w.entry.toNat) (s.waitStatus w) 0))).outcome s

/-- BEGIN_TURN: BERTHED goes ACTIVE and a mooring or lay-up in progress is cancelled; an ACTIVE session is BUSY; a
revival is waited for (R98, R100). The turn's request is the one whose TAG the command carries (R95, assumption 126). -/
def execBeginTurn (addr : BitVec 48) (s : State) : Host.Outcome State Fault Refusal :=
  (Act.command <| Act.sdirSession addr.toNat 0x03 fun e i b =>
    .look fun s =>
      if hardMotion (rMotion b) || rMotion b == moReviving || s.reviveQueued (dSession e) then .done
      else .sdirRun addr.toNat i
        (if rState b = ssActive then .sdirDone (dTag e) dsBusy 0
        else if rState b = ssBerthed then
          .all
            [ .cancelIfMoving (dSession e),
              .setState i ssActive fun b =>
                setCtl (setAll b [(0x20, 8, s.now), (0x28, 8, 0), (0x88, 4, dTag e)]) 46 45 0,
              .sdirDone (dTag e) dsOk 0 ]
        else .sdirDone (dTag e) dsBadTransition 0)).outcome s

/-- END_TURN: ACTIVE goes BERTHED; a tool stop sets TOOL_WAIT and WAKE_HINT (R98). TURNS saturates, the session has no
current request any more, and COMMITTED is brought up to date (R95). -/
def execEndTurn (addr : BitVec 48) (s : State) : Host.Outcome State Fault Refusal :=
  (Act.command <| Act.sdirSession addr.toNat 0x04 fun e i b =>
    .sdirRun addr.toNat i
      (.look fun s =>
        if rState b ≠ ssActive then .sdirDone (dTag e) dsBadTransition 0
        else
          .all
            [ .showCommitted i,
              .setState i ssBerthed fun b =>
                let b := setAll b [(0x20, 8, s.now), (0x84, 4, min (2 ^ 32 - 1) (rTurns b + 1)), (0x88, 4, 0)]
                if bit (dArg48 e) 0 then setCtl (setLE b 0x28 8 ((s.now + dArg48 e / 2) % 2 ^ 48)) 46 46 1 else b,
              .sdirDone (dTag e) dsOk 0 ])).outcome s

/-- A lay-up over the tenant's limit: the session stays where it is and a tension event is counted; the status is not
given (R102, assumption 3). -/
def Act.layupOver (tag : Nat) : Act :=
  .look fun s =>
    .all
      [ .count .SDIR_TENSION_COUNT, .one (.takeFree 1),
        .sdirDone tag s.freeStatus 0 ]

/-- MOOR: starts mooring a BERTHED session, or laying it up when the mooring would pass the tenant's limit; refused
PINNED (R98, R102, R193). -/
def execMoor (addr : BitVec 48) (s : State) : Host.Outcome State Fault Refusal :=
  (Act.command <| Act.sdirSession addr.toNat 0x05 fun e i b =>
    .when (rMotion b == moNone)
      (.sdirRun addr.toNat i
        (if rState b ≠ ssBerthed ∨ rPinned b then .sdirDone (dTag e) dsBadTransition 0
        else .moorOrLayup i (some (dTag e)) (.layupOver (dTag e))))).outcome s

/-- LAY_UP: starts laying up a BERTHED or MOORED session (R98, R102, R193). -/
def execLayUp (addr : BitVec 48) (s : State) : Host.Outcome State Fault Refusal :=
  (Act.command <| Act.sdirSession addr.toNat 0x06 fun e i b =>
    .look fun s =>
      .when (rMotion b == moNone && !s.reviveQueued (dSession e))
        (.sdirRun addr.toNat i
          (if rState b ≠ ssBerthed ∧ rState b ≠ ssMoored then .sdirDone (dTag e) dsBadTransition 0
          else
            let mb := mbOf (s.worstBytes b)
            if s.layupFull (tenantOf (dSession e)) mb then .layupOver (dTag e)
            else .startLayup i (some (dTag e)) mb))).outcome s

/-- REVIVE merges with a revival queued or in progress (R100). -/
def Act.mergeRevival (session tag prio : Nat) : Act :=
  .modSdir fun x =>
    { x with
      merged := x.merged ++ [(session, tag)],
      revivals := x.revivals.map fun r => if r.session = session then { r with prio := min r.prio prio } else r,
      moves := x.moves.map fun m =>
        if m.session = session ∧ m.motion = moReviving then { m with runAhead := m.runAhead && prio == 1 } else m }

/-- A session joins the revival queue (R107). -/
def Act.queueRevival (session cls prio tag : Nat) : Act :=
  .look fun s => .modSdir fun x => { x with revivals := x.revivals ++ [⟨session, cls, prio, s.now, tag⟩] }

/-- REVIVE: queues the revival of a MOORED or LAID_UP session, or merges with the one queued or in progress; a mooring
or lay-up in progress is cancelled (R98, R100, R101, R105, R107). -/
def execRevive (addr : BitVec 48) (s : State) : Host.Outcome State Fault Refusal :=
  (Act.command <| Act.sdirSession addr.toNat 0x07 fun e i b =>
    .look fun s =>
      if hardMotion (rMotion b) then .done
      else .sdirRun addr.toNat i
        (let prio := if bit (dArg48 e) 0 then 1 else 0
        let low := rState b == ssMoored || rState b == ssLaidUp
        if !low && !(rState b == ssBerthed && softMotion (rMotion b)) && !s.reviveQueued (dSession e) then
          .sdirDone (dTag e) dsBadTransition 0
        else if !s.enabled (tenantOf (dSession e)) then .sdirDone (dTag e) dsTenantDisabled 0
        else if rProfile b ≠ s.get F.CFG_AP_STATUS_ACTIVE then .sdirDone (dTag e) dsProfile 0
        else if rState b = ssBerthed then (Act.cancelIfMoving (dSession e)).andThen (.sdirDone (dTag e) dsOk 0)
        else if rMotion b = moReviving ∨ s.reviveQueued (dSession e) then .mergeRevival (dSession e) (dTag e) prio
        else
          (Act.cancelIfMoving (dSession e)).andThen (.queueRevival (dSession e) (rClass b) prio (dTag e)))).outcome s

/-- REBERTH: to a larger class, waiting for a berth as an admission does (R98, R106). -/
def execReberth (addr : BitVec 48) (s : State) : Host.Outcome State Fault Refusal :=
  (Act.command <| Act.sdirSession addr.toNat 0x08 fun e i b =>
    .when (rMotion b == moNone) ((Act.touch i).andThen (.runWaiter addr.toNat e [] 0))).outcome s

/-- Pinned sessions of a tenant (R102). -/
def State.pinnedOf (s : State) (tenant : Nat) : Nat :=
  ((List.range s.recCount).filter fun i =>
    let b := s.recBytes i
    rState b ≠ ssFree && rPinned b && tenantOf (rId b) == tenant).length

/-- PIN: within the tenant's pin limit; a mooring or lay-up in progress is cancelled (R98, R100, R102). -/
def execPin (addr : BitVec 48) (s : State) : Host.Outcome State Fault Refusal :=
  (Act.command <| Act.sdirSession addr.toNat 0x09 fun e i b =>
    .look fun s =>
      let t := tenantOf (dSession e)
      if hardMotion (rMotion b) then .done
      else .sdirRun addr.toNat i
        (if rState b = ssFree then .sdirDone (dTag e) dsBadTransition 0
        else if !rPinned b && overLimit 4 (s.quota t 0x38 4) (s.pinnedOf t) 1 then .sdirDone (dTag e) dsQuotaPin 0
        else
          .all
            [ .when (softMotion (rMotion b)) (.cancelIfMoving (dSession e)), .modRec i fun b => setCtl b 47 47 1,
              .sdirDone (dTag e) dsOk 0 ])).outcome s

/-- UNPIN clears PINNED (R98). -/
def execUnpin (addr : BitVec 48) (s : State) : Host.Outcome State Fault Refusal :=
  (Act.command <| Act.sdirSession addr.toNat 0x0A fun e i b =>
    .sdirRun addr.toNat i
      (if rState b = ssFree then .sdirDone (dTag e) dsBadTransition 0
      else (Act.modRec i fun b => setCtl b 47 47 0).andThen (.sdirDone (dTag e) dsOk 0))).outcome s

/-- SET_HINT sets WAKE_HINT of a BERTHED session (R98). -/
def execSetHint (addr : BitVec 48) (s : State) : Host.Outcome State Fault Refusal :=
  (Act.command <| Act.sdirSession addr.toNat 0x0B fun e i b =>
    .sdirRun addr.toNat i
      (if rState b ≠ ssBerthed then .sdirDone (dTag e) dsBadTransition 0
      else (Act.modRec i fun b => setLE b 0x28 8 (dArg48 e)).andThen (.sdirDone (dTag e) dsOk 0))).outcome s

/-- SEAL: the shares are gathered into a bundle of the next serial, under the current archive generation; it waits
while the entropy source fails (R98, R343, R506, R514). -/
def execSealSession (addr : BitVec 48) (s : State) : Host.Outcome State Fault Refusal :=
  (Act.command <| Act.sdirSession addr.toNat 0x0C fun e i b =>
    .look fun s =>
      .when (rMotion b == moNone && !s.reviveQueued (dSession e) && s.entropyOk)
        (.sdirRun addr.toNat i
          (if rState b ≠ ssBerthed ∧ rState b ≠ ssMoored ∧ rState b ≠ ssLaidUp then .sdirDone (dTag e) dsBadTransition 0
          else
            let loc := sealedLoc (s.get F.CFG_LC_STATUS_ARCHIVE_GEN) s.sealer.serial
            (Act.modSealer fun x => { x with serial := x.serial + 1 }).andThen
              (.startMove ⟨moSealing, dSession e, i, loc, if rState b = ssBerthed then 0 else rLower b, rClass b, rBerth b, rClass b, rBerth b, some (dTag e), 0, s.now, s.epoch, s.crewShares, [], false, 0, []⟩)))).outcome s

/-- The bundle is imported (R98, R516, R518): the record as the bundle has it, SEALED, with its key
and its log; its revival joins the queue (R107), and each LAYER device gets its share's image and history with the order
that starts it (R188). -/
def Act.importBundle (e i : Nat) (bundle : List Byte) (make : List Byte → Act) : Act :=
  .look fun s =>
    let id := dSession e
    let loc := dArg64 e
    let r := padTo 256 (((s.sections id bundle bxRecord).head?).getD [])
    let b := setAll r
      [ (0, 8, id), (0x10, 4, 0), (0x30, 8, loc), (0x38, 8, (Config.freeWord s.free).toNat),
        (0x70, 8, (Config.freeWord (s.free + 1)).toNat), (0x80, 4, i), (0x8C, 4, s.epoch), (0x98, 8, s.now) ]
    let images := s.sections id bundle bxImage
    let digest := sha384 (images.flatMap imgManifests)
    .all
      [ .one (.takeFree 2), make (setDigest b digest),
        .slotFill id i (((s.sections id bundle bxKey).head?).getD []),
        .modNand fun x => { x with logs := x.logs.put (fun _ => []) id (s.sections id bundle bxLog) },
        .queueRevival id (rClass r) 0 (dTag e) ]

/-- UNSEAL: `bundle` is the bundle at ARG64 as it came from outside; empty, the one staged here is meant (R98, R101,
R102, R105, R516). A session whose class is above MAX_CLASS is not taken: the status for it is not given (R97,
assumption 41). -/
def execUnsealBundle (addr : BitVec 48) (bundle : List (BitVec 8)) (s : State) : Host.Outcome State Fault Refusal :=
  (Act.command <| Act.sdirTake addr.toNat (· == 0x0D) fun e =>
    .look fun s =>
      let id := dSession e
      let t := tenantOf id
      let bytes := if bundle.isEmpty then s.nand.bundles.get (fun _ => []) (dArg64 e) else bundle
      let reject := s.bundleReject id bytes
      let r := padTo 256 (((s.sections id bytes bxRecord).head?).getD [])
      let fin (st : Nat) : Act := .sdirEnd addr.toNat e st
      let checks (ok : Act) : Act :=
        if reject ≠ 0 then (Act.bundleRefused id (dTag e) reject).andThen (fin dsNotFound)
        else if rProfile r ≠ s.get F.CFG_AP_STATUS_ACTIVE then fin dsProfile
        else if !s.enabled t then fin dsTenantDisabled
        else if dMaxClass e < rClass r then
          (Act.one (.takeFree 1)).andThen (fin (1 + (Config.freeWord s.free).toNat % 16))
        else ok
      .sdirRecord addr.toNat e
        (checks
          (if s.recordsFull t then fin dsQuotaRecords
          else match s.freeIndex id, s.freeRec with
            | some ix, some i =>
              .sdirRun addr.toNat i
                (.importBundle e i bytes fun b => (Act.newRecord i ix b).andThen (.setState i ssSealed fun b => b))
            | _, _ => fin dsIndexFull))
        fun i b =>
          if hardMotion (rMotion b) || rMotion b == moReviving || s.reviveQueued id then .done
          else if rState b ≠ ssSealed then fin dsBadTransition
          else checks
            (.sdirRun addr.toNat i
              (.importBundle e i bytes fun b => .writeRec i (setCtl (setCtl b 2 0 ssSealed) 23 20 moNone)))).outcome s

/-- CROSS_OUT: the session goes IN_CROSSING, its shares gather their manifests, and CROSS_BEGIN is sent; a lower image
has its digest already (R98, R420). -/
def execCrossOut (addr : BitVec 48) (at_ : BitVec 40) (s : State) : Host.Outcome State Fault Refusal :=
  (Act.command <| Act.sdirSession addr.toNat 0x0E fun e i b =>
    .look fun s =>
      let id := dSession e
      let st := rState b
      .when (rMotion b == moNone && !s.reviveQueued id && s.entropyOk)
        (.sdirRun addr.toNat i
          (if st ≠ ssActive ∧ st ≠ ssBerthed ∧ st ≠ ssMoored ∧ st ≠ ssLaidUp then .sdirDone (dTag e) dsBadTransition 0
          else
            let lower := st == ssMoored || st == ssLaidUp
            let c : Crossing :=
              { session := id, op := s.mct.nextOp, peer := dArg64 e, source := true, step := 1, since := s.now, digest := [], begin_ := [],
                berth := rBerth b, waiting := if lower then [] else s.crewShares, epoch := s.epoch }
            .all
              [ .when (st == ssActive) (.showCommitted i),
                .setState i ssCrossing fun b => setCtl (setLE b 0x90 8 (dArg64 e)) 10 8 st,
                .modMct fun m => { m with crossings := m.crossings ++ [c], nextOp := m.nextOp + 1 },
                .openOp ⟨c.op, c.peer, 2, s.epoch, s.homeIsland, dTag e, false⟩,
                if lower || s.crewShares.isEmpty then .sendBegin id at_.toNat (rDigest b)
                else .one (.emit (.shareOrder id moGather 0 (if lower then rLower b else 0) (rClass b) (rBerth b) (rClass b) (rBerth b))),
                .sdirDone (dTag e) dsOk 0 ]))).outcome s

/-- CROSS_IN: takes the session that a CROSS_BEGIN offers, or waits for its berth as an admission does (R98, R420). -/
def execCrossIn (addr : BitVec 48) (at_ : BitVec 40) (s : State) : Host.Outcome State Fault Refusal :=
  (Act.command <| Act.sdirTake addr.toNat (· == 0x0F) fun e =>
    .sdirRecord addr.toNat e
      (.look fun s =>
        .runWaiter addr.toNat e
          (((s.mct.offers.find? fun c => c.session == dSession e).map fun c => cbRecord c.begin_).getD []) at_.toNat)
      fun i _ => .sdirRun addr.toNat i (.sdirDone (dTag e) dsBadTransition 0)).outcome s

/-- The session takes back the state before its crossing (R98). -/
def Act.backToPrior (i : Nat) : Act :=
  .look fun s =>
    let b := s.recBytes i
    .setState i (rPrior b) fun b => setCtl (setLE b 0x90 8 0) 10 8 0

/-- The destination takes the session over (R98, R193, R420). -/
def Act.crossArrived (i : Nat) (c : Crossing) (log : List (List Byte)) : Act :=
  .look fun s =>
    let b := s.recBytes i
    let n := reportBytes c.reports
    let loc := rLower b
    .all
      [ .when (decide (loc ≠ 0)) (.settle (tenantOf c.session) loc (if locKind loc = 1 then mibOf n else mbOf n)),
        .when (rPrior b == ssMoored) (.joinMoored i),
        .modRec i fun b => if loc = 0 then b else setDigest b c.digest,
        .modNand fun x => { x with logs := x.logs.put (fun _ => []) c.session log },
        .backToPrior i ]

/-- CROSS_DONE: ends a crossing as handed over or aborted (R98, R420, R421). Handed over needs the source's COMMITTED;
after it an abort is refused, and at the destination an abort needs the source's word or a failed transfer. `log` is
the replay log that crossed with the session (R419). -/
def execCrossDone (addr : BitVec 48) (log : List (List (BitVec 8))) (at_ : BitVec 40) (s : State) :
    Host.Outcome State Fault Refusal :=
  (Act.command <| Act.sdirSession addr.toNat 0x10 fun e i b =>
    .sdirRun addr.toNat i
      (.look fun s => match s.crossing (dSession e) with
        | none => .sdirDone (dTag e) dsBadTransition 0
        | some c =>
          let aborted := bit (dArg48 e) 0
          if rState b ≠ ssCrossing then .sdirDone (dTag e) dsBadTransition 0
          else if !aborted then
            (if c.step ≠ 5 ∧ ¬(c.source ∧ c.step = 4) then .sdirDone (dTag e) dsBadTransition 0
            else
              .all
                [ if c.source then .freeRecord i else .crossArrived i c log,
                  .endCrossing c, .sdirDone (dTag e) dsOk 0 ])
          else if c.source then
            (if c.step = 4 ∨ c.step = 5 then .sdirDone (dTag e) dsBadTransition 0
            else
              .all
                [ .when (decide (c.step < 4)) (.abortCrossing c at_.toNat 0), .backToPrior i, .endCrossing c,
                  .sdirDone (dTag e) dsOk 0 ])
          else if c.step ≠ 6 then .sdirDone (dTag e) dsBadTransition 0
          else .all [.shareCancel c.session, .freeRecord i, .endCrossing c, .sdirDone (dTag e) dsOk 0])).outcome s

/-- The newest number committed on this device and on every LAYER device of its crew (R288, R295). -/
def State.commonCommit (s : State) (others : List Nat) : Option Nat :=
  [s.get F.CKPT_COMMITTED_NEWEST, s.get F.CKPT_COMMITTED_PREVIOUS].find? fun k => k ≠ 0 && others.contains k

/-- RESTORE: `others` are the numbers committed on every LAYER device of the crew, `rec_` is the session's record at
the number taken, as the buddy holds it; empty for none (R98, R288). -/
def execRestore (addr : BitVec 48) (others : List (BitVec 48)) (rec_ : List (BitVec 8)) (s : State) :
    Host.Outcome State Fault Refusal :=
  (Act.command <| Act.sdirSession addr.toNat 0x11 fun e i b =>
    .look fun s =>
      .when (rMotion b == moNone)
        (if rState b ≠ ssFaulted then .sdirRun addr.toNat i (.sdirDone (dTag e) dsBadTransition 0)
        else if (s.commonCommit (others.map (·.toNat))).isNone || rec_.isEmpty then
          .sdirRun addr.toNat i (.sdirDone (dTag e) dsNotFound 0)
        else (Act.touch i).andThen (.runWaiter addr.toNat e (padTo 256 rec_) 0))).outcome s

/-- The request of a session's turn ends CANCELLED: the TURN request of the session that a host ring brought (R98, R458,
assumption 126). -/
def Act.cancelTurn (session : Nat) : Act :=
  .look fun s =>
    .each (s.host.requests.filter fun r => r.session == session && r.op == 1 && r.begun) fun r => .endRequest r 1 0

/-- RELEASE: an ACTIVE turn ends first, the session's transfers are cancelled and everything it holds is freed; revivals
of it end CANCELLED (R98, R100). -/
def execRelease (addr : BitVec 48) (s : State) : Host.Outcome State Fault Refusal :=
  (Act.command <| Act.sdirSession addr.toNat 0x12 fun e i b =>
    if hardMotion (rMotion b) then .done
    else .sdirRun addr.toNat i
      (.look fun s =>
        if rState b = ssCrossing ∨ rState b = ssFree then .sdirDone (dTag e) dsBadTransition 0
        else
          .all
            [ .when (rState b == ssActive) (.cancelTurn (dSession e)), .cancelIfMoving (dSession e),
              .each (s.sdir.revivals.filter fun r => r.session == dSession e) fun r => .sdirDone r.tag dsCancelled 0,
              .mergedEnd (dSession e) dsCancelled, .freeRecord i, .sdirDone (dTag e) dsOk 0 ])).outcome s

/-- SDIR_BAD_OP: a command with a reserved code (R98). -/
def execSdirBadOp (addr : BitVec 48) (s : State) : Host.Outcome State Fault Refusal :=
  (Act.command <| Act.sdirTake addr.toNat (fun op => op == 0 || decide (0x12 < op)) fun e => .sdirEnd addr.toNat e dsBadOp).outcome s

/-! ### Revivals (R107, R108) -/

/-- Revivals in the order of a class's queue (R107). -/
def revivalLe (a b : Revival) : Bool :=
  if a.prio ≠ b.prio then decide (a.prio < b.prio)
  else if a.since ≠ b.since then decide (a.since < b.since)
  else decide (a.session ≤ b.session)

/-- An entry leaves the queue. -/
def Act.dropRevival (r : Revival) : Act := .modSdir fun x => { x with revivals := x.revivals.erase r }

/-- Start the entries of a class from its head, until one waits for a berth, quota or lock, or the budget is used up;
a session that has left its lower state ends its entry (R107). -/
def Act.startRevivals : List Revival → Act
  | [] => .done
  | r :: rs =>
    .look fun s =>
      let used := if s.sdir.revived.1 = s.now then s.sdir.revived.2 else 0
      if used ≥ s.get F.SDIR_REVIVE_REVIVE_BUDGET then .done
      else match s.findSession r.session with
        | none => .all [.dropRevival r, .sdirDone r.tag dsCancelled 0, .mergedEnd r.session dsCancelled, .startRevivals rs]
        | some i =>
          let b := s.recBytes i
          let st := rState b
          if !s.recOk i then
            .all [.dropRevival r, .touch i, .recordCrc i r.tag, .mergedEnd r.session 9, .startRevivals rs]
          else if st ≠ ssMoored ∧ st ≠ ssLaidUp ∧ st ≠ ssSealed then
            .all [.dropRevival r, .sdirDone r.tag dsCancelled 0, .mergedEnd r.session dsCancelled, .startRevivals rs]
          else if rMotion b ≠ moNone then .startRevivals rs
          else if s.berthQuotaFull (tenantOf r.session) r.cls || !s.lockRoom i then .done
          else match s.freeBerth r.cls with
            | none => .done
            | some n =>
              .all
                [ .dropRevival r, .touch i,
                  .modSdir fun x => { x with revived := (s.now, used + 1) },
                  .takeBerth r.cls n i (tenantOf r.session),
                  .startMove ⟨moReviving, r.session, i, rLower b, rLower b, r.cls, n, r.cls, n, some r.tag, 0, s.now, s.epoch, s.crewShares, [], r.prio == 1, 0, []⟩,
                  .startRevivals rs ]

/-- REVIVAL_START: at LATCH, entries start from the head of each class (R107). -/
def execRevivalStart (s : State) : Host.Outcome State Fault Refusal :=
  (Act.command <| Act.look fun s =>
    .when (decide (s.get F.SAIL_STATUS_PHASE = 0) && s.hasHome && decide (s.recCount ≠ 0) && s.ckState != ckCapture)
      (.each (List.range 4) fun c =>
        .look fun s => .startRevivals ((s.sdir.revivals.filter fun r => r.cls == c).mergeSort revivalLe))).outcome s

/-- REVIVE_DEADLINE_EXPIRE: a revival not fully reported within REVIVE_DEADLINE sailings is cancelled (R108). -/
def execReviveDeadlineExpire (session : BitVec 64) (s : State) : Host.Outcome State Fault Refusal :=
  (Act.command <| Act.look fun s => match s.moveOf session.toNat with
    | some m =>
      .when (m.motion == moReviving && decide (m.started + s.get F.SDIR_WAIT_REVIVE_DEADLINE ≤ s.now)) (.stopMove m dsReviveLate)
    | none => .done).outcome s

/-! ### Reports (R189) -/

/-- A move ends without success: undone, its command ends (R191, R193). -/
def Act.moveFails (m : Move) (status : Nat) : Act := .all [.undoMove m, .shareCancel m.session, .moveEnds m status]

/-- A share's transfer failed or was late (R191, R108). -/
def Act.moveTrouble (m : Move) (status : Nat) : Act :=
  let unread := status == fsRead || status == fsManifest
  if m.motion = moMooring then
    if unread then .moveFaults m 2
    else if status = fsNoSpace then
      .all
        [ .undoMove m, .shareCancel m.session, .count .TIER_DIVERT_COUNT,
          .look fun s =>
            let mb := mbOf (s.worstBytes (s.recBytes m.index))
            if s.layupFull (tenantOf m.session) mb then (Act.count .SDIR_TENSION_COUNT).andThen (.moveEnds m dsCancelled)
            else .startLayup m.index m.tag mb ]
    else .moveFails m dsCancelled
  else if m.motion = moLayingUp then
    if unread then .moveFaults m (if m.old = 0 then 2 else 3) else .moveFails m dsCancelled
  else if m.motion = moReviving then
    if unread then .moveFaults m 3
    else if status = fsLate then .stopMove m dsReviveLate
    else .moveFails m dsCancelled
  else if m.motion = moSealing then
    if unread then .moveFaults m (if m.old = 0 then 2 else 3) else .moveFails m dsCancelled
  else if m.motion = moReberthing then
    if unread then .moveFaults m 2 else .moveFails m dsCancelled
  else .moveFails m dsCancelled

/-- Every share of a move has reported OK. -/
def Act.moveComplete (m : Move) : Act :=
  .look fun s =>
  if !s.hbmOk m.index then .moveBad m
  else if m.motion = moMooring ∨ m.motion = moLayingUp then .loweredDone m
  else if m.motion = moReviving then .revivedDone m
  else if m.motion = moSealing then .sealedDone m
  else if m.motion = moReberthing then .reberthedDone m
  else .restoredDone m

/-- A share of a move reports (R189). A bundle's signature waits while the entropy source fails (R506). -/
def Act.moveReport (m : Move) (r : ShareReport) : Act :=
  if !m.waiting.contains r.assign then .done
  else if r.status ≠ fsOk then .moveTrouble m r.status
  else
    let m := { m with waiting := m.waiting.erase r.assign, reports := m.reports ++ [r] }
    .all
      [ .modSdir fun x => { x with moves := x.moves.map fun y => if y.session = m.session then m else y },
        .look fun s => .when (m.waiting.isEmpty && (m.motion != moSealing || s.entropyOk)) (.moveComplete m) ]

/-- A session with a share on a device that was restored alone (R287). -/
def Act.openBerthReport (session cls number since : Nat) : Act :=
  .look fun s =>
    let close : Act := (Act.one (.emit (.shareCancel session)))
    match s.findSession session with
    | none => close
    | some i =>
      let b := s.recBytes i
      let named := decide (rClass b = cls ∧ rBerth b = number) && (rState b == ssActive || rState b == ssBerthed || rState b == ssCrossing)
      .all
        [ .when (!named) close,
          .when (decide (since ≤ rLastUse b) || decide (since ≤ rCreated b))
            ((Act.cancelIfMoving session).andThen (.sessionFault i 2)) ]

/-- SHARE_REPORT: a LAYER device tells the HOME island of its share: the end of a transfer, a share that is lost, a berth
number it has withdrawn, an open berth after a restore, an image it has freed, or a history record it has saved (R98, R140,
R182, R189, R191, R192, R194, R287, R420). -/
def execShareReport (session : BitVec 64) (note : ShareNote) (at_ : BitVec 40) (s : State) : Host.Outcome State Fault Refusal :=
  (Act.command <| Act.look fun s =>
    .when (s.hasHome && decide (s.recCount ≠ 0))
      (match note with
      | .moved share status bytes manifests image history =>
        let r : ShareReport := ⟨share.toNat, status.toNat, bytes.toNat, manifests, image, history.map fun h => (h.1.toNat, h.2)⟩
        match s.moveOf session.toNat, s.crossing session.toNat with
        | some m, _ => .moveReport m r
        | none, some c => .when (c.waiting.contains r.assign) (.crossReport c r at_.toNat)
        | none, none => .done
      | .lost =>
        match s.findSession session.toNat with
        | none => .done
        | some i =>
          .all
            [ (match s.moveOf session.toNat with | some m => .moveFails m dsCancelled | none => .done),
              (match s.crossing session.toNat with
              | some c =>
                if c.source then
                  (Act.when (decide (c.step < 4)) (.abortCrossing c at_.toNat 2)).andThen (.sessionFault i 2)
                else .sessionFault i (if c.step < 5 then 2 else 4)
              | none => .sessionFault i 2) ]
      | .withdrawn cls number =>
        (Act.modSdir fun x => { x with berthGone := x.berthGone.put (fun _ => false) (berthKey cls.val number.toNat) true }).andThen
          (.showFree cls.val)
      | .berth cls number since => .openBerthReport session.toNat cls.val number.toNat since.toNat
      | .freed share loc => .shareFreed loc.toNat share.toNat
      | .saved bytes => .when (s.findSession session.toNat).isSome (.chargeHistory session.toNat bytes.toNat))).outcome s

end Sys2Proof.Machine
end

