-- ==== Sys2Proof/Machine/Mct.lean ====
section
/-! DEFINITION. Packets of the crossing transport as they arrive (R387, R388, R403 to R417), its timers, and the
messages of crossings (R419 to R422). -/

namespace Sys2Proof.Machine

/-! ### Routing (R388) -/

/-- RESPONSE status codes (R408). -/
def mrOk : Nat := 0
def mrNotReady : Nat := 1
def mrNoRoute : Nat := 2
def mrRedirect : Nat := 3
def mrStale : Nat := 4
def mrAhead : Nat := 5
def mrFailed : Nat := 6

/-- What becomes of a message (R388). -/
inductive Route where
  | deliver
  | forward (dest : Nat)
  | answer (status : Nat) (holder : Nat)
  deriving DecidableEq, Repr

/-- The first device of the crew, in entry order, with an island of a role and ASSIGN in the current chart (R388). -/
def State.holder (s : State) (role assign : Nat) : Option Nat :=
  (s.crew.find? fun b => (List.range 8).any fun i =>
    entryRole b i == role && entryGranules b i != 0 && entryAssign b i == assign).map fun b => beAddr b % 2 ^ 64

/-- The current island of a number holds the role and ASSIGN that a message expects. -/
def State.islandHolds (s : State) (h : BitVec 512) : Bool :=
  s.get F.CHART_ISLAND_ROLE (hdrIsland h) == hdrRole h && s.get F.CHART_ISLAND_ASSIGN (hdrIsland h) == hdrAssign h

/-- What becomes of a message by its epoch and the island it names (R388). -/
def State.route (s : State) (h : BitVec 512) : Route :=
  let i := hdrIsland h
  let st := s.islandState i
  if hdrEpoch h = s.epoch then
    if st = isActive ∧ s.islandHolds h then .deliver
    else if st = isForming ∧ s.islandHolds h then .answer mrNotReady 0
    else .answer mrNoRoute 0
  else if s.flag F.CHART_STATUS_PREV_LIVE && hdrEpoch h == s.get F.CHART_STATUS_PREVIOUS then
    if (match s.leaving i with | some x => x.role == hdrRole h && x.assign == hdrAssign h | none => false)
        || (st == isActive && s.islandHolds h) then .deliver
    else match s.holder (hdrRole h) (hdrAssign h) with
      | none => .answer mrNoRoute 0
      | some d => if hdrFwd h then .answer mrRedirect d else .forward d
  else if hdrEpoch h = nextEpoch s.epoch then .answer mrAhead 0
  else .answer mrStale 0

/-- An answer that is not OK (R388, R408): counted, and sent to the operation's origin on the response channel. -/
def Act.mctAnswer (dest at_ : Nat) (h : BitVec 512) (status : Nat) (rest : List Byte) : Act :=
  .all
    [ (if status = mrNotReady then .count .CHART_NOT_READY_COUNT
      else if status = mrRedirect then .count .CHART_REDIRECT_COUNT
      else if status = mrStale then .count .CHART_STALE_COUNT
      else if status = mrAhead then .count .CHART_AHEAD_COUNT
      else .done),
      .mctSend dest 1 at_
        { type_ := mtResponse, op := hdrOp h, origin := hdrOrigin h, epoch := hdrEpoch h, payload := leBytes 1 status ++ rest } ]

/-! ### Landing buffers (R413) -/

/-- First landing buffer of a virtual channel, in buffers. -/
def State.landFirst (s : State) (vc : Nat) : Nat := ((List.range vc).map fun v => s.get F.MCT_VC_BUFFERS v).foldl (· + ·) 0

/-- A free landing buffer of a virtual channel, by device address. -/
def State.landBuffer (s : State) (vc : Nat) : Option Nat :=
  ((List.range (s.get F.MCT_VC_BUFFERS vc)).map fun k => s.get F.MCT_LAND_BASE_ADDR + (s.landFirst vc + k) * 8320).find? fun a =>
    !(s.mct.delivered.any fun d => d.1 == a)

/-- A message lands: header and payload are written to a buffer of its channel, which it holds until it is answered
(R413). -/
def Act.land (pkt : MctPacket) (keep : Bool) : Act :=
  .look fun s => match s.landBuffer (hdrVc pkt.hdr) with
    | none => .done
    | some a =>
      (Act.store a (leBytes 64 pkt.hdr.toNat ++ pkt.payload)).andThen
        (.when keep (.modMct fun m => { m with delivered := m.delivered ++ [(a, pkt)] }))

/-- The peer that a message's operation belongs to. -/
def originOf (src : Nat) (h : BitVec 512) : Nat := if hdrOrigin h = 0 then src else hdrOrigin h

/-! ### Delivery, by type (R407) -/

/-- REQUEST: the operation opens here; a message under a speculation tag is staged (R387, R413, R417). -/
def Act.mctTakeRequest (src : Nat) (pkt : MctPacket) : Act :=
  let h := pkt.hdr
  if hdrSpecTag h ≠ 0 then
    .modMct fun m => { m with staged := m.staged ++ [⟨src, hdrSpecTag h, pkt⟩] }
  else
    (Act.land pkt true).andThen (.openOp ⟨hdrOp h, originOf src h, hdrVc h, hdrEpoch h, hdrIsland h, 0, false⟩)

/-- A peer answers a ferry transfer (R388, R405, R408): FAILED carries the ferry status that ends it, NOT_READY and
EPOCH_AHEAD have its tiles asked for or sent again, and no route ends it. -/
def Act.peerAnswered (x : Xfer) (status failed : Nat) : Act :=
  if status = mrOk then .done
  else if status = mrNotReady ∨ status = mrAhead then .setXfer { x with sent := [] }
  else
    (Act.xferFails x (if status = mrFailed ∧ [fsRead, fsWrite, fsManifest].contains failed then failed else x.peerFails)).andThen
      .banksSettle

/-- RESPONSE: it completes or ends the operation of this origin by its status; NOT_READY and EPOCH_AHEAD leave it open,
to be tried again. One of no operation of this device is forwarded as its epoch and island say (R388, R408). -/
def Act.mctTakeResponse (src : Nat) (pkt : MctPacket) (else_ : Act) : Act :=
  .look fun s =>
    let status := leAt pkt.payload 0 1
    match s.tier.xfers.find? fun x => x.op == hdrOp pkt.hdr && hdrOrigin pkt.hdr == s.selfAddr && s.xferPeer x == some src with
    | some x => .peerAnswered x status (leAt pkt.payload 1 1)
    | none =>
    match s.mct.ops.find? fun o => o.id == hdrOp pkt.hdr && o.started && (o.peer == src || hdrOrigin pkt.hdr == s.selfAddr) with
    | none => else_
    | some o =>
      if status = mrNotReady ∨ status = mrAhead then .done
      else if status = mrNoRoute ∨ status = mrRedirect ∨ status = mrStale then .opMoved o
      else if hdrSpecTag pkt.hdr ≠ 0 then
        (Act.closeOp o).andThen (.modMct fun m => { m with staged := m.staged ++ [⟨src, hdrSpecTag pkt.hdr, pkt⟩] })
      else (Act.land pkt false).andThen (.closeOp o)

/-- TILE_HALF: with both halves in, the tile is checked against its manifest and written to its place in the receive
window, or kept for the ferry that asked for it; one outside the window is answered FAILED. The tiles of a crossing or a
drain go to the ferry that takes them (R405, R407, R415, R531). -/
def Act.mctTakeHalf (src at_ : Nat) (pkt : MctPacket) : Act :=
  .look fun s =>
    let h := pkt.hdr
    let p := pkt.payload
    let tile := leAt p 0 4
    let half := leAt p 4 1 % 2
    let x : MctHalf := ⟨src, hdrOp h, tile, half, padTo 8192 (p.drop 16), if half = 1 then padTo 32 (p.drop 8208) else []⟩
    let same (y : MctHalf) : Bool := y.peer == src && y.op == hdrOp h && y.tile == tile
    match s.mct.halves.find? fun y => same y && y.half != half with
    | none => .modMct fun m => { m with halves := (m.halves.filter fun y => !(same y && y.half == half)) ++ [x] }
    | some y =>
      let bytes := if half = 1 then y.bytes ++ x.bytes else x.bytes ++ y.bytes
      let manifest := if half = 1 then x.manifest else y.manifest
      let a := s.get F.MCT_WIN_BASE_ADDR + tile * 16384
      (Act.modMct fun m => { m with halves := m.halves.filter fun y => !same y }).andThen
        (if !manifestOk kindTile manifest bytes then
          .all [.manifestFail, .raiseAs .ERR_MANIFEST 1 0 4, .mctAnswer (originOf src h) at_ h mrFailed (leBytes 1 fsManifest)]
        else if hdrOrigin h = s.selfAddr then
          .when (s.tier.xfers.any fun z => z.op == hdrOp h)
            (.modMct fun m => { m with arrived := m.arrived ++ [⟨hdrOp h, tile, bytes⟩] })
        else if hdrVc h = 2 ∨ hdrVc h = 3 then .done
        else if (tile + 1) * 16384 > s.get F.MCT_WIN_SIZE_BYTES || (s.lostPart a 16384).isSome then
          .mctAnswer (originOf src h) at_ h mrFailed (leBytes 1 fsWrite)
        else .store a bytes)

/-- PEER_READ: tiles of the receive window are sent back; a range outside it is answered FAILED (R405, R407). -/
def Act.mctTakePeerRead (src at_ : Nat) (pkt : MctPacket) : Act :=
  .look fun s =>
    let h := pkt.hdr
    let off := leAt pkt.payload 0 8
    let n := leAt pkt.payload 8 4
    let base := s.get F.MCT_WIN_BASE_ADDR
    if off % 16384 ≠ 0 ∨ off + n * 16384 > s.get F.MCT_WIN_SIZE_BYTES ∨ (s.lostLine (base + off) (n * 16384)).isSome then
      .mctAnswer (originOf src h) at_ h mrFailed (leBytes 1 fsRead)
    else
      .each (List.range n) fun i => .each [0, 1] fun half =>
        let t := s.readMem (base + off + i * 16384) 16384
        .mctSend (originOf src h) 1 at_
          { type_ := mtHalf, op := hdrOp h, origin := hdrOrigin h, epoch := hdrEpoch h,
            payload := halfPayload (off / 16384 + i) half t (manifestOf kindTile t) }

/-- SPEC_COMMIT: of the messages staged under a tag the accepted ones are delivered, the others discarded (R417). -/
def Act.specCommit (src : Nat) (pkt : MctPacket) : Act :=
  .look fun s =>
    let tag := leAt pkt.payload 0 2
    let mine (x : MctStaged) : Bool := x.peer == src && x.tag == tag
    let xs := (s.mct.staged.filter mine).take (leAt pkt.payload 2 2)
    (Act.modMct fun m => { m with staged := m.staged.filter fun x => !mine x }).andThen
      (.each xs fun x =>
        let h := x.pkt.hdr
        if hdrType h = mtRequest then
          (Act.land x.pkt true).andThen (.openOp ⟨hdrOp h, originOf src h, hdrVc h, hdrEpoch h, hdrIsland h, 0, false⟩)
        else .land x.pkt false)

/-- SPEC_CANCEL: what is staged under a tag is discarded (R417). -/
def Act.specCancel (src : Nat) (pkt : MctPacket) : Act :=
  let tag := leAt pkt.payload 0 2
  .modMct fun m => { m with staged := m.staged.filter fun x => !(x.peer == src && x.tag == tag) }

/-- The crossing that a message belongs to. -/
def State.crossingOf (s : State) (src : Nat) (h : BitVec 512) : Option Crossing :=
  s.mct.crossings.find? fun c => c.peer == src && c.op == hdrOp h

/-- CROSS_BEGIN: the offer waits for CROSS_IN; when two devices wait for each other, the crossing of the higher session
ID aborts (R420, R422). -/
def Act.crossBegun (src at_ : Nat) (pkt : MctPacket) : Act :=
  .look fun s =>
    let id := rId (cbRecord pkt.payload)
    let c : Crossing :=
      { session := id, op := hdrOp pkt.hdr, peer := src, source := false, step := 2, since := s.now,
        digest := cbDigest pkt.payload, begin_ := pkt.payload, berth := 0, epoch := hdrEpoch pkt.hdr }
    .all
      [ .when (!(s.mct.offers.any fun x => x.session == id)) (.modMct fun m => { m with offers := m.offers ++ [c] }),
        .each (s.mct.crossings.filter fun x => x.source && x.peer == src && x.step == 2 && decide (x.session > id)) fun x =>
          .abortCrossing x at_ 3 ]

/-- CROSS_READY: the source orders the transfers, or aborts on a refusal (R420). -/
def Act.crossReady (src at_ : Nat) (pkt : MctPacket) : Act :=
  .look fun s => match s.crossingOf src pkt.hdr with
    | none => .done
    | some c =>
      if !c.source || c.step != 2 then .done
      else if leAt pkt.payload 0 1 ≠ 0 then .abortCrossing c at_ 1
      else match s.findSession c.session with
        | none => .done
        | some i =>
          let b := s.recBytes i
          let low := rPrior b == ssMoored || rPrior b == ssLaidUp
          .all
            [ .setCrossing { c with step := 3, since := s.now, berth := leAt pkt.payload 1 4 },
              .one (.emit (.shareOrder c.session moSend 0 (if low then rLower b else 0) (rClass b) (rBerth b) (rClass b) (rBerth b))),
              .one (.emit (.carry c.session c.peer (s.log c.session) (rHistory b))) ]

/-- The handover point: the source writes COMMITTED and sends CROSS_COMMIT (R421). -/
def Act.handover (c : Crossing) (at_ : Nat) : Act :=
  .look fun s =>
    .all
      [ .modMct fun m => { m with outcomes := m.outcomes ++ [(c.session, c.op, true, s.now)] },
        .setCrossing { c with step := 4, since := s.now }, .count .MCT_CROSS_COUNT,
        .crossSend c.peer c.op mtCommit 2 at_ (leBytes 8 c.session) ]

/-- CROSS_HELD: every share is there; the crossing is handed over, unless the digests differ (R420, R421). -/
def Act.crossHeld (src at_ : Nat) (pkt : MctPacket) : Act :=
  .look fun s => match s.crossingOf src pkt.hdr with
    | none => .done
    | some c =>
      if !c.source || c.step != 3 then .done
      else if padTo 48 pkt.payload ≠ padTo 48 c.digest then .abortCrossing c at_ 1
      else .handover c at_

/-- CROSS_COMMIT: the destination holds the session (R420). -/
def Act.crossCommitted (src : Nat) (pkt : MctPacket) : Act :=
  .look fun s => match s.crossingOf src pkt.hdr with
    | some c => .when (!c.source && c.step == 4) (.setCrossing { c with step := 5, since := s.now })
    | none => .done

/-- A side learns that a crossing is aborted: before the handover point it stops its part (R420, R421). -/
def Act.crossAborted (c : Crossing) : Act :=
  .look fun s =>
    .when (decide (c.step < 5) && !(c.source && c.step == 4))
      (.all
        [ .setCrossing { c with step := 6, since := s.now }, .count .MCT_CROSS_ABORT_COUNT,
          .one (.emit (.shareCancel c.session)), .shareCancel c.session ])

/-- CROSS_ABORT: an offer not yet taken goes; a crossing in progress is aborted (R420). -/
def Act.crossAbort (src : Nat) (pkt : MctPacket) : Act :=
  .look fun s =>
    let offered (c : Crossing) : Bool := c.peer == src && c.op == hdrOp pkt.hdr
    .all
      [ .each (s.mct.offers.filter offered) fun c =>
          .each (s.sdir.waits.filter fun w => dOp w.entry.toNat == 0x0F && dSession w.entry.toNat == c.session) fun w =>
            (Act.modSdir fun x => { x with waits := x.waits.erase w }).andThen (.sdirDone (dTag w.entry.toNat) dsCancelled 0),
        .modMct fun m => { m with offers := m.offers.filter fun c => !offered c },
        match s.crossingOf src pkt.hdr with | some c => .crossAborted c | none => .done ]

/-- Outcomes as CROSS_TELL carries them. -/
def ctHanded : Nat := 0
def ctAborted : Nat := 1
def ctUnknown : Nat := 2

/-- CROSS_ASK: the answer by what this side knows (R421). -/
def Act.crossAsk (src at_ : Nat) (pkt : MctPacket) : Act :=
  .look fun s =>
    let id := leAt pkt.payload 0 8
    let op := leAt pkt.payload 8 8
    let tell (o : Nat) : Act := .crossSend src op mtTell 4 at_ (leBytes 1 o)
    if s.mct.outcomes.any fun o => o.1 == id && o.2.1 == op && o.2.2.1 then tell ctHanded
    else match s.mct.crossings.find? fun c => c.session == id && c.op == op with
      | some c => if c.source then (Act.abortCrossing c at_ 4).andThen (tell ctAborted) else tell ctUnknown
      | none => tell (if (s.findSession id).isSome then ctHanded else ctAborted)

/-- CROSS_TELL: the asking side takes the outcome; on UNKNOWN it asks again, RTO_US later (R421). -/
def Act.crossTell (src at_ : Nat) (pkt : MctPacket) : Act :=
  .look fun s => match s.crossingOf src pkt.hdr with
    | none => .done
    | some c =>
      let o := leAt pkt.payload 0 1
      if o = ctHanded then .setCrossing { c with step := 5, since := s.now }
      else if o = ctAborted then .crossAborted c
      else
        .crossSend src c.op mtAsk 4 (at_ + s.get F.MCT_RETX_RTO_US * 1000000) (leBytes 8 c.session ++ leBytes 8 c.op)

/-- Forward a message once (R388). -/
def Act.mctForward (dest at_ : Nat) (pkt : MctPacket) : Act :=
  let h := pkt.hdr
  (Act.count .CHART_FORWARD_COUNT).andThen
    (.mctSend dest (hdrVc h) at_
      { type_ := hdrType h, op := hdrOp h, origin := hdrOrigin h, epoch := hdrEpoch h, island := hdrIsland h, role := hdrRole h,
        assign := hdrAssign h, specTag := hdrSpecTag h, fwd := true, payload := pkt.payload })

/-- Deliver a packet of a channel in its turn (R388, R407, R409). -/
def Act.deliver (src at_ : Nat) (pkt : MctPacket) : Act :=
  let h := pkt.hdr
  let t := hdrType h
  .look fun s =>
    let routed (a : Act) : Act :=
      match s.route h with
      | .deliver => (Act.wakeIsland (hdrIsland h)).andThen a
      | .forward d => .mctForward d at_ pkt
      | .answer st d =>
        .when (t != mtResponse) (.mctAnswer (originOf src h) at_ h st (if st = mrRedirect then leBytes 8 d else []))
    if t = mtRequest then routed (.mctTakeRequest src pkt)
    else if t = mtResponse then
      .mctTakeResponse src pkt (match s.route h with | .forward d => .mctForward d at_ pkt | _ => .land pkt false)
    else if t = mtHalf then routed (.mctTakeHalf src at_ pkt)
    else if t = mtPeerRead then routed (.mctTakePeerRead src at_ pkt)
    else if t = mtSpecCommit then .specCommit src pkt
    else if t = mtSpecCancel then .specCancel src pkt
    else if t = mtCut then .modMct fun m => { m with cuts := m.cuts ++ [(leAt pkt.payload 0 8 % 2 ^ 48, src)] }
    else if t = mtCreditReq then .sendAck src (leAt pkt.payload 0 1 % 8) at_
    else if t = mtBegin then .crossBegun src at_ pkt
    else if t = mtReady then .crossReady src at_ pkt
    else if t = mtHeld then .crossHeld src at_ pkt
    else if t = mtCommit then .crossCommitted src pkt
    else if t = mtAbort then .crossAbort src pkt
    else if t = mtAsk then .crossAsk src at_ pkt
    else if t = mtTell then .crossTell src at_ pkt
    else .done

/-- Packets held for reordering whose turn has come (R409, R410). -/
def Act.deliverHeld (src vc at_ : Nat) : Nat → Act
  | 0 => .done
  | n + 1 =>
    .look fun s =>
      let r := s.rx src vc
      match r.held.get (fun _ => none) r.expected with
      | none => .done
      | some k =>
        .all
          [ .modRx src vc fun r => { r with expected := r.expected + 1, held := r.held.put (fun _ => none) r.expected none },
            .deliver src at_ k, .deliverHeld src vc at_ n ]

/-- The packet takes its place by SEQ (R409, R410): a duplicate is dropped, one beyond the credit is dropped and
counted, one ahead is held, the one expected is delivered with those held behind it. -/
def Act.takeSeq (src at_ : Nat) (pkt : MctPacket) : Act :=
  .look fun s =>
    let vc := hdrVc pkt.hdr
    let r := s.rx src vc
    let d := (hdrSeq pkt.hdr + 2 ^ 32 - r.expected % 2 ^ 32) % 2 ^ 32
    let q := r.expected + d
    let due : Act := .modRx src vc fun r => { r with due := true }
    if d ≥ 2 ^ 31 then due
    else if q ≥ max r.limit (s.get F.MCT_VC_INITIAL vc) ∨ d > 256 then .count .MCT_DROP_WINDOW_COUNT
    else if d ≠ 0 then
      .all [due, .modRx src vc fun r => { r with held := r.held.put (fun _ => none) q (some pkt) }]
    else
      .all
        [ due, .modRx src vc fun r => { r with expected := r.expected + 1 }, .deliver src at_ pkt,
          .deliverHeld src vc at_ 257 ]

/-- The key that a packet names is loaded (R404, R512). -/
def State.jobKnown (s : State) (h : BitVec 512) : Bool :=
  s.get F.MCT_SEC_MODE != 2 || s.sec.keys.any (fun k => k.kind == 1 && k.slot == hdrJob h)
    || s.sec.grace.any fun g => g.1.kind == 1 && g.1.slot == hdrJob h

/-- A packet of one type arrives from a peer (R404, R406, R409, R410, R412, R414): `ce` says that its ECN field is CE,
`secure` that it passed its MACsec or GCM check. A packet of another type is no matter of the row. -/
def Act.mctPacket (type_ : Nat) (src : BitVec 64) (hdr : BitVec 512) (payload : List Byte) (ce secure : Bool)
    (at_ : BitVec 40) : Act :=
  .look fun s =>
    if hdrType hdr ≠ type_ then .done
    else if hdrBad hdr then .count .MCT_BAD_HEADER_COUNT
    else if !secure || !s.jobKnown hdr then .count .MCT_AUTH_FAIL_COUNT
    else
      .all
        [ .newIncarnation src.toNat (hdrIncarnation hdr) at_.toNat,
          .when ce ((Act.count .MCT_CE_COUNT).andThen (.modRx src.toNat (hdrVc hdr) fun r => { r with echo := true })),
          .takeAck src.toNat at_.toNat hdr,
          .when (type_ != mtAck) (.takeSeq src.toNat at_.toNat ⟨hdr, payload⟩) ]

/-! ### The packet commands -/

/-- MCT_ACK: takes no SEQ and no credit (R407, R409, R413, R414). -/
def execMctAck (src : BitVec 64) (hdr : BitVec 512) (payload : List (BitVec 8)) (ce secure : Bool) (at_ : BitVec 40)
    (s : State) : Host.Outcome State Fault Refusal :=
  (Act.command <| Act.mctPacket mtAck src hdr payload ce secure at_).outcome s

/-- MCT_REQUEST (R388, R407). -/
def execMctRequest (src : BitVec 64) (hdr : BitVec 512) (payload : List (BitVec 8)) (ce secure : Bool) (at_ : BitVec 40)
    (s : State) : Host.Outcome State Fault Refusal :=
  (Act.command <| Act.mctPacket mtRequest src hdr payload ce secure at_).outcome s

/-- MCT_RESPONSE (R388, R408). -/
def execMctResponse (src : BitVec 64) (hdr : BitVec 512) (payload : List (BitVec 8)) (ce secure : Bool) (at_ : BitVec 40)
    (s : State) : Host.Outcome State Fault Refusal :=
  (Act.command <| Act.mctPacket mtResponse src hdr payload ce secure at_).outcome s

/-- TILE_HALF (R407, R415). -/
def execTileHalf (src : BitVec 64) (hdr : BitVec 512) (payload : List (BitVec 8)) (ce secure : Bool) (at_ : BitVec 40)
    (s : State) : Host.Outcome State Fault Refusal :=
  (Act.command <| Act.mctPacket mtHalf src hdr payload ce secure at_).outcome s

/-- PEER_READ (R405, R407). -/
def execPeerRead (src : BitVec 64) (hdr : BitVec 512) (payload : List (BitVec 8)) (ce secure : Bool) (at_ : BitVec 40)
    (s : State) : Host.Outcome State Fault Refusal :=
  (Act.command <| Act.mctPacket mtPeerRead src hdr payload ce secure at_).outcome s

/-- SPEC_COMMIT (R417). -/
def execSpecCommit (src : BitVec 64) (hdr : BitVec 512) (payload : List (BitVec 8)) (ce secure : Bool) (at_ : BitVec 40)
    (s : State) : Host.Outcome State Fault Refusal :=
  (Act.command <| Act.mctPacket mtSpecCommit src hdr payload ce secure at_).outcome s

/-- SPEC_CANCEL (R417). -/
def execSpecCancel (src : BitVec 64) (hdr : BitVec 512) (payload : List (BitVec 8)) (ce secure : Bool) (at_ : BitVec 40)
    (s : State) : Host.Outcome State Fault Refusal :=
  (Act.command <| Act.mctPacket mtSpecCancel src hdr payload ce secure at_).outcome s

/-- CUT: a cut message of a checkpoint from a peer of the crew (R271, R407). -/
def execCut (src : BitVec 64) (hdr : BitVec 512) (payload : List (BitVec 8)) (ce secure : Bool) (at_ : BitVec 40)
    (s : State) : Host.Outcome State Fault Refusal :=
  (Act.command <| Act.mctPacket mtCut src hdr payload ce secure at_).outcome s

/-- CREDIT_REQ: the receiver advertises what it has (R413). -/
def execCreditReq (src : BitVec 64) (hdr : BitVec 512) (payload : List (BitVec 8)) (ce secure : Bool) (at_ : BitVec 40)
    (s : State) : Host.Outcome State Fault Refusal :=
  (Act.command <| Act.mctPacket mtCreditReq src hdr payload ce secure at_).outcome s

/-- CROSS_BEGIN (R420, R422). -/
def execCrossBegin (src : BitVec 64) (hdr : BitVec 512) (payload : List (BitVec 8)) (ce secure : Bool) (at_ : BitVec 40)
    (s : State) : Host.Outcome State Fault Refusal :=
  (Act.command <| Act.mctPacket mtBegin src hdr payload ce secure at_).outcome s

/-- CROSS_READY (R420). -/
def execCrossReady (src : BitVec 64) (hdr : BitVec 512) (payload : List (BitVec 8)) (ce secure : Bool) (at_ : BitVec 40)
    (s : State) : Host.Outcome State Fault Refusal :=
  (Act.command <| Act.mctPacket mtReady src hdr payload ce secure at_).outcome s

/-- CROSS_HELD (R420, R421). -/
def execCrossHeld (src : BitVec 64) (hdr : BitVec 512) (payload : List (BitVec 8)) (ce secure : Bool) (at_ : BitVec 40)
    (s : State) : Host.Outcome State Fault Refusal :=
  (Act.command <| Act.mctPacket mtHeld src hdr payload ce secure at_).outcome s

/-- CROSS_COMMIT (R420). -/
def execCrossCommit (src : BitVec 64) (hdr : BitVec 512) (payload : List (BitVec 8)) (ce secure : Bool) (at_ : BitVec 40)
    (s : State) : Host.Outcome State Fault Refusal :=
  (Act.command <| Act.mctPacket mtCommit src hdr payload ce secure at_).outcome s

/-- CROSS_ABORT (R420). -/
def execCrossAbort (src : BitVec 64) (hdr : BitVec 512) (payload : List (BitVec 8)) (ce secure : Bool) (at_ : BitVec 40)
    (s : State) : Host.Outcome State Fault Refusal :=
  (Act.command <| Act.mctPacket mtAbort src hdr payload ce secure at_).outcome s

/-- CROSS_ASK (R421). -/
def execCrossAsk (src : BitVec 64) (hdr : BitVec 512) (payload : List (BitVec 8)) (ce secure : Bool) (at_ : BitVec 40)
    (s : State) : Host.Outcome State Fault Refusal :=
  (Act.command <| Act.mctPacket mtAsk src hdr payload ce secure at_).outcome s

/-- CROSS_TELL (R421). -/
def execCrossTell (src : BitVec 64) (hdr : BitVec 512) (payload : List (BitVec 8)) (ce secure : Bool) (at_ : BitVec 40)
    (s : State) : Host.Outcome State Fault Refusal :=
  (Act.command <| Act.mctPacket mtTell src hdr payload ce secure at_).outcome s

/-- MCT_BAD_PACKET: a packet with a reserved bit, another VERSION, a reserved TYPE, or that fails its check is dropped
and counted (R404, R406, R407). -/
def execMctBadPacket (hdr : BitVec 512) (secure : Bool) (s : State) : Host.Outcome State Fault Refusal :=
  (Act.command <| .look fun s =>
    if hdrBad hdr || decide (0x10 < hdrType hdr) then .count .MCT_BAD_HEADER_COUNT
    else if !secure || !s.jobKnown hdr then .count .MCT_AUTH_FAIL_COUNT
    else .done).outcome s

/-! ### Timers and notices -/

/-- RETIRE: the oldest retirement notice goes to the chart service (R389, R407). -/
def execRetire (s : State) : Host.Outcome State Fault Refusal :=
  (Act.command <| .look fun s => match s.mct.notices with
    | [] => .done
    | e :: es => (Act.modMct fun m => { m with notices := es }).andThen (.one (.emit (.retireNotice e)))).outcome s

/-- MCT_RTO: the timeout of an unacknowledged packet expires: it is retransmitted, or its channel fails when its
retransmissions are used up (R409, R411). -/
def execMctRto (peer : BitVec 64) (vc : Fin 5) (seq : BitVec 32) (at_ : BitVec 40) (s : State) :
    Host.Outcome State Fault Refusal :=
  (Act.command <| .look fun s =>
    match (s.tx peer.toNat vc.val).sent.find? fun x => x.seq % 2 ^ 32 == seq.toNat with
    | none => .done
    | some x =>
      if x.tries ≥ s.get F.MCT_RETX_RETRIES then .peerLost peer.toNat vc.val at_.toNat
      else (Act.count .MCT_RTO_COUNT).andThen (.retransmit peer.toNat vc.val at_.toNat x)).outcome s

/-- MCT_ACK_TIMER: an acknowledgement that no reverse traffic has carried goes in an ACK packet (R409). -/
def execMctAckTimer (peer : BitVec 64) (vc : Fin 5) (at_ : BitVec 40) (s : State) : Host.Outcome State Fault Refusal :=
  (Act.command <| .look fun s =>
    .when (s.rx peer.toNat vc.val).due (.sendAck peer.toNat vc.val at_.toNat)).outcome s

/-- CROSS_WAIT_EXPIRE: the source has waited longer than WAIT sailings for CROSS_READY or CROSS_HELD (R420). -/
def execCrossWaitExpire (session : BitVec 64) (at_ : BitVec 40) (s : State) : Host.Outcome State Fault Refusal :=
  (Act.command <| .look fun s => match s.crossing session.toNat with
    | some c =>
      .when (c.source && (c.step == 2 || c.step == 3) && decide (c.since + s.get F.MCT_CROSS_WAIT < s.now))
        (.abortCrossing c at_.toNat 5)
    | none => .done).outcome s

/-- CROSS_GRANT: at LATCH the crossings that wait here are granted in ascending session ID order (R422). -/
def execCrossGrant (at_ : BitVec 40) (s : State) : Host.Outcome State Fault Refusal :=
  (Act.command <| .look fun s =>
    let mine := (s.sdir.waits.filter fun w => dOp w.entry.toNat == 0x0F).mergeSort fun a b =>
      dSession a.entry.toNat ≤ dSession b.entry.toNat
    .when (decide (s.get F.SAIL_STATUS_PHASE = 0))
      (.each mine fun w => .look fun s =>
        (Act.modSdir fun x => { x with waits := x.waits.erase w }).andThen
          (.tryWaiter w at_.toNat (.modSdir fun x => { x with waits := s.sdir.waits })))).outcome s

/-- CROSS_OUTCOME_EXPIRE: an outcome kept KEEP_S seconds leaves the table (R421). -/
def execCrossOutcomeExpire (session : BitVec 64) (s : State) : Host.Outcome State Fault Refusal :=
  (Act.command <| .look fun s =>
    let old (o : Nat × Nat × Bool × Nat) : Bool :=
      o.1 == session.toNat
        && decide (s.get F.MCT_CROSS_KEEP_S * 1000000 ≤ (s.now - o.2.2.2) * s.get F.SAIL_PERIOD_PERIOD_US)
    .modMct fun m => { m with outcomes := m.outcomes.filter fun o => !old o }).outcome s

end Sys2Proof.Machine
end

