-- ==== Sys2Proof/Machine/NmuUnit.lean ====
section
/-! DEFINITION. What the near-memory commands share: descriptors (R246), checks (R251), what each operation reads and
writes (R247 to R249), difference records (R256 to R258), manifests (R252), pieces (R241, R242) and how a command
ends (R250). -/

namespace Sys2Proof.Machine

/-! ### Descriptors (R246) -/

def nOp (d : BitVec 512) : Nat := bits d.toNat 511 504
def nFmtA (d : BitVec 512) : Nat := bits d.toNat 503 500
def nFmtB (d : BitVec 512) : Nat := bits d.toNat 499 496
def nFmtOut (d : BitVec 512) : Nat := bits d.toNat 495 492
def nManifest (d : BitVec 512) : Bool := bit d.toNat 491
def nNotify (d : BitVec 512) : Bool := bit d.toNat 490
def nPost (d : BitVec 512) : Bool := bit d.toNat 489
def nBollard (d : BitVec 512) : Nat := bits d.toNat 488 474
def nElemLog2 (d : BitVec 512) : Nat := bits d.toNat 467 464
def nRep (d : BitVec 512) : Nat := bits d.toNat 463 448 + 1
def nCount (d : BitVec 512) : Nat := bits d.toNat 447 424 + 1
def nSrcStride (d : BitVec 512) : Nat := bits d.toNat 423 408
def nDstStride (d : BitVec 512) : Nat := bits d.toNat 407 392
def nSrcRep (d : BitVec 512) : Nat := bits d.toNat 391 368
def nDstRep (d : BitVec 512) : Nat := bits d.toNat 367 344
def nSrc (d : BitVec 512) : Nat := bits d.toNat 319 272
def nSrc2 (d : BitVec 512) : Nat := bits d.toNat 271 224
def nDst (d : BitVec 512) : Nat := bits d.toNat 223 176
def nAux (d : BitVec 512) : Nat := bits d.toNat 175 128
def nScalar (d : BitVec 512) : F32 := BitVec.ofNat 32 (bits d.toNat 127 96)
def nTag (d : BitVec 512) : Nat := bits d.toNat 95 64

/-- Operation codes (R247). -/
def nopMove : Nat := 1
def nopFill : Nat := 2
def nopAdd : Nat := 0x10
def nopMul : Nat := 0x11
def nopAxpy : Nat := 0x12
def nopScale : Nat := 0x13
def nopSilu : Nat := 0x18
def nopSiluMul : Nat := 0x19
def nopDiffAdd : Nat := 0x20
def nopDiffReplace : Nat := 0x21

/-- The operation codes that are not reserved. -/
def nmuOps : List Nat :=
  [nopMove, nopFill, nopAdd, nopMul, nopAxpy, nopScale, nopSilu, nopSiluMul, nopDiffAdd, nopDiffReplace]

/-- Statuses (R250). -/
def nsOk : Nat := 0
def nsNonfinite : Nat := 1
def nsRejected : Nat := 2
def nsLine : Nat := 3
def nsManifest : Nat := 4
def nsBadDiff : Nat := 5
def nsDigest : Nat := 6
def nsGate : Nat := 7

/-- Element-wise operations, and those that read a second source. -/
def isElemOp (op : Nat) : Bool := decide (0x10 ≤ op) && decide (op < 0x20)
def twoSources (op : Nat) : Bool := op == nopAdd || op == nopMul || op == nopAxpy || op == nopSiluMul
def isDiff (op : Nat) : Bool := op == nopDiffAdd || op == nopDiffReplace

/-- The formats of element-wise operations and DIFF_ADD (R248, R257). -/
def nmuFmt (f : Nat) : Bool := f == 0 || f == 1 || f == 6 || f == 7

/-- Bytes of an element of such a format. -/
def nmuSize (f : Nat) : Nat := elemBits f / 8

/-! ### Elements -/

/-- What one element writes and reads: destination and bytes, source ranges. -/
structure NmuElem where
  dst : Nat
  len : Nat
  srcs : List (Nat × Nat)

/-- The elements of a MOVE, a FILL or an element-wise operation (R246, R247). The rows of an element-wise operation share
one outer stride, SRC_REP_STRIDE. -/
def nmuElems (d : BitVec 512) : List NmuElem :=
  let op := nOp d
  (List.range (nRep d)).flatMap fun r =>
    let src := nSrc d + r * nSrcRep d
    let src2 := nSrc2 d + r * nSrcRep d
    let dst := nDst d + r * (if isElemOp op then nSrcRep d else nDstRep d)
    (List.range (nCount d)).map fun k =>
      if op = nopMove then
        let n := 2 ^ nElemLog2 d
        ⟨dst + k * nDstStride d, n, [(src + k * nSrcStride d, n)]⟩
      else if op = nopFill then ⟨dst + 4 * k, 4, []⟩
      else
        let a := nmuSize (nFmtA d)
        let b := nmuSize (nFmtB d)
        let o := nmuSize (nFmtOut d)
        ⟨dst + k * o, o, (src + k * a, a) :: if twoSources op then [(src2 + k * b, b)] else []⟩

/-- The FP32 value of an element in memory (R248). -/
def State.nmuValue (s : State) (f a : Nat) : F32 := f32OfNum (decodeElem f (s.readLE a (nmuSize f)))

/-- The value an element-wise operation gives (R247), and whether it or an input is non-finite. -/
def State.nmuCompute (s : State) (d : BitVec 512) (e : NmuElem) : F32 × Bool :=
  let op := nOp d
  let a := s.nmuValue (nFmtA d) ((e.srcs.headD (0, 0)).1)
  let b := s.nmuValue (nFmtB d) (((e.srcs.drop 1).headD (0, 0)).1)
  let v :=
    if op = nopAdd then fadd a b
    else if op = nopMul then fmul a b
    else if op = nopAxpy then fadd a (fmul (nScalar d) b)
    else if op = nopScale then fmul a (nScalar d)
    else if op = nopSilu then siluf a
    else fmul (siluf a) b
  (v, v.num.nonfinite || a.num.nonfinite || (twoSources op && b.num.nonfinite))

/-- The bytes an element writes, and whether a non-finite value was met (R247, R248, R258). -/
def State.nmuBytes (s : State) (d : BitVec 512) (e : NmuElem) : List Byte × Bool :=
  let op := nOp d
  let src (i : Nat) : Nat := ((e.srcs.drop i).headD (0, 0)).1
  if op = nopMove ∨ op = nopDiffReplace then (s.readMem (src 0) e.len, false)
  else if op = nopFill then (leBytes 4 (nScalar d).toNat, false)
  else if op = nopDiffAdd then
    let f := nFmtA d
    (leBytes e.len (encodeElem f (fadd (s.nmuValue f (src 1)) (s.nmuValue f (src 0))).num), false)
  else
    let (v, bad) := s.nmuCompute d e
    let o := encodeElem (nFmtOut d) v.num
    (leBytes e.len o, bad || (decodeElem (nFmtOut d) o).nonfinite)

/-! ### Difference records (R257) -/

/-- Header fields of the record of a DIFF command. -/
def State.diffBlocks (s : State) (d : BitVec 512) : Nat := s.readLE (nSrc d) 4
def State.diffTarget (s : State) (d : BitVec 512) : Nat := s.readLE (nSrc d + 8) 8
def State.diffDigest (s : State) (d : BitVec 512) : List Byte := s.readMem (nSrc d + 0x10) 48

/-- Bytes of a payload block. -/
def diffBlock (d : BitVec 512) : Nat := if nOp d = nopDiffAdd then 128 * nmuSize (nFmtA d) else 64

/-- Where payload block `i` lies, and its block number. -/
def State.diffPayload (s : State) (d : BitVec 512) (i : Nat) : Nat :=
  ceilDiv (nSrc d + 0x80 + 4 * s.diffBlocks d) 64 * 64 + i * diffBlock d
def State.diffIndex (s : State) (d : BitVec 512) (i : Nat) : Nat := s.readLE (nSrc d + 0x80 + 4 * i) 4

/-- Bytes of a whole record. -/
def State.diffBytes (s : State) (d : BitVec 512) : Nat := s.diffPayload d (s.diffBlocks d) - nSrc d

/-- The header of a record passes its checks (R257, R258). -/
def State.diffHeaderOk (s : State) (d : BitVec 512) : Bool :=
  let h := s.readMem (nSrc d) 0x80
  let n := s.diffBlocks d
  leAt h 0x7C 4 == crc32c (h.take 0x7C)
    && leAt h 5 3 == 0 && leAt h 0x40 60 == 0
    && leAt h 4 1 == nFmtA d && (nOp d == nopDiffReplace || nmuFmt (nFmtA d))
    && decide (1 ≤ n) && decide (n ≤ 2 ^ 24) && decide (s.diffTarget d % 64 = 0)

/-- The index list passes its checks: ascending, and every block within TARGET_BYTES (R258). -/
def State.diffListOk (s : State) (d : BitVec 512) : Bool :=
  let n := s.diffBlocks d
  (List.range (n - 1)).all (fun i => decide (s.diffIndex d i < s.diffIndex d (i + 1)))
    && (List.range n).all fun i => decide ((s.diffIndex d i + 1) * diffBlock d ≤ s.diffTarget d)

/-- The elements of a DIFF command: the lines of a replacement, or the target elements of the blocks that are added to
(R257, R258). -/
def State.diffElems (s : State) (d : BitVec 512) : List NmuElem :=
  (List.range (s.diffBlocks d)).flatMap fun i =>
    let t := nDst d + s.diffIndex d i * diffBlock d
    let p := s.diffPayload d i
    if nOp d = nopDiffReplace then [⟨t, 64, [(p, 64)]⟩]
    else
      let n := nmuSize (nFmtA d)
      (List.range 128).map fun k => ⟨t + n * k, n, [(p + n * k, n), (t + n * k, n)]⟩

/-- The gate of DIFF commands lets a target pass (R256). -/
def State.diffGate (s : State) (d : BitVec 512) : Bool :=
  s.flag F.NMU_DIFF_GATE_PRESTART ||
    (piecesOf (nDst d) (s.diffTarget d)).all fun p =>
      match (s.hbmKey p.1).bind fun k => s.islandOf (k / granuleBytes) with
      | some i => bit (s.get F.NMU_DIFF_GATE_OPEN) i
      | none => false

/-! ### Checks (R251) -/

/-- What a command reads and writes, as elements. -/
def State.nmuWork (s : State) (d : BitVec 512) : List NmuElem := if isDiff (nOp d) then s.diffElems d else nmuElems d

/-- The ranges a command reads from its sources: a difference record is read whole. -/
def State.nmuReads (s : State) (d : BitVec 512) : List (Nat × Nat) :=
  if isDiff (nOp d) then [(nSrc d, s.diffBytes d)] else (nmuElems d).flatMap (·.srcs)

/-- The range a command may write: the whole target of a difference. -/
def State.nmuWrites (s : State) (d : BitVec 512) : List (Nat × Nat) :=
  if isDiff (nOp d) then [(nDst d, s.diffTarget d)] else (nmuElems d).map fun e => (e.dst, e.len)

/-- The bases of the tile map: source tiles, source manifests, destination tiles, destination manifests (R252). -/
structure TileMap where
  src : Nat
  srcMan : Nat
  dst : Nat
  dstMan : Nat

/-- The tile map of a command (R252). -/
def State.tileMap (s : State) (d : BitVec 512) : TileMap :=
  let at_ (o : Nat) : Nat := s.readLE (nAux d + o) 8
  ⟨at_ 0, at_ 8, at_ 16, at_ 24⟩

/-- The tiles of an array that a range touches. -/
def tilesIn (base a n : Nat) : List Nat :=
  (List.range ((a - base + n - 1) / 16384 + 1 - (a - base) / 16384)).map ((a - base) / 16384 + ·)

/-- Tiles without repeats, ascending in the order of first use. -/
def uniq (l : List Nat) : List Nat := l.foldl (fun acc x => if acc.contains x then acc else acc ++ [x]) []

/-- Source and destination tiles of a command (R252). -/
def State.nmuTiles (s : State) (d : BitVec 512) : List Nat × List Nat :=
  let m := s.tileMap d
  (uniq ((s.nmuReads d).flatMap fun r => tilesIn m.src r.1 r.2),
    uniq ((s.nmuWork d).flatMap fun e => tilesIn m.dst e.dst e.len))

/-- A command touches nothing outside its tile map, whose tiles and manifests lie in general-use HBM (R251, R252). -/
def State.nmuMapped (s : State) (d : BitVec 512) : Bool :=
  let m := s.tileMap d
  let t := s.nmuTiles d
  let ok (base man i : Nat) : Bool := s.hbmRange (base + 16384 * i) 16384 && s.hbmRange (man + 32 * i) 32
  (s.nmuReads d).all (fun r => decide (m.src ≤ r.1)) && (s.nmuWrites d).all (fun r => decide (m.dst ≤ r.1))
    && t.1.all (ok m.src m.srcMan) && t.2.all (ok m.dst m.dstMan)

/-- A 4-byte element address that is not 4-byte aligned (R251): of an element that is moved, filled or computed, or of a
target whose format has 4 bytes. -/
def State.nmuMisaligned (s : State) (d : BitVec 512) : Bool :=
  if isDiff (nOp d) then elemBits (nFmtA d) == 32 && decide (nDst d % 4 ≠ 0)
  else (s.nmuWork d).any fun e => (e.len == 4 && e.dst % 4 ≠ 0) || e.srcs.any fun r => r.2 == 4 && r.1 % 4 ≠ 0

/-- The header of a difference record can be read, and passes its checks. -/
def State.diffReadable (s : State) (d : BitVec 512) : Bool :=
  s.hbmRange (nSrc d) 0x80 && (s.lostLine (nSrc d) 0x80).isNone && s.diffHeaderOk d

/-- A byte lies where the command may not reach, or a 4-byte element is misaligned (R251). What a difference record or a
tile map names is judged once its header, or the map, can be read. -/
def State.nmuOutOfRange (s : State) (d : BitVec 512) : Bool :=
  let inHbm (r : Nat × Nat) : Bool := s.hbmRange r.1 r.2
  let known := !isDiff (nOp d) || s.diffReadable d
  (isDiff (nOp d) && !inHbm (nSrc d, 0x80))
    || (nManifest d && !inHbm (nAux d, 32))
    || s.nmuMisaligned d
    || (known && !((s.nmuReads d).all inHbm && (s.nmuWrites d).all inHbm))
    || (known && nManifest d && (s.lostLine (nAux d) 32).isNone && !(isDiff (nOp d) && !s.diffListOk d)
      && !s.nmuMapped d)

/-- Why a descriptor is rejected: 1 OP, 2 FORMAT, 3 RANGE, 4 PARAM; 0 when it is not (R251, R260). -/
def State.nmuReject (s : State) (d : BitVec 512) : Nat :=
  let op := nOp d
  if !nmuOps.contains op then 1
  else if isElemOp op && !(nmuFmt (nFmtA d) && nmuFmt (nFmtOut d) && (!twoSources op || nmuFmt (nFmtB d))) then 2
  else if op == nopDiffAdd && !nmuFmt (nFmtA d) then 2
  else if s.nmuOutOfRange d then 3
  else if bits d.toNat 473 468 ≠ 0 || bits d.toNat 343 320 ≠ 0 || nElemLog2 d == 15
      || (op == nopMove && (nmuElems d).any fun e =>
        decide (e.dst % 4096 + e.len > 4096) || e.srcs.any fun r => decide (r.1 % 4096 + r.2 > 4096)) then 4
  else 0

/-- A lost line of what the dispatcher reads before any piece: the tile map, a record's header and its index list
(R244, R252, R257). -/
def State.nmuHeadLost (s : State) (d : BitVec 512) : Option Nat :=
  let map := if nManifest d then s.lostLine (nAux d) 32 else none
  if isDiff (nOp d) then
    map.or ((s.lostLine (nSrc d) 0x80).or
      (if s.diffHeaderOk d then s.lostLine (nSrc d + 0x80) (4 * s.diffBlocks d) else none))
  else map

/-- A byte of device address space is among those that elements write. -/
def nmuCovers (es : List NmuElem) (a : Nat) : Bool := es.any fun e => decide (e.dst ≤ a) && decide (a < e.dst + e.len)

/-- The lost line or retired unit that a write to a range touches without the command's elements covering the line
(R244, R532, R544). -/
def State.partLost (s : State) (es : List NmuElem) (a n : Nat) : Option Nat :=
  (piecesOf a n).findSome? fun p =>
    match s.hbmKey p.1 with
    | none => none
    | some k =>
      if s.unitGone k then some k
      else
        (s.lost.find? fun e =>
          e.2 && decide (e.1 < k + p.2) && decide (k < e.1 + 64)
            && !((List.range 64).all fun i => nmuCovers es (p.1 + e.1 + i - k))).map (·.1)

/-- The lost line that the elements `mine` of a command meet, and whether it is one they write in part: one they read, or
one that the whole command nmuCovers only in part (R244). -/
def State.pieceLost (s : State) (es mine : List NmuElem) : Option (Nat × Bool) :=
  match mine.findSome? fun e => e.srcs.findSome? fun r => s.lostLine r.1 r.2 with
  | some k => some (k, false)
  | none => (mine.findSome? fun e => s.partLost es e.dst e.len).map fun k => (k, true)

/-- Every tile the command reads or writes verifies (R252). -/
def State.nmuManifestsOk (s : State) (d : BitVec 512) : Bool :=
  !nManifest d ||
    let m := s.tileMap d
    let t := s.nmuTiles d
    t.1.all (s.tileVerifies m.src m.srcMan) && t.2.all (s.tileVerifies m.dst m.dstMan)

/-- Two ranges of device addresses share a byte of HBM. -/
def State.rangesShare (s : State) (a b : Nat × Nat) : Bool :=
  (piecesOf a.1 a.2).any fun p => (piecesOf b.1 b.2).any fun q =>
    match s.hbmKey p.1, s.hbmKey q.1 with
    | some j, some k => decide (j < k + q.2) && decide (k < j + p.2)
    | _, _ => false

/-- A source and the destination of a command overlap: the result is undefined (R249). -/
def State.nmuOverlap (s : State) (d : BitVec 512) : Bool :=
  (s.nmuReads d).any fun r => (s.nmuWork d).any fun e => s.rangesShare r (e.dst, e.len)

/-! ### Pieces (R241, R242) -/

/-- The part of a range's source that leads to the bytes `lo` to `hi - 1` of what an element writes. -/
def sourcePart (e : NmuElem) (r : Nat × Nat) (lo hi : Nat) : Nat × Nat :=
  if r.2 = e.len then (r.1 + (lo - e.dst), hi - lo) else r

/-- The piece of a 4 KiB unit is bridged: a byte it reads lies in another stack (R241). -/
def State.bridged (s : State) (es : List NmuElem) (unit : Nat) : Bool :=
  let stackAt (a : Nat) : Option Nat := (s.hbmKey a).map fun k => (frameOf k).1
  es.any fun e =>
    let lo := max e.dst (4096 * unit)
    let hi := min (e.dst + e.len) (4096 * (unit + 1))
    decide (lo < hi) && e.srcs.any fun r =>
      let q := sourcePart e r lo hi
      (piecesOf q.1 q.2).any fun p => stackAt p.1 ≠ stackAt (4096 * unit)

/-- The pieces of a command: one for each 4 KiB unit it writes, in order of first use. -/
def State.piecesOfNmu (s : State) (d : BitVec 512) : List (Nat × Bool) :=
  let es := s.nmuWork d
  (uniq (es.flatMap fun e => (piecesOf e.dst e.len).map fun p => p.1 / 4096)).map fun u => (u, s.bridged es u)

/-- The stack of a 4 KiB unit of the device address space. -/
def State.unitStack (s : State) (u : Nat) : Nat := ((s.hbmKey (u * 4096)).map fun k => (frameOf k).1).getD 0

/-- A descriptor leaves the device queue. -/
def Act.nmuPop (a : Nat) : Act :=
  (Act.modNmu fun n => { n with queue := n.queue.erase a }).andThen
    (.look fun s => .set F.NMU_STATUS_QUEUED s.nmu.queue.length)

/-- What a status counts and records (R265, R621). -/
def Act.nmuStatus (d : BitVec 512) (status : Nat) (lost : Option Nat) : Act :=
  if status = nsRejected then
    (Act.count .NMU_REJECT_COUNT).andThen (.raise .NMU_DESC_REJECTED { tag := nTag d })
  else if status = nsLine then
    (Act.count .NMU_LINE_ECC_COUNT).andThen
      (.raise .NMU_LINE_ECC { dindex := domainOf (lost.getD 0), address := lost.getD 0, tag := nTag d })
  else if status = nsManifest then
    .all [.count .NMU_MANIFEST_FAIL_COUNT, .manifestFail, .raise .ERR_MANIFEST { tag := nTag d }]
  else if status = nsDigest then
    (Act.count .NMU_DIGEST_FAIL_COUNT).andThen (.raise .NMU_DIGEST_MISMATCH { tag := nTag d })
  else .done

/-- A command's status before its pieces go out, with the lost line it met: the checks of the descriptor (R251), of the
record (R258), of the gate (R256) and of the tiles (R252). -/
def State.nmuOutcome (s : State) (d : BitVec 512) : Nat × Option Nat :=
  if s.nmuReject d ≠ 0 then (nsRejected, none)
  else if isDiff (nOp d) && (s.nmuHeadLost d).isNone && !(s.diffHeaderOk d && s.diffListOk d) then (nsBadDiff, none)
  else if (s.nmuHeadLost d).isSome then (nsLine, s.nmuHeadLost d)
  else if isDiff (nOp d) && !s.diffGate d then (nsGate, none)
  else if !s.nmuManifestsOk d then (nsManifest, none)
  else (nsOk, none)

/-- The oldest descriptor of the queue that has not started (R243, R245). -/
def State.nmuNext (s : State) : Option Nat := s.nmu.queue.find? fun a => !(s.nmu.active.any fun c => c.addr == a)

/-- Granules of islands in POWER_OFF that hold the destination or the source of a command (R582). -/
def State.nmuAsleep (s : State) (d : BitVec 512) : List Nat :=
  ([nDst d, nSrc d].filterMap fun a => (s.hbmKey a).map (· / granuleBytes)).filter s.asleep

/-- Start the command at `a`, whose operation is `op`: its checks, and its pieces. None starts during capture (R272), and a
command for an island in POWER_OFF wakes the island and waits for it (R582). -/
def Act.nmuStart (a op : Nat) : Act :=
  .look fun s =>
    if s.nmuNext ≠ some a || s.ckState == ckCapture then .done
    else match s.entryAt true a 64 with
      | .ok b =>
        let d : BitVec 512 := BitVec.ofNat 512 (ofLE b)
        if nOp d ≠ op then .done
        else if s.nmuAsleep d ≠ [] then .each (s.nmuAsleep d) .wakeGranule
        else
          let (st, lost) := s.nmuOutcome d
          let ps := if st == nsOk then s.piecesOfNmu d else []
          .all
            [ .when (st == nsRejected) (.set F.NMU_STATUS_REJECT_REASON (s.nmuReject d)),
              .nmuStatus d st lost,
              .modNmu fun n => { n with active := n.active ++ [⟨a, d, st, ps, [], 0⟩] },
              .when ps.isEmpty (.nmuPop a) ]
      | _ => .done

/-- A descriptor with a reserved OP, or one that cannot be read, is rejected when it is the next to start (R247, R251,
R598, R622). -/
def Act.nmuReserved : Act :=
  .look fun s =>
    match s.nmuNext with
    | none => .done
    | some a =>
      let refuse (d : BitVec 512) (tag reason : Nat) : Act :=
        .all
          [ .nmuPop a, .set F.NMU_STATUS_REJECT_REASON reason, .nmuStatus d nsRejected none,
            .complete 0x04 nsRejected 0 tag 0 ]
      if s.ckState == ckCapture then .done
      else match s.entryAt true a 64 with
        | .unmapped => (Act.unmapped a).andThen (refuse 0 0 3)
        | .outside => refuse 0 0 3
        | .lost k => (Act.entryLost k { detail := a }).andThen (refuse 0 0 3)
        | .ok b =>
          let d : BitVec 512 := BitVec.ofNat 512 (ofLE b)
          if nmuOps.contains (nOp d) then .done
          else (refuse d (nTag d) 1).andThen
            (.store a (leBytes 8 (2 ^ 63 + nsRejected * 2 ^ 48 + s.now)))

/-- Change a command that has started. -/
def Act.modNmuCmd (a : Nat) (f : NmuCmd → NmuCmd) : Act :=
  .modNmu fun n => { n with active := n.active.map fun x => if x.addr = a then f x else x }

/-- PIECES and NMU_RDY of a stack follow its queue of 64 entries (R242, R261). -/
def Act.showPieces (stack : Nat) : Act :=
  .look fun s =>
    let n := (s.nmu.pieces.filter fun p => p.stack == stack).length
    (Act.set F.NMU_STACK_PIECES n stack).andThen (.setFlag F.NMU_STACK_RDY (decide (n < 64)) stack)

/-- The command stops: it ends with a status other than OK, and no more pieces of it run. -/
def Act.nmuStop (a status : Nat) : Act :=
  .look fun s =>
    .all
      [ .when (s.nmu.queue.contains a) (.nmuPop a),
        .modNmuCmd a fun c => { c with status := status, toSend := [] },
        .modNmu fun n => { n with pieces := n.pieces.filter fun p => p.cmd ≠ a },
        .each (List.range 16) .showPieces ]

/-- The elements of a piece: those that begin in its unit. -/
def mineOf (es : List NmuElem) (unit : Nat) : List NmuElem := es.filter fun e => e.dst / 4096 == unit

/-- A piece writes: every element's bytes are made before any is written (R249); free bytes where ranges of the command
overlap. Lines that the elements cover together are written whole (R244). -/
def Act.pieceWrite (c : NmuCmd) (es mine : List NmuElem) : Act :=
  .look fun s =>
    let out := mine.map fun e => (e.dst, s.nmuBytes c.desc e)
    let free := s.nmuOverlap c.desc
    let bad := isElemOp (nOp c.desc) && (if free then (Config.freeWord s.free).toNat % 2 == 1 else out.any fun w => w.2.2)
    .all
      [ .when free (.one (.takeFree 1)),
        if free then .each mine fun e => .freeStore e.dst e.len else .each out fun w => .storeRaw w.1 w.2.1,
        .each (s.lost.filter fun l => l.2 && mine.any fun e => (piecesOf e.dst e.len).any fun p =>
            match s.hbmKey p.1 with
            | some k => decide (l.1 < k + p.2) && decide (k < l.1 + 64)
                && (List.range 64).all fun i => nmuCovers es (p.1 + l.1 + i - k)
            | none => false) fun l => .one (.lost l.1 false),
        .when bad (.modNmuCmd c.addr fun c => { c with status := nsNonfinite }) ]

/-- A piece runs and leaves the queue of its stack: a lost line stops it and its command (R244), otherwise it writes. -/
def Act.nmuPiece (p : NmuPiece) : Act :=
  .look fun s =>
    .when (s.nmu.pieces.contains p)
      (.all
        [ .modNmu fun n => { n with pieces := n.pieces.erase p }, .showPieces p.stack,
          match s.nmu.active.find? fun c => c.addr == p.cmd with
          | none => .done
          | some c =>
            let es := s.nmuWork c.desc
            let mine := mineOf es p.unit
            match s.pieceLost es mine with
            | some (k, part) =>
              .all
                [ .when part (.lineLost k { tag := nTag c.desc }), .nmuStatus c.desc nsLine (some k),
                  .nmuStop c.addr nsLine ]
            | none => .pieceWrite c es mine ])

/-- A stack runs its oldest piece when its queue is full (R242). -/
def Act.nmuMakeRoom (stack : Nat) : Act :=
  .look fun s =>
    match s.nmu.pieces.filter fun p => p.stack == stack with
    | [] => .done
    | p :: ps => .when (decide (63 ≤ ps.length)) (.nmuPiece p)

/-- Send the oldest piece for a stack, once NMU_RDY is high (R241, R242). -/
def Act.nmuDispatch (stack : Nat) : Act :=
  .look fun s =>
    match s.nmu.active.findSome? fun c =>
        (c.toSend.find? fun p => s.unitStack p.1 == stack).map fun p => (c, p) with
    | none => .done
    | some (c, p) =>
      .all
        [ .modNmuCmd c.addr fun c => { c with toSend := c.toSend.erase p, sent := c.sent ++ [p.1] },
          .modNmu fun n => { n with pieces := n.pieces ++ [⟨c.addr, p.1, stack⟩] },
          .showPieces stack,
          .when p.2 (.count .NMU_BRIDGE_COUNT),
          .when (c.toSend.length == 1) (.nmuPop c.addr) ]

/-- The pieces that run before the last piece of a command has: in each stack, those up to it (R243). -/
def piecesUpTo (a : Nat) : List NmuPiece → List NmuPiece
  | [] => []
  | p :: ps =>
    if p.cmd == a || ps.any fun q => q.cmd == a && q.stack == p.stack then p :: piecesUpTo a ps else piecesUpTo a ps

/-- Manifests of the written tiles are made again from their new contents (R252). -/
def Act.nmuManifests (d : BitVec 512) : Act :=
  .look fun s =>
    .when (nManifest d)
      (let m := s.tileMap d
      .each (s.nmuTiles d).2 fun t =>
        .look fun s => .store (m.dstMan + 32 * t) (manifestOf kindTile (s.readMem (m.dst + 16384 * t) 16384)))

/-- A write to a range of device addresses is held by copy-on-write. -/
def State.heldIn (s : State) (a n : Nat) : Bool :=
  (piecesOf a n).any fun p =>
    match s.hbmKey p.1 with
    | some k => s.nmu.held.any fun h => frameOf h.addr == frameOf k
    | none => false

/-- The destination of a command that ends LINE_ECC or DIGEST is undefined (R250). -/
def Act.nmuUndefined (d : BitVec 512) : Act := .look fun s => .each (s.nmuWrites d) fun r => .freeStore r.1 r.2

/-- The end of a command, first part: its writes are made, its manifests and digest follow (R252, R258). -/
def Act.nmuFinish (c : NmuCmd) : Act :=
  .look fun s =>
    let d := c.desc
    let good := c.status == nsOk || c.status == nsNonfinite
    let bad := good && isDiff (nOp d) && decide (sha384 (s.readMem (nDst d) (s.diffTarget d)) ≠ s.diffDigest d)
    .all
      [ .when good (.nmuManifests d),
        .when bad (.nmuStatus d nsDigest none),
        .when (bad || (c.status == nsLine && !c.sent.isEmpty)) (.nmuUndefined d),
        .modNmuCmd c.addr fun x => { x with status := if bad then nsDigest else c.status, phase := 1 } ]

/-- The second part: the status word, after every data line and manifest (R250). -/
def Act.nmuWord (c : NmuCmd) : Act :=
  .look fun s =>
    (Act.store c.addr (leBytes 8 (2 ^ 63 + c.status * 2 ^ 48 + s.now))).andThen
      (.modNmuCmd c.addr fun x => { x with phase := 2 })

/-- The last part: the post and the completion record (R250). -/
def Act.nmuPost (c : NmuCmd) : Act :=
  let d := c.desc
  let ok := c.status == nsOk || c.status == nsNonfinite
  .all
    [ .when (ok && isDiff (nOp d)) (.count .NMU_DIFF_COUNT),
      .modNmu fun n => { n with active := n.active.filter fun x => x.addr ≠ c.addr },
      .when (ok && nPost d) (.post (nBollard d) 1),
      .when (!ok || nNotify d) (.complete 0x04 c.status 0 (nTag d) 0) ]

/-- The stores that a part of a command's end waits for are made: its pieces' writes, its manifests, its status word. -/
def State.nmuWaits (s : State) (c : NmuCmd) : Bool :=
  match c.phase with
  | 0 => !c.toSend.isEmpty || c.sent.any fun u => s.heldIn (u * 4096) 4096
  | 1 => nManifest c.desc && (s.nmuTiles c.desc).2.any fun t => s.heldIn ((s.tileMap c.desc).dstMan + 32 * t) 32
  | _ => s.heldIn c.addr 8

/-- A command goes on with its end as far as no write of it is held. -/
def Act.nmuEnd (a : Nat) : Nat → Act
  | 0 => .done
  | n + 1 =>
    .look fun s =>
      match s.nmu.active.find? fun c => c.addr == a with
      | none => .done
      | some c =>
        .when (!s.nmuWaits c)
          ((match c.phase with
            | 0 => Act.nmuFinish c
            | 1 => .nmuWord c
            | _ => .nmuPost c).andThen (.nmuEnd a n))

/-- A command ends once its pieces have all been sent and have run, with those before them in their stacks' queues. -/
def Act.nmuDone (a : Nat) : Act :=
  .look fun s =>
    match s.nmu.active.find? fun c => c.addr == a with
    | none => .done
    | some c =>
      .when c.toSend.isEmpty ((Act.each (piecesUpTo a s.nmu.pieces) .nmuPiece).andThen (.nmuEnd a 3))

end Sys2Proof.Machine
end

