-- ==== Sys2Proof/Machine/Nmu.lean ====
section
/-! DEFINITION. Near-memory commands (R240 to R258) and the copy-on-write of the base dies (R253 to R255). -/

namespace Sys2Proof.Machine

/-- NMU_MOVE: the next queued descriptor copies strided elements (R247, R249). -/
def execNmuMove (addr : BitVec 48) (s : State) : Host.Outcome State Fault Refusal :=
  (Act.command (.nmuStart addr.toNat nopMove)).outcome s

/-- NMU_FILL: the next queued descriptor writes a repeated pattern (R247). -/
def execNmuFill (addr : BitVec 48) (s : State) : Host.Outcome State Fault Refusal :=
  (Act.command (.nmuStart addr.toNat nopFill)).outcome s

/-- NMU_ADD: the next queued descriptor adds two sources (R247, R248). -/
def execNmuAdd (addr : BitVec 48) (s : State) : Host.Outcome State Fault Refusal :=
  (Act.command (.nmuStart addr.toNat nopAdd)).outcome s

/-- NMU_MUL: the next queued descriptor multiplies two sources (R247, R248). -/
def execNmuMul (addr : BitVec 48) (s : State) : Host.Outcome State Fault Refusal :=
  (Act.command (.nmuStart addr.toNat nopMul)).outcome s

/-- AXPY: the next queued descriptor computes a + SCALAR × b (R247, R248). -/
def execAxpy (addr : BitVec 48) (s : State) : Host.Outcome State Fault Refusal :=
  (Act.command (.nmuStart addr.toNat nopAxpy)).outcome s

/-- NMU_SCALE: the next queued descriptor scales a source (R247, R248). -/
def execNmuScale (addr : BitVec 48) (s : State) : Host.Outcome State Fault Refusal :=
  (Act.command (.nmuStart addr.toNat nopScale)).outcome s

/-- NMU_SILU: the next queued descriptor evaluates SiLU (R53, R247, R248). -/
def execNmuSilu (addr : BitVec 48) (s : State) : Host.Outcome State Fault Refusal :=
  (Act.command (.nmuStart addr.toNat nopSilu)).outcome s

/-- NMU_SILU_MUL: the next queued descriptor computes silu(a) × b (R247, R248). -/
def execNmuSiluMul (addr : BitVec 48) (s : State) : Host.Outcome State Fault Refusal :=
  (Act.command (.nmuStart addr.toNat nopSiluMul)).outcome s

/-- DIFF_ADD: the next queued descriptor adds a difference record to a target (R256 to R258). -/
def execDiffAdd (addr : BitVec 48) (s : State) : Host.Outcome State Fault Refusal :=
  (Act.command (.nmuStart addr.toNat nopDiffAdd)).outcome s

/-- DIFF_REPLACE: the next queued descriptor replaces lines of a target (R256 to R258). -/
def execDiffReplace (addr : BitVec 48) (s : State) : Host.Outcome State Fault Refusal :=
  (Act.command (.nmuStart addr.toNat nopDiffReplace)).outcome s

/-- NMU_PIECE_DISPATCH: the dispatcher sends the oldest waiting piece of a stack while NMU_RDY is high; a stack whose
queue is full runs its oldest piece first. A next descriptor that has a reserved OP or cannot be read is rejected (R241,
R242, R251). -/
def execNmuPieceDispatch (stack : Fin 16) (s : State) : Host.Outcome State Fault Refusal :=
  (Act.command (.all [.nmuReserved, .nmuMakeRoom stack, .nmuDispatch stack])).outcome s

/-- NMU_COMMAND_DONE: a command whose pieces have all been sent ends, as far as no write of it is held (R250, R252,
R258). -/
def execNmuCommandDone (addr : BitVec 48) (s : State) : Host.Outcome State Fault Refusal :=
  (Act.command (.nmuDone addr.toNat)).outcome s

/-- COW_WRITE_HOLD: a write of the memory controller to a frame that copy-on-write watches is held while the frame is
copied, or stalls when the pool has no free frame (R253, R255). A write to any other frame is no matter of this. -/
def execCowWriteHold (addr : BitVec 48) (bytes : List (BitVec 8)) (s : State) : Host.Outcome State Fault Refusal :=
  (Act.command <| .look fun s =>
    match s.hbmKey addr.toNat with
    | none => .done
    | some k =>
      let (stack, f) := frameOf k
      let bs := bytes.take (4096 - k % 4096)
      .when (s.mustPreserve stack f)
        (match s.lostPart addr.toNat bs.length with
        | some l => .lineLost l
        | none =>
          if s.fwHit k bs.length then .raise .IRQ_FW_WRITE { address := k }
          else if s.steerFixed k bs.length then .done
          else if s.blocked k then .holdWrite k bs .behind
          else if (s.freePool stack).isNone then .stallWrite k bs
          else .holdWrite k bs .copying)).outcome s

/-- COW_COPY_DONE: the copy of a frame for its held writes completes; the frame is preserved and the writes proceed
in arrival order (R253, R254). Without a free pool frame the write stalls (R255). -/
def execCowCopyDone (stack : Fin 16) (frame : Fin 8912896) (s : State) : Host.Outcome State Fault Refusal :=
  (Act.command <| .look fun s =>
    match s.nmu.held.find? fun h => frameOf h.addr == (stack.val, frame.val) && h.why == .copying with
    | none => .done
    | some h =>
      match s.freePool stack with
      | some pool => (Act.preserve stack frame pool).andThen (.releaseFrame stack frame)
      | none =>
        (Act.modNmu fun n => { n with held := n.held.map fun x =>
            if x = h then { x with why := .stalled, since := s.now } else x }).andThen
          (.count .NMU_COW_STALL_COUNT)).outcome s

/-- COW_STALL_RELEASE: the oldest stalled write of a stack proceeds: with a copy when a pool frame is free, without
one once ARMED is clear (R254, R255). -/
def execCowStallRelease (stack : Fin 16) (s : State) : Host.Outcome State Fault Refusal :=
  (Act.command <| .look fun s =>
    match s.nmu.held.find? fun h => h.why == .stalled && (frameOf h.addr).1 == stack.val with
    | none => .done
    | some h =>
      let f := (frameOf h.addr).2
      if s.mustPreserve stack f then
        match s.freePool stack with
        | some pool => (Act.preserve stack f pool).andThen (.releaseFrame stack f)
        | none => .done
      else .releaseFrame stack f).outcome s

end Sys2Proof.Machine
end

