-- ==== Sys2Proof/Machine/Pwr.lean ====
section
/-! DEFINITION. Power states, the safety limits and the voltage loop (R579 to R587). -/

namespace Sys2Proof.Machine

/-! ### Islands (R579 to R582) -/

/-- A near-memory command that is queued or started touches the stacks of granules. -/
def State.nmuTouches (s : State) (granules : Nat) : Bool :=
  let touches (d : BitVec 512) : Bool := s.inGranules granules (nDst d) || s.inGranules granules (nSrc d)
  (s.nmu.active.any fun c => touches c.desc)
    || s.nmu.queue.any fun a => match s.entryAt true a 64 with
        | .ok b => touches (BitVec.ofNat 512 (leAt b 0 64))
        | _ => false

/-- No tile, ferry transfer or near-memory command of an island is in flight or queued (R581). -/
def State.islandIdle (s : State) (x : Island) : Bool :=
  (coresOf x.granules).all (fun c => (s.flightsOf c).isEmpty && (s.itemsOf c).isEmpty)
    && (ferriesOf x.granules).all (fun f => !(s.tier.xfers.any fun t => t.ferry == f))
    && !s.nmuTouches x.granules

/-- Sailings from the current one in which an island has a known event (R581): WAKE, a capture sailing, and slots of a
committed timetable or the carry queues. -/
def State.knownEvent (s : State) (i : Nat) (x : Island) (n : Nat) : Bool :=
  n == s.get F.PWR_ISLAND_WAKE i
    || (s.inCapture n && !s.inCapture (n - 1))
    || (n == s.now + 1 && (coresOf x.granules).any fun c => !(s.sail.carry.get (fun _ => []) c).isEmpty)
    || (s.sail.commit == some n && (coresOf x.granules).any fun c =>
          bit (ttMask (s.ttHeader 0 n)) c && decide (0 < ttCount (s.ttHeader 0 n) c))

/-- The least gap of POWER_OFF, 520 µs, in ps (R579). -/
def offGap : Nat := 520000000

/-- An island's next known event is at least the least gap of POWER_OFF away, `at_` ps into the current sailing (R581). -/
def State.gapAllows (s : State) (i : Nat) (x : Island) (at_ : Nat) : Bool :=
  (List.range (offGap / (s.periodUs * 1000000) + 2)).all fun k =>
    !s.knownEvent i x (s.now + 1 + k) || decide (at_ + offGap ≤ (k + 1) * s.periodUs * 1000000 + 2000000)

/-- An island may enter POWER_OFF (R581). -/
def State.mayPowerOff (s : State) (i at_ : Nat) : Bool :=
  match s.islands.find? fun e => e.1 == i with
  | none => false
  | some (_, x) =>
    s.flag F.PWR_ISLAND_ALLOW_OFF i && s.islandState i == isActive && (s.leaving i).isNone && s.ckState == ckIdle
      && s.islandIdle x && s.pwr.off.get (fun _ => 0) i == 0 && s.gapAllows i x at_

/-- ISLAND_POWER_OFF: an idle island with a long enough gap enters POWER_OFF (R580, R581); its banks, modes, windows
and carry queues are saved, and stand in the state as they are until they are restored. The bytes of the on-chip image area
of its stacks are open (R277). -/
def execIslandPowerOff (island : Fin 8) (at_ : BitVec 40) (s : State) : Host.Outcome State Fault Refusal :=
  (Act.command <| .look fun s =>
    let i := island.val
    .when (s.mayPowerOff i at_.toNat)
      (.all
        [ .modPwr fun p => { p with off := p.off.put (fun _ => 0) i 1 },
          .set F.PWR_STATUS_ISLAND_OFF (s.get F.PWR_STATUS_ISLAND_OFF ||| 2 ^ i),
          .each (bitList 8 (s.get F.CHART_ISLAND_GRANULES i)) fun g =>
            (Act.one (.mem (spareAddr (2 * g) 0) (s.imageShare (2 * g)))).andThen
              (.one (.mem (spareAddr (2 * g + 1) 0) (s.imageShare (2 * g + 1)))),
          .one (.takeFree 1), .count .PWR_ISLAND_OFF_COUNT ])).outcome s

/-- ISLAND_WAKE: an event starts an island's exit from POWER_OFF (R582); a known one so that the exit ends in time. -/
def execIslandWake (island : Fin 8) (known : Bool) (s : State) : Host.Outcome State Fault Refusal :=
  (Act.command <| .look fun s =>
    .when (s.pwr.off.get (fun _ => 0) island.val == 1)
      (.modPwr fun p => { p with off := p.off.put (fun _ => 0) island.val (if known then 2 else 3) })).outcome s

/-- ISLAND_WAKE_DONE: the island is back in RUN with its state restored; an exit that ends later than the event that
woke it is counted (R580, R582). -/
def execIslandWakeDone (island : Fin 8) (s : State) : Host.Outcome State Fault Refusal :=
  (Act.command <| .look fun s =>
    let i := island.val
    let st := s.pwr.off.get (fun _ => 0) i
    .when (decide (2 ≤ st))
      (.all
        [ .modPwr fun p => { p with off := p.off.put (fun _ => 0) i 0 },
          .set F.PWR_STATUS_ISLAND_OFF (s.get F.PWR_STATUS_ISLAND_OFF &&& (255 - 2 ^ i)),
          .when (st == 3) (.count .PWR_WAKE_LATE_COUNT) ])).outcome s

/-! ### Clock gating (R579, R581) -/

/-- The number of a unit among the gated ones. -/
def gatedKey : Sys2Proof.GatedUnit → Nat
  | .path c p => 3 * c.val + pathIndex p
  | .ferry f => 2 ^ 16 + f.val
  | .lane l => 2 * 2 ^ 16 + l.val

/-- The unit has work in progress: it stays in RUN. -/
def State.unitBusy (s : State) : Sys2Proof.GatedUnit → Bool
  | .path c p => (s.flight c.val p).isSome
  | .ferry f => s.tier.xfers.any fun t => t.ferry == f.val
  | .lane l => (s.egr.sending.get (fun _ => none) (s.portOf l.val)).isSome

/-- CLOCK_GATE: a unit is clock-gated when its next known event is at least 100 ns away, and in RUN otherwise
(R579, R581). -/
def execClockGate (unit : GatedUnit) (gap : BitVec 32) (s : State) : Host.Outcome State Fault Refusal :=
  (Act.command <| .look fun s =>
    .modPwr fun p =>
      { p with gated := p.gated.put (fun _ => false) (gatedKey unit) (decide (100 ≤ gap.toNat) && !s.unitBusy unit) }).outcome s

/-! ### Safety limits (R585 to R587) -/

/-- The conditions of R585 that hold, as LIMIT bits: junction, stack, power, current. -/
def State.limits (s : State) (x : Sensors) : List (Field × Bool) :=
  [ (F.PWR_STATUS_LIMIT_TJ, decide (s.get F.PWR_LIMIT_TJ_C < x.junction.toNat)),
    (F.PWR_STATUS_LIMIT_HBM, decide (95 < x.stack.toNat)),
    (F.PWR_STATUS_LIMIT_POWER, decide (s.get F.PWR_LIMIT_CAP_W < x.power.toNat)),
    (F.PWR_STATUS_LIMIT_CURRENT, decide (s.get F.PWR_LIMIT_ICC_10A * 10 < x.current.toNat)) ]

/-- THROTTLE_STEP: while a throttle condition holds the clock is lowered by one step, down to 0.6 GHz, and the tenant
reports of the period say so (R521, R585). -/
def execThrottleStep (sensors : Sensors) (s : State) : Host.Outcome State Fault Refusal :=
  (Act.command <| .look fun s =>
    let on := (s.limits sensors).filter fun e => e.2
    .when (!on.isEmpty)
      (.all
        [ .each on fun e => .set e.1 1,
          .when (decide (s.get F.PWR_STATUS_STEP < 4))
            (.all
              [ .count .PWR_LIMIT_STEP_COUNT, .clockStep (s.get F.PWR_STATUS_STEP + 1),
                .modPwr fun p => { p with lowered := (p.lowered.filter fun q => q + 1 == s.period) ++ [s.period] } ]) ])).outcome s

/-- Every sensor lies below its release level (R586). -/
def State.released (s : State) (x : Sensors) : Bool :=
  decide (x.junction.toNat + 5 < s.get F.PWR_LIMIT_TJ_C) && decide (x.stack.toNat < 90)
    && decide (x.power.toNat * 100 < 95 * s.get F.PWR_LIMIT_CAP_W)
    && decide (x.current.toNat * 10 < 95 * s.get F.PWR_LIMIT_ICC_10A)

/-- LIMIT_RELEASE: the sensors have stayed a full sailing below their release levels, `sensors` at most: the limit
clears, and the governor climbs back (R586). -/
def execLimitRelease (sensors : Sensors) (s : State) : Host.Outcome State Fault Refusal :=
  (Act.command <| .look fun s =>
    .when (s.limited && s.released sensors)
      (.all
        [ .each (s.limits sensors) fun e => .set e.1 0, .modPwr fun p => { p with climbing := true } ])).outcome s

/-- A trip level is reached (R587). -/
def State.trips (s : State) (x : Sensors) : Bool :=
  decide (115 ≤ x.junction.toNat) || decide (105 ≤ x.stack.toNat) || decide (2600 < x.power.toNat)
    || decide (11 * s.get F.PWR_LIMIT_ICC_10A < x.current.toNat)

/-- POWER_TRIP: TRIP_N and FATAL_N are driven low, and the device is FATAL (R587, R612). -/
def execPowerTrip (sensors : Sensors) (s : State) : Host.Outcome State Fault Refusal :=
  (Act.command <| .look fun s =>
    .when (s.trips sensors)
      (.all [.modPwr fun p => { p with trip := true }, .one (.emit .trip), .raise .PWR_TRIP])).outcome s

/-- VOLTAGE_LOOP_ADJUST: the loop moves the set point within the step's band (R584). -/
def execVoltageLoopAdjust (mv : BitVec 10) (s : State) : Host.Outcome State Fault Refusal :=
  (Act.command <| .look fun s =>
    let band := stepBand (s.get F.PWR_STATUS_STEP)
    .when (decide (band.1 ≤ mv.toNat) && decide (mv.toNat ≤ band.2)) (.set F.PWR_STATUS_VCORE_MV mv.toNat)).outcome s

end Sys2Proof.Machine
end

