-- ==== Sys2Proof/Machine/Rcl.lean ====
section
/-! DEFINITION. The recall commands (R351 to R368). -/

namespace Sys2Proof.Machine

/-- RCL_CREATE, the recall operation CREATE (R351, R352, R368). -/
def execRclCreate (addr : BitVec 48) (s : State) : Host.Outcome State Fault Refusal :=
  (Act.command <| .rclTake addr.toNat (· == 1) fun e => (Act.rclPop addr.toNat).andThen <|
    .look fun s =>
      let n := qNumber e
      let old := s.idx n
      if qReserved e || bits (qHandle e) 63 48 ≠ 0 then .rclReject e 1
      else if n ≥ s.get F.RCL_CFG_INDEXES then .rclDone e qsBadHandle
      else match s.clientRange (qVec e) 256 with
        | none => .rclReject e 4
        | some a =>
          match s.lostLine a 256 with
          | some k => (Act.entryLost k { tag := qTag e }).andThen (.rclReject e 4)
          | none =>
            let t := s.readMem a 256
            match s.lostLine (s.idxAddr n) 256 with
            | some k => (Act.lineLost k { tag := qTag e }).andThen (.rclReject e 2)
            | none =>
            if iState old ≠ 0 || (s.idxIsland n).isNone || !templateOk t then .rclReject e 2
            else
              let h := setAll t
                [(8, 2, tenantOf (qSession e)), (0xF, 1, 1), (0x10, 2, iGen old + 1), (0x34, 4, 0), (0x40, 8, 0),
                  (0x54, 4, 0), (0x58, 8, 0), (0x60, 4, 0)]
              .all [.writeIdx n h, .rclDone e qsOk]).outcome s

/-- Checks that INSERT, DELETE, MERGE, DROP share: reserved bits, the handle, the tenant (R352, R360). -/
def Act.rclOwned (e : List Byte) (body : List Byte → Act) : Act :=
  .look fun s =>
    let h := s.idx (qNumber e)
    if qReserved e then .rclReject e 1
    else if !s.handleOk e then .rclDone e qsBadHandle
    else if tenantOf (qSession e) ≠ iTenant h then .rclDone e qsDenied
    else body h

/-- A vector of FP32 values in tile form: its address when it is in range, and whether its manifest verifies (R303,
R367). -/
def State.rclVec (s : State) (e h : List Byte) : Option (Nat × Bool) :=
  let tiles := ceilDiv (4 * iD h) 16384
  match s.clientRange (qVec e) (tiles * 16416) with
  | some a =>
    if a % 16384 ≠ 0 then none
    else some (a, (List.range tiles).all (s.tileVerifies a (a + tiles * 16384)))
  | none => none

/-- A vector failed its manifest: the command ends MANIFEST. -/
def Act.rclManifest (e : List Byte) (a : Nat) : Act :=
  .look fun s =>
    .all
      [ match s.lostLine a 16416 with
          | some k => .entryLost k { tag := qTag e }
          | none => .done,
        .manifestFail, .raise .ERR_MANIFEST { tag := qTag e }, .rclDone e qsManifest ]

/-- RCL_INSERT, the recall operation INSERT (R353, R361). -/
def execRclInsert (addr : BitVec 48) (s : State) : Host.Outcome State Fault Refusal :=
  (Act.command <| .rclTake addr.toNat (· == 2) fun e => (Act.rclPop addr.toNat).andThen <|
    .rclOwned e fun h =>
      .look fun s =>
        if iState h = 3 then .rclDone e qsNodeCrc
        else if iSideCount h = iSideCap h then .rclDone e qsSideFull
        else if iNextId h = iIdCap h then .rclDone e qsIdFull
        else match s.rclVec e h, (s.idxLost h).or (s.lostPart (iSide h + iSideCount h * sideSize h) (sideSize h)) with
          | none, _ => .rclReject e 4
          | some (a, false), _ => .rclManifest e a
          | some (_, true), some k => .rclLost (qNumber e) e k
          | some (a, true), none =>
            let q : List F32 := (List.range (iD h)).map fun i => BitVec.ofNat 32 (s.readLE (a + 4 * i) 4)
            let f := s.tableF h q
            if f.any fun r => r.any fun x => F32.isNan x || F32.isInf x then .rclDone e qsNonfinite
            else
              .all
                [ .store (iSide h + iSideCount h * sideSize h) (sideBytes h (iNextId h) (qAttr e) (encodeVec f)),
                  .writeIdx (qNumber e) (setAll h [(0x34, 4, iSideCount h + 1), (0x40, 8, iNextId h + 1)]),
                  .rclDone e qsOk ]).outcome s

/-- RCL_DELETE, the recall operation DELETE (R363). -/
def execRclDelete (addr : BitVec 48) (s : State) : Host.Outcome State Fault Refusal :=
  (Act.command <| .rclTake addr.toNat (· == 3) fun e => (Act.rclPop addr.toNat).andThen <|
    .rclOwned e fun h =>
      .look fun s =>
        let id := bits (qAttr e) 31 0
        if id ≥ iNextId h then .rclDone e qsNotFound
        else
          let a := iTomb h + id / 8
          match s.lostLine a 1 with
          | some k => .rclLost (qNumber e) e k
          | none =>
          .all [.store a (leBytes 1 (s.readLE a 1 ||| 2 ^ (id % 8))), .rclDone e qsOk]).outcome s

/-- RCL_QUERY, the recall operation QUERY (R357 to R360, R366): checks, then the query takes a context and a table
slot, or waits for them. -/
def execRclQuery (addr : BitVec 48) (s : State) : Host.Outcome State Fault Refusal :=
  (Act.command <| .rclTake addr.toNat (· == 4) fun e =>
    .look fun s =>
      let h := s.idx (qNumber e)
      let pop (x : Act) : Act := (Act.rclPop addr.toNat).andThen x
      if s.rcl.waiting.contains addr.toNat then .done
      else if qReserved e then pop (.rclReject e 1)
      else if !s.handleOk e then pop (.rclDone e qsBadHandle)
      else if iState h = 3 then pop (.rclDone e qsNodeCrc)
      else if !iShared h && ((iOwner h ≠ 0 && iOwner h ≠ qSession e) || tenantOf (qSession e) ≠ iTenant h) then
        pop (.rclDone e qsDenied)
      else if !iShared h && qBitmap e ≠ 0 then pop (.rclReject e 6)
      else if iShared h && iRestricted h && qBitmap e == 0 then pop (.rclDone e qsDenied)
      else if decide (qBeamMax e < qBeam e) || decide (qVisitMax e = 0) then pop (.rclReject e 3)
      else if qBitmap e ≠ 0 && !s.hbmRange (qBitmap e) (ceilDiv (iNextId h) 8) then pop (.rclReject e 4)
      else if qResult e % 16384 ≠ 0 || (s.clientRange (qResult e) 16416).isNone then pop (.rclReject e 4)
      else if scratchNeed h e > s.get F.RCL_CFG_SCRATCH_KIB * 1024 then
        pop (.rclReject e 5)
      else match s.rclVec e h with
        | none => pop (.rclReject e 4)
        | some (a, false) => pop (.rclManifest e a)
        | some (_, true) =>
          match if qBitmap e = 0 then none else s.lostLine (qBitmap e) (ceilDiv (iNextId h) 8), s.idxLost h with
          | some k, _ => pop (.rclInputLost e k)
          | none, some k => pop (.rclLost (qNumber e) e k)
          | none, none => .rclStart addr.toNat e).outcome s

/-- RCL_QUERY_START (R365, R366): a waiting query takes a context and a table slot once one is free. -/
def execRclQueryStart (addr : BitVec 48) (s : State) : Host.Outcome State Fault Refusal :=
  (Act.command <| .rclTake addr.toNat (· == 4) fun e =>
    .look fun s =>
      if !s.rcl.waiting.contains addr.toNat then .done
      else if !s.handleOk e then (Act.rclPop addr.toNat).andThen (.rclDone e qsBadHandle)
      else .rclStart addr.toNat e).outcome s

/-- RCL_QUERY_DONE (R357, R368): the results are written with their manifest, the context and slot are free. -/
def execRclQueryDone (addr : BitVec 48) (s : State) : Host.Outcome State Fault Refusal :=
  (Act.command <| .look fun s => .when (s.ckState != ckCapture) <|
    match s.rcl.active.find? fun q => q.addr == addr.toNat with
    | none => .done
    | some q =>
      let bytes := leBytes 4 q.found.length ++ List.replicate 12 0
        ++ q.found.flatMap fun r => leBytes 8 r.2.2 ++ leBytes 4 r.2.1 ++ leBytes 4 r.1
      let dst := (clientAddr (qResult q.entry)).getD 0
      .all
        [ .modRcl fun x =>
            { x with
              active := x.active.erase q
              merges := x.merges.map fun m => { m with before := m.before.erase (q.pipe, q.ctx) } },
          .showRcl, .opOver, .countN .RCL_WIDEN_COUNT q.widened,
          if q.status ≤ qsShort then
            match s.tilesLost dst (dst + 16384) bytes.length with
            | some k => .rclInputLost q.entry k
            | none => (Act.writeTiles dst (dst + 16384) bytes).andThen (.rclDone q.entry q.status)
          else .rclDone q.entry q.status ]).outcome s

/-- RCL_MERGE, the recall operation MERGE (R364, step 1). -/
def execRclMerge (addr : BitVec 48) (s : State) : Host.Outcome State Fault Refusal :=
  (Act.command <| .rclTake addr.toNat (· == 5) fun e => (Act.rclPop addr.toNat).andThen <|
    .rclOwned e fun h =>
      .look fun s =>
        if iState h = 3 then .rclDone e qsNodeCrc
        else if iState h = 2 then .rclDone e qsBusy
        else match s.clientRange (qVec e) 64 with
          | none => .rclReject e 4
          | some a =>
            match s.lostLine a 64 with
            | some k => (Act.entryLost k { tag := qTag e }).andThen (.rclReject e 4)
            | none =>
              let m := s.readMem a 64
              let cap := leAt m 24 8
              let ids := bits cap 32 0
              if leAt m 36 28 ≠ 0 || ids < iNextId h || cap > 2 ^ 32 then .rclReject e 2
              else if !s.hbmRange (leAt m 0 8) (ids * nodeSize h) || !s.hbmRange (leAt m 8 8) (leAt m 32 4 * sideSize h)
                  || !s.hbmRange (leAt m 16 8) (ceilDiv ids 8) then .rclReject e 4
              else
                .all
                  [ .writeIdx (qNumber e) (setAll h
                      [(0xF, 1, 2), (0x58, 8, iSide h), (0x60, 4, iSideCount h), (0x28, 8, leAt m 8 8), (0x34, 4, 0),
                        (0x30, 4, leAt m 32 4)]),
                    .modRcl fun x => { x with merges := x.merges ++ [⟨m ++ e, qNumber e, false, []⟩] } ]).outcome s

/-- The first lost line that a merge reads of its index or would write in part (R532). -/
def State.mergeLost (s : State) (h area : List Byte) : Option Nat :=
  ((s.idxLost h).or (s.lostPart (leAt area 0 8) ((iNextId h - iSideCount h) * nodeSize h))).or
    (s.lostPart (leAt area 16 8) (ceilDiv (iNextId h) 8))

/-- Steps 2 to 6 of a merge (R364): the new graph is written and the index switches to it. On an index that a query has
found DAMAGED since, the merge ends NODE_CRC (R356). -/
def Act.mergeSwitch (m : RclMerge) (e : List Byte) : Act :=
  .look fun s =>
    let n := m.index
    let h := s.idx n
    let area := m.entry.take 64
    let fin (x : Act) : Act := (Act.modRcl fun y => { y with merges := y.merges.erase m }).andThen x
    if iState h = 3 then fin (.rclDone e qsNodeCrc)
    else match s.mergeLost h area, s.merge h with
    | some k, _ => fin (.rclLost n e k)
    | none, none => fin ((Act.nodeCrc n (qTag e)).andThen (.rclDone e qsNodeCrc))
    | none, some b =>
      let nodes := leAt area 0 8
      let tomb := leAt area 16 8
      let running := (s.rcl.active.filter fun q => q.index == n).map fun q => (q.pipe, q.ctx)
      .all
        [ .each b.graph fun p => match p.2 with
            | some nd => .store (nodes + p.1 * nodeSize h) (nodeBytes h nd)
            | none => .done,
          .store tomb (s.readMem (iTomb h) (ceilDiv (iNextId h) 8)),
          .writeIdx n (setAll h
            [(0x20, 8, nodes), (0x38, 8, tomb), (0x48, 8, leAt area 24 8), (0x54, 4, b.count), (0x50, 4, b.entry),
              (0x60, 4, 0), (0xF, 1, 1)]),
          .modRcl fun x =>
            { x with merges := x.merges.map fun y => if y = m then { y with switched := true, before := running } else y } ]

/-- RCL_MERGE_DONE (R364): the graphs switch, and the merge completes once the last query that began before the
switch has ended. -/
def execRclMergeDone (index : BitVec 32) (s : State) : Host.Outcome State Fault Refusal :=
  (Act.command <| .look fun s => .when (s.ckState != ckCapture) <|
    match s.rcl.merges.find? fun m => m.index == index.toNat with
    | none => .done
    | some m =>
      let e := m.entry.drop 64
      .all
        [ .when (!m.switched) (.mergeSwitch m e),
          .look fun s =>
            match s.rcl.merges.find? fun m => m.index == index.toNat with
            | none => .done
            | some m =>
              if m.switched && m.before.isEmpty then
                .all
                  [ .modRcl fun x => { x with merges := x.merges.erase m }, .count .RCL_MERGE_COUNT, .rclDone e qsOk ]
              else .done ]).outcome s

/-- An index becomes FREE (R368). -/
def Act.rclFree (n : Nat) (e : List Byte) : Act :=
  .look fun s => .all [.writeIdx n (setLE (s.idx n) 0xF 1 0), .rclDone e qsOk]

/-- Queries run on an index, or a merge of it that was posted earlier (R362). -/
def State.idxBusy (s : State) (n : Nat) : Bool := (s.rcl.active.any (·.index == n)) || s.rcl.merges.any (·.index == n)

/-- RCL_DROP, the recall operation DROP (R362, R368): it waits while queries or a merge run on the index. -/
def execRclDrop (addr : BitVec 48) (s : State) : Host.Outcome State Fault Refusal :=
  (Act.command <| .rclTake addr.toNat (· == 6) fun e => (Act.rclPop addr.toNat).andThen <|
    .rclOwned e fun _ =>
      .look fun s =>
        if s.idxBusy (qNumber e) then
          .modRcl fun x => { x with drops := x.drops ++ [(e, qNumber e)] }
        else .rclFree (qNumber e) e).outcome s

/-- RCL_DROP_RESUME (R362): a waiting DROP proceeds when the last running query and merge on the index have ended. -/
def execRclDropResume (index : BitVec 32) (s : State) : Host.Outcome State Fault Refusal :=
  (Act.command <| .look fun s => .when (s.ckState != ckCapture) <|
    match s.rcl.drops.find? fun d => d.2 == index.toNat with
    | none => .done
    | some d =>
      if s.idxBusy index.toNat then .done
      else .all [.modRcl fun x => { x with drops := x.drops.erase d }, .rclFree index.toNat d.1]).outcome s

/-- RCL_BAD_OP (R368): a reserved operation. -/
def execRclBadOp (addr : BitVec 48) (s : State) : Host.Outcome State Fault Refusal :=
  (Act.command <| .rclTake addr.toNat (fun o => o == 0 || decide (o ≥ 7)) fun e =>
    (Act.rclPop addr.toNat).andThen (.rclDone e qsBadOp)).outcome s

end Sys2Proof.Machine
end

