-- ==== Sys2Proof/Machine/RegCheck.lean ====
section
/-! DEFINITION. Where a register word lies in BAR0 (R599, R600), and which values of a register are reserved encodings
(R6), as each field map says. -/

namespace Sys2Proof.Machine

/-! ### Register words (R599 to R602) -/

/-- A 64-bit word of BAR0: register, element, and word of the register (0 low, 1 high). -/
structure RegWord where
  reg : Reg
  index : Nat
  word : Nat
  deriving DecidableEq, Repr

/-- The register word at a BAR0 offset, 8-byte aligned; none where no register lies (R599, R600). -/
def regWordAt (off : Nat) : Option RegWord :=
  Reg.all.findSome? fun r =>
    let d := off - r.info.off
    let i := d / r.info.stride
    if off < r.info.off ∨ r.info.count ≤ i ∨ off % 8 ≠ 0 then none
    else if d % r.info.stride = 0 then some ⟨r, i, 0⟩
    else if r.info.bits = 128 ∧ d % r.info.stride = 8 then some ⟨r, i, 1⟩
    else none

/-- The counter at a BAR0 offset (R604). -/
def counterAt (off : Nat) : Option Ctr := Ctr.all.find? fun c => c.off == off

/-- The access of a field in an element: TARGET of the first 64 interrupt sources and MASK of the WATCH sources are read
only (R572). -/
def accessOf (f : Field) (i : Nat) : Access :=
  if f = F.IRQ_SRC_TARGET ∧ i < 0x40 then .RO
  else if f = F.IRQ_SRC_MASK ∧ i < 0x10 then .RO
  else f.acc

/-! ### Reserved encodings (R6) -/

/-- A condition that a register's value must meet, with the fields it names. -/
structure EncRule where
  fields : List Field
  ok : State → Nat → BitVec 128 → Bool

/-- The number in a field of a register value. -/
def inField (f : Field) (v : BitVec 128) : Nat := bits v.toNat f.hi f.lo

/-- A field lies in a range. -/
def within (f : Field) (lo hi : Nat) : EncRule := ⟨[f], fun _ _ v => decide (lo ≤ inField f v) && decide (inField f v ≤ hi)⟩

/-- A field is not 0. -/
def nonzero (f : Field) : EncRule := ⟨[f], fun _ _ v => inField f v != 0⟩

/-- A field is at most another. -/
def atMost (f g : Field) : EncRule := ⟨[f, g], fun _ _ v => decide (inField f v ≤ inField g v)⟩

/-- The conditions on a register's value. -/
def encRules : Reg → List EncRule
  | .SAIL_PERIOD => [within F.SAIL_PERIOD_PERIOD_US 50 1000]
  | .SAIL_TT_BASE => [⟨[F.SAIL_TT_BASE_OFFSET], fun _ _ v =>
      v.toNat % 65536 == 0 && decide (inField F.SAIL_TT_BASE_OFFSET v + 0x300000 + 0x280100 ≤ 0x10000000)⟩]
  | .SAIL_WATCH_CFG => [nonzero F.SAIL_WATCH_CFG_MIN_LIVE, nonzero F.SAIL_WATCH_CFG_ACK_US]
  | .CORE_WIN => [within F.CORE_WIN_SIZE 0 49152]
  | .SDIR_CFG => [within F.SDIR_CFG_RECORDS 0 4194304, within F.SDIR_CFG_LOCK_MAX 1 131072]
  | .SDIR_LOOP_ENV => [nonzero F.SDIR_LOOP_ENV_IDLE_MIN, atMost F.SDIR_LOOP_ENV_IDLE_MIN F.SDIR_LOOP_ENV_IDLE_MAX]
  | .SDIR_WATER => [atMost F.SDIR_WATER_LOW F.SDIR_WATER_HIGH]
  | .BERTH_CLASS =>
    [ ⟨[F.BERTH_CLASS_W_TILES, F.BERTH_CLASS_COUNT], fun _ _ v => inField F.BERTH_CLASS_COUNT v == 0 ||
        (decide (1 ≤ inField F.BERTH_CLASS_W_TILES v) && decide (inField F.BERTH_CLASS_W_TILES v ≤ 512))⟩,
      within F.BERTH_CLASS_G_TILES 0 128,
      ⟨[F.BERTH_CLASS_S_POS], fun _ _ v =>
        decide (inField F.BERTH_CLASS_S_POS v ≤ 128) && inField F.BERTH_CLASS_S_POS v % 32 == 0⟩ ]
  | .BERTH_SHAPE =>
    [ ⟨[F.BERTH_SHAPE_H_Q, F.BERTH_SHAPE_LAYERS], fun _ _ v =>
        inField F.BERTH_SHAPE_LAYERS v == 0 || inField F.BERTH_SHAPE_H_Q v != 0⟩,
      within F.BERTH_SHAPE_LOG2_HKV 0 4, within F.BERTH_SHAPE_LAYERS 0 32 ]
  | .BERTH_BUCKET => [⟨[F.BERTH_BUCKET_BOUND], fun _ _ v =>
      (List.range 6).all fun b => decide (bits v.toNat (16 * b + 15) (16 * b) < bits v.toNat (16 * b + 31) (16 * b + 16))⟩]
  | .ATTN_STEER_CFG => [⟨[F.ATTN_STEER_CFG_RECORD_KIB, F.ATTN_STEER_CFG_SETS], fun _ _ v =>
      let k := inField F.ATTN_STEER_CFG_RECORD_KIB v
      if inField F.ATTN_STEER_CFG_SETS v = 0 then k == 0 else decide (4 ≤ k) && decide (k ≤ 16)⟩]
  | .FERRY_CLASS =>
    [ within F.FERRY_CLASS_CODEC 0 2,
      ⟨[F.FERRY_CLASS_CODEC, F.FERRY_CLASS_TIER], fun _ _ v =>
        inField F.FERRY_CLASS_TIER v != 0 || inField F.FERRY_CLASS_CODEC v == 0⟩,
      ⟨[F.FERRY_CLASS_CRYPT, F.FERRY_CLASS_TIER], fun _ _ v =>
        (inField F.FERRY_CLASS_CRYPT v == 1) == (inField F.FERRY_CLASS_TIER v != 0)⟩,
      within F.FERRY_CLASS_TIER 0 2, within F.FERRY_CLASS_VC 0 4, within F.FERRY_CLASS_MODE 0 2 ]
  | .TIER_MOOR_MARK => [within F.TIER_MOOR_MARK_HIGH 0 100, atMost F.TIER_MOOR_MARK_LOW F.TIER_MOOR_MARK_HIGH]
  | .FLASH_CFG => [within F.FLASH_CFG_OP_PCT 3 50, within F.FLASH_CFG_IFACE 0 2, within F.FLASH_CFG_MAX_RATE 0 0x90]
  | .FLASH_PATROL => [within F.FLASH_PATROL_PERIOD_DAYS 1 90, nonzero F.FLASH_PATROL_RETRY_REFRESH]
  | .FLASH_REFRESH => [nonzero F.FLASH_REFRESH_AGE_DAYS, nonzero F.FLASH_REFRESH_DISTURB_K]
  | .FLASH_DIE_RULE => [nonzero F.FLASH_DIE_RULE_WINDOW_H, nonzero F.FLASH_DIE_RULE_RETRIES]
  | .FLASH_GC => [atMost F.FLASH_GC_URGENT F.FLASH_GC_START]
  | .NMU_SHARE => [within F.NMU_SHARE_SHARE 1 8]
  | .CKPT_SCHED =>
    [ ⟨[F.CKPT_SCHED_PHASE, F.CKPT_SCHED_INTERVAL], fun _ _ v =>
        inField F.CKPT_SCHED_INTERVAL v == 0 || decide (inField F.CKPT_SCHED_PHASE v < inField F.CKPT_SCHED_INTERVAL v)⟩,
      within F.CKPT_SCHED_CAPTURE_US 10 100 ]
  | .CKPT_LIMIT => [within F.CKPT_LIMIT_DRAIN_S 1 600, nonzero F.CKPT_LIMIT_STALL_SAILINGS]
  | .CKPT_ACC_RANGE => [within F.CKPT_ACC_RANGE_SIZE 0 49152]
  | .TEXT_CFG => [within F.TEXT_CFG_VOCAB 0 393216]
  | .SEAL_CFG => [within F.SEAL_CFG_MAX_TICKETS 1 16384]
  | .SEAL_RING_SIZE => [⟨[F.SEAL_RING_SIZE_BYTES], fun s _ v => v != 0 || s.get F.CHART_CFG_HOME_MASK == 0⟩]
  | .RCL_CFG =>
    [within F.RCL_CFG_INDEXES 0 4194304, within F.RCL_CFG_SCRATCH_KIB 16 255, within F.RCL_CFG_TABLE_SLOTS 1 1024]
  | .CHART_CFG => [nonzero F.CHART_CFG_LEAVE_LIMIT, nonzero F.CHART_CFG_GRACE]
  | .FAB_GROUP => [⟨[F.FAB_GROUP_RATE, F.FAB_GROUP_WIDTH], fun _ _ v =>
      inField F.FAB_GROUP_RATE v != 3 || inField F.FAB_GROUP_WIDTH v == 1 || inField F.FAB_GROUP_WIDTH v == 3⟩]
  | .MCT_SEC => [within F.MCT_SEC_MODE 0 2]
  | .MCT_RETX => [nonzero F.MCT_RETX_RETRIES, nonzero F.MCT_RETX_RTO_US]
  | .MCT_CROSS => [nonzero F.MCT_CROSS_KEEP_S, nonzero F.MCT_CROSS_WAIT]
  | .MCT_VC => [within F.MCT_VC_INITIAL 1 256, nonzero F.MCT_VC_BUFFERS]
  | .EGR_QUEUE_CFG =>
    [ ⟨[F.EGR_QUEUE_CFG_WEIGHT, F.EGR_QUEUE_CFG_MODE], fun _ _ v =>
        inField F.EGR_QUEUE_CFG_MODE v == 1 || inField F.EGR_QUEUE_CFG_WEIGHT v != 0⟩,
      within F.EGR_QUEUE_CFG_MAX_FRAMES 1 4096 ]
  | .EGR_GCL_CTRL => [⟨[F.EGR_GCL_CTRL_CYCLES], fun s _ v =>
      inField F.EGR_GCL_CTRL_CYCLES v != 0 && s.periodUs * 1000 % inField F.EGR_GCL_CTRL_CYCLES v == 0⟩]
  | .HOST_RING => [within F.HOST_RING_LOG2_ENTRIES 0 10, nonzero F.HOST_RING_BUDGET]
  | .HOST_WIN => [within F.HOST_WIN_USE 0 2]
  | .HOST_CXL_WIN => [within F.HOST_CXL_WIN_USE 0 2]
  | .HOST_CXL_MEM =>
    [ within F.HOST_CXL_MEM_SIZE_GIB 0 64,
      ⟨[F.HOST_CXL_MEM_SIZE_GIB, F.HOST_CXL_MEM_BASE], fun _ _ v =>
        let n := inField F.HOST_CXL_MEM_SIZE_GIB v
        n == 0 || decide ((inField F.HOST_CXL_MEM_BASE v + n) * 2 ^ 30 ≤ hbmEnd)⟩ ]
  | .HOST_DRAIN => [nonzero F.HOST_DRAIN_FAIL_MS, nonzero F.HOST_DRAIN_LIMIT_US]
  | .SEC_COARSE => [within F.SEC_COARSE_MIN_S 10 65535, within F.SEC_COARSE_POWER_STEP 10 255, nonzero F.SEC_COARSE_COUNT_Q]
  | .ERR_CFG => [nonzero F.ERR_CFG_SETTLE]
  | .ERR_RULE =>
    [ nonzero F.ERR_RULE_WINDOW_H,
      ⟨[F.ERR_RULE_RETRIES], fun _ i v => decide (i < 4) || inField F.ERR_RULE_RETRIES v == 0⟩ ]
  | .ERR_SCRUB => [nonzero F.ERR_SCRUB_HBM_HOURS, nonzero F.ERR_SCRUB_SRAM_S]
  | .IRQ_CQ => [within F.IRQ_CQ_LOG2_ENTRIES 0 8]
  | .IRQ_END => [within F.IRQ_END_STATUS 0 3]
  | .BOLL_POST => [nonzero F.BOLL_POST_N]
  | .PWR_GOV_ENV =>
    [ within F.PWR_GOV_ENV_TARGET_PCT 50 100, within F.PWR_GOV_ENV_MIN_STEP 0 4, within F.PWR_GOV_ENV_MAX_STEP 0 4,
      atMost F.PWR_GOV_ENV_MAX_STEP F.PWR_GOV_ENV_MIN_STEP ]
  | .PWR_LIMIT => [within F.PWR_LIMIT_CAP_W 600 2200, within F.PWR_LIMIT_TJ_C 85 105]
  | _ => []

/-- The fields of a value that hold a reserved encoding. -/
def State.reservedFields (s : State) (r : Reg) (i : Nat) (v : BitVec 128) : List Field :=
  ((encRules r).filter fun c => !c.ok s i v).flatMap (·.fields)

end Sys2Proof.Machine
end

