-- ==== Sys2Proof/Machine/Sec.lean ====
section
/-! DEFINITION. Attestation, key loads, MKA and the DRBG (R506 to R512). -/

namespace Sys2Proof.Machine

/-! ### Measurements (R510, R511) -/

/-- A digest held in six registers. -/
def State.digestReg (s : State) (r : Reg) : List Byte := (List.range 6).flatMap fun i => leBytes 8 (s.reg r i).toNat

/-- A measurement block by index (R510). -/
def State.measurement (s : State) (index : Nat) : Option (List Byte) :=
  match index with
  | 1 => some (leBytes 48 Config.romDigest.toNat)
  | 2 => some s.boot.configDigest
  | 3 => some s.boot.sessionFw
  | 4 => some s.boot.mgmtFw
  | 5 => some (if 7 ≤ s.get F.CFG_STATUS_STAGE ∧ s.get F.CFG_STATUS_STAGE ≤ 9 then s.boot.modelDigest else List.replicate 48 0)
  | 6 => some (leBytes 4 (s.reg .CFG_LC_STATUS).toNat ++ s.fuses.records.flatMap fun r => leBytes 8 r.2.2.1.toNat ++ leBytes 1 (!r.2.2.2).toNat)
  | 7 => some (leBytes 8 (s.reg .SEC_FLEET).toNat ++ s.digestReg .SEC_CAD ++ s.digestReg .SEC_KEYSVC_DIGEST)
  | 8 => some (leBytes 4 (s.reg .CFG_AP_STATUS).toNat ++ leBytes 1 (s.get F.PKG_ID_STEPPING) ++ deviceDigest)
  | 9 => some (leBytes 1 (s.get F.MCT_SEC_MODE) ++ leBytes 4 s.epoch ++ leBytes 1 (s.get F.CFG_STATUS_STAGE))
  | _ => none

/-- The blocks 0x01 to 0x09 as a response to a request for all carries them: index and content. -/
def State.measurements (s : State) : List (List Byte) :=
  ((List.range 10).drop 1).filterMap fun i => (s.measurement i).map fun b => leBytes 1 i ++ b

/-- What the countersignature covers: the SHA-384 of the label, the nonce and the blocks (R511). -/
def attestDigest (nonce : BitVec 256) (blocks : List (List Byte)) : List Byte :=
  sha384 (label "MZ attest" ++ leBytes 32 nonce.toNat ++ blocks.flatten)

/-- SPDM response kinds of the model's outputs. -/
def spdmError : Nat := 0
def spdmMeasurements : Nat := 1
def spdmCertificate : Nat := 2
def spdmChallenge : Nat := 3
def spdmSession : Nat := 4
def spdmKeyLoaded : Nat := 5
def spdmSessionEnd : Nat := 6

/-- The signature of the slot 0 key over an SPDM transcript (R509). -/
def spdmSign (parts : List (List Byte)) : List Byte := leBytes 64 (Config.ed25519Sign idEdSeed parts.flatten).toNat

/-- The response to a request for all measurements: the blocks, the countersignature 0xF0 and the SPDM signature
(R510, R511). -/
def Act.measureAll (nonce : BitVec 256) : Act :=
  .look fun s =>
    let blocks := s.measurements
    let sig := leBytes 3309 (Config.mldsaSign idMlSeed (attestDigest nonce blocks) (Config.drbg s.free)).toNat
    let parts := blocks ++ [leBytes 1 0xF0 ++ sig]
    (Act.drbgDraws 1).andThen (.one (.emit (.spdm spdmMeasurements (parts ++ [spdmSign (leBytes 32 nonce.toNat :: parts)]))))

/-- SPDM_GET_MEASUREMENTS: one block, or all of them (index 0xFF) with the countersignature, which waits while the
entropy source fails (R506, R510, R511). -/
def execSpdmGetMeasurements (index : BitVec 8) (nonce : BitVec 256) (s : State) : Host.Outcome State Fault Refusal :=
  (Act.command <| .look fun s =>
    if index.toNat = 0xFF then
      (if s.sec.entropyDown then .modSec fun x => { x with waiting := x.waiting ++ [nonce] } else .measureAll nonce)
    else match s.measurement index.toNat with
      | none => .one (.emit (.spdm spdmError []))
      | some b =>
        let part := leBytes 1 index.toNat ++ b
        .one (.emit (.spdm spdmMeasurements [part, spdmSign [leBytes 32 nonce.toNat, part]]))).outcome s

/-- SPDM_GET_CERTIFICATE: a portion of the chain of slot 0 or 1 (R508, R509). -/
def execSpdmGetCertificate (slot : BitVec 4) (offset length : BitVec 16) (s : State) : Host.Outcome State Fault Refusal :=
  (Act.command <| .look fun s =>
    let c := s.fuses.chains.get (fun _ => []) slot.toNat
    if slot.toNat > 1 ∨ c.length ≤ offset.toNat then .one (.emit (.spdm spdmError []))
    else .one (.emit (.spdm spdmCertificate [(c.drop offset.toNat).take length.toNat]))).outcome s

/-- SPDM_CHALLENGE: answered with a signature of the slot 0 key (R509). -/
def execSpdmChallenge (nonce : BitVec 256) (s : State) : Host.Outcome State Fault Refusal :=
  (Act.command <| .look fun s =>
    let parts := [sha384 (s.fuses.chains.get (fun _ => []) 0), leBytes 32 nonce.toNat, sha384 s.measurements.flatten]
    .one (.emit (.spdm spdmChallenge (parts ++ [spdmSign parts])))).outcome s

/-! ### Sessions and keys (R509, R512) -/

/-- KEYSVC_SESSION shows whether a session with the key service is open (R526). -/
def Act.showSessions : Act := .look fun s => .setFlag F.SEC_STATUS_KEYSVC_SESSION (s.sec.sessions.any fun e => e.2)

/-- SPDM_KEY_EXCHANGE: a secured session opens. It is one with the key service when the requester has authenticated
itself and the SubjectPublicKeyInfo of its root hashes to SEC_KEYSVC_DIGEST, which is not zero (R509, R512, R523). -/
def execSpdmKeyExchange (session : BitVec 32) (authenticated : Bool) (root : List (BitVec 8)) (s : State) :
    Host.Outcome State Fault Refusal :=
  (Act.command <| .look fun s =>
    let d := s.digestReg .SEC_KEYSVC_DIGEST
    let service := authenticated && sha384 root == d && d.any (· ≠ 0)
    .all
      [ .modSec fun x => { x with sessions := x.sessions.put (fun _ => false) session.toNat service },
        .showSessions,
        .one (.emit (.spdm spdmSession [leBytes 4 session.toNat, spdmSign [leBytes 4 session.toNat]])) ]).outcome s

/-- SPDM_END_SESSION (R509, R526). -/
def execSpdmEndSession (session : BitVec 32) (s : State) : Host.Outcome State Fault Refusal :=
  (Act.command <| .all
    [ .modSec fun x => { x with sessions := x.sessions.put (fun _ => false) session.toNat false },
      .showSessions, .one (.emit (.spdm spdmSessionEnd [leBytes 4 session.toNat])) ]).outcome s

/-- KEY_LOAD: in a session with the key service a CAK or a job key is loaded, or erased by an all-zero key; it takes
effect at the next boundary, while sailings are stopped at once. Any other request ends with an SPDM error and is
counted (R512). -/
def execKeyLoad (session : BitVec 32) (job : Bool) (slot : BitVec 8) (key : BitVec 256) (peer : BitVec 64)
    (name : BitVec 256) (s : State) : Host.Outcome State Fault Refusal :=
  (Act.command <| .look fun s =>
    let k : StoredKey := ⟨if job then 1 else 0, slot.toNat, key, if job then 0 else peer.toNat, if job then 0 else name.toNat⟩
    if !(s.sec.sessions.get (fun _ => false) session.toNat) then
      (Act.count .SEC_SPDM_AUTH_FAIL_COUNT).andThen (.one (.emit (.spdm spdmError [])))
    else if !job && slot.toNat == 255 then .one (.emit (.spdm spdmError []))
    else
      .all
        [ if s.stopped then .keyTakes k else .modSec fun x => { x with loading := x.loading ++ [k] },
          .count .SEC_KEY_LOAD_COUNT, .one (.emit (.spdm spdmKeyLoaded [])) ]).outcome s

/-- KEY_GRACE_EXPIRE: the previous job key of a slot is no longer accepted (R512). -/
def execKeyGraceExpire (slot : BitVec 8) (s : State) : Host.Outcome State Fault Refusal :=
  (Act.command <| .look fun s =>
    .modSec fun x =>
      { x with grace := x.grace.filter fun g => !(g.1.slot == slot.toNat && decide (g.2 < s.now)) }).outcome s

/-- MKPDU_RECEIVE: a valid MKA message under the CAK of a slot installs the key it agrees (R512). -/
def execMkpduReceive (slot : BitVec 8) (pdu : List (BitVec 8)) (s : State) : Host.Outcome State Fault Refusal :=
  (Act.command <| .look fun s =>
    match s.sec.keys.find? fun k => k.kind == 0 && k.slot == slot.toNat with
    | some k =>
      .when (s.get F.MCT_SEC_MODE == 1 && Config.mkaValid k.key k.name pdu)
        (.modSec fun x => { x with saks := x.saks.put (fun _ => none) k.slot (some (Config.mkaSak k.key pdu)) })
    | none => .done).outcome s

/-! ### Entropy (R506) -/

/-- DRBG_RESEED: after 2^20 requests the DRBG is seeded anew. -/
def execDrbgReseed (s : State) : Host.Outcome State Fault Refusal :=
  (Act.command <| .look fun s =>
    .when (decide (2 ^ 20 ≤ s.sec.draws) && !s.sec.entropyDown) (.modSec fun x => { x with draws := 0 })).outcome s

/-- SEC_ENTROPY_FAIL: the health tests fail; admissions, seals and ML-DSA-65 signatures wait. -/
def execSecEntropyFail (s : State) : Host.Outcome State Fault Refusal :=
  (Act.command <| .all
    [ .modSec fun x => { x with entropyDown := true }, .set F.SEC_STATUS_ENTROPY_FAIL 1, .count .SEC_ENTROPY_FAIL_COUNT,
      .raise .SEC_ENTROPY_FAIL ]).outcome s

/-- A bundle whose shares have all reported is signed and complete; a record that has failed its CRC meanwhile ends the
move (R94, R343, R506). -/
def Act.sealWaited (m : Move) : Act :=
  .look fun s => if s.hbmOk m.index then .sealedDone m else .moveBad m

/-- ENTROPY_PASS: the source passes again, and the signatures that waited are made. -/
def execEntropyPass (s : State) : Host.Outcome State Fault Refusal :=
  (Act.command <| .look fun s =>
    .all
      [ .modSec fun x => { x with entropyDown := false, waiting := [] }, .each s.sec.waiting .measureAll,
        .each (s.sdir.moves.filter fun m => m.motion == moSealing && m.waiting.isEmpty) .sealWaited ]).outcome s

end Sys2Proof.Machine
end

