-- ==== Sys2Proof/Machine/Image.lean ====
section
/-! DEFINITION. The configuration image (R476 to R481) and the start-up checks of every chapter (R482), with the checks
of the package sections that the device reads itself (R162, R307, R319). -/

namespace Sys2Proof.Machine

/-! ### The image (R476) -/

/-- A copy of the image in the configuration store: 0 A, 1 B (R475). -/
def State.copyOf (s : State) (c : Nat) : List Byte := if c = 0 then s.fuses.copyA else s.fuses.copyB

/-- All bytes of a range are zero. -/
def zeroAt (b : List Byte) (off n : Nat) : Bool := ((b.drop off).take n).all (· == 0)

def imgSeq (b : List Byte) : Nat := leAt b 0x10 8
def imgTotal (b : List Byte) : Nat := leAt b 0x18 8
def imgFleet (b : List Byte) : Nat := leAt b 0x20 8
def imgSecVersion (b : List Byte) : Nat := leAt b 0x28 1
def imgArchiveGen (b : List Byte) : Nat := leAt b 0x29 1
def imgFloor (b : List Byte) : Nat := leAt b 0x2A 1
def imgFlags (b : List Byte) : Nat := leAt b 0x2B 1
def imgSections (b : List Byte) : Nat := leAt b 0x2C 4

/-- An entry of the section table. -/
structure ImgSection where
  type : Nat
  off : Nat
  len : Nat
  digest : List Byte
  deriving DecidableEq, Repr

def imgEntry (b : List Byte) (i : Nat) : ImgSection :=
  let o := 0x100 + 64 * i
  ⟨leAt b o 4, leAt b (o + 8) 4, leAt b (o + 12) 4, (b.drop (o + 16)).take 48⟩

def imgEntries (b : List Byte) : List ImgSection := (List.range (imgSections b)).map (imgEntry b)

/-- The bytes of a section. -/
def imgBytes (b : List Byte) (e : ImgSection) : List Byte := (b.drop e.off).take e.len

/-- The section of a type. -/
def imgSection (b : List Byte) (type : Nat) : Option (List Byte) :=
  ((imgEntries b).find? fun e => e.type == type).map (imgBytes b)

/-- CONFIG_DIGEST of a copy (R477). -/
def imgDigest (b : List Byte) : List Byte := sha384 (b.take 0x900)

/-- MAGIC and FORMAT are as given, and every reserved byte is zero (R479). -/
def imgFormed (b : List Byte) : Bool :=
  b.take 8 == label "MZ6416CF" && leAt b 8 4 == 1 && leAt b 0xC 4 == 0 && zeroAt b 0x30 208
    && bits (imgFlags b) 7 2 == 0
    && (List.range 32).all fun i =>
      if i < imgSections b then leAt b (0x104 + 64 * i) 4 == 0 else zeroAt b (0x100 + 64 * i) 64

/-- The copy is signed (R478). -/
def State.imgSigned (s : State) (b : List Byte) : Bool :=
  let ed := (b.drop 0x900).take 32
  let ml := (b.drop 0x920).take 1952
  sha384 (ed ++ ml) == s.digestReg .SEC_CAD
    && Config.ed25519Verify ed (imgDigest b) ((b.drop 0x10C0).take 64)
    && Config.mldsaVerify ml (imgDigest b) ((b.drop 0x1100).take 3309)

/-- A copy meets every condition of a candidate (R479). -/
def State.imgCandidate (s : State) (b : List Byte) : Bool :=
  imgFormed b && imgFleet b == s.get F.SEC_FLEET_FLEET_ID
    && decide (s.get F.CFG_LC_STATUS_SEC_VERSION ≤ imgSecVersion b)
    && decide (s.get F.CFG_LC_STATUS_ARCHIVE_GEN ≤ imgArchiveGen b)
    && s.imgSigned b

/-- A copy is a candidate and has not failed since the reset. -/
def State.candidate (s : State) (c : Nat) : Bool := !s.boot.failed.contains c && s.imgCandidate (s.copyOf c)

/-- The candidate with the higher IMAGE_SEQ, copy A when the two are equal (R479). -/
def State.bestCopy (s : State) : Option Nat :=
  match s.candidate 0, s.candidate 1 with
  | true, true => some (if imgSeq (s.copyOf 0) < imgSeq (s.copyOf 1) then 1 else 0)
  | true, false => some 0
  | false, true => some 1
  | false, false => none

/-- The sections of a copy pass: each lies within the copy on a 4 KiB boundary, has a type of R476 and its digest, and
the types appear as often as they must (R476, R479). -/
def imgSectionsOk (b : List Byte) : Bool :=
  let es := imgEntries b
  let times (t : Nat) : Nat := (es.filter fun e => e.type == t).length
  decide (1 ≤ imgSections b) && decide (imgSections b ≤ 32)
    && es.all (fun e =>
      decide (1 ≤ e.type) && decide (e.type ≤ 5) && e.off % 4096 == 0 && decide (0x2000 ≤ e.off)
        && decide (e.off + e.len ≤ imgTotal b) && decide (e.off + e.len ≤ b.length)
        && sha384 (imgBytes b e) == e.digest)
    && times 1 == 1 && times 2 == 1 && times 3 == 1 && times 5 == 1 && decide (times 4 ≤ 1)

/-- Set the six words of a digest register. -/
def Act.setDigest (f : Field) (d : List Byte) : Act := .each (List.range 6) fun i => .set f (leAt d (8 * i) 8) i

/-- No candidate is left: the device enters RECOVERY (R480, R482). -/
def Act.recovery : Act :=
  (Act.set F.CFG_STATUS_ERROR (Err.CFG_IMAGE_INVALID.code % 256)).andThen (.set F.CFG_STATUS_STAGE sgRecovery)

/-- A copy is chosen (R477, R479, R497, R499). -/
def Act.chooseCopy (c : Nat) : Act :=
  .look fun s =>
    let b := s.copyOf c
    .all
      [ .set F.CFG_STATUS_COPY c, .set F.CFG_STATUS_STAGE sgImage,
        .set F.CFG_IMAGE_INFO_IMAGE_SEQ (imgSeq b), .set F.CFG_IMAGE_INFO_FLOOR_TARGET (imgFloor b),
        .set F.CFG_IMAGE_INFO_ARCHIVE_GEN (imgArchiveGen b), .set F.CFG_IMAGE_INFO_SEC_VERSION (imgSecVersion b),
        .setDigest F.CFG_CONFIG_DIGEST_BYTES (imgDigest b),
        .modBoot fun x =>
          { x with configDigest := imgDigest b, closeDebug := bit (imgFlags b) 0, held := bit (imgFlags b) 1 } ]

/-! ### Field records (R481) -/

/-- The FIELDS records: OFFSET and VALUE. -/
def fieldRecords (b : List Byte) : List (Nat × Nat) :=
  (List.range (ceilDiv b.length 16)).map fun i => (leAt b (16 * i + 12) 4, leAt b (16 * i) 8)

/-- The bits of an element's fields whose access passes a test. -/
def accessBits (r : Reg) (i : Nat) (p : Access → Bool) : Nat :=
  r.fields.foldl (fun m f => if p (accessOf f i) then m ||| maskBits f.hi f.lo else m) 0

/-- The start-up load writes fields of this access (R481). -/
def loads : Access → Bool
  | .WL | .SL | .RW => true
  | .RO | .RW1C | .RW1S | .LC => false

/-- Fields that act when written and read 0 take no value from the load (R498, R604). -/
def actionRegs : List Reg := [.CFG_CONTROL]

/-- A field record is wrong: it names no register, or sets a bit of a field with access RO, RW1C or LC (R481). A
counter's bits are RO (R34). -/
def badRecord (off v : Nat) : Bool :=
  match regWordAt off with
  | some w => decide ((accessBits w.reg w.index (fun a => loads a || a == .RW1S) >>> (64 * w.word)) % 2 ^ 64 &&& v ≠ v)
  | none => (counterAt off).isNone || decide (v ≠ 0)

/-- A field record is applied: the fields the load writes take their bits, live and shadow (R27, R481). -/
def Act.applyRecord (off v : Nat) : Act :=
  .look fun s =>
    match regWordAt off with
    | none => .done
    | some w =>
      let m := if actionRegs.contains w.reg then 0 else accessBits w.reg w.index loads &&& ((2 ^ 64 - 1) <<< (64 * w.word))
      let mask := BitVec.ofNat 128 m
      let x := (s.reg w.reg w.index &&& ~~~mask) ||| (BitVec.ofNat 128 (v <<< (64 * w.word)) &&& mask)
      let sl := w.reg.fields.any fun f => f.acc == .SL
      (Act.one (.reg w.reg w.index x)).andThen (.when sl (.one (.shadow w.reg w.index x)))

/-- The records in order; the first wrong one stops start-up (R481, R482). Records come in ascending order of OFFSET. -/
def Act.loadRecords : List (Nat × Nat) → Nat → Act → Act
  | [], _, k => k
  | (off, v) :: rest, low, k =>
    if off < low || badRecord off v then .stopStart .CFG_IMAGE_FIELD off
    else (Act.applyRecord off v).andThen (Act.loadRecords rest (off + 1) k)

/-- The BAR0 offset of the lowest register whose value holds a reserved encoding at the end of the load (R481, R482). -/
def State.reservedReg (s : State) : Option Nat :=
  ((Reg.all.filter fun r => !(encRules r).isEmpty).flatMap fun r =>
    (List.range r.info.count).filterMap fun i =>
      if (s.reservedFields r i (s.reg r i)).isEmpty then none else some (r.info.off + i * r.info.stride)).min?

/-! ### Start-up checks (R482) -/

/-- No number of a list occurs twice. -/
def distinct (xs : List Nat) : Bool := decide xs.Nodup

/-- A range of addresses lies in the stacks of the granules of a mask, in either view (R378, R595, R597). -/
def inMask (mask a n : Nat) : Bool :=
  let low := ((bitList 8 mask).headD 0)
  let base := islandBase + low * 2 ^ 40
  n == 0
    || (decide (a + n ≤ hbmEnd)
        && (List.range 8).all fun g => bit mask g || !(decide (a < (g + 1) * granuleBytes) && decide (g * granuleBytes < a + n)))
    || (decide (mask ≠ 0) && decide (base ≤ a) && decide (a + n ≤ base + popCount 8 mask * granuleBytes))

/-- A range of addresses lies in general-use HBM: in the granule view or in an island window. -/
def inGeneral (a n : Nat) : Bool :=
  decide (a + n ≤ hbmEnd)
    || (List.range 8).any fun g =>
      decide (islandBase + g * 2 ^ 40 ≤ a) && decide (a + n ≤ islandBase + g * 2 ^ 40 + (8 - g) * granuleBytes)

/-- Two ranges, each with its first address and its length, overlap as addresses. -/
def rangesMeet (x y : Nat × Nat) : Bool := decide (0 < x.2) && decide (0 < y.2) && decide (x.1 < y.1 + y.2) && decide (y.1 < x.1 + x.2)

/-- The frames of a pseudo-channel that a range of units takes, in a view that gives the pseudo-channel the units
`first`, `first + step`, and so on (R595, R596): the first frame, and the one after the last. -/
def framesOf (u0 u1 first step : Nat) : Nat × Nat := (ceilDiv (u0 - first) step, ceilDiv (u1 - first) step)

/-- The frames of pseudo-channel `p` of a stack that a range of addresses takes, in the granule view or in the island view
of the granules of `mask` (R595, R596). -/
def frameSpan (mask : Nat) (x : Nat × Nat) (stack p : Nat) : Nat × Nat :=
  let g := stack / 2
  if x.1 < hbmEnd then
    let base := g * granuleBytes / 4096
    let c := framesOf (x.1 / 4096 - base) (ceilDiv (x.1 + x.2) 4096 - base) (2 * p + stack % 2) 64
    (min c.1 278528, min c.2 278528)
  else if !bit mask g then (0, 0)
  else
    let k := popCount 8 mask
    let o := x.1 % 0x10000000000
    framesOf (o / 4096) (ceilDiv (o + x.2) 4096) (2 * k * p + 2 * popCount g mask + stack % 2) (64 * k)

/-- The island whose window holds an address that is not in the granule view: LAYER_MASK's or HOME_MASK's granules, whose
windows never change (R378, R597). -/
def State.maskAt (s : State) (a : Nat) : Nat :=
  let low (m : Nat) : Nat := islandBase + ((bitList 8 m).headD 0) * 2 ^ 40
  let layer := s.get F.CHART_CFG_LAYER_MASK
  if layer ≠ 0 ∧ low layer ≤ a ∧ a < low layer + 2 ^ 40 then layer else s.get F.CHART_CFG_HOME_MASK

/-- Two ranges of general-use HBM share a frame. In one view that is an overlap of their addresses; a range in the granule
view and one in an island window share the frames that both views reach (R119, R595, R596). -/
def State.framesMeet (s : State) (x y : Nat × Nat) : Bool :=
  if decide (x.1 < hbmEnd) == decide (y.1 < hbmEnd) then rangesMeet x y
  else
    decide (0 < x.2) && decide (0 < y.2)
      && (List.range 16).any fun k => (List.range 32).any fun p =>
        let a := frameSpan (s.maskAt x.1) x k p
        let b := frameSpan (s.maskAt y.1) y k p
        decide (max a.1 b.1 < min a.2 b.2)

/-- The pool of a berth class: its first address and its length (R118, R141). -/
def State.pool (s : State) (c : Nat) : Nat × Nat :=
  (s.get F.BERTH_CLASS_BASE c * 65536, s.get F.BERTH_CLASS_COUNT c * s.get F.BERTH_CLASS_STRIDE c * 65536)

def State.pools (s : State) : List Nat := (List.range 4).filter fun c => s.get F.BERTH_CLASS_COUNT c ≠ 0

/-- The directory area: records, index table and moored list (R91). DESIGN CHOICE (assumption 143): a base that is not on
2 MiB is used as it stands. -/
def State.dirArea (s : State) : Nat × Nat :=
  let r := s.get F.SDIR_CFG_RECORDS
  (s.get F.SDIR_BASE_ADDR, if r = 0 then 0 else 260 * r + 0x2000000)

/-- The berth layout is wrong (R119, R471). -/
def State.badBerths (s : State) : Bool :=
  let cxl := (s.get F.HOST_CXL_MEM_BASE * 2 ^ 30, s.get F.HOST_CXL_MEM_SIZE_GIB * 2 ^ 30)
  s.pools.any fun c =>
    decide (s.get F.BERTH_CLASS_STRIDE c * 65536 < ceilDiv (s.shape c).footprint 65536 * 65536)
      || !inGeneral (s.pool c).1 (s.pool c).2 || s.framesMeet (s.pool c) s.dirArea || s.framesMeet (s.pool c) cxl
      || s.pools.any fun d => decide (d < c) && s.framesMeet (s.pool c) (s.pool d)

/-- The granule masks are wrong (R378). -/
def State.badMasks (s : State) : Bool :=
  let home := s.get F.CHART_CFG_HOME_MASK
  let layer := s.get F.CHART_CFG_LAYER_MASK
  let sets := s.steerBytes
  decide (home &&& layer ≠ 0)
    || (decide (s.get F.SDIR_CFG_RECORDS ≠ 0)
        && !(inMask home s.dirArea.1 s.dirArea.2 && inMask home (s.get F.SDIR_QUOTA_BASE_ADDR) 0x400000))
    || (s.pools.any fun c => !inMask layer (s.pool c).1 (s.pool c).2)
    || !inMask layer (s.get F.ATTN_STEER_BASE_ADDR) sets

/-- A class that TIER_CLASSES names is wrong (R200): the class must have MODE WHOLE and its TIER. -/
def State.badClass (s : State) (c tier : Nat) : Bool :=
  s.get F.FERRY_CLASS_MODE c != 1 || s.get F.FERRY_CLASS_TIER c != tier

/-- The first frame of a spare region that a pool may take; those below hold on-chip state (R263, R278). -/
def poolFirst : Nat := 26624

/-- The first start-up error of the checks that follow the load, in the order of their codes (R482). -/
def State.startError (s : State) : Option Err :=
  let p := s.get F.CFG_AP_STATUS_ACTIVE
  let tc := (List.range 5).map (fun v => s.get F.MCT_VC_TCLASS v) ++ [s.get F.EGR_CFG_CTRL_TCLASS]
  if p = 0 ∨ p < s.get F.CFG_AP_STATUS_FLOOR ∨ s.get F.CFG_AP_STATUS_HIGHEST < p then some .CFG_PROFILE_UNSUPPORTED
  else if s.badBerths then some .CFG_BERTH_LAYOUT
  else if s.badMasks then some .CFG_CHART_MASK
  else if 524288 < s.get F.NMU_POOL_BASE + s.get F.NMU_POOL_FRAMES
      ∨ (s.get F.NMU_POOL_FRAMES ≠ 0 ∧ s.get F.NMU_POOL_BASE < poolFirst) then some .CFG_NMU_POOL
  else if s.badClass (s.get F.TIER_CLASSES_MOOR_CLASS) 1 || s.badClass (s.get F.TIER_CLASSES_LAYUP_CLASS) 2
      || s.badClass (s.get F.TIER_CLASSES_HISTORY_CLASS) 2 || s.badClass (s.get F.TIER_CLASSES_CROSS_CLASS) 0
      || s.get F.FERRY_CLASS_VC (s.get F.TIER_CLASSES_CROSS_CLASS) != 2 then some .CFG_FERRY_CLASS
  else if (s.get F.MCT_SEC_MODE = 0 ∧ !s.debugOpen) ∨ s.get F.MCT_ADDR_ADDR = 0 then some .CFG_FAB_SECURITY
  else if !distinct tc then some .CFG_EGR_CLASS
  else none

/-! ### Package sections that the device reads (R162, R307, R319) -/

/-- Kinds of records whose layout the spec does not give: the NAND part profile and section 4 of the package. -/
def kNand : Nat := 0x200
def kTables : Nat := 0x201

/-- A steering record passes for model layer `layer` (R161, R162). -/
def State.steerOk (s : State) (r : List Byte) (layer : Nat) : Bool :=
  let q := s.get F.BERTH_SHAPE_H_Q
  let v := ceilDiv (0x40 + 4 * q) 64 * 64
  leAt r 0 2 == layer && bits (leAt r 2 2) 15 2 == 0 && leAt r 8 2 == 128 * q && leAt r 0xA 2 == q
    && zeroAt r 0xC 52 && decide (v + 128 * q ≤ s.get F.ATTN_STEER_CFG_RECORD_KIB * 1024)
    && r.length == s.get F.ATTN_STEER_CFG_RECORD_KIB * 1024 && zeroAt r (v + 128 * q) r.length

/-- A hash entry with its bucket (R306). -/
structure HashEntry where
  bucket : Nat
  kind : Nat
  result : Nat
  rank : Nat
  key : Nat
  deriving DecidableEq, Repr

def hashEntries (h : List Byte) : List HashEntry :=
  (List.range (h.length / 16)).filterMap fun i =>
    let e := leAt h (16 * i) 16
    if bits e 127 126 = 0 then none
    else some ⟨i / 2, bits e 127 126, bits e 107 88, bits e 87 64, bits e 63 0⟩

/-- The merge hash passes (R307). -/
def hashOk (vocab : Nat) (h : List Byte) : Bool :=
  let es := hashEntries h
  let merges := es.filter fun e => e.kind == 1
  let pieces := es.filter fun e => e.kind == 2
  decide (h.length ≤ 0x1000000) && decide (es.length ≤ 393216)
    && es.all (fun e => decide ((e.bucket + 524288 - crc32c (leBytes 8 e.key) % 524288) % 524288 < 8) && decide (e.result < vocab))
    && merges.all (fun e => decide (bits e.key 39 20 < vocab) && decide (bits e.key 19 0 < vocab))
    && distinct (merges.map fun e => e.rank) && distinct (merges.map fun e => e.key) && distinct (pieces.map fun e => e.key)

/-- The byte tokens are 256 consecutive IDs from BYTE_BASE (R307). -/
def bytesOk (vocab base : Nat) (t : List Byte) : Bool :=
  decide ((List.range vocab).filter (fun i => bit (leAt t (8 * i) 8) 16) = (List.range 256).map (base + ·))

/-- The class table passes: entries follow its header of 32 bytes (R307, R309). -/
def classesOk (c : List Byte) : Bool :=
  let es := (List.range ((c.length - 32) / 4)).map fun i => leAt c (32 + 4 * i) 4
  decide (c.length ≤ 0x100000) && es.all (fun e => bits e 27 24 != 15)
    && (es.head?.map fun e => bits e 20 0) == some 0
    && (es.zip (es.drop 1)).all fun p => decide (bits p.1 20 0 < bits p.2 20 0)

/-- Section 4 of the package passes (R307): hash, token table, string pool and class table. -/
def State.tablesOk (s : State) (b : List Byte) : Bool :=
  let vocab := s.get F.TEXT_CFG_VOCAB
  decide (vocab ≤ 393216) && decide ((Config.part kTables b 2).length ≤ 0x400000) && hashOk vocab (Config.part kTables b 0)
    && bytesOk vocab (s.get F.TEXT_CFG_BYTE_BASE) (Config.part kTables b 1) && classesOk (Config.part kTables b 3)

/-- The tables of section 4 in the SRAM regions (R304). -/
def loadTables (b : List Byte) (m : SMap Byte) : SMap Byte :=
  let put (m : SMap Byte) (a : Nat) (bs : List Byte) : SMap Byte := SMap.putList memDefault m a bs
  put (put (put (put m hashBase (Config.part kTables b 0)) tokenBase (Config.part kTables b 1)) poolBase
    (Config.part kTables b 2)) classBase (Config.part kTables b 3)

/-- A grammar of the grammar area passes (R319). -/
def State.grammarOk (s : State) (g : Nat) : Bool :=
  decide (s.gramStart g < s.gramStates g)
    && (List.range (s.gramStates g)).all fun q =>
      let rs := s.gramRuns g q
      rs.all (fun r =>
          decide (r.1 + r.2.1 ≤ s.get F.TEXT_CFG_VOCAB) && decide (r.2.2 < s.gramStates g)
            && (List.range r.2.1).all fun t => !s.tokenEnd (r.1 + t))
        && (rs.zip (rs.drop 1)).all fun p => decide (p.1.1 + p.1.2.1 ≤ p.2.1)

end Sys2Proof.Machine
end

