-- ==== Sys2Proof/Machine/Sail.lean ====
section
/-! DEFINITION. Commands of the sailing unit (R8 to R36, R463, R614, R615). -/

namespace Sys2Proof.Machine

/-! ### The phases of a sailing -/

/-- SAIL_LATCH (R11): at B(n) sailing `n` begins. `busy` is the largest time in ns that a core was busy in the last run
phase; `telem` and `temp` are what the power controller measured over the last sailing (R583, R587). -/
def execSailLatch (n : BitVec 48) (busy : BitVec 32) (telem : BitVec 64) (temp : BitVec 32) (s : State) :
    Host.Outcome State Fault Refusal :=
  (Act.command <| .look fun s =>
    .when (s.phase == 2 && n.toNat == s.now + 1) (.latch n.toNat busy.toNat telem temp)).outcome s

/-- Session firmware polls a running ring (R457, R460). -/
def Act.pollRing (r : Nat) : Act :=
  .look fun s =>
    let x := s.ring r
    .when (x.state == 1 && x.en)
      ((Act.pollEntries r (.ringFail r) (s.get F.HOST_RING_BUDGET r)).andThen
        (.look fun s => .when ((s.ring r).state == 1) (.showPoll r)))

/-- SAIL_RUN (R11, R457, R460): the run phase begins, and the enabled rings are polled. -/
def execSailRun (s : State) : Host.Outcome State Fault Refusal :=
  (Act.command <| .look fun s =>
    .when (s.phase == 0)
      (.all
        [ .set F.SAIL_STATUS_PHASE 1,
          .each (List.range 64) fun r => (Act.pollRing r).andThen (.quiesce r) ])).outcome s

/-! ### Issue (R20) -/

/-- The core issues no slots: its granule belongs to a FORMING island, or its island is in POWER_OFF (R385, R580). -/
def State.coreHeld (s : State) (c : Nat) : Bool :=
  let g := c / 10
  !bit s.heldGranules g
    && (match s.islandOf g with
      | some i => s.islandState i == isForming || s.pwr.off.get (fun _ => 0) i ≠ 0
      | none => false)

/-- The next slot of a core leaves its list. -/
def Act.shiftItem (c : Nat) : Act := .look fun s => .setItems c (s.itemsOf c).tail

/-- Change the next slot of a core. -/
def Act.modItem (c : Nat) (f : SlotItem → SlotItem) : Act :=
  .look fun s => match s.itemsOf c with
    | i :: is => .setItems c (f i :: is)
    | [] => .done

/-- Take the bollard count of the next slot, when WAIT is 1, and go on once it is taken (R20, R570). -/
def Act.slotCount (c : Nat) (i : SlotItem) (k : Act) : Act :=
  if !slotWait i.word || i.granted then k
  else
    .all
      [ .when (!i.joined) ((Act.modItem c fun x => { x with joined := true }).andThen (.join (slotBollard i.word) (.slot c))),
        .look fun s => match s.itemsOf c with
          | x :: _ => .when x.granted k
          | [] => .done ]

/-- The tile of the next slot issues: the windows are captured, and it is in flight (R65, R86). -/
def Act.startTile (c : Nat) (i : SlotItem) (d : BitVec 512) (p : Path) : Act :=
  .look fun s =>
    (Act.shiftItem c).andThen
      (.setFlight c p (some { desc := d, addr := slotDesc i.word, wins := s.winsNext c }))

/-- A tile must wait for one in flight (R66). -/
def State.mustWait (s : State) (c : Nat) (d : BitVec 512) : Bool :=
  let mine := tilePieces (s.winsNext c) d
  (s.flightsOf c).any fun f => hazard mine (tilePieces f.wins f.desc)

/-- A slot whose descriptor cannot be read: REJECTED with reason RANGE and TAG 0 (R75, R598, R622). -/
def Act.badDesc (c : Nat) (i : SlotItem) : Act :=
  let a := slotDesc i.word
  .look fun s =>
    .all
      [ .shiftItem c,
        if !s.memRange a 64 then .unmapped a
        else match s.lostLine a 64 with
          | some k => .entryLost k { detail := a }
          | none => .done,
        .tileEnds c 0 stRejected 6 ]

/-- A tile whose slot has come up waits for its path, a hazard or a bank, or starts (R65, R66, R85, R90). DESIGN CHOICE
(assumption 26): a hold by R66 is counted once for a slot, when its path is free. -/
def Act.tryTile (c : Nat) (i : SlotItem) (d : BitVec 512) (p : Path) : Act :=
  .look fun s =>
    if (s.flight c p).isSome then .done
    else if s.mustWait c d then
      .when (!i.stalled) ((Act.count .CORE_HAZARD_STALL_COUNT).andThen (.modItem c fun x => { x with stalled := true }))
    else if (tileTouches (s.winsNext c) d).any fun q => s.rangeWaits c q.1 q.2.1 then .done
    else .startTile c i d p

/-- The descriptor of the next slot is looked at: it is rejected at once, or its tile starts when it can (R65, R75). -/
def Act.runSlot (c : Nat) (i : SlotItem) : Act :=
  .look fun s =>
    match s.tileDesc (slotDesc i.word) with
    | none => .badDesc c i
    | some d =>
      let rc := rejectReason (s.winsNext c) d
      match opPath (tOp d) with
      | some p => if rc ≠ 0 then (Act.shiftItem c).andThen (.tileEnds c d stRejected rc) else .tryTile c i d p
      | none => (Act.shiftItem c).andThen (.tileEnds c d stRejected rc)

/-- The next slot of a core, `now` ns after the start of RUN: it waits for its EARLIEST, then for its count, and then its
descriptor is looked at (R19, R20, R24, R75). -/
def Act.issueSlot (c now : Nat) : Act :=
  .look fun s =>
    match s.itemsOf c with
    | [] => .done
    | i :: _ =>
      if i.bad then (Act.shiftItem c).andThen (.dropSlot c 0)
      else if slotReserved i.word then (Act.shiftItem c).andThen (.dropSlot c (s.slotTag i.word))
      else if !i.carried && decide (now < slotEarliest i.word) then .done
      else .slotCount c i (.runSlot c i)

/-- The next slot of a core is carried or has reached its EARLIEST (R20). -/
def State.slotDue (s : State) (c now : Nat) : Bool :=
  match s.itemsOf c with
  | i :: _ => i.carried || decide (slotEarliest i.word ≤ now)
  | [] => false

/-- SLOT_ISSUE (R19, R20, R24, R25, R385, R582): the next slot of a core issues when it can. A slot that is due on an island in
POWER_OFF wakes it. -/
def execSlotIssue (core : Fin 80) (now : BitVec 32) (s : State) : Host.Outcome State Fault Refusal :=
  (Act.command <| .look fun s =>
    .when (s.phase == 1 && !s.inCapture s.now && !s.sail.late.get (fun _ => false) core && !s.coreRetired core)
      (if s.coreHeld core then .when (s.slotDue core now.toNat) (.wakeGranule (core / 10))
      else .issueSlot core now.toNat)).outcome s

/-! ### Close (R23 to R25) -/

/-- A CARRY slot goes to the carry queue, or is dropped when the queue is full (R24). A count that it has taken stays
taken. -/
def Act.carrySlot (c : Nat) (i : SlotItem) : Act :=
  .look fun s =>
    let q := s.sail.carry.get (fun _ => []) c
    if q.length ≥ 256 then (Act.count .SAIL_CARRY_FULL_COUNT).andThen (.dropSlot c (s.slotTag i.word))
    else
      .all
        [ .modSail fun x =>
            { x with
              carry := x.carry.put (fun _ => []) c (q ++ [{ i with carried := true, joined := i.granted }]) },
          .count .SAIL_CARRY_COUNT, .setFlag F.SAIL_STATUS_CARRIED true ]

/-- A STRICT slot was not issued: its request ends with SAIL_STRICT_MISS (R23). -/
def Act.strictSlot (c : Nat) (i : SlotItem) : Act :=
  .look fun s =>
    .all
      [ .count .SAIL_STRICT_MISS_COUNT, .setFlag F.SAIL_STATUS_STRICT_MISS true,
        .raise .SAIL_STRICT_MISS { tag := s.slotTag i.word }, .complete 0x01 stStrictMiss c (s.slotTag i.word) 0 ]

/-- The carry rule of an unissued slot (R19, R23, R24). -/
def Act.unissued (c : Nat) (i : SlotItem) : Act :=
  .look fun s =>
    if i.bad then .dropSlot c 0
    else if slotReserved i.word || i.carried then .dropSlot c (s.slotTag i.word)
    else if slotCarry i.word = 0 then .carrySlot c i
    else if slotCarry i.word = 2 then .strictSlot c i
    else .dropSlot c (s.slotTag i.word)

/-- CLOSE on one core: a waiting slot leaves its list, and the carry rules apply in list order; in a capture sailing
carried slots stay carried (R23, R24, R270, R571). -/
def Act.closeCore (capture : Bool) (c : Nat) : Act :=
  .look fun s =>
    let items := s.itemsOf c
    .when (!items.isEmpty)
      (.all
        [ .leave (.slot c), .setItems c [],
          if capture then .modSail fun x => { x with carry := x.carry.put (fun _ => []) c items }
          else .each items (.unissued c) ])

/-- The commit for the next sailing is checked at the start of CLOSE; capture sailings expect none (R21, R274). -/
def Act.commitDeadline : Act :=
  .look fun s =>
    let n := s.now + 1
    if s.inCapture n then .when (!s.inCapture s.now) (.modSail fun x => { x with commit := none })
    else .ttCheck n (s.epochAt n)

/-- The vector of a ring that was written to (R463). -/
def Act.ringVector (r : Nat) : Act :=
  .look fun s =>
    .when ((s.ring r).wrote && s.flag F.HOST_RING_IRQ r)
      ((Act.modRing r fun x => { x with wrote := false }).andThen (.msix (8 + r)))

/-- SAIL_CLOSE (R11, R21, R23, R24, R463). -/
def execSailClose (s : State) : Host.Outcome State Fault Refusal :=
  (Act.command <| .look fun s =>
    .when (s.phase == 1)
      (.all
        [ .set F.SAIL_STATUS_PHASE 2,
          .each (List.range 80) (.closeCore (s.inCapture s.now)),
          .commitDeadline,
          .each (List.range 64) .ringVector ])).outcome s

/-- SAIL_CLOSE_OVERRUN (R25): tiles of a core that still run at B(n+1) − 0.5 µs hold up its next LATCH work. -/
def execSailCloseOverrun (core : Fin 80) (s : State) : Host.Outcome State Fault Refusal :=
  (Act.command <| .look fun s =>
    .when (s.phase == 2 && !s.sail.late.get (fun _ => false) core && !(s.flightsOf core).isEmpty)
      (.all
        [ .each (s.flightsOf core) fun f =>
            (Act.count .SAIL_CLOSE_OVERRUN_COUNT).andThen (.raise .SAIL_CLOSE_OVERRUN { tag := tTag f.desc, detail := core.val }),
          .setFlag F.SAIL_STATUS_CLOSE_OVERRUN true,
          .modSail fun x => { x with late := x.late.put (fun _ => false) core true } ])).outcome s

/-- A write of TARGET commits a timetable (R31). -/
def Act.ttCommit (target : Nat) : Act :=
  (Act.set F.SAIL_TT_COMMIT_TARGET target).andThen (.modSail fun x => { x with commit := some target })

/-- SAIL_TT_COMMIT (R21, R22, R31): a write of TARGET commits a timetable; the most recent one counts. -/
def execSailTtCommit (agent : Agent) (target : BitVec 64) (s : State) : Host.Outcome State Fault Refusal :=
  (Act.command <| .byCore agent <| .ttCommit (bits target.toNat 47 0)).outcome s

/-! ### Time (R12 to R16) -/

/-- TIME_STATE codes (R32). -/
def tsUnlocked : Nat := 0
def tsHoldover : Nat := 1
def tsLocked : Nat := 2

def State.timeState (s : State) : Nat := s.get F.SAIL_STATUS_TIME_STATE

/-- A new time state; UNLOCKED is counted after the first sailing and recorded while sailings run (R12, R15, R34).
DESIGN CHOICE (assumption 86): the run of good measurements starts again at every change of the time state. -/
def Act.toTime (t : Nat) : Act :=
  .look fun s =>
    .all
      [ .set F.SAIL_STATUS_TIME_STATE t,
        .modSail fun x => { x with ptpGood := 0, ppsGood := 0 },
        .when (t == tsUnlocked && s.sail.ran) (.count .SAIL_UNLOCK_COUNT),
        .when (t == tsUnlocked && !s.stopped) (.raise .SAIL_TIME_UNLOCKED),
        .advanceStage ]

/-- The 32-bit two's complement of an offset, saturated (R33). -/
def offsetCode (x : Int) : Nat := (BitVec.ofInt 32 (max (-2147483648) (min 2147483647 x))).toNat

/-- An offset is measured: OFFSET_NS shows it, and the clock slews by it once a sailing has run; before that the clock is
stepped to the time `tai` of the source (R14, R33). -/
def Act.measured (x tai : Int) : Act :=
  (Act.set F.SAIL_TIME_OFFSET_OFFSET_NS (offsetCode x)).andThen
    (.modSail fun y => if y.ran then { y with slew := x } else { y with clock := tai })

/-- The clock at the next second, in ns (R16). -/
def nextSecond (clock : Int) : Int := (clock / 1000000000 + 1) * 1000000000

/-- PTP_MESSAGE (R12, R14, R401): a message accepted on an UP port, with what it gives. -/
def execPtpMessage (port : Fin 32) (reading : TimeReading) (s : State) : Host.Outcome State Fault Refusal :=
  (Act.command <| .look fun s =>
    let good := if reading.offset.natAbs ≤ 50 then s.sail.ptpGood + 1 else 0
    .when (s.portUp port)
      (.all
        [ .each s.ports fun p => .setFlag F.FAB_PORT_STATUS_TIME_PORT (p == port.val) p,
          .measured reading.offset reading.tai.toNat,
          .modSail fun x => { x with ptpSeen := true, taiNext := none, taiSet := false, ppsGood := 0 },
          if s.timeState = tsLocked then .when (decide (reading.offset.natAbs > 20000)) (.toTime tsUnlocked)
          else if good ≥ 16 then .toTime tsLocked
          else .modSail fun x => { x with ptpGood := good } ])).outcome s

/-- PTP_LOSS (R12): no message has been accepted for 3 s. -/
def execPtpLoss (s : State) : Host.Outcome State Fault Refusal :=
  (Act.command <| .look fun s =>
    .all
      [ .each s.ports fun p => .setFlag F.FAB_PORT_STATUS_TIME_PORT false p,
        .modSail fun x => { x with ptpGood := 0 },
        .when (s.timeState == tsLocked) (.toTime tsHoldover) ]).outcome s

/-- HOLDOVER_EXPIRE (R12): the limit of 60 s without 1PPS has passed. -/
def execHoldoverExpire (s : State) : Host.Outcome State Fault Refusal :=
  (Act.command <| .look fun s =>
    .when (s.timeState == tsHoldover && !s.sail.ppsPresent) (.toTime tsUnlocked)).outcome s

/-- How far local time is from a TAI second that an edge marks now, in ns, when the edge lies `offset` ns from the nearest
second of local time (R10, R16). -/
def State.secondsOff (s : State) (second : Nat) (offset : Int) : Int :=
  let near : Nat := (s.get F.SAIL_ORIGIN_ORIGIN_NS + s.now * s.periodUs * 1000 + 500000000) / 1000000000
  ((near : Int) - second) * 1000000000 + offset

/-- PPS_EDGE (R14, R16, R615): a 1PPS edge, `offset` ns from the nearest second of local time. The first edge after a
write of SECONDS is the start of that second; the local clock steps to it before the first sailing and slews to it after.
DESIGN CHOICE (assumption 86): once an edge was taken so, no new write is needed after a HOLDOVER has expired. -/
def execPpsEdge (offset : Int) (s : State) : Host.Outcome State Fault Refusal :=
  (Act.command <| .look fun s =>
    let good := if offset.natAbs ≤ 50 then s.sail.ppsGood + 1 else 0
    if s.timeState = tsLocked ∧ offset.natAbs > 1000 then .count .PKG_PPS_REJECT_COUNT
    else
      .all
        [ .modSail fun x => { x with ppsPresent := true },
          if s.timeState = tsLocked then .done
          else if s.timeState = tsHoldover ∨ s.sail.ptpSeen then .measured offset (nextSecond s.sail.clock)
          else match s.sail.taiNext with
          | some second =>
            .modSail fun x =>
              if x.ran then { x with taiNext := none, taiSet := true, ppsGood := 0, slew := s.secondsOff second offset }
              else { x with taiNext := none, taiSet := true, ppsGood := 0, clock := second * 1000000000 }
          | none =>
            .when s.sail.taiSet
              ((Act.measured offset (nextSecond s.sail.clock)).andThen
                (if good ≥ 16 then .toTime tsHoldover else .modSail fun x => { x with ppsGood := good })) ]).outcome s

/-- PPS_LOSS (R12, R615): no edge for 1.5 s. -/
def execPpsLoss (s : State) : Host.Outcome State Fault Refusal :=
  (Act.command <| .modSail fun x => { x with ppsPresent := false, ppsGood := 0 }).outcome s

/-- REF10M_LOSS (R12, R614): the clocks go over to the on-package oscillator; the time state stays. -/
def execRef10mLoss (s : State) : Host.Outcome State Fault Refusal :=
  (Act.command <| .modSail fun x => { x with refPresent := false }).outcome s

/-- REF10M_RETURN (R12, R614): the reference is the frequency source again. -/
def execRef10mReturn (s : State) : Host.Outcome State Fault Refusal :=
  (Act.command <| .modSail fun x => { x with refPresent := true }).outcome s

/-- SECONDS is written: ignored outside UNLOCKED, and once PTP has been accepted (R16). -/
def Act.taiSeconds (seconds : Nat) : Act :=
  .look fun s =>
    .when (s.timeState == tsUnlocked && !s.sail.ptpSeen)
      ((Act.set F.SAIL_TAI_SECONDS_SECONDS seconds).andThen
        (.modSail fun x => { x with taiNext := some seconds, taiSet := false, ppsGood := 0 }))

/-- TAI_SECONDS_WRITE (R16): the second that the next edge marks; ignored outside UNLOCKED, and once PTP has been
accepted. -/
def execTaiSecondsWrite (agent : Agent) (seconds : BitVec 64) (s : State) : Host.Outcome State Fault Refusal :=
  (Act.command <| .byCore agent <| .taiSeconds (bits seconds.toNat 47 0)).outcome s

end Sys2Proof.Machine
end

