-- ==== Sys2Proof/Machine/Startup.lean ====
section
/-! DEFINITION. Resets, start-up, the model package and the limited-change settings (R472 to R501). -/

namespace Sys2Proof.Machine

/-! ### Resets (R472) -/

/-- COLD_RESET (R472, R549): every block is reset, the rows retired since the last cold reset are burned as repairs, and
no HBM training value is kept. -/
def execColdReset (s : State) : Host.Outcome State Fault Refusal :=
  (Act.look fun s =>
    .all
      [ .modFuses fun f =>
          { f with trained := [], repairs := (s.err.rows.filter fun e => e.2 == 2).foldl (fun m e => m.put (fun _ => 0) e.1 1) f.repairs },
        .one .reboot ]).outcome s

/-- WARM_RESET (R472, R611): as a cold reset, but the HBM training values and the sampled straps stay. While the device
is held in reset it changes nothing. -/
def execWarmReset (s : State) : Host.Outcome State Fault Refusal :=
  (Act.look fun s =>
    .when s.boot.released (.all [.one .reboot, .modBoot fun b => { b with cold := false }])).outcome s

/-- LINK_B_RESET (R472): with two x8 links, link B alone is reset. -/
def execLinkBReset (s : State) : Host.Outcome State Fault Refusal :=
  (Act.command <| .look fun s =>
    .when (s.get F.HOST_CFG_BIFURCATION == 1)
      (.all
        [ .set F.HOST_LINK_STATUS_RATE 0 1, .set F.HOST_LINK_STATUS_WIDTH 0 1, .set F.HOST_LINK_STATUS_CXL 0 1,
          .modHost fun h => { h with linkUp := h.linkUp &&& 1 } ])).outcome s

/-- RESET_RELEASE (R92, R412, R473, R506, R607, R613): the ROM stage begins. After a cold reset the straps are sampled:
BID in `straps` [6:3], NORQ in [2], BIF in [1:0]. After a warm one the stacks trained before are up, unless they fail
their quick check, as `check` reports by stack. -/
def execResetRelease (straps : BitVec 7) (check : BitVec 16) (s : State) : Host.Outcome State Fault Refusal :=
  (Act.command <| .look fun s =>
    .when (!s.boot.released)
      (.all
        [ .when s.boot.cold
            (.all
              [ .set F.PKG_STRAP_BOARD_ID (bits straps.toNat 6 3), .set F.PKG_STRAP_NOR_QUAD (bits straps.toNat 2 2),
                .set F.PKG_STRAP_BIFURCATION (bits straps.toNat 1 0) ]),
          .look fun s =>
            .set F.HOST_CFG_BIFURCATION (if s.get F.PKG_STRAP_BIFURCATION = 1 then 1 else 0),
          .setFlag F.SEC_STATUS_DRBG_READY true,
          .modSdir fun d => { d with seed := (Config.drbg s.free).setWidth 32 },
          .drbgDraws 1,
          .modMct fun m => { m with incarnation := m.incarnation + 1 },
          .modBoot fun b =>
            { b with
              released := true,
              hbmUp := if b.cold then [] else s.fuses.trained.filter fun e => e.2 && !bit check.toNat e.1 } ])).outcome s

/-! ### The image (R479 to R483) -/

/-- CONFIG_IMAGE_SELECT (R479, R480, R523): the ROM stage ends; both copies are verified and one is chosen, or the device
enters RECOVERY. -/
def execConfigImageSelect (s : State) : Host.Outcome State Fault Refusal :=
  (Act.command <| .look fun s =>
    .when (s.boot.released && s.stage == sgRom)
      (.all
        [ .setDigest F.SEC_DEVICE_DIGEST_BYTES deviceDigest,
          .modBoot fun b => { b with failed := [0, 1].filter fun c => !s.candidate c },
          match s.bestCopy with
          | some c => .chooseCopy c
          | none => .recovery ])).outcome s

/-- The PACKAGE section (R486) and the firmware digests. -/
def Act.loadPackageInfo (b : List Byte) : Act :=
  let p := (imgSection b 5).getD []
  .modBoot fun x =>
    { x with
      sessionFw := sha384 ((imgSection b 2).getD []), mgmtFw := sha384 ((imgSection b 3).getD []), modelDigest := p.take 48,
      source := leAt p 48 1, waitS := leAt p 52 4, peers := (List.range (min 4 (leAt p 49 1))).map fun i => leAt p (56 + 8 * i) 8 }

/-- FIELDS has passed: session firmware is in the cores that CORES enables, fabric ports train, and the MEMORY stage
begins (R473, R557). -/
def Act.fieldsDone (b : List Byte) : Act :=
  .look fun s =>
    let fw := (imgSection b 2).getD []
    .all
      [ .loadPackageInfo b,
        .modIrq fun q =>
          { q with local_ := (bitList 16 (s.get F.SAIL_WATCH_CFG_CORES)).foldl (fun m c => m.put (fun _ => []) c fw) q.local_ },
        .each s.ports fun p => .set F.FAB_PORT_STATUS_STATE psTraining p,
        .set F.CFG_STATUS_STAGE sgMemory ]

/-- The start-up load and its checks (R481, R482). -/
def Act.fields (b : List Byte) : Act :=
  .loadRecords (fieldRecords ((imgSection b 1).getD [])) 0 <| .look fun s =>
    match s.reservedReg with
    | some off => .stopStart .CFG_IMAGE_FIELD off
    | none =>
      match s.startError with
      | some e => .stopStart e
      | none => .fieldsDone b

/-- CONFIG_SECTIONS_READ (R479 to R483): the sections of the chosen copy have been read. When they fail, start-up goes on
from the other candidate; without one the device enters RECOVERY. When they pass, the FIELDS stage runs. -/
def execConfigSectionsRead (s : State) : Host.Outcome State Fault Refusal :=
  (Act.command <| .look fun s =>
    let c := s.get F.CFG_STATUS_COPY
    let b := s.copyOf c
    .when (s.stage == sgImage)
      (if imgSectionsOk b then .fields b
      else
        .all
          [ .modBoot fun x => { x with failed := c :: x.failed },
            if s.candidate (1 - c) then
              .all
                [ .setFlag F.CFG_STATUS_FALLBACK true, .count .CFG_FALLBACK_COUNT, .raise .CFG_COPY_FALLBACK,
                  .chooseCopy (1 - c) ]
            else .recovery ])).outcome s

/-! ### Memory (R473) -/

/-- HBM_TRAIN_DONE (R473, R482): the training of a stack ends; a stack that fails twice stops start-up. -/
def execHbmTrainDone (stack : Fin 16) (ok : Bool) (s : State) : Host.Outcome State Fault Refusal :=
  (Act.command <| .look fun s =>
    let k := stack.val
    .when (s.boot.released && decide (s.stage ≤ sgMemory) && !s.boot.hbmUp.get (fun _ => false) k)
      (if ok then
        .all
          [ .modBoot fun b => { b with hbmUp := b.hbmUp.put (fun _ => false) k true },
            .modFuses fun f => { f with trained := f.trained.put (fun _ => false) k true } ]
      else
        .all
          [ .modBoot fun b => { b with hbmFails := b.hbmFails.put (fun _ => 0) k (b.hbmFails.get (fun _ => 0) k + 1) },
            .when (decide (s.boot.hbmFails.get (fun _ => 0) k ≠ 0)) (.stopStart .CFG_HBM_TRAIN) ])).outcome s

/-- The part profile of the image, whose layout the spec does not give (R207, assumption 6). -/
def partProfile (p : List Byte) : FlashProfile :=
  let f (i : Nat) : Nat := Config.field kNand p i
  { planes := f 0, blocks := f 1, pages := f 2, levels := f 3, endurance := f 4, dataBytes := f 5, spareBytes := f 6,
    manufacturer := f 7, model := f 8, revision := f 9, slcFeature := f 10, slcValue := f 11,
    times := (List.range 6).map fun i => f (12 + i), retention := f 18, levelValues := (List.range 15).map fun i => f (19 + i) }

/-- The part that a profile describes can be used (R207). -/
def FlashProfile.ok (p : FlashProfile) : Bool :=
  p.dataBytes == 16384 && decide (1664 ≤ p.spareBytes) && decide (1 ≤ p.levels) && decide (p.levels ≤ 15)

/-- The operations with which start-up takes a LUN into use (R208): reset, identification, SLC mode. -/
def Act.lunStart (p : FlashProfile) (lun : Nat) : Act :=
  .each ([.reset, .readId, .readParameterPage, .readUniqueId] ++ (if p.slcFeature = 0 then [] else [.setFeatures])) (.onfi lun)

/-- The bad-block tables on the device's first start: FACTORY_BAD from the part's marks (R230). -/
def State.factoryTables (s : State) (p : FlashProfile) : SMap (BitVec 64) :=
  (s.lunList.flatMap fun n => (List.range p.planes).flatMap fun q => (List.range p.blocks).map (blockKey n q)).foldl
    (fun m k => if Config.factoryBad k then m.put entryDefault k (BitVec.ofNat 64 (2 ^ 62)) else m) []

/-- The flash store as start-up finds it (R206, R207, R210, R213, R227, R230, R238, R281): LUNs ONLINE with their bad blocks,
read counts of programmed blocks at half the limit, the areas and LOGICAL_PAGES fixed, stripe numbers going on from those
on the NAND, and the frame map of the DRAIN area found by a scan. -/
def Act.flashStart (p : FlashProfile) : Act :=
  .all
    [ .look fun s => .when (!s.nand.marked)
        (let t := s.factoryTables p
        .modNand fun n => { n with tables := t, tables2 := t, marked := true }),
      .modFlash fun x => { x with profile := p, ready := true },
      .look fun s => .modFlash fun x =>
        { x with
          system := s.lunList.flatMap s.systemOf,
          drain := s.lunList.flatMap fun n => (List.range s.planes).flatMap (s.drainOf n),
          stripe := s.nand.pages.foldl (fun m e => max m ((e.2.map (·.stripe)).getD 0)) 0,
          versions := s.scanVersions (s.slotCkpts.foldl max 0),
          blocks := ((s.nand.pages.filterMap fun e => e.2.map fun _ => e.1 / 8192).eraseDups).foldl
            (fun m k => m.put blockDefault k { use := 2, reads := s.get F.FLASH_REFRESH_DISTURB_K * 500 }) [] },
      .look fun s => .modFlash fun x => { x with logical := s.logicalPages },
      .keepVersions,
      .look fun s => .each s.lunList fun l =>
        .all [.lunStart p l, .set F.FLASH_LUN_STATUS_STATE 1 l, .showBad l],
      .showFlash ]

/-- MEMORY_ZERO_DONE (R207, R473, R557): all HBM is zero, and the parameter pages and the SYSTEM area of the flash have
been read: `parametersOk` says that every LUN's parameter page can be read and agrees with the profile. A part the device
cannot use, or a page that cannot be read, stops start-up. -/
def execMemoryZeroDone (parametersOk : Bool) (s : State) : Host.Outcome State Fault Refusal :=
  (Act.command <| .look fun s =>
    let b := s.copyOf (s.get F.CFG_STATUS_COPY)
    let flash := decide (s.get F.FLASH_CFG_IFACE ≠ 0)
    .when (s.stage == sgMemory && (List.range 16).all fun k => s.boot.hbmUp.get (fun _ => false) k)
      (if flash && !(parametersOk && (imgSection b 4).isSome && (partProfile ((imgSection b 4).getD [])).ok) then
        .stopStart .CFG_FLASH_PART
      else
        .all
          [ .one (.wipe 0 hbmEnd), .one (.wipe spareBase (spareBase + 0x800000000)),
            .each (s.lost.filter fun e => decide (e.1 < hbmEnd)) fun e => .one (.lost e.1 false),
            .modBoot fun x => { x with zeroed := true }, .dirStart,
            .each (List.range 16) fun k => .set F.NMU_STACK_POOL_FREE (s.get F.NMU_POOL_FRAMES) k,
            .when flash (.flashStart (partProfile ((imgSection b 4).getD []))),
            .storeRaw (s.get F.IRQ_FW_BASE_ADDR) ((imgSection b 2).getD []),
            .advanceStage ])).outcome s

/-! ### The model package (R485 to R490) -/

/-- Bytes of the package in host memory: `off` into the package that HOST_PKG_SRC names (R461, R487, R501). -/
def State.hostPackage (s : State) (off len : Nat) : Option (List Byte) :=
  (s.dataAddr 3 (s.get F.HOST_PKG_SRC_ADDR + off) len).map fun a => s.readHost a len

/-- The package's header and table as the source gives them; `sent` is what a peer answers with. -/
def State.packageTable (s : State) (sent : List Byte) : Option (List Byte) :=
  if s.boot.source = 1 then
    if s.flag F.HOST_PKG_SRC_VALID then
      (s.hostPackage 0 4096).bind fun h => s.hostPackage 0 (pkgTableBytes h)
    else none
  else if s.boot.source = 2 ∧ s.boot.peers ≠ [] then some sent
  else none

/-- PACKAGE_FETCH_START (R487, R489): the source answers with the header and table, which must have MODEL_DIGEST. -/
def execPackageFetchStart (sent : List (BitVec 8)) (s : State) : Host.Outcome State Fault Refusal :=
  (Act.command <| .look fun s =>
    .when (s.stage == sgPackage && s.boot.table.isEmpty)
      (match s.packageTable sent with
      | none => .done
      | some t =>
        if sha384 t = s.boot.modelDigest then
          (Act.modBoot fun b => { b with table := t }).andThen .advanceStage
        else .stopStart .CFG_PACKAGE_DIGEST)).outcome s

/-- A package section cannot be used: start-up stops, or a later fetch ends and the islands that need the section await
it (R489, R490). -/
def Act.packageFails (e : Err) : Act :=
  .look fun s =>
    if s.stage = sgPackage then .stopStart e
    else
      .all
        [ .set F.CFG_PKG_FETCH_BUSY 0, .raise e,
          .awaitSection (s.get F.CFG_PKG_FETCH_TYPE) (s.get F.CFG_PKG_FETCH_INDEX) e.code ]

/-- The bytes of a section are written to HBM. -/
def Act.storeSection (a : Nat) (bs : List Byte) : Act :=
  .each (piecesOf a bs.length) fun p =>
    .look fun s => match s.hbmKey p.1 with
      | some k => .storeAny k ((bs.drop (p.1 - a)).take p.2)
      | none => .done

/-- A verified section is put to use (R161, R304, R319); the action that follows is taken when its checks pass. -/
def Act.useSection (type index : Nat) (d : List Byte) (k : Act) : Act :=
  .look fun s =>
    if type = 3 then
      let kib := s.get F.ATTN_STEER_CFG_RECORD_KIB * 1024
      let layers := s.get F.BERTH_SHAPE_LAYERS
      let assign := ((s.islands.find? fun i => i.2.role == roleLayer).map (·.2.assign)).getD 0
      let rec_ (l : Nat) : List Byte := (d.drop ((assign + l) * kib)).take kib
      if s.get F.ATTN_STEER_CFG_SETS ≤ index then k
      else if (List.range layers).all fun l => s.steerOk (rec_ l) (assign + l) then
        (Act.each (List.range layers) fun l =>
          .storeSection (s.get F.ATTN_STEER_BASE_ADDR + (index * layers + l) * kib) (rec_ l)).andThen k
      else .packageFails .CFG_STEER_RECORD
    else if type = 4 ∨ type = 5 then
      (if type = 4 then Act.modText fun x => { x with tables := loadTables d x.tables }
      else .storeRaw (s.get F.TEXT_GRAM_BASE_ADDR) d).andThen
        (.look fun s =>
          let other := if type = 4 then s.landed 5 0 else s.landed 4 0
          if (type = 4 ∧ !s.tablesOk d)
              ∨ (other ∧ !(List.range (s.get F.TEXT_GRAM_CFG_GRAMMARS)).all s.grammarOk) then .packageFails .CFG_TEXT_TABLE
          else k)
    else k

/-- A section is wanted: start-up waits for it, or CFG_PKG_FETCH asks for it (R487, R490). -/
def State.wantsSection (s : State) (type index : Nat) : Bool :=
  !s.boot.table.isEmpty
    && ((s.stage == sgPackage && s.needsSection type index && !s.landed type index)
      || (s.flag F.CFG_PKG_FETCH_BUSY && s.get F.CFG_PKG_FETCH_TYPE == type && s.get F.CFG_PKG_FETCH_INDEX == index))

/-- The bytes of a section as the source gives them. -/
def State.sectionBytes (s : State) (type index : Nat) (sent : List Byte) : Option (List Byte) :=
  if s.boot.source = 1 then
    ((pkgEntries s.boot.table).find? fun e => e.type == type && e.index == index).bind fun e => s.hostPackage e.off e.len
  else some sent

/-- PACKAGE_SECTION_LAND (R489, R490, R548): a section lands and is hashed. One that fails is fetched once more; a second
failure stops start-up, or ends a later fetch. `sent` is what a peer answers with. -/
def execPackageSectionLand (type : BitVec 16) (index : BitVec 32) (sent : List (BitVec 8)) (s : State) :
    Host.Outcome State Fault Refusal :=
  (Act.command <| .look fun s =>
    let t := type.toNat
    let i := index.toNat
    let k := pkgKey t i
    let want := ((pkgEntries s.boot.table).find? fun e => e.type == t && e.index == i).map (·.digest)
    .when (s.wantsSection t i)
      (match s.sectionBytes t i sent with
      | some d =>
        if want = some (sha384 d) then
          .useSection t i d
            (.all
              [ .modBoot fun b => { b with sections := b.sections.set k d, retried := b.retried.filter (· ≠ k) },
                .when (decide (s.stage ≠ sgPackage)) (.set F.CFG_PKG_FETCH_BUSY 0),
                .sectionBack t i,
                .advanceStage ])
        else if s.boot.retried.contains k then
          (Act.modBoot fun b => { b with retried := b.retried.filter (· ≠ k) }).andThen (.packageFails .CFG_PACKAGE_DIGEST)
        else .modBoot fun b => { b with retried := k :: b.retried }
      | none =>
        if s.boot.retried.contains k then
          (Act.modBoot fun b => { b with retried := b.retried.filter (· ≠ k) }).andThen (.packageFails .CFG_PACKAGE_DIGEST)
        else .modBoot fun b => { b with retried := k :: b.retried })).outcome s

/-- PACKAGE_WAIT_EXPIRE (R488): no source has answered `seconds` after the PACKAGE stage began. -/
def execPackageWaitExpire (seconds : BitVec 32) (s : State) : Host.Outcome State Fault Refusal :=
  (Act.command <| .look fun s =>
    .when (s.stage == sgPackage && s.boot.table.isEmpty && decide (s.boot.waitS ≤ seconds.toNat))
      (.stopStart .CFG_PACKAGE_LATE)).outcome s

/-- A write of CFG_PKG_FETCH (R490, R501): with a reserved TYPE only INDEX takes effect (R6, R485). -/
def Act.pkgFetch (type index : Nat) : Act :=
  if type = 0 ∨ 8 ≤ type then Act.reservedWrite.andThen (.set F.CFG_PKG_FETCH_INDEX index)
  else
    .look fun s =>
      .all
        [ .set F.CFG_PKG_FETCH_TYPE type, .set F.CFG_PKG_FETCH_INDEX index,
          .when (decide (sgTime < s.stage) && decide (s.stage ≤ sgRunning)) (.set F.CFG_PKG_FETCH_BUSY 1) ]

/-- PKG_FETCH (R490): after start-up a write of CFG_PKG_FETCH fetches a section of the package. -/
def execPkgFetch (agent : Agent) (type : BitVec 16) (index : BitVec 32) (s : State) : Host.Outcome State Fault Refusal :=
  (Act.command <| .byCore agent <| .pkgFetch type.toNat index.toNat).outcome s

/-! ### Limited-change settings (R493 to R496) -/

/-- A limited-change setting's counter: 1 security version, 2 archive generation, 3 debug lock, 4 profile floor. -/
def lcField : Nat → Field
  | 1 => F.CFG_LC_STATUS_SEC_VERSION
  | 2 => F.CFG_LC_STATUS_ARCHIVE_GEN
  | 3 => F.CFG_LC_STATUS_DEBUG_CLOSED
  | _ => F.CFG_LC_STATUS_FLOOR

/-- The advances the chosen image asks for, in the order of the table (R493, R494): setting and new count. -/
def State.asked (s : State) : List (Nat × Nat) :=
  let up (k target : Nat) : List (Nat × Nat) :=
    let n := s.get (lcField k)
    (List.range (target - n)).map fun i => (k, n + 1 + i)
  up 1 (min 64 (s.get F.CFG_IMAGE_INFO_SEC_VERSION)) ++ up 2 (min 15 (s.get F.CFG_IMAGE_INFO_ARCHIVE_GEN))
    ++ up 3 s.boot.closeDebug.toNat ++ up 4 (min 8 (s.get F.CFG_IMAGE_INFO_FLOOR_TARGET))

/-- The record of an advance (R493): TAI day and the first 40 bits of CONFIG_DIGEST. -/
def State.lcRecord (s : State) (day : Nat) : BitVec 64 :=
  BitVec.ofNat 64 (day * 2 ^ 40 + leAt s.boot.configDigest 0 5)

/-- The profile floor may rise above its present value (R496). -/
def State.floorMay (s : State) (day : Nat) : Bool :=
  let p := s.get F.CFG_LC_STATUS_FLOOR
  let first := ((s.fuses.records.find? fun r => r.1 == 4 && r.2.2.2).map fun r => bits r.2.2.1.toNat 63 40).getD 0
  s.get F.SAIL_STATUS_TIME_STATE == 2
    && decide (max (s.nand.profileDays.get (fun _ => 0) p) first + 2557 ≤ day)
    && decide (p + 1 ≤ s.get F.CFG_AP_STATUS_HIGHEST) && decide (p + 1 ≤ s.get F.CFG_AP_STATUS_ACTIVE)

/-- The counter of a setting shows a new count (R500, R63). -/
def Act.showLc (k n : Nat) : Act :=
  (Act.set (lcField k) n).andThen (.when (k == 4) (.set F.CFG_AP_STATUS_FLOOR n))

/-- Burn advances in order: the record first, then the counter bit, each read back; `good` burns read back before one
fails. A record left incomplete by the same image is used again (R494, R495). -/
def Act.burn (day : Nat) : List (Nat × Nat) → Nat → Act
  | [], _ => .modBoot fun b => { b with advanced := true }
  | (k, n) :: rest, good =>
    .look fun s =>
      let mine (r : Nat × Nat × BitVec 64 × Bool) : Bool :=
        r.1 == k && r.2.1 == n && !r.2.2.2 && bits r.2.2.1.toNat 39 0 == leAt s.boot.configDigest 0 5
      let kept := s.fuses.records.any mine
      let left := if kept then good else good - 1
      if k = 4 ∧ !s.floorMay day then
        .all
          [ .setFlag F.CFG_STATUS_FLOOR_REFUSED true, .raise .CFG_FLOOR_EARLY,
            .modBoot fun b => { b with advanced := true } ]
      else if !kept && good = 0 then .stopStart .CFG_FUSE_BURN
      else
        .all
          [ .when (!kept) (.modFuses fun f => { f with records := f.records ++ [(k, n, s.lcRecord day, false)] }),
            if left = 0 then .stopStart .CFG_FUSE_BURN
            else
              .all
                [ .look fun s =>
                    let open_ (r : Nat × Nat × BitVec 64 × Bool) : Bool :=
                      r.1 == k && r.2.1 == n && !r.2.2.2 && bits r.2.2.1.toNat 39 0 == leAt s.boot.configDigest 0 5
                    .modFuses fun f =>
                      { f with records := f.records.map fun r => if open_ r then (r.1, r.2.1, r.2.2.1, true) else r },
                  .showLc k n, Act.burn day rest (left - 1) ] ]

/-- FUSE_ADVANCE (R494 to R496): the advances that the chosen image asks for are burned on TAI day `day`; `good` burns read
back before one fails, 255 when none fails. -/
def execFuseAdvance (day : BitVec 24) (good : BitVec 8) (s : State) : Host.Outcome State Fault Refusal :=
  (Act.command <| .look fun s =>
    .when (decide (sgMemory ≤ s.stage) && decide (s.stage ≤ sgHeld) && !s.boot.advanced)
      (.burn day.toNat s.asked (if good = 255 then 2 * s.asked.length else good.toNat))).outcome s

/-! ### The first sailing (R491, R492) -/

/-- No image of the MAPPED area is named any more: its blocks become releasable, and the images, history records, replay
logs and staged bundles in it are gone (R210, R492). -/
def Act.dropMapped : Act :=
  .look fun s =>
    .all
      [ .modTier fun t => { t with images := [], history := [] },
        .modNand fun n => { n with logs := [], bundles := [] },
        .when (decide (s.get F.FLASH_CFG_IFACE ≠ 0))
          ((Act.each (s.flash.blocks.filter fun e => e.2.use == 1 && !s.flash.drain.contains e.1) fun e =>
            .modBlock e.1 fun b => { b with use := 2 }).andThen .sweepBlocks) ]

/-- FIRST_SAILING (R21, R491, R492): at the boundary of sailing `n` the first sailing starts, with the time ready or GO written,
and the advances made. It runs no timetable (R21). `telem` and `temp` are what the sensors read (R592). -/
def execFirstSailing (n : BitVec 48) (telem : BitVec 64) (temp : BitVec 32) (s : State) :
    Host.Outcome State Fault Refusal :=
  (Act.command <| .look fun s =>
    let ready := (s.stage == sgTime && s.timeReady && !s.boot.held) || (s.stage == sgHeld && s.boot.go)
    .when (ready && s.stopped && (s.boot.advanced || s.asked.isEmpty))
      (.all
        [ .modSail fun x => { x with commit := none, accepted := false },
          .latch n.toNat 0 telem temp, .set F.CFG_STATUS_STAGE sgRunning, .dropMapped ])).outcome s

/-- A write of 1 to CFG_CONTROL.GO (R491): a locked write while a restore runs. -/
def Act.go : Act :=
  .look fun s =>
    .when (s.stage == sgHeld)
      (if s.ckState = ckRestore ∨ s.ckState = ckResume then .lockedWrite Reg.CFG_CONTROL.info.off
      else .modBoot fun b => { b with go := true })

/-- CFG_GO (R491, R498): a write of GO in HELD. -/
def execCfgGo (agent : Agent) (s : State) : Host.Outcome State Fault Refusal := (Act.command <| .byCore agent .go).outcome s

/-! ### New images (R480, R513) -/

/-- Write a copy of the image in the configuration store: A at offset 0, B at half its density. A copy takes up to half the
part, and a longer one is not written (R475). -/
def Act.writeCopy (c : Nat) (b : List Byte) : Act :=
  .when (decide (2 * b.length ≤ Config.norBytes))
    (.modFuses fun f => if c = 0 then { f with copyA := b } else { f with copyB := b })

/-- An image received in RECOVERY is checked, and written over the copy that failed, or over copy B when both have. -/
def Act.recoveryImage (b : List Byte) : Act :=
  .look fun s => .when (s.imgCandidate b) (.writeCopy (if s.boot.failed.contains 1 then 1 else 0) b)

/-- RECOVERY_IMAGE (R480). -/
def execRecoveryImage (image : List (BitVec 8)) (s : State) : Host.Outcome State Fault Refusal :=
  (Act.command <| .look fun s => .when (s.stage == sgRecovery) (.recoveryImage image)).outcome s

/-- PLDM_UPDATE (R480, R513): an image delivered by PLDM is checked, and written to the copy not chosen at the last start;
in RECOVERY, as R480 says. -/
def execPldmUpdate (image : List (BitVec 8)) (s : State) : Host.Outcome State Fault Refusal :=
  (Act.command <| .look fun s =>
    if s.stage = sgRecovery then .recoveryImage image
    else
      .when (decide (sgImage < s.stage) && s.imgCandidate image)
        (.writeCopy (1 - s.get F.CFG_STATUS_COPY) image)).outcome s

end Sys2Proof.Machine
end

