-- ==== Sys2Proof/Machine/RegWrite.lean ====
section
/-! DEFINITION. Register writes (R6, R26, R27, R453, R462, R483, R598, R601 to R603), stores by the control cores and
management cores (R22, R557, R598), the MSI-X table (R453, R463), and the debug port (R522, R616). -/

namespace Sys2Proof.Machine

/-! ### Writes by access class -/

/-- The bits of an element's fields whose access passes a test. -/
def accMask (r : Reg) (i : Nat) (p : Access → Bool) : BitVec 128 := BitVec.ofNat 128 (accessBits r i p)

/-- A field covers a bit of a mask. -/
def covers (f : Field) (m : BitVec 128) : Bool := decide (maskBits f.hi f.lo &&& m.toNat ≠ 0)

/-- The bits of some fields. -/
def fieldsMask (fs : List Field) : BitVec 128 := fs.foldl (fun m f => m ||| BitVec.ofNat 128 (maskBits f.hi f.lo)) 0

/-- What a register is written to hold: SL fields as their shadows have them, others live. -/
def State.written (s : State) (r : Reg) (i : Nat) : BitVec 128 :=
  (s.reg r i &&& ~~~slMask r) ||| (s.shadowReg r i &&& slMask r)

/-- Bits of a write that software may change: those of SL and RW fields. -/
def softMask (r : Reg) (i : Nat) : BitVec 128 := accMask r i fun a => a == .SL || a == .RW

/-- The fields named in a condition that a write of the bits `w` does not meet. -/
def State.broken (s : State) (r : Reg) (i : Nat) (w v : BitVec 128) : List Field :=
  let cand := (s.written r i &&& ~~~w) ||| (v &&& w)
  ((encRules r).filter fun c => c.fields.any (covers · w) && !c.ok s i cand).flatMap (·.fields)

/-- The fields of a write that keep their previous values because the write carries a reserved encoding (R6): those of a
condition that the write does not meet, or that what is left of it would not meet. -/
def State.refused (s : State) (r : Reg) (i : Nat) (m v : BitVec 128) : List Field :=
  let w := m &&& softMask r i
  let bad := s.broken r i w v
  bad ++ s.broken r i (w &&& ~~~fieldsMask bad) v

/-- A write would change a WL or LC field (R483). -/
def State.locksOut (s : State) (r : Reg) (i : Nat) (m v : BitVec 128) : Bool :=
  decide ((s.reg r i ^^^ v) &&& m &&& accMask r i (fun a => a == .WL || a == .LC) ≠ 0)

/-- A write of the bits `m` of an element by access class (R6, R26, R27, R483): locked fields stay and are flagged, fields
with a reserved encoding stay and are recorded, RW fields take effect at once, SL fields go to the shadow and, while the
device is stopped, to the live field too; RW1C bits written 1 clear. -/
def Act.classWrite (r : Reg) (i off : Nat) (m v : BitVec 128) : Act :=
  .look fun s =>
    let bad := s.refused r i m v
    let w := m &&& softMask r i &&& ~~~fieldsMask bad
    let rw := w &&& ~~~slMask r
    let sl := w &&& slMask r
    let clear := m &&& v &&& accMask r i (· == .RW1C)
    .all
      [ .when (s.locksOut r i m v) (.lockedWrite off),
        .when (!bad.isEmpty) .reservedWrite,
        .look fun s => .one (.reg r i (((s.reg r i &&& ~~~rw) ||| (v &&& rw)) &&& ~~~clear)),
        .when (decide (sl ≠ 0))
          (.all
            [ .one (.shadow r i ((s.shadowReg r i &&& ~~~sl) ||| (v &&& sl))),
              .when s.stopped
                (.all [.setLive r i sl v, .when (r == .EGR_GCL_CTRL) .switchGates]),
              .showPending ]) ]

/-! ### Host windows (R462, R467) -/

/-- A DATA window holds an enabled ring, the record area or an open request's buffers (R462). -/
def State.windowUsed (s : State) (w : Nat) : Bool :=
  let x := s.window w
  let inside (a n : Nat) : Bool := decide (n ≠ 0) && decide (x.base < a + n) && decide (a < x.base + x.size)
  let named (a n : Nat) : Bool := decide (n ≠ 0) && winOf (if w < 64 then 3 else 4) a == some w
  ((List.range 64).any fun r => s.flag F.HOST_RING_ENABLE r && inside (s.ringBase r) (s.ringBytes r))
    || s.get F.HOST_CFG_RECORD_WIN == w
    || s.host.requests.any fun q => named q.data q.dataLen || named q.out q.outLen

/-- A write that disables a window is ignored (R462). -/
def State.windowBusy (s : State) (w : Nat) : Bool :=
  let x := s.window w
  (x.use == 1 && decide (s.windowCount w ≠ 0)) || (x.use == 2 && s.windowUsed w)

/-- The fields of a window: BASE, SIZE, LINK. -/
def fixedFields (w : Nat) : List Field :=
  if w < 64 then [F.HOST_WIN_BASE, F.HOST_WIN_SIZE, F.HOST_WIN_LINK]
  else [F.HOST_CXL_WIN_BASE, F.HOST_CXL_WIN_SIZE, F.HOST_CXL_WIN_LINK]

def useField (w : Nat) : Field := if w < 64 then F.HOST_WIN_USE else F.HOST_CXL_WIN_USE
def lostField (w : Nat) : Field := if w < 64 then F.HOST_WIN_LOST else F.HOST_CXL_WIN_LOST

/-- A write to a window, from 64 on of the CXL space (R192, R462, R467): what may not change while the window is enabled
stays and is counted, writing LOST reports loss, DRAIN empties a MOOR window, and a window that becomes disabled is no
longer LOST. -/
def Act.windowWrite (w off : Nat) (m v : BitVec 128) : Act :=
  .look fun s =>
    let r : Reg := if w < 64 then .HOST_WIN else .HOST_CXL_WIN
    let i := if w < 64 then w else w - 64
    let old := s.reg r i
    let changes (f : Field) : Bool := decide ((old ^^^ v) &&& m &&& fieldsMask [f] ≠ 0)
    let held := (if (s.window w).use = 0 then [] else (fixedFields w).filter changes)
      ++ (if changes (useField w) && inField (useField w) v == 0 && s.windowBusy w then [useField w] else [])
    .all
      [ .when (!held.isEmpty) (.count .HOST_WIN_BUSY_COUNT),
        .classWrite r i off (m &&& ~~~fieldsMask held) v,
        .when (covers (lostField w) (m &&& v)) (.reportLost w),
        .look fun s =>
          if (s.window w).use = 0 then .when (inField (useField w) old != 0) (.set (lostField w) 0 i)
          else .when ((s.window w).use == 1 && (s.window w).drain && !bit old.toNat 6) (.drainWindow w),
        .showMoor ]

/-! ### Registers that act (R603) -/

/-- The submission registers (R117, R146, R174, R245, R299, R328, R345, R367). -/
def submitReg : Reg → Option SubmitUnit
  | .SDIR_SUBMIT => some .sdir
  | .BERTH_SUBMIT => some .berth
  | .FERRY_SUBMIT => some .ferry
  | .NMU_SUBMIT => some .nmu
  | .TEXT_SUBMIT => some .text
  | .SAMP_SUBMIT => some .samp
  | .SEAL_SUBMIT => some .seal
  | .RCL_SUBMIT => some .rcl
  | _ => none

/-- Registers that take effect only as a 64-bit write (R601). -/
def wholeOnly (r : Reg) : Bool :=
  (submitReg r).isSome || [Reg.CHART_STAGE, .BOLL_POST, .IRQ_END, .BOLL_WAIT, .CKPT_CONTROL].contains r

/-- CKPT_CONTROL is written (R6, R285, R293): a control core sets its own READY bit. A write of RESTORE while the device is
not stopped is ignored as a whole. -/
def Act.ckptControl (agent : Agent) (v : Nat) : Act :=
  .look fun s => if bit v 17 && !s.stopped then .reservedWrite else .all
    [ match agent with
      | .control c =>
        .look fun s => .when (bit v c.val) (.set F.CKPT_CONTROL_READY (s.get F.CKPT_CONTROL_READY ||| 2 ^ c.val))
      | _ => .done,
      .when (bit v 16) (.ckptAbandon 7),
      .look fun s =>
        .when (bit v 17) (.restoreStart (s.ckpt.records.get (fun _ => []) 0) (s.ckpt.records.get (fun _ => []) 1)) ]

/-- A write of the bits `m` of a register word, `off` its BAR0 offset: the register's own action, or its access classes. -/
def Act.wordWrite (agent : Agent) (r : Reg) (i off : Nat) (m v : BitVec 128) : Act :=
  let x := (v &&& m).toNat
  let on (f : Field) : Bool := covers f m
  match submitReg r with
  | some u =>
    let a := x &&& (fieldMask r).toNat
    (Act.one (.reg r i (BitVec.ofNat 128 a))).andThen (.submit u i a)
  | none =>
    match r with
    | .SAIL_TT_COMMIT => .ttCommit (bits x 47 0)
    | .SAIL_TAI_SECONDS => .taiSeconds (bits x 47 0)
    | .SAIL_WATCH_KICK => .when (bit x 0) (.kick i)
    | .CHART_STAGE => .all [.set F.CHART_STAGE_EPOCH (bits x 31 0), .stageChart (bits x 31 0), .advanceStage]
    | .CKPT_CONTROL => .ckptControl agent x
    | .CFG_CONTROL =>
      if bit x 1 then .all [.one .reboot, .modBoot fun b => { b with cold := false }] else .when (bit x 0) .go
    | .CFG_PKG_FETCH => .when (on F.CFG_PKG_FETCH_TYPE) (.pkgFetch (bits x 63 48) (bits x 47 16))
    | .ERR_POP =>
      match agent with
      | .mgmt => .when (bit x 0) .errPop
      | _ => .done
    | .IRQ_SRC => (Act.classWrite r i off m v).andThen (.look fun s => .present (s.irqTarget i))
    | .IRQ_END => .endWrite i x
    | .BOLL_POST => .postWrite x
    | .BOLL_WAIT =>
      if bit x 31 then (Act.set F.BOLL_WAIT_INDEX (bits x 14 0) i).andThen (.waitCancel i) else .waitJoin i (bits x 14 0)
    | .BOLL_COUNT => .when (on F.BOLL_COUNT_COUNT) (.countWrite i (bits x 15 0))
    | .HOST_WIN => .windowWrite i off m v
    | .HOST_CXL_WIN => .windowWrite (64 + i) off m v
    | .EGR_GCL =>
      .look fun s =>
        if s.get F.EGR_GCL_CTRL_ACTIVE (i / 128) = i / 64 % 2 then .raise .EGR_GCL_WRITE_ACTIVE { detail := i }
        else .classWrite r i off m v
    | _ => .classWrite r i off m v

/-! ### BAR0 (R453, R599 to R601) -/

/-- A HOST_ register or counter lies at a BAR0 offset (R453, R599). -/
def hostRegAt (off : Nat) : Bool :=
  decide (0x1200000 ≤ off) && decide (off < 0x1300000)
    && ((regWordAt (off / 8 * 8)).isSome || (counterAt (off / 8 * 8)).isSome)

/-- A 32-bit write covers part of a field that spans bits 31 and 32 of its word (R601). -/
def spans (r : Reg) (word : Nat) : Bool :=
  r.fields.any fun f => decide (f.lo ≤ 64 * word + 31) && decide (64 * word + 32 ≤ f.hi)

/-- A write of `n` bytes at a BAR0 offset (R453, R483, R599 to R601). -/
def Act.barWrite (agent : Agent) (off n : Nat) (v : BitVec 64) : Act :=
  if agent = .host ∧ !hostRegAt off then .count .HOST_WRITE_DENIED_COUNT
  else if (n ≠ 4 ∧ n ≠ 8) ∨ off % n ≠ 0 then .raise .ERR_PARTIAL_WRITE { address := off }
  else
    match regWordAt (off / 8 * 8) with
    | none => .done
    | some w =>
      if n = 4 && (wholeOnly w.reg || spans w.reg w.word) then .raise .ERR_PARTIAL_WRITE { address := off }
      else
        let at_ := 64 * w.word + 8 * (off % 8)
        let m : BitVec 128 := BitVec.ofNat 128 ((2 ^ (8 * n) - 1) <<< at_)
        .wordWrite agent w.reg w.index (off / 8 * 8) m ((v.setWidth 128 <<< at_) &&& m)

/-! ### Stores (R22, R557, R598) -/

/-- A device address range meets a timetable buffer of the current sailing's parity (R17, R22). -/
def State.inTimetable (s : State) (a n : Nat) : Bool :=
  !s.stopped && [0, 1].any fun half =>
    decide (s.ttBase half (s.now % 2) < a + n) && decide (a < s.ttBase half (s.now % 2) + 0x280100)

/-- A store of a control core or of management firmware at a device address; one to the HBM of an island in POWER_OFF wakes
the island (R582). -/
def Act.coreStore (agent : Agent) (a n : Nat) (v : BitVec 64) : Act :=
  .look fun s =>
    match s.place a with
    | .register off => .barWrite agent off n v
    | _ =>
      if !s.memRange a n then .unmapped a
      else
        (match s.hbmKey a with | some k => Act.wakeGranule (k / granuleBytes) | none => .done).andThen
          (match agent with
          | .control _ =>
            if s.inTimetable a n then .raise .SAIL_TT_WRITE_ACTIVE { address := a } else .store a (leBytes n v.toNat)
          | _ => .store a (leBytes n v.toNat))

/-! ### BAR2 (R453, R463) -/

/-- A host write to BAR2: the MSI-X table takes it; the pending bits are read only. -/
def Act.msixWrite (off n : Nat) (v : BitVec 64) : Act :=
  .look fun s =>
    let k := off / 16
    if (n ≠ 4 ∧ n ≠ 8) ∨ off % n ≠ 0 ∨ 72 ≤ k then .done
    else
      let old := s.host.msixTable.get msixDefault k
      let m : BitVec 128 := BitVec.ofNat 128 ((2 ^ (8 * n) - 1) <<< (8 * (off % 16)))
      let new := (old &&& ~~~m) ||| ((v.setWidth 128 <<< (8 * (off % 16))) &&& m)
      (Act.modHost fun h => { h with msixTable := h.msixTable.put msixDefault k new }).andThen
        (.when (bit old.toNat 96 && !bit new.toNat 96) (.vectorUnmasked k))

/-- REGISTER_WRITE (R483): a write of `width` bytes by an agent: to a BAR0 offset, to BAR2 by the host, or a store at a
device address by a control core or management core. -/
def execRegisterWrite (agent : Agent) (place : WritePlace) (width : BitVec 4) (value : BitVec 64) (s : State) :
    Host.Outcome State Fault Refusal :=
  (Act.command <|
    match place with
    | .bar0 off => .barWrite agent off.toNat width.toNat value
    | .bar2 off => .when (agent == .host) (.msixWrite off.toNat width.toNat value)
    | .device a =>
      .when (agent != .host && decide (1 ≤ width.toNat) && decide (width.toNat ≤ 8)) (.coreStore agent a.toNat width.toNat value)).outcome s

/-! ### The debug port (R522, R616) -/

/-- DEBUG_TAP_INSTRUCTION (R522, R616): boundary scan leaves the state as it is. A debug access instruction (`debug`) is not
decoded while the debug lock is closed; while it is open, the spec gives debug access no effect of its own. -/
def execDebugTapInstruction (debug : Bool) (s : State) : Host.Outcome State Fault Refusal :=
  if debug && s.debugOpen then .fault .debugAccess else .next s

end Sys2Proof.Machine
end

