-- ==== Sys2Proof/Machine/Seal.lean ====
section
/-! DEFINITION. The sampler (R329 to R335) and the seal engine (R336 to R347, R521). -/

namespace Sys2Proof.Machine

/-! ### The sampler -/

/-- SAMPLE (R332, R333) draws with the generator key of `session`'s key slot (R334, R518). -/
def execSample (addr : BitVec 48) (session : BitVec 64) (s : State) : Host.Outcome State Fault Refusal :=
  (Act.command <| .sampTake addr.toNat (· == 1) fun e =>
    .look fun s =>
      let n := pN e
      let v := s.vocab
      let lt := ceilDiv (4 * v) 16384
      let mt := ceilDiv (ceilDiv v 8) 16384
      if pReserved e then .sampReject e 1
      else if n > 32 then .sampReject e 3
      else
        match s.ctxAt e, s.clientRange (pLogits e) (lt * 16416),
            s.clientRange (if pMaskOn e then pMask e else pLogits e) (if pMaskOn e then mt * 16416 else 0),
            s.clientRange (if n = 0 then pLogits e else pTokens e) (4 * n) with
        | some ctx, some logits, some mask, some tokens =>
          if logits % 16384 ≠ 0 ∨ (pMaskOn e ∧ mask % 16384 ≠ 0) then .sampReject e 4
          else match (s.lostLine ctx ctxBytes).or (s.lostLine tokens (4 * n)) with
            | some k => (Act.entryLost k { tag := pTag e }).andThen (.sampReject e 4)
            | none =>
            let c := s.readMem ctx ctxBytes
            if s.ctxReserved c then .sampReject e 2
            else if !((List.range lt).all (s.tileVerifies logits (logits + lt * 16384)))
                || (pMaskOn e && !((List.range mt).all (s.tileVerifies mask (mask + mt * 16384)))) then
              .all
                [ match (s.lostLine logits (lt * 16416)).or (s.lostLine mask (if pMaskOn e then mt * 16416 else 0)) with
                    | some k => .entryLost k { tag := pTag e }
                    | none => .done,
                  .manifestFail, .raise .ERR_MANIFEST { tag := pTag e }, .sampDone e psManifest [] ]
            else
              match s.findSession session.toNat with
              | none => .sampReject e 4
              | some i =>
                match s.slotKey session.toNat (rKeySlot (s.recBytes i)) with
                | none => (Act.slotTag session.toNat (pTag e)).andThen (.sampDone e psManifest [])
                | some key =>
                  let drafts := (List.range n).map (s.tokenAt tokens)
                  let counts := (countTokens (cCounts c) drafts).1
                  let ls := (List.range v).map fun j => (BitVec.ofNat 32 (s.readLE (logits + 4 * j) 4) : F32)
                  let m := s.readMem mask (ceilDiv v 8)
                  let mk := if pMaskOn e then some fun t => bit (m.getD (t / 8) 0).toNat (t % 8) else none
                  let o := s.sample c counts ls mk (pGen e) (drawU key (pPos e) 0)
                  let status := if o.status ≤ psEmptyEnd && pExpectOn e && o.token ≠ pExpect e then psMismatch else o.status
                  let sticky := cSticky c ||| (if o.short then 1 else 0) ||| (if o.status = psEmptyEnd then 2 else 0)
                    ||| (if o.nonfinite then 8 else 0)
                  .all
                    [ .store (ctx + 0x84) (leBytes 4 sticky),
                      .when o.short (.count .SAMP_SHORT_COUNT),
                      .when (o.status == psEmptyEnd) (.count .SAMP_EMPTY_END_COUNT),
                      .when (o.status == psDeadEnd)
                        ((Act.count .SAMP_DEAD_END_COUNT).andThen
                          (.raise .GRAMMAR_DEAD_END { tag := pTag e, session := session.toNat })),
                      .when (status == psMismatch) (.count .SAMP_REPLAY_MISMATCH_COUNT),
                      .sampDone e status [o.token, status, if o.short then 1 else 0, if o.nonfinite then 1 else 0] ]
        | _, _, _, _ => .sampReject e 4).outcome s

/-- SAMP_COUNT, the sampler operation COUNT (R331). -/
def execSampCount (addr : BitVec 48) (s : State) : Host.Outcome State Fault Refusal :=
  (Act.command <| .sampTake addr.toNat (· == 2) fun e =>
    .look fun s =>
      let n := pN e
      if pReserved e then .sampReject e 1
      else if n = 0 ∨ n > 64 then .sampReject e 3
      else match s.ctxAt e, s.clientRange (pTokens e) (4 * n) with
        | some ctx, some tokens =>
          match (s.lostLine ctx ctxBytes).or (s.lostLine tokens (4 * n)) with
            | some k => (Act.entryLost k { tag := pTag e }).andThen (.sampReject e 4)
            | none =>
              let c := s.readMem ctx ctxBytes
              let r := countTokens (cCounts c) ((List.range n).map (s.tokenAt tokens))
              let full := decide (r.2 > 0)
              .all
                [ .store (ctx + 0x80) (leBytes 4 r.1.length ++ leBytes 4 (cSticky c ||| (if full then 4 else 0))),
                  .store (ctx + 0x100) (countBytes r.1),
                  .countN .SAMP_COUNT_FULL_COUNT r.2, .sampDone e psOk [] ]
        | _, _ => .sampReject e 4).outcome s

/-- SAMP_RESET, the sampler operation RESET (R330): ENTRIES, STICKY and COUNTS are cleared. -/
def execSampReset (addr : BitVec 48) (s : State) : Host.Outcome State Fault Refusal :=
  (Act.command <| .sampTake addr.toNat (· == 3) fun e =>
    .look fun s =>
      if pReserved e then .sampReject e 1
      else match s.ctxAt e with
        | some ctx =>
          match (s.lostPart (ctx + 0x80) 8).or (s.lostPart (ctx + 0x100) 32768) with
          | some k => (Act.lineLost k { tag := pTag e }).andThen (.sampReject e 4)
          | none =>
            .all
              [ .store (ctx + 0x80) (List.replicate 8 0), .store (ctx + 0x100) (List.replicate 32768 0),
                .sampDone e psOk [] ]
        | none => .sampReject e 4).outcome s

/-- SAMP_BAD_OP (R329): a reserved operation. -/
def execSampBadOp (addr : BitVec 48) (s : State) : Host.Outcome State Fault Refusal :=
  (Act.command <| .sampTake addr.toNat (fun o => o == 0 || decide (o ≥ 4)) fun e => .sampDone e psBadOp []).outcome s

/-! ### The seal engine -/

/-- The record of the session a command names: NO_SESSION without one; one that fails its CRC faults the session
(R94, R347). -/
def Act.sealSession (e : List Byte) (body : Nat → List Byte → Act) : Act :=
  .look fun s =>
    match s.findSession (eSession e) with
    | none => .sealDone e esNoSession 0
    | some i =>
      if s.hbmOk i then body i (s.recBytes i)
      else (Act.recordBad i (eTag e)).andThen (.sealDone e esNoSession 0)

/-- LOG_APPEND (R336, R346). -/
def execLogAppend (addr : BitVec 48) (s : State) : Host.Outcome State Fault Refusal :=
  (Act.command <| .sealTake addr.toNat (· == 1) fun e =>
    .look fun s =>
      let n := eLength e
      let tiles := ceilDiv n 16384
      if eReserved e || decide (n > 0x4000000) || decide (eType e = 0) || decide (eType e > 7)
          || eArg e % 16384 ≠ 0 || !s.hbmRange (eArg e) (tiles * 16416) then .sealDone e esRejected 0
      else
        .sealSession e fun i b =>
          if !((List.range tiles).all (s.tileVerifies (eArg e) (eArg e + tiles * 16384))) then
            .all
              [ match s.lostLine (eArg e) (tiles * 16416) with
                  | some k => .lineLost k { tag := eTag e, session := eSession e }
                  | none => .done,
                .manifestFail, .raise .ERR_MANIFEST { tag := eTag e, session := eSession e }, .sealDone e esManifest 0 ]
          else (Act.logAppend i (eType e) (s.readMem (eArg e) n)).andThen (.sealDone e esOk (rLogSeq b))).outcome s

/-- TICKET (R338, R346). -/
def execTicket (addr : BitVec 48) (s : State) : Host.Outcome State Fault Refusal :=
  (Act.command <| .sealTake addr.toNat (· == 2) fun e =>
    .look fun s =>
      if eReserved e then .sealDone e esRejected 0
      else
        .sealSession e fun _ b =>
          let id := rId b
          let out := (s.log id).getD (eSeqA e) []
          let p := lPayload out
          if eSeqA e ≥ (s.log id).length || lType out ≠ 6 then .sealDone e esMismatch 0
          else if !s.logOk id (eSeqA e) || !s.logOk id (eSeqB e) then .sealDone e esLogBroken 0
          else if eReqTag e ≠ rTag b || eEndReason e ≠ outEndReason p || eStopString e ≠ outStopString p
              || eStopIndex e ≠ outStopIndex p then .sealDone e esMismatch 0
          else
            .all
              [ .count .SEAL_TICKET_COUNT, .tenantTicket (tenantOf id) (outTokens p),
                .placeInSet e (s.ticketOf e b) ]).outcome s

/-- VERDICT (R344, R346): a verdict ticket from the original ticket. -/
def execVerdict (addr : BitVec 48) (s : State) : Host.Outcome State Fault Refusal :=
  (Act.command <| .sealTake addr.toNat (· == 3) fun e =>
    .look fun s =>
      if eReserved e || eArg e % 64 ≠ 0 || !s.hbmRange (eArg e) 256 || eVerdict e = 0 || eVerdict e > 6 then
        .sealDone e esRejected 0
      else
        .sealSession e fun _ _ =>
          match s.lostLine (eArg e) 256 with
          | some k => (Act.lineLost k { tag := eTag e }).andThen (.sealDone e esMismatch 0)
          | none =>
            let t := s.readMem (eArg e) 256
            if !ticketParses t || leAt t 8 8 ≠ eSession e then .sealDone e esMismatch 0
            else
              let flags := leAt t 0x30 2 ||| (if s.debugOpen then 128 else 0)
              let v := setAll t
                [(0, 4, 0x20001), (0x2C, 4, if eVerdict e = 2 then eStopIndex e else leAt t 0x2C 4), (0x30, 2, flags),
                  (0x36, 1, eVerdict e)]
              .all
                [ .count .SEAL_VERDICT_COUNT, .placeInSet e (v.take 0xE0 ++ dig32 (sha384 t)) ]).outcome s

/-- `x` rounded up to units of `u`, cut to `b` bits. -/
def roundUpTo (b u x : Nat) : Nat := ceilDiv x u % 2 ^ b

/-- The report of a tenant for the last period (R521); the mean package power is what was measured, in mW. -/
def State.tenantReport (s : State) (t power : Nat) : List Byte :=
  let m := s.get F.SEC_COARSE_MIN_S
  let q := s.get F.SEC_COARSE_COUNT_Q
  let st := s.get F.SEC_COARSE_POWER_STEP
  let x := (s.sealer.sums.get (fun _ => {}) t).at s.period
  let berths := ((List.range 4).map fun c => s.quota t (0x10 + 2 * c) 2).foldl (· + ·) 0 % 65536
  let used := berths + roundUpTo 24 1024 (s.quota t 0x20 8) * 2 ^ 16 + roundUpTo 24 1000 (s.quota t 0x30 8) * 2 ^ 40
  let body := leBytes 2 t ++ List.replicate 6 0 ++ leBytes 8 ((s.period - 1) * m) ++ leBytes 8 (s.period * m)
    ++ leBytes 8 (x.lastTurns / max 1 q * q) ++ leBytes 8 (x.lastTokens / max 1 (64 * q) * (64 * q)) ++ leBytes 8 used
    ++ leBytes 4 ((power + 500 * st) / (1000 * max 1 st) * st) ++ leBytes 1 (if s.pwr.lowered.any (· + 1 = s.period) then 1 else 0) ++ List.replicate 71 0
  body ++ leBytes 4 (crc32c body)

/-- TENANT_REPORT (R521): the report of the last period, the same record for every request within one period; the
mean package power of that period is measured in W and thousandths. -/
def execTenantReport (addr : BitVec 48) (power : BitVec 32) (milli : Fin 1000) (s : State) :
    Host.Outcome State Fault Refusal :=
  (Act.command <| .sealTake addr.toNat (· == 4) fun e =>
    .look fun s =>
      match s.dataAddr 3 (eArg e) 128 with
      | none => .sealDone e esRejected 0
      | some a =>
        if eReserved e || eArg e % 64 ≠ 0 then .sealDone e esRejected 0
        else
          let t := eType e
          let kept := s.sealer.reports.get (fun _ => (0, [])) t
          let r := if kept.1 = s.period + 1 then kept.2 else s.tenantReport t (1000 * power.toNat + milli)
          .all
            [ .modSealer fun x => { x with reports := x.reports.put (fun _ => (0, [])) t (s.period + 1, r) },
              .writeHost a r, .sealDone e esOk 0 ]).outcome s

/-- SEAL_BAD_OP (R346): a reserved operation. -/
def execSealBadOp (addr : BitVec 48) (s : State) : Host.Outcome State Fault Refusal :=
  (Act.command <| .sealTake addr.toNat (fun o => o == 0 || decide (o ≥ 5)) fun e => .sealDone e esBadOp 0).outcome s

/-- TICKET_SET_CLOSE (R340, R342): the set of the sailing closes, and the deferred tickets begin the next one. No set
closes while sailings are stopped or the seal ring is full, and each sailing's closes once. -/
def execTicketSetClose (s : State) : Host.Outcome State Fault Refusal :=
  (Act.command <| .look fun s =>
    if s.stopped || s.sealer.ringFull || s.sealer.lastClosed == some s.now then .done
    else
      let most := max 1 (s.get F.SEAL_CFG_MAX_TICKETS)
      .all
        [ .modSealer fun x =>
            { x with
              closed := x.closed ++ [(s.now, x.set.mapIdx fun i t => placeTicket t s.now i)],
              set := x.deferred.take most, deferred := x.deferred.drop most, lastClosed := some s.now },
          .set F.SEAL_STATUS_BACKLOG (s.sealer.closed.length + 1) ]).outcome s

/-- SEAL_RECORD_WRITE (R340, R342): the oldest closed set is signed and written to the seal ring, its tickets first;
`drained` is how many bytes of the ring session firmware has drained since start-up. Without room, or without random
values for the signature (R506), nothing is written. -/
def execSealRecordWrite (drained : Nat) (s : State) : Host.Outcome State Fault Refusal :=
  (Act.command <| .look fun s =>
    match s.sealer.closed with
    | [] => .done
    | (n, ts) :: rest =>
      if !s.entropyOk then .done
      else
        let body := s.sealBody n ts
        let record := padTo 3648 (body ++ s.identitySign body)
        let bytes := ts.flatten ++ record
        if s.sealer.written - drained + bytes.length > s.get F.SEAL_RING_SIZE_BYTES then
          .modSealer fun x => { x with ringFull := true }
        else
          .all
            [ .drbgDraws 1, .ringWrite bytes,
              .modSealer fun x => { x with closed := rest, prev := sha384 body, ringFull := false },
              .set F.SEAL_STATUS_BACKLOG rest.length, .set F.SEAL_STATUS_LAST_SEALED n,
              .when (decide (s.now ≥ n + 2)) (.count .SEAL_LATE_COUNT), .interrupt 0x44 ]).outcome s

end Sys2Proof.Machine
end

