-- ==== Sys2Proof/Machine/Text.lean ====
section
/-! DEFINITION. The text commands (R301): streams, tokenising, detokenising, stop sets and grammar queries. -/

namespace Sys2Proof.Machine

/-- TOK_OPEN (R301): the stream opens for tokenising with a cleared context. -/
def execTokOpen (addr : BitVec 48) (s : State) : Host.Outcome State Fault Refusal :=
  (Act.command <| .textTake addr.toNat (· == 1) fun e => .textChecked e <|
    .look fun s =>
      if (s.stream (xStream e)).isSome then .textDone e xsBadStream []
      else .all [.setStream (xStream e) (some { detok := false }), .textDone e xsOk []]).outcome s

/-- TOK_FEED (R303, R311 to R313): the input tiles are checked before any byte is used; the tokens go to DST_ADDR as
tiles with manifests. -/
def execTokFeed (addr : BitVec 48) (s : State) : Host.Outcome State Fault Refusal :=
  (Act.command <| .textTake addr.toNat (· == 2) fun e => .textChecked e <|
    .look fun s =>
      let len := xLen e
      let tiles := ceilDiv len 16384
      match s.stream (xStream e) with
      | none => .textDone e xsBadStream []
      | some x =>
        if x.detok || x.ended then .textDone e xsBadStream []
        else
          let cap := xCap e
          match s.clientRange (xSrc e) (tiles * 16416), s.clientRange (xDst e) (cap + cap / 16384 * 32) with
          | some src, some dst =>
            if src % 16384 ≠ 0 ∨ dst % 16384 ≠ 0 ∨ cap % 16384 ≠ 0 ∨ cap < ceilDiv (4 * (len + 259)) 16384 * 16384 then
              .textDone e xsRejected []
            else if !((List.range tiles).all (s.tileVerifies src (src + tiles * 16384))) then
              .all
                [ match s.lostLine src (tiles * 16416) with
                    | some k => .entryLost k { tag := xTag e }
                    | none => .done,
                  .manifestFail, .raise .ERR_MANIFEST { tag := xTag e }, .textDone e xsManifest [] ]
            else
              let o := s.feed x (s.readMem src len) (xLast e)
              match s.tilesLost dst (dst + cap) (4 * o.tokens.length) with
              | some k => .textLost e k
              | none => .all
                [ .writeTiles dst (dst + cap) (o.tokens.flatMap (leBytes 4)),
                  .setStream (xStream e) (some o.stream),
                  .countN .TEXT_INVALID_BYTE_COUNT o.bad,
                  .when (xLast e && o.stream.truncated) (.count .TEXT_TRUNCATED_COUNT),
                  .textDone e xsOk
                    [o.tokens.length, o.stream.invalidCount, if o.stream.invalid then 1 else 0,
                      if o.stream.truncated then 1 else 0] ]
          | _, _ => .textDone e xsRejected []).outcome s

/-- DET_OPEN (R301, R321): the stream opens for detokenising with its stop set, and its grammar at its start state. -/
def execDetOpen (addr : BitVec 48) (s : State) : Host.Outcome State Fault Refusal :=
  (Act.command <| .textTake addr.toNat (· == 3) fun e => .textChecked e <|
    .look fun s =>
      let g := xGrammar e
      if (s.stream (xStream e)).isSome then .textDone e xsBadStream []
      else if g ≠ 0xFFFF ∧ g ≥ s.get F.TEXT_GRAM_CFG_GRAMMARS then .textDone e xsGrammar []
      else if g ≠ 0xFFFF ∧ (s.lostLine (s.get F.TEXT_GRAM_BASE_ADDR + 16 * g) 16).isSome then .gramLost e
      else
        .all
          [ .setStream (xStream e)
              (some { detok := true, slot := if xStopOn e then some (xSlot e) else none, grammar := g,
                      gstate := if g = 0xFFFF then 0 else s.gramStart g }),
            .textDone e xsOk [] ]).outcome s

/-- What a push has done so far. -/
structure PushOut where
  det : DetOut
  status : Nat := xsOk
  consumed : Nat := 0
  deriving DecidableEq, Repr

/-- Push tokens in order (R314, R315, R317, R318, R321). -/
def pushTokens (s : State) (stops : List (List Byte)) : List Nat → PushOut → PushOut
  | [], o => o
  | t :: ts, o =>
    let x := o.det.stream
    let join (d : DetOut) : DetOut := { d with released := o.det.released ++ d.released, replaced := o.det.replaced + d.replaced }
    let next :=
      if x.grammar = 0xFFFF then some x.gstate
      else if t ≥ s.vocab then none
      else s.gramNext x.grammar x.gstate t
    if x.grammar ≠ 0xFFFF ∧ t < s.vocab ∧ s.gramDark x.grammar x.gstate then { o with status := xsManifest } else
    match next with
    | none => { o with status := xsViolation }
    | some q =>
      if t ≥ s.vocab then { o with status := xsRejected }
      else
        let x := { x with gstate := q }
        if s.tokenEnd t then
          let d := join (detEnd stops { x with tokens := x.tokens + 1 })
          { det := d, status := if d.stop.isSome then xsStopped else xsEnded, consumed := o.consumed + 1 }
        else
          let d := join (s.detToken stops x t)
          if d.stop.isSome then { det := d, status := xsStopped, consumed := o.consumed + 1 }
          else pushTokens s stops ts { det := d, status := xsOk, consumed := o.consumed + 1 }

/-- A push or finish ends: bytes are written, the stream kept, events counted, and the completion reports (R301,
R315, R317, R327). -/
def Act.pushEnds (e : List Byte) (dst offset : Nat) (o : PushOut) : Act :=
  let x := o.det.stream
  .look fun s => match s.lostPart dst o.det.released.length with
  | some k => .textLost e k
  | none => .all
    [ .store dst o.det.released,
      .setStream (xStream e) (some x),
      .countN .TEXT_REPLACED_COUNT o.det.replaced,
      .when (o.status == xsStopped) (.count .TEXT_STOP_COUNT),
      .when (o.status == xsViolation) (.count .TEXT_VIOLATION_COUNT),
      .when (o.status == xsManifest)
        (.all [.manifestFail, .raise .ERR_MANIFEST { tag := xTag e }, .awaitSection 5 0 Err.ERR_MANIFEST.code]),
      .textDone e o.status
        [o.consumed, o.det.released.length, offset, o.det.stop.getD 0, x.tokens - 1, x.gstate,
          if o.det.replaced = 0 then 0 else 1] ]

/-- DET_PUSH (R314, R315, R317, R321). -/
def execDetPush (addr : BitVec 48) (s : State) : Host.Outcome State Fault Refusal :=
  (Act.command <| .textTake addr.toNat (· == 4) fun e => .textChecked e <|
    .look fun s =>
      match s.stream (xStream e) with
      | none => .textDone e xsBadStream []
      | some x =>
        let n := xLen e
        if !x.detok || x.ended then .textDone e xsBadStream []
        else if n = 0 ∨ n > 64 ∨ xCap e < 768 * n + 256 then .textDone e xsRejected []
        else match s.clientRange (xSrc e) (4 * n), s.clientRange (xDst e) (xCap e) with
          | some src, some dst =>
            match s.lostLine src (4 * n) with
            | some k => .textLost e k
            | none =>
              let ts := (List.range n).map fun i => s.readLE (src + 4 * i) 4
              .pushEnds e dst x.offset (pushTokens s (s.stopsOf x) ts { det := { stream := x } })
          | _, _ => .textDone e xsRejected []).outcome s

/-- DET_FINISH (R318). -/
def execDetFinish (addr : BitVec 48) (s : State) : Host.Outcome State Fault Refusal :=
  (Act.command <| .textTake addr.toNat (· == 5) fun e => .textChecked e <|
    .look fun s =>
      match s.stream (xStream e) with
      | none => .textDone e xsBadStream []
      | some x =>
        if !x.detok || x.ended then .textDone e xsBadStream []
        else if xCap e < 256 then .textDone e xsRejected []
        else match s.clientRange (xDst e) (xCap e) with
          | some dst =>
            let d := detEnd (s.stopsOf x) x
            .pushEnds e dst x.offset { det := d, status := if d.stop.isSome then xsStopped else xsEnded }
          | none => .textDone e xsRejected []).outcome s

/-- TEXT_CLOSE, the text operation CLOSE (R301): the stream and its stop-set reference are free. -/
def execTextClose (addr : BitVec 48) (s : State) : Host.Outcome State Fault Refusal :=
  (Act.command <| .textTake addr.toNat (· == 6) fun e => .textChecked e <|
    .look fun s =>
      if (s.stream (xStream e)).isNone then .textDone e xsBadStream []
      else (Act.setStream (xStream e) none).andThen (.textDone e xsOk [])).outcome s

/-- STOP_LOAD (R316): BAD_STOPS when the set breaks a rule or an open stream uses the slot. -/
def execStopLoad (addr : BitVec 48) (s : State) : Host.Outcome State Fault Refusal :=
  (Act.command <| .textTake addr.toNat (· == 7) fun e => .textChecked e <|
    .look fun s =>
      let used := s.text.streams.any fun p => match p.2 with
        | some x => x.slot == some (xSlot e)
        | none => false
      let set := match s.clientRange (xSrc e) 1 with | some a => s.readMem a 521 | none => []
      match s.clientRange (xSrc e) (stopBytes set) with
      | none => .textDone e xsRejected []
      | some src =>
        match s.lostLine src (stopBytes set), stopSet set with
        | some k, _ => .textLost e k
        | none, some l =>
          if used then .textDone e xsBadStops []
          else
            (Act.modText fun t => { t with stops := t.stops.put (fun _ => []) (xSlot e) l }).andThen (.textDone e xsOk [])
        | none, none => .textDone e xsBadStops []).outcome s

/-- A command names a grammar state that exists (R302). -/
def State.gramOk (s : State) (e : List Byte) : Bool :=
  decide (xGrammar e < s.get F.TEXT_GRAM_CFG_GRAMMARS) && decide (xState e < s.gramStates (xGrammar e))

/-- The grammar area has a lost line where a grammar command reads it (R531). -/
def State.gramUnread (s : State) (e : List Byte) : Bool :=
  decide (xGrammar e < s.get F.TEXT_GRAM_CFG_GRAMMARS) && s.gramDark (xGrammar e) (xState e)

/-- GRAM_MASK (R303, R320, R323). -/
def execGramMask (addr : BitVec 48) (s : State) : Host.Outcome State Fault Refusal :=
  (Act.command <| .textTake addr.toNat (· == 8) fun e => .textChecked e <|
    .look fun s =>
      if s.gramUnread e then .gramLost e
      else if !s.gramOk e then .textDone e xsGrammar []
      else
        let m := s.gramMask (xGrammar e) (xState e)
        let cap := xCap e
        match s.clientRange (xDst e) (cap + cap / 16384 * 32) with
        | some dst =>
          if dst % 16384 ≠ 0 ∨ cap % 16384 ≠ 0 ∨ cap < m.length then .textDone e xsRejected []
          else match s.tilesLost dst (dst + cap) m.length with
          | some k => .textLost e k
          | none =>
            let dead := m.all (· == 0)
            .all
              [ .touchMask (xGrammar e * 2 ^ 24 + xState e), .writeTiles dst (dst + cap) m,
                .when dead (.count .TEXT_DEAD_COUNT), .textDone e xsOk [if dead then 1 else 0] ]
        | none => .textDone e xsRejected []).outcome s

/-- GRAM_PEEK (R322): the transition of a state on token LEN, with no stream changed. -/
def execGramPeek (addr : BitVec 48) (s : State) : Host.Outcome State Fault Refusal :=
  (Act.command <| .textTake addr.toNat (· == 9) fun e => .textChecked e <|
    .look fun s =>
      if s.gramUnread e then .gramLost e
      else if !s.gramOk e || decide (xLen e ≥ s.vocab) then .textDone e xsGrammar []
      else match s.gramNext (xGrammar e) (xState e) (xLen e) with
        | some q => .textDone e xsOk [q, 0]
        | none => .textDone e xsOk [0, 1]).outcome s

/-- TEXT_BAD_OP (R301): a reserved code ends BAD_OP. -/
def execTextBadOp (addr : BitVec 48) (s : State) : Host.Outcome State Fault Refusal :=
  (Act.command <| .textTake addr.toNat (fun o => o == 0 || decide (o ≥ 0xA)) fun e => .textDone e xsBadOp []).outcome s

end Sys2Proof.Machine
end

