-- ==== Sys2Proof/Machine/TileOps.lean ====
section
/-! DEFINITION. Commands of the state processing cores: the tile operations (R71), how a tile completes, core faults and
the modes of banks (R25, R65 to R91, R542). Each operation runs the tile of that operation which is in flight on its
path; `core` names the core. -/

namespace Sys2Proof.Machine

/-! ### Matrix and record operations -/

/-- MM (R71, R41 to R47). -/
def execMm (core : Fin 80) (s : State) : Host.Outcome State Fault Refusal :=
  (Act.command <| .runTile core 0x01 anyDesc TileCtx.mm).outcome s

/-- MM_PRESCAN (R42, R71). -/
def execMmPrescan (core : Fin 80) (s : State) : Host.Outcome State Fault Refusal :=
  (Act.command <| .runTile core 0x02 anyDesc TileCtx.prescan).outcome s

/-- WIN_MERGE (R71). -/
def execWinMerge (core : Fin 80) (s : State) : Host.Outcome State Fault Refusal :=
  (Act.command <| .runTile core 0x03 anyDesc fun x d => x.recPairs d mergeRec).outcome s

/-- ACC_ADD (R45, R71). -/
def execAccAdd (core : Fin 80) (s : State) : Host.Outcome State Fault Refusal :=
  (Act.command <| .runTile core 0x04 anyDesc fun x d => x.recPairs d addRec).outcome s

/-- ACC_ROUND (R46, R47, R71). -/
def execAccRound (core : Fin 80) (s : State) : Host.Outcome State Fault Refusal :=
  (Act.command <| .runTile core 0x05 anyDesc TileCtx.accRound).outcome s

/-! ### Vector operations -/

/-- TILE_ADD (R71). -/
def execTileAdd (core : Fin 80) (s : State) : Host.Outcome State Fault Refusal :=
  (Act.command <| .runTile core 0x10 anyDesc fun x d => x.map2 d fadd).outcome s

/-- TILE_MUL (R71). -/
def execTileMul (core : Fin 80) (s : State) : Host.Outcome State Fault Refusal :=
  (Act.command <| .runTile core 0x11 anyDesc fun x d => x.map2 d fmul).outcome s

/-- TILE_SCALE (R71). -/
def execTileScale (core : Fin 80) (s : State) : Host.Outcome State Fault Refusal :=
  (Act.command <| .runTile core 0x12 anyDesc fun x d => x.map1 d fun a => fmul a (tScalar d)).outcome s

/-- ADD_ROW (R71). -/
def execAddRow (core : Fin 80) (s : State) : Host.Outcome State Fault Refusal :=
  (Act.command <| .runTile core 0x13 anyDesc fun x d => x.mapRow d fun a v => fadd a (fmul (tScalar d) v)).outcome s

/-- MUL_ROW (R71). -/
def execMulRow (core : Fin 80) (s : State) : Host.Outcome State Fault Refusal :=
  (Act.command <| .runTile core 0x14 anyDesc fun x d => x.mapRow d fmul).outcome s

/-- SUM_ROW (R49, R71). -/
def execSumRow (core : Fin 80) (s : State) : Host.Outcome State Fault Refusal :=
  (Act.command <| .runTile core 0x18 anyDesc fun x d => x.reduceRows d treeSum).outcome s

/-- MAX_ROW (R49, R71). -/
def execMaxRow (core : Fin 80) (s : State) : Host.Outcome State Fault Refusal :=
  (Act.command <| .runTile core 0x19 anyDesc fun x d => x.reduceRows d treeMax).outcome s

/-- SOFTMAX_ROW (R54, R153 to R156). -/
def execSoftmaxRow (core : Fin 80) (s : State) : Host.Outcome State Fault Refusal :=
  (Act.command <| .runTile core 0x20 anyDesc TileCtx.softmax).outcome s

/-- SOFTMAX_RECALC (R71, R153 to R156). -/
def execSoftmaxRecalc (core : Fin 80) (s : State) : Host.Outcome State Fault Refusal :=
  (Act.command <| .runTile core 0x21 (fun d => !tGrad d) fun x d => x.recalc d false).outcome s

/-- SOFTMAX_GRAD: SOFTMAX_RECALC with GRAD set (R165). -/
def execSoftmaxGrad (core : Fin 80) (s : State) : Host.Outcome State Fault Refusal :=
  (Act.command <| .runTile core 0x21 tGrad fun x d => x.recalc d true).outcome s

/-- RMSNORM (R55). -/
def execRmsnorm (core : Fin 80) (s : State) : Host.Outcome State Fault Refusal :=
  (Act.command <| .runTile core 0x22 anyDesc TileCtx.rmsnormTile).outcome s

/-- EXP2 (R50). -/
def execExp2 (core : Fin 80) (s : State) : Host.Outcome State Fault Refusal :=
  (Act.command <| .runTile core 0x23 anyDesc fun x d => x.map1 d exp2f).outcome s

/-- RECIP (R51). -/
def execRecip (core : Fin 80) (s : State) : Host.Outcome State Fault Refusal :=
  (Act.command <| .runTile core 0x24 anyDesc fun x d => x.map1 d recipf).outcome s

/-- RSQRT (R52). -/
def execRsqrt (core : Fin 80) (s : State) : Host.Outcome State Fault Refusal :=
  (Act.command <| .runTile core 0x25 anyDesc fun x d => x.map1 d rsqrtf).outcome s

/-- SILU (R53). -/
def execSilu (core : Fin 80) (s : State) : Host.Outcome State Fault Refusal :=
  (Act.command <| .runTile core 0x26 anyDesc fun x d => x.map1 d siluf).outcome s

/-- SILU_MUL (R71). -/
def execSiluMul (core : Fin 80) (s : State) : Host.Outcome State Fault Refusal :=
  (Act.command <| .runTile core 0x27 anyDesc fun x d => x.map2 d fun a b => fmul (siluf a) b).outcome s

/-- CONVERT (R39, R71). -/
def execConvert (core : Fin 80) (s : State) : Host.Outcome State Fault Refusal :=
  (Act.command <| .runTile core 0x28 anyDesc TileCtx.convert).outcome s

/-- ROUTE (R79, R80). -/
def execRoute (core : Fin 80) (s : State) : Host.Outcome State Fault Refusal :=
  (Act.command <| .runTile core 0x30 anyDesc TileCtx.route).outcome s

/-- COMBINE (R81). -/
def execCombine (core : Fin 80) (s : State) : Host.Outcome State Fault Refusal :=
  (Act.command <| .runTile core 0x31 anyDesc TileCtx.combine).outcome s

/-- COPY (R71). -/
def execCopy (core : Fin 80) (s : State) : Host.Outcome State Fault Refusal :=
  (Act.command <| .runTile core 0x38 anyDesc TileCtx.copy).outcome s

/-- WIN_ADV (R71, R86): the HEAD of window PARAM[2:0] advances. -/
def execWinAdv (core : Fin 80) (s : State) : Host.Outcome State Fault Refusal :=
  (Act.command <| .look fun s =>
    match s.flight core .vector with
    | none => .done
    | some f =>
      let w := bits (tParam f.desc) 2 0
      .when (tOp f.desc == 0x39 && !f.ran)
        (.all
          [ .set F.CORE_WIN_HEAD (advanced (f.wins.getD w 0) f.desc) (8 * core + w),
            .setFlight core .vector (some { f with ran := true, status := stOk }) ])).outcome s

/-! ### How tiles end -/

/-- TILE_COMPLETE (R74): a tile that has run ends with its status. -/
def execTileComplete (core : Fin 80) (path : Path) (s : State) : Host.Outcome State Fault Refusal :=
  (Act.command <| .look fun s =>
    match s.flight core path with
    | some f => .when f.ran (.endFlight core path f.status f.reason)
    | none => .done).outcome s

/-- The TAG of the tile on a path; 0 without one. -/
def State.flightTag (s : State) (c : Nat) (p : Path) : Nat := ((s.flight c p).map fun f => tTag f.desc).getD 0

/-- TILE_TIMEOUT (R25, R542): a tile that has run for more than 20 µs is a core fault, and ends FAULT. -/
def execTileTimeout (core : Fin 80) (path : Path) (s : State) : Host.Outcome State Fault Refusal :=
  (Act.command <| .look fun s =>
    .when (s.flight core path).isSome
      ((Act.coreFault core (s.flightTag core path)).andThen (.faultFlight core path))).outcome s

/-- CORE_PARITY_FAULT (R542): the tile on the path ends FAULT. -/
def execCoreParityFault (core : Fin 80) (path : Path) (s : State) : Host.Outcome State Fault Refusal :=
  (Act.command <| .look fun s =>
    .when (!s.coreRetired core)
      ((Act.coreFault core (s.flightTag core path)).andThen (.faultFlight core path))).outcome s

/-! ### Banks (R85) -/

/-- The banks that the tiles in flight and the next tile of a core reference. -/
def State.tileBanks (s : State) (c : Nat) : List Nat :=
  let next := ((s.itemsOf c).head?.bind fun i => s.tileDesc (slotDesc i.word)).map fun d => tileTouches (s.winsNext c) d
  ((s.flightsOf c).flatMap (fun f => tileTouches f.wins f.desc) ++ next.getD []).flatMap fun p => banksOf p.1 p.2.1

/-- A bank is referenced by a tile in flight, the next tile or a ferry transfer (R85). -/
def State.bankUsed (s : State) (c b : Nat) : Bool := (s.tileBanks c).contains b || (s.ferryBanks c).contains b

/-- The next slot of a core may start within 4 µs of an instant, in ns after the start of RUN. -/
def State.startsSoon (s : State) (c now : Nat) : Bool :=
  match s.itemsOf c with
  | i :: _ => i.carried || decide (slotEarliest i.word ≤ now + 4000)
  | [] => false

/-- BANK_AUTO_RETAIN (R85): an AUTO bank that nothing references enters retention when nothing starts within 4 µs. -/
def execBankAutoRetain (core : Fin 80) (bank : Fin 48) (now : BitVec 32) (s : State) : Host.Outcome State Fault Refusal :=
  (Act.command <| .look fun s =>
    .when (s.bankMode core bank == modeAuto && !s.bankUsed core bank && !s.startsSoon core now.toNat
        && !s.core.zeroing.get (fun _ => false) (48 * core + bank))
      (.modCore fun x => { x with retained := x.retained.put (fun _ => false) (48 * core + bank) true })).outcome s

/-- BANK_AUTO_WAKE (R85): an AUTO bank is back ON after the exit of 2 µs. -/
def execBankAutoWake (core : Fin 80) (bank : Fin 48) (s : State) : Host.Outcome State Fault Refusal :=
  (Act.command <| .modCore fun x => { x with retained := x.retained.put (fun _ => false) (48 * core + bank) false }).outcome s

/-- BANK_ZERO_DONE (R85): the zeroing of a bank that left OFF ends. -/
def execBankZeroDone (core : Fin 80) (bank : Fin 48) (s : State) : Host.Outcome State Fault Refusal :=
  (Act.command <| .modCore fun x => { x with zeroing := x.zeroing.put (fun _ => false) (48 * core + bank) false }).outcome s

end Sys2Proof.Machine
end

