-- ==== Sys2Proof/Machine/Dispatch.lean ====
section
/-! DEFINITION. The dispatch: one arm for every command, each a direct call of that command's meaning. -/

namespace Sys2Proof.Machine

def exec (i : Instr) (s : State) : Host.Outcome State Fault Refusal :=
  match i with
  | .sailLatch n busy telem temp => Sys2Proof.Machine.execSailLatch n busy telem temp s
  | .sailRun => Sys2Proof.Machine.execSailRun s
  | .slotIssue core now => Sys2Proof.Machine.execSlotIssue core now s
  | .sailClose => Sys2Proof.Machine.execSailClose s
  | .sailCloseOverrun core => Sys2Proof.Machine.execSailCloseOverrun core s
  | .ticketSetClose => Sys2Proof.Machine.execTicketSetClose s
  | .sealRecordWrite drained => Sys2Proof.Machine.execSealRecordWrite drained s
  | .sailTtCommit agent target => Sys2Proof.Machine.execSailTtCommit agent target s
  | .ptpMessage port reading => Sys2Proof.Machine.execPtpMessage port reading s
  | .ptpLoss => Sys2Proof.Machine.execPtpLoss s
  | .holdoverExpire => Sys2Proof.Machine.execHoldoverExpire s
  | .ppsEdge offset => Sys2Proof.Machine.execPpsEdge offset s
  | .ppsLoss => Sys2Proof.Machine.execPpsLoss s
  | .ref10mLoss => Sys2Proof.Machine.execRef10mLoss s
  | .taiSecondsWrite agent seconds => Sys2Proof.Machine.execTaiSecondsWrite agent seconds s
  | .mm core => Sys2Proof.Machine.execMm core s
  | .mmPrescan core => Sys2Proof.Machine.execMmPrescan core s
  | .winMerge core => Sys2Proof.Machine.execWinMerge core s
  | .accAdd core => Sys2Proof.Machine.execAccAdd core s
  | .accRound core => Sys2Proof.Machine.execAccRound core s
  | .tileAdd core => Sys2Proof.Machine.execTileAdd core s
  | .tileMul core => Sys2Proof.Machine.execTileMul core s
  | .tileScale core => Sys2Proof.Machine.execTileScale core s
  | .addRow core => Sys2Proof.Machine.execAddRow core s
  | .mulRow core => Sys2Proof.Machine.execMulRow core s
  | .sumRow core => Sys2Proof.Machine.execSumRow core s
  | .maxRow core => Sys2Proof.Machine.execMaxRow core s
  | .softmaxRow core => Sys2Proof.Machine.execSoftmaxRow core s
  | .softmaxRecalc core => Sys2Proof.Machine.execSoftmaxRecalc core s
  | .softmaxGrad core => Sys2Proof.Machine.execSoftmaxGrad core s
  | .rmsnorm core => Sys2Proof.Machine.execRmsnorm core s
  | .exp2 core => Sys2Proof.Machine.execExp2 core s
  | .recip core => Sys2Proof.Machine.execRecip core s
  | .rsqrt core => Sys2Proof.Machine.execRsqrt core s
  | .silu core => Sys2Proof.Machine.execSilu core s
  | .siluMul core => Sys2Proof.Machine.execSiluMul core s
  | .convert core => Sys2Proof.Machine.execConvert core s
  | .route core => Sys2Proof.Machine.execRoute core s
  | .combine core => Sys2Proof.Machine.execCombine core s
  | .copy core => Sys2Proof.Machine.execCopy core s
  | .winAdv core => Sys2Proof.Machine.execWinAdv core s
  | .tileComplete core path => Sys2Proof.Machine.execTileComplete core path s
  | .tileTimeout core path => Sys2Proof.Machine.execTileTimeout core path s
  | .coreParityFault core path => Sys2Proof.Machine.execCoreParityFault core path s
  | .bankAutoRetain core bank now => Sys2Proof.Machine.execBankAutoRetain core bank now s
  | .bankAutoWake core bank => Sys2Proof.Machine.execBankAutoWake core bank s
  | .bankZeroDone core bank => Sys2Proof.Machine.execBankZeroDone core bank s
  | .lookup addr => Sys2Proof.Machine.execLookup addr s
  | .admitSession addr => Sys2Proof.Machine.execAdmitSession addr s
  | .admitWaitResume session at_ => Sys2Proof.Machine.execAdmitWaitResume session at_ s
  | .admitWaitExpire session at_ => Sys2Proof.Machine.execAdmitWaitExpire session at_ s
  | .beginTurn addr => Sys2Proof.Machine.execBeginTurn addr s
  | .endTurn addr => Sys2Proof.Machine.execEndTurn addr s
  | .moor addr => Sys2Proof.Machine.execMoor addr s
  | .layUp addr => Sys2Proof.Machine.execLayUp addr s
  | .revive addr => Sys2Proof.Machine.execRevive addr s
  | .reberth addr => Sys2Proof.Machine.execReberth addr s
  | .pin addr => Sys2Proof.Machine.execPin addr s
  | .unpin addr => Sys2Proof.Machine.execUnpin addr s
  | .setHint addr => Sys2Proof.Machine.execSetHint addr s
  | .sealSession addr => Sys2Proof.Machine.execSealSession addr s
  | .unsealBundle addr bundle => Sys2Proof.Machine.execUnsealBundle addr bundle s
  | .crossOut addr at_ => Sys2Proof.Machine.execCrossOut addr at_ s
  | .crossIn addr at_ => Sys2Proof.Machine.execCrossIn addr at_ s
  | .crossDone addr log at_ => Sys2Proof.Machine.execCrossDone addr log at_ s
  | .restore addr others rec_ => Sys2Proof.Machine.execRestore addr others rec_ s
  | .release addr => Sys2Proof.Machine.execRelease addr s
  | .sdirBadOp addr => Sys2Proof.Machine.execSdirBadOp addr s
  | .revivalStart => Sys2Proof.Machine.execRevivalStart s
  | .reviveDeadlineExpire session => Sys2Proof.Machine.execReviveDeadlineExpire session s
  | .shareReport session note at_ => Sys2Proof.Machine.execShareReport session note at_ s
  | .berthOpen addr => Sys2Proof.Machine.execBerthOpen addr s
  | .berthClose addr => Sys2Proof.Machine.execBerthClose addr s
  | .append addr => Sys2Proof.Machine.execAppend addr s
  | .appendLapResume cls number => Sys2Proof.Machine.execAppendLapResume cls number s
  | .specWrite addr => Sys2Proof.Machine.execSpecWrite addr s
  | .specResolve addr => Sys2Proof.Machine.execSpecResolve addr s
  | .historySave addr => Sys2Proof.Machine.execHistorySave addr s
  | .historySaveDone cls number status backlog => Sys2Proof.Machine.execHistorySaveDone cls number status backlog s
  | .globalLoad addr => Sys2Proof.Machine.execGlobalLoad addr s
  | .globalLoadDone cls number status => Sys2Proof.Machine.execGlobalLoadDone cls number status s
  | .globalClear addr => Sys2Proof.Machine.execGlobalClear addr s
  | .berthBadOp addr => Sys2Proof.Machine.execBerthBadOp addr s
  | .ferryDescriptor f addr => Sys2Proof.Machine.execFerryDescriptor f addr s
  | .ferryTransferStart turn => Sys2Proof.Machine.execFerryTransferStart turn s
  | .ferryTileDone turn id tile fault data backlog => Sys2Proof.Machine.execFerryTileDone turn id tile fault data backlog s
  | .ferryLate f id => Sys2Proof.Machine.execFerryLate f id s
  | .shareMoveStart order => Sys2Proof.Machine.execShareMoveStart order s
  | .flashOpComplete lun ok step corrected => Sys2Proof.Machine.execFlashOpComplete lun ok step corrected s
  | .flashBusyTimeout lun => Sys2Proof.Machine.execFlashBusyTimeout lun s
  | .rebuildStart => Sys2Proof.Machine.execRebuildStart s
  | .gcStart => Sys2Proof.Machine.execGcStart s
  | .patrolRead lun plane block page => Sys2Proof.Machine.execPatrolRead lun plane block page s
  | .lastPowerWrite => Sys2Proof.Machine.execLastPowerWrite s
  | .catchupPass => Sys2Proof.Machine.execCatchupPass s
  | .nmuMove addr => Sys2Proof.Machine.execNmuMove addr s
  | .nmuFill addr => Sys2Proof.Machine.execNmuFill addr s
  | .nmuAdd addr => Sys2Proof.Machine.execNmuAdd addr s
  | .nmuMul addr => Sys2Proof.Machine.execNmuMul addr s
  | .axpy addr => Sys2Proof.Machine.execAxpy addr s
  | .nmuScale addr => Sys2Proof.Machine.execNmuScale addr s
  | .nmuSilu addr => Sys2Proof.Machine.execNmuSilu addr s
  | .nmuSiluMul addr => Sys2Proof.Machine.execNmuSiluMul addr s
  | .diffAdd addr => Sys2Proof.Machine.execDiffAdd addr s
  | .diffReplace addr => Sys2Proof.Machine.execDiffReplace addr s
  | .nmuPieceDispatch stack => Sys2Proof.Machine.execNmuPieceDispatch stack s
  | .nmuCommandDone addr => Sys2Proof.Machine.execNmuCommandDone addr s
  | .cowWriteHold addr bytes => Sys2Proof.Machine.execCowWriteHold addr bytes s
  | .cowCopyDone stack frame => Sys2Proof.Machine.execCowCopyDone stack frame s
  | .cowStallRelease stack => Sys2Proof.Machine.execCowStallRelease stack s
  | .drainFrameRead stack => Sys2Proof.Machine.execDrainFrameRead stack s
  | .ckptCaptureStart at_ => Sys2Proof.Machine.execCkptCaptureStart at_ s
  | .ckptReady core => Sys2Proof.Machine.execCkptReady core s
  | .ckptCapturePoint => Sys2Proof.Machine.execCkptCapturePoint s
  | .ckptImageWritten at_ => Sys2Proof.Machine.execCkptImageWritten at_ s
  | .ckptCaptureLate at_ => Sys2Proof.Machine.execCkptCaptureLate at_ s
  | .drainFrameReceive source k image stack frame data => Sys2Proof.Machine.execDrainFrameReceive source k image stack frame data s
  | .ckptCommitRecord source rec_ => Sys2Proof.Machine.execCkptCommitRecord source rec_ s
  | .ckptConfirm k accepted => Sys2Proof.Machine.execCkptConfirm k accepted s
  | .ckptStallExpire => Sys2Proof.Machine.execCkptStallExpire s
  | .ckptDrainExpire => Sys2Proof.Machine.execCkptDrainExpire s
  | .ckptAbandon agent => Sys2Proof.Machine.execCkptAbandon agent s
  | .ckptRestore agent slotA slotB => Sys2Proof.Machine.execCkptRestore agent slotA slotB s
  | .ckptRestoreDone groups => Sys2Proof.Machine.execCkptRestoreDone groups s
  | .ckptResume alone telem temp => Sys2Proof.Machine.execCkptResume alone telem temp s
  | .tokOpen addr => Sys2Proof.Machine.execTokOpen addr s
  | .tokFeed addr => Sys2Proof.Machine.execTokFeed addr s
  | .detOpen addr => Sys2Proof.Machine.execDetOpen addr s
  | .detPush addr => Sys2Proof.Machine.execDetPush addr s
  | .detFinish addr => Sys2Proof.Machine.execDetFinish addr s
  | .textClose addr => Sys2Proof.Machine.execTextClose addr s
  | .stopLoad addr => Sys2Proof.Machine.execStopLoad addr s
  | .gramMask addr => Sys2Proof.Machine.execGramMask addr s
  | .gramPeek addr => Sys2Proof.Machine.execGramPeek addr s
  | .textBadOp addr => Sys2Proof.Machine.execTextBadOp addr s
  | .sample addr session => Sys2Proof.Machine.execSample addr session s
  | .sampCount addr => Sys2Proof.Machine.execSampCount addr s
  | .sampReset addr => Sys2Proof.Machine.execSampReset addr s
  | .sampBadOp addr => Sys2Proof.Machine.execSampBadOp addr s
  | .logAppend addr => Sys2Proof.Machine.execLogAppend addr s
  | .ticket addr => Sys2Proof.Machine.execTicket addr s
  | .verdict addr => Sys2Proof.Machine.execVerdict addr s
  | .tenantReport addr power milli => Sys2Proof.Machine.execTenantReport addr power milli s
  | .sealBadOp addr => Sys2Proof.Machine.execSealBadOp addr s
  | .rclCreate addr => Sys2Proof.Machine.execRclCreate addr s
  | .rclInsert addr => Sys2Proof.Machine.execRclInsert addr s
  | .rclDelete addr => Sys2Proof.Machine.execRclDelete addr s
  | .rclQuery addr => Sys2Proof.Machine.execRclQuery addr s
  | .rclQueryStart addr => Sys2Proof.Machine.execRclQueryStart addr s
  | .rclQueryDone addr => Sys2Proof.Machine.execRclQueryDone addr s
  | .rclMerge addr => Sys2Proof.Machine.execRclMerge addr s
  | .rclMergeDone index => Sys2Proof.Machine.execRclMergeDone index s
  | .rclDrop addr => Sys2Proof.Machine.execRclDrop addr s
  | .rclDropResume index => Sys2Proof.Machine.execRclDropResume index s
  | .rclBadOp addr => Sys2Proof.Machine.execRclBadOp addr s
  | .chartStage agent epoch => Sys2Proof.Machine.execChartStage agent epoch s
  | .chartApply => Sys2Proof.Machine.execChartApply s
  | .islandQuietRelease island => Sys2Proof.Machine.execIslandQuietRelease island s
  | .islandActivate island powered => Sys2Proof.Machine.execIslandActivate island powered s
  | .leaveTimeout island => Sys2Proof.Machine.execLeaveTimeout island s
  | .epochRetire => Sys2Proof.Machine.execEpochRetire s
  | .mctAck src hdr payload ce secure at_ => Sys2Proof.Machine.execMctAck src hdr payload ce secure at_ s
  | .mctRequest src hdr payload ce secure at_ => Sys2Proof.Machine.execMctRequest src hdr payload ce secure at_ s
  | .mctResponse src hdr payload ce secure at_ => Sys2Proof.Machine.execMctResponse src hdr payload ce secure at_ s
  | .tileHalf src hdr payload ce secure at_ => Sys2Proof.Machine.execTileHalf src hdr payload ce secure at_ s
  | .peerRead src hdr payload ce secure at_ => Sys2Proof.Machine.execPeerRead src hdr payload ce secure at_ s
  | .specCommit src hdr payload ce secure at_ => Sys2Proof.Machine.execSpecCommit src hdr payload ce secure at_ s
  | .specCancel src hdr payload ce secure at_ => Sys2Proof.Machine.execSpecCancel src hdr payload ce secure at_ s
  | .cut src hdr payload ce secure at_ => Sys2Proof.Machine.execCut src hdr payload ce secure at_ s
  | .retire => Sys2Proof.Machine.execRetire s
  | .creditReq src hdr payload ce secure at_ => Sys2Proof.Machine.execCreditReq src hdr payload ce secure at_ s
  | .crossBegin src hdr payload ce secure at_ => Sys2Proof.Machine.execCrossBegin src hdr payload ce secure at_ s
  | .crossReady src hdr payload ce secure at_ => Sys2Proof.Machine.execCrossReady src hdr payload ce secure at_ s
  | .crossHeld src hdr payload ce secure at_ => Sys2Proof.Machine.execCrossHeld src hdr payload ce secure at_ s
  | .crossCommit src hdr payload ce secure at_ => Sys2Proof.Machine.execCrossCommit src hdr payload ce secure at_ s
  | .crossAbort src hdr payload ce secure at_ => Sys2Proof.Machine.execCrossAbort src hdr payload ce secure at_ s
  | .crossAsk src hdr payload ce secure at_ => Sys2Proof.Machine.execCrossAsk src hdr payload ce secure at_ s
  | .crossTell src hdr payload ce secure at_ => Sys2Proof.Machine.execCrossTell src hdr payload ce secure at_ s
  | .mctBadPacket hdr secure => Sys2Proof.Machine.execMctBadPacket hdr secure s
  | .mctRto peer vc seq at_ => Sys2Proof.Machine.execMctRto peer vc seq at_ s
  | .mctAckTimer peer vc at_ => Sys2Proof.Machine.execMctAckTimer peer vc at_ s
  | .crossWaitExpire session at_ => Sys2Proof.Machine.execCrossWaitExpire session at_ s
  | .crossGrant at_ => Sys2Proof.Machine.execCrossGrant at_ s
  | .crossOutcomeExpire session => Sys2Proof.Machine.execCrossOutcomeExpire session s
  | .fabLaneEvent lane lostLock frames failed => Sys2Proof.Machine.execFabLaneEvent lane lostLock frames failed s
  | .portTrainDone port at_ => Sys2Proof.Machine.execPortTrainDone port at_ s
  | .fecFrameDrop => Sys2Proof.Machine.execFecFrameDrop s
  | .pauseFrame => Sys2Proof.Machine.execPauseFrame s
  | .egressEnqueue source at_ => Sys2Proof.Machine.execEgressEnqueue source at_ s
  | .egressSourceResume queue at_ => Sys2Proof.Machine.execEgressSourceResume queue at_ s
  | .frameTxDone port at_ => Sys2Proof.Machine.execFrameTxDone port at_ s
  | .gateChange port at_ => Sys2Proof.Machine.execGateChange port at_ s
  | .shaperCreditZero queue at_ => Sys2Proof.Machine.execShaperCreditZero queue at_ s
  | .hostTurn ring => Sys2Proof.Machine.execHostTurn ring s
  | .hostCancel ring => Sys2Proof.Machine.execHostCancel ring s
  | .hostControl ring => Sys2Proof.Machine.execHostControl ring s
  | .hostReplay ring => Sys2Proof.Machine.execHostReplay ring s
  | .cqEntryWrite ring kind tag session offset place data => Sys2Proof.Machine.execCqEntryWrite ring kind tag session offset place data s
  | .cqStallTimeout ring => Sys2Proof.Machine.execCqStallTimeout ring s
  | .ringFailTimeout ring => Sys2Proof.Machine.execRingFailTimeout ring s
  | .ringEnable ring => Sys2Proof.Machine.execRingEnable ring s
  | .ringDisable ring => Sys2Proof.Machine.execRingDisable ring s
  | .winLost window => Sys2Proof.Machine.execWinLost window s
  | .winDrain window => Sys2Proof.Machine.execWinDrain window s
  | .hostLinkEvent link exhausted => Sys2Proof.Machine.execHostLinkEvent link exhausted s
  | .msixUnmask vector => Sys2Proof.Machine.execMsixUnmask vector s
  | .coldReset => Sys2Proof.Machine.execColdReset s
  | .warmReset => Sys2Proof.Machine.execWarmReset s
  | .linkBReset => Sys2Proof.Machine.execLinkBReset s
  | .resetRelease straps check => Sys2Proof.Machine.execResetRelease straps check s
  | .configImageSelect => Sys2Proof.Machine.execConfigImageSelect s
  | .configSectionsRead => Sys2Proof.Machine.execConfigSectionsRead s
  | .hbmTrainDone stack ok => Sys2Proof.Machine.execHbmTrainDone stack ok s
  | .memoryZeroDone parametersOk => Sys2Proof.Machine.execMemoryZeroDone parametersOk s
  | .packageFetchStart sent => Sys2Proof.Machine.execPackageFetchStart sent s
  | .packageSectionLand type index sent => Sys2Proof.Machine.execPackageSectionLand type index sent s
  | .packageWaitExpire seconds => Sys2Proof.Machine.execPackageWaitExpire seconds s
  | .fuseAdvance day good => Sys2Proof.Machine.execFuseAdvance day good s
  | .firstSailing n telem temp => Sys2Proof.Machine.execFirstSailing n telem temp s
  | .cfgGo agent => Sys2Proof.Machine.execCfgGo agent s
  | .recoveryImage image => Sys2Proof.Machine.execRecoveryImage image s
  | .pldmUpdate image => Sys2Proof.Machine.execPldmUpdate image s
  | .pkgFetch agent type index => Sys2Proof.Machine.execPkgFetch agent type index s
  | .spdmGetMeasurements index nonce => Sys2Proof.Machine.execSpdmGetMeasurements index nonce s
  | .spdmGetCertificate slot offset length => Sys2Proof.Machine.execSpdmGetCertificate slot offset length s
  | .spdmChallenge nonce => Sys2Proof.Machine.execSpdmChallenge nonce s
  | .spdmKeyExchange session authenticated root => Sys2Proof.Machine.execSpdmKeyExchange session authenticated root s
  | .keyLoad session job slot key peer name => Sys2Proof.Machine.execKeyLoad session job slot key peer name s
  | .keyGraceExpire slot => Sys2Proof.Machine.execKeyGraceExpire slot s
  | .drbgReseed => Sys2Proof.Machine.execDrbgReseed s
  | .secEntropyFail => Sys2Proof.Machine.execSecEntropyFail s
  | .entropyPass => Sys2Proof.Machine.execEntropyPass s
  | .hbmScrub addr row found => Sys2Proof.Machine.execHbmScrub addr row found s
  | .sramScrub word found => Sys2Proof.Machine.execSramScrub word found s
  | .hbmLineError addr row read => Sys2Proof.Machine.execHbmLineError addr row read s
  | .pcRetireDone pc => Sys2Proof.Machine.execPcRetireDone pc s
  | .rowRemapDone pc row => Sys2Proof.Machine.execRowRemapDone pc row s
  | .hbmPcFault pc failed => Sys2Proof.Machine.execHbmPcFault pc failed s
  | .sramWordError word uncorrectable => Sys2Proof.Machine.execSramWordError word uncorrectable s
  | .ferryParityFault ferry => Sys2Proof.Machine.execFerryParityFault ferry s
  | .causewayLaneEvent group lane replays failed => Sys2Proof.Machine.execCausewayLaneEvent group lane replays failed s
  | .spareLaneDone group => Sys2Proof.Machine.execSpareLaneDone group s
  | .domainSettle dtype index => Sys2Proof.Machine.execDomainSettle dtype index s
  | .errPop agent => Sys2Proof.Machine.execErrPop agent s
  | .irqClaim agent core => Sys2Proof.Machine.execIrqClaim agent core s
  | .irqMaskWrite agent source mask => Sys2Proof.Machine.execIrqMaskWrite agent source mask s
  | .irqEnd agent core value => Sys2Proof.Machine.execIrqEnd agent core value s
  | .cqRecordWrite core => Sys2Proof.Machine.execCqRecordWrite core s
  | .bollPost agent value => Sys2Proof.Machine.execBollPost agent value s
  | .bollWaitJoin agent core index => Sys2Proof.Machine.execBollWaitJoin agent core index s
  | .bollWaitCancel agent core index => Sys2Proof.Machine.execBollWaitCancel agent core index s
  | .bollCountWrite agent bollard count => Sys2Proof.Machine.execBollCountWrite agent bollard count s
  | .watchAckDeadline core => Sys2Proof.Machine.execWatchAckDeadline core s
  | .watchKick core => Sys2Proof.Machine.execWatchKick core s
  | .watchKickDeadline => Sys2Proof.Machine.execWatchKickDeadline s
  | .watchCoreRestart core => Sys2Proof.Machine.execWatchCoreRestart core s
  | .islandPowerOff island at_ => Sys2Proof.Machine.execIslandPowerOff island at_ s
  | .islandWake island known => Sys2Proof.Machine.execIslandWake island known s
  | .islandWakeDone island => Sys2Proof.Machine.execIslandWakeDone island s
  | .clockGate unit gap => Sys2Proof.Machine.execClockGate unit gap s
  | .throttleStep sensors => Sys2Proof.Machine.execThrottleStep sensors s
  | .limitRelease sensors => Sys2Proof.Machine.execLimitRelease sensors s
  | .powerTrip sensors => Sys2Proof.Machine.execPowerTrip sensors s
  | .registerWrite agent place width value => Sys2Proof.Machine.execRegisterWrite agent place width value s
  | .ref10mReturn => Sys2Proof.Machine.execRef10mReturn s
  | .hostLinkTrainDone link rate width cxl => Sys2Proof.Machine.execHostLinkTrainDone link rate width cxl s
  | .mkpduReceive slot pdu => Sys2Proof.Machine.execMkpduReceive slot pdu s
  | .spdmEndSession session => Sys2Proof.Machine.execSpdmEndSession session s
  | .voltageLoopAdjust mv => Sys2Proof.Machine.execVoltageLoopAdjust mv s
  | .cxlMemStore offset => Sys2Proof.Machine.execCxlMemStore offset s
  | .debugTapInstruction debug => Sys2Proof.Machine.execDebugTapInstruction debug s

end Sys2Proof.Machine
end

