-- ==== Sys2Proof/Safety.lean ====
section
/-! DEFINITION. What a sound state is: maps in canonical form, registers whose reserved bits read 0 (R5), counters that fit
their width (R34); what a live device is; and the words in which frames are said: the parts of the state, the registers and
the counters that a step leaves alone. -/

namespace Sys2Proof.Machine

/-- The canonical form of a memory: addresses strictly rising, and no entry equal to what an unlisted address reads as. -/
def Memory.wf (m : List Host.Cell) : Bool := SMap.wf memDefault m

/-- Every memory and register map is in canonical form. -/
def State.Canonical (s : State) : Prop :=
  Memory.wf s.mem = true ∧ Memory.wf s.ls = true ∧ Memory.wf s.hostMem = true ∧ SMap.wf regDefault s.regs = true
    ∧ SMap.wf regDefault s.shadow = true ∧ SMap.wf (fun _ => 0) s.ctrs = true ∧ SMap.wf (fun _ => false) s.lost = true

/-- Reserved bits of every register element read 0 (R5). -/
def State.ReservedZero (s : State) : Prop :=
  ∀ r : Reg, ∀ i < r.info.count, s.reg r i &&& ~~~fieldMask r = 0

/-- Every counter fits its 32 bits (R34). -/
def State.CountersFit (s : State) : Prop := ∀ c : Ctr, s.count c ≤ counterMax

/-- A sound state. -/
structure State.Sound (s : State) : Prop where
  canonical : s.Canonical
  reserved : s.ReservedZero
  counters : s.CountersFit

/-- A live device: sound, not FATAL (R464, R550), with no retirement left to carry out. -/
structure State.Live (s : State) : Prop where
  sound : s.Sound
  alive : s.fatal = false
  settled : s.err.todo = []

/-- Memory in which every write goes through as it stands: no lost line (R532), no retired part (R542), no write held and no
frame watched by copy-on-write (R253), no copy of session firmware to protect (R557), no steering records that must not
change (R161). -/
structure State.Calm (s : State) : Prop where
  lost : s.lost = []
  retired : s.err.retired = []
  held : s.nmu.held = []
  cow : ∀ k < 16, s.flag F.NMU_COW_ARMED k = false
  fw : ∀ x, s.fwCopy = some x → x.2 = 0
  steer : ∀ k n, s.steerFixed k n = false

/-- The parts of the state besides the queue of commands. -/
inductive Part where
  | regs
  | shadow
  | ctrs
  | mem
  | ls
  | hostMem
  | lost
  | out
  | free
  | sail
  | core
  | err
  | irq
  | nmu
  | chart
  | host
  | sdir
  | berth
  | tier
  | sec
  | text
  | sealer
  | rcl
  | nand
  | flash
  | fuses
  | boot
  | mct
  | egr
  | pwr
  | ckpt
  deriving DecidableEq, Repr

/-- Two states agree on a part. -/
def State.Same (s t : State) : Part → Prop
  | .regs => t.regs = s.regs
  | .shadow => t.shadow = s.shadow
  | .ctrs => t.ctrs = s.ctrs
  | .mem => t.mem = s.mem
  | .ls => t.ls = s.ls
  | .hostMem => t.hostMem = s.hostMem
  | .lost => t.lost = s.lost
  | .out => t.out = s.out
  | .free => t.free = s.free
  | .sail => t.sail = s.sail
  | .core => t.core = s.core
  | .err => t.err = s.err
  | .irq => t.irq = s.irq
  | .nmu => t.nmu = s.nmu
  | .chart => t.chart = s.chart
  | .host => t.host = s.host
  | .sdir => t.sdir = s.sdir
  | .berth => t.berth = s.berth
  | .tier => t.tier = s.tier
  | .sec => t.sec = s.sec
  | .text => t.text = s.text
  | .sealer => t.sealer = s.sealer
  | .rcl => t.rcl = s.rcl
  | .nand => t.nand = s.nand
  | .flash => t.flash = s.flash
  | .fuses => t.fuses = s.fuses
  | .boot => t.boot = s.boot
  | .mct => t.mct = s.mct
  | .egr => t.egr = s.egr
  | .pwr => t.pwr = s.pwr
  | .ckpt => t.ckpt = s.ckpt

/-- Two states agree on the queue and on every part but those listed. -/
def State.SameBut (s t : State) (ps : List Part) : Prop := t.pending = s.pending ∧ ∀ p, p ∉ ps → s.Same t p

/-- Two states agree on every live register but those listed. -/
def State.SameRegs (s t : State) (rs : List Reg) : Prop := ∀ r, r ∉ rs → ∀ i < r.info.count, t.reg r i = s.reg r i

/-- Two states agree on every counter but those listed. -/
def State.SameCounts (s t : State) (cs : List Ctr) : Prop := ∀ c, c ∉ cs → t.count c = s.count c

/-- A footprint: the parts, registers and counters that something may change. -/
structure Touch where
  parts : List Part
  regs : List Reg
  ctrs : List Ctr
  deriving DecidableEq, Repr

/-- Two footprints together. -/
def Touch.join (f g : Touch) : Touch := ⟨f.parts ++ g.parts, f.regs ++ g.regs, f.ctrs ++ g.ctrs⟩

/-- Two states agree on the queue and on everything outside a footprint: every part, every live register, every counter. -/
structure State.Touched (s t : State) (f : Touch) : Prop where
  queue : t.pending = s.pending
  parts : ∀ p, p ∉ f.parts → p ≠ .regs → p ≠ .ctrs → s.Same t p
  regs : s.SameRegs t f.regs
  counts : s.SameCounts t f.ctrs

/-- The memory that a write leaves when nothing holds it up (R594, R595): unit by unit, where each unit leads; bytes that lead
to no memory are not written. -/
def State.storedIn (s : State) (m : List Host.Cell) (a : Nat) (bs : List Byte) : List Host.Cell :=
  (piecesOf a bs.length).foldl (fun m p =>
    match s.memKey p.1 with
    | some k => SMap.putList memDefault m k ((bs.drop (p.1 - a)).take p.2)
    | none => m) m

/-- Several writes, one after another. -/
def State.allStoredIn (s : State) (m : List Host.Cell) (ws : List (Nat × List Byte)) : List Host.Cell :=
  ws.foldl (fun m w => s.storedIn m w.1 w.2) m

/-! ### Footprints that many commands share -/

/-- Raising an error. -/
def touchRaise : Touch := ⟨[.chart, .err, .host, .out], [.CHART_ISLAND, .ERR_HEAD, .ERR_STATUS, .HOST_FATAL, .IRQ_SRC],
  [.ERR_ESCALATE_COUNT, .ERR_OVERFLOW_COUNT, .ERR_RETIRE_COUNT]⟩

/-- Writing memory at a device address. -/
def touchStore : Touch := touchRaise.join ⟨[.lost, .mem, .nmu], [.NMU_STACK], [.NMU_COW_COPY_COUNT,
  .NMU_COW_STALL_COUNT, .NMU_LINE_ECC_COUNT]⟩

/-- Receiving a transport packet. -/
def touchPacket : Touch := touchStore.join ⟨[.core, .egr, .free, .hostMem, .irq, .ls, .mct, .pwr, .sail, .sdir, .tier],
  [.BOLL_COUNT, .BOLL_WAIT, .CHART_DRAIN, .CORE_LS_PWR, .FERRY_STATUS, .TIER_MOOR_STATUS], [.BOLL_OVERFLOW_COUNT,
  .CHART_AHEAD_COUNT, .CHART_FORWARD_COUNT, .CHART_NOT_READY_COUNT, .CHART_REDIRECT_COUNT, .CHART_STALE_COUNT,
  .EGR_CE_MARK_COUNT, .EGR_FULL_COUNT, .EGR_GATE_HOLD_COUNT, .EGR_NO_FIT_COUNT, .ERR_MANIFEST_FAIL_COUNT,
  .FERRY_LATE_COUNT, .FERRY_MANIFEST_FAIL_COUNT, .FERRY_READ_FAIL_COUNT, .FERRY_REJECT_COUNT, .FERRY_WRITE_FAIL_COUNT,
  .MCT_AUTH_FAIL_COUNT, .MCT_BAD_HEADER_COUNT, .MCT_CE_COUNT, .MCT_CROSS_ABORT_COUNT, .MCT_CROSS_COUNT,
  .MCT_DROP_WINDOW_COUNT, .MCT_RETX_COUNT, .SDIR_REFUSE_COUNT]⟩

/-- Submitting a command to a queue of the device. -/
def touchSubmit : Touch := touchRaise.join ⟨[.berth, .ckpt, .irq, .nmu, .rcl, .sail, .sdir, .sealer, .text, .tier],
  [.BOLL_COUNT, .BOLL_WAIT, .FERRY_STATUS, .NMU_STATUS, .RCL_STATUS, .SAMP_STATUS, .TEXT_STATUS],
  [.BERTH_QUEUE_FULL_COUNT, .BOLL_OVERFLOW_COUNT, .FERRY_LATE_COUNT, .FERRY_MANIFEST_FAIL_COUNT,
  .FERRY_QUEUE_FULL_COUNT, .FERRY_READ_FAIL_COUNT, .FERRY_REJECT_COUNT, .FERRY_WRITE_FAIL_COUNT, .NMU_QUEUE_FULL_COUNT,
  .RCL_QUEUE_FULL_COUNT, .SAMP_QUEUE_FULL_COUNT, .SDIR_QUEUE_FULL_COUNT, .SEAL_QUEUE_FULL_COUNT,
  .TEXT_QUEUE_FULL_COUNT]⟩

/-- Sending a frame. -/
def touchSend : Touch := touchRaise.join ⟨[.egr, .irq, .mct, .tier], [.BOLL_COUNT, .CHART_DRAIN, .FERRY_STATUS,
  .TIER_MOOR_STATUS], [.EGR_CE_MARK_COUNT, .EGR_FULL_COUNT, .EGR_GATE_HOLD_COUNT, .EGR_NO_FIT_COUNT,
  .MCT_CROSS_ABORT_COUNT]⟩

/-- Running a tile. -/
def touchTile : Touch := touchRaise.join ⟨[.core, .free, .lost, .ls], [.CORE_STATUS], [.CORE_ROUTE_DEFER_COUNT,
  .CORE_ROUTE_STARVED_COUNT]⟩

/-- Taking a command on a session record. -/
def touchRecord : Touch := touchStore.join ⟨[.irq, .sdir], [.SDIR_LOCKED, .SDIR_STATE_COUNT], [.SDIR_CRC_FAIL_COUNT,
  .SDIR_HIT_COUNT, .SDIR_MISS_COUNT, .SDIR_REFUSE_COUNT]⟩

/-- Ending a tile. -/
def touchTileEnd : Touch := touchRaise.join ⟨[.irq, .sail], [.BOLL_COUNT, .BOLL_WAIT, .CORE_STATUS],
  [.BOLL_OVERFLOW_COUNT, .CORE_BANK_UNPOWERED_COUNT, .CORE_NONFINITE_COUNT, .CORE_REJECT_COUNT,
  .CORE_WINDOW_MISMATCH_COUNT]⟩

/-- Dropping an image with its shares. -/
def touchImage : Touch := touchStore.join ⟨[.flash, .nand, .tier], [.FLASH_LUN_STATUS, .FLASH_STATUS, .HOST_CXL_WIN,
  .HOST_EVENT, .HOST_WIN, .TIER_MOOR_STATUS], []⟩

/-- Ending a ferry transfer. -/
def touchTransfer : Touch := touchRaise.join ⟨[.irq, .sail], [.BOLL_COUNT, .BOLL_WAIT], [.BOLL_OVERFLOW_COUNT,
  .FERRY_LATE_COUNT, .FERRY_MANIFEST_FAIL_COUNT, .FERRY_READ_FAIL_COUNT, .FERRY_REJECT_COUNT, .FERRY_WRITE_FAIL_COUNT]⟩

/-- Starting near-memory commands. -/
def touchNmu : Touch := touchRaise.join ⟨[.nmu, .pwr], [.NMU_STATUS], [.ERR_MANIFEST_FAIL_COUNT, .NMU_DIGEST_FAIL_COUNT,
  .NMU_LINE_ECC_COUNT, .NMU_MANIFEST_FAIL_COUNT, .NMU_REJECT_COUNT]⟩

/-- Trying a waiting session again. -/
def touchWaiter : Touch := (touchRecord.join touchSend).join ⟨[.free, .sec], [.SDIR_FREE, .SEC_STATUS],
  [.SDIR_ADMIT_COUNT, .SEC_BUNDLE_REJECT_COUNT]⟩

/-- Abandoning a checkpoint. -/
def touchAbandon : Touch := touchSubmit.join ⟨[.lost, .mem], [.CKPT_CONTROL, .CKPT_STATUS, .NMU_COW, .NMU_STACK],
  [.CKPT_ABANDON_COUNT]⟩

/-- Taking a berth for a move. -/
def touchBerth : Touch := touchStore.join ⟨[.irq, .sdir], [.SDIR_FREE], [.SDIR_REFUSE_COUNT]⟩

end Sys2Proof.Machine
end

