-- ==== Sys2Proof/Certificates/Slice0/Obligations.lean ====
section
/-! DEFINITION. What is claimed of the model, for the provers: every command's effect where it completes, what it leaves alone,
and the rules of the whole device. Names under Claim are the words these statements are said in. -/

open Sys2Proof Sys2Proof.Machine

/-! ### Words of the claims -/

/-- Memory outside these ranges of device addresses, given by first byte and length, reads as before. -/
def Claim.MemOnly (s t : State) (ranges : List (Nat × Nat)) : Prop :=
  ∀ q, (∀ r ∈ ranges, ∀ p ∈ piecesOf r.1 r.2, ∀ k, s.memKey p.1 = some k → q < k ∨ k + p.2 ≤ q) →
    SMap.get memDefault t.mem q = SMap.get memDefault s.mem q

/-- A register write of the host outside the HOST_ block is dropped and counted (R453). -/
def Claim.hostDenied (s t : State) : Prop :=
  s.SameBut t [.ctrs] ∧ t.count .HOST_WRITE_DENIED_COUNT = min counterMax (s.count .HOST_WRITE_DENIED_COUNT + 1)

/-! ### Every command -/

/-- A step takes the command at the front of the queue and carries it out on the state whose queue is the rest. -/
def Obligations.StepRunsFrontCommand : Prop :=
  ∀ (c : Instr) (rest : List Instr) (s : State),
    s.pending = c :: rest → step s = exec c { s with pending := rest }

/-- The state after reset is sound: its maps are canonical, reserved bits read 0, counters fit (R5, R34, R605). -/
def Obligations.ResetSound : Prop := State.reset.Sound

/-- Every step keeps soundness: canonical maps, reserved bits 0 (R5), counters within 32 bits (R34). -/
def Obligations.StepKeepsSound : Prop := ∀ s t : State, s.Sound → step s = .next t → t.Sound

/-- No command touches the commands that wait behind it. -/
def Obligations.ExecKeepsQueue : Prop := ∀ (c : Instr) (s t : State), exec c s = .next t → t.pending = s.pending

/-- A FATAL device does nothing but on COLD_RESET and WARM_RESET (R464, R550). -/
def Obligations.FatalDeviceIsStill : Prop :=
  ∀ (c : Instr) (s : State), s.fatal = true → c ≠ .coldReset → c ≠ .warmReset → (∀ d, c ≠ .debugTapInstruction d) →
    exec c s = .next s

/-- Counters never go back except by a reset, and saturate at 0xFFFFFFFF (R34). -/
def Obligations.CountersOnlyGrow : Prop :=
  ∀ (c : Instr) (s t : State) (k : Ctr), s.Sound → exec c s = .next t → c ≠ .coldReset → c ≠ .warmReset →
    s.count k ≤ t.count k ∧ t.count k ≤ 0xFFFFFFFF

/-- A debug access with the debug lock open stops the model: the spec gives it no effect (R522, R616); boundary scan, and
debug access with the lock closed, leave the state as it is. -/
def Obligations.DebugTapInstruction : Prop :=
  ∀ s : State,
    (s.debugOpen = true → exec (.debugTapInstruction true) s = .fault .debugAccess)
    ∧ exec (.debugTapInstruction false) s = .next s
    ∧ (s.debugOpen = false → exec (.debugTapInstruction true) s = .next s)

/-! ### Sailings -/

/-- The phases of a sailing (R11, R30, R32): LATCH publishes the number, RUN and CLOSE change the phase, and a tile that still
runs at the end of CLOSE holds up its core's next LATCH work (R25). -/
def Claim.SailingPhases : Prop :=
  ∀ s : State, s.Live →
    (∀ n busy telem temp, s.phase = 2 → n.toNat = s.now + 1 →
      ∃ t, exec (.sailLatch n busy telem temp) s = .next t ∧ t.now = n.toNat)
    ∧ (s.phase = 0 → ∃ t, exec .sailRun s = .next t ∧ t.phase = 1)
    ∧ (s.phase = 1 → ∃ t, exec .sailClose s = .next t ∧ t.phase = 2)
    ∧ (∀ c : Fin 80, s.phase = 2 → s.sail.late.get (fun _ => false) c = false → s.flightsOf c ≠ [] →
      ∃ t, exec (.sailCloseOverrun c) s = .next t ∧ t.sail.late.get (fun _ => false) c = true
        ∧ t.flag F.SAIL_STATUS_CLOSE_OVERRUN = true)

/-- A slot that nothing holds back issues: its tile is in flight on its path with the windows of that moment, as a
WIN_ADV before it leaves them, and the slot has left its list (R20, R65, R66, R86). -/
def Obligations.SlotIssues : Prop :=
  ∀ (s : State) (c : Fin 80) (now : BitVec 32) (i : SlotItem) (is : List SlotItem) (d : BitVec 512) (p : Path),
    s.Live → s.phase = 1 → s.inCapture s.now = false → s.sail.late.get (fun _ => false) c = false →
    s.coreRetired c = false → s.coreHeld c = false → s.itemsOf c = i :: is → i.bad = false →
    slotReserved i.word = false → (i.carried = true ∨ slotEarliest i.word ≤ now.toNat) →
    (slotWait i.word = false ∨ i.granted = true) → s.tileDesc (slotDesc i.word) = some d →
    rejectReason (s.winsNext c) d = 0 → opPath (tOp d) = some p → s.flight c p = none → s.mustWait c d = false →
    (tileTouches (s.winsNext c) d).any (fun q => s.rangeWaits c q.1 q.2.1) = false →
    ∃ t, exec (.slotIssue c now) s = .next t
      ∧ t.flight c p = some { desc := d, addr := slotDesc i.word, wins := s.winsNext c }
      ∧ t.sail.items = s.sail.items.put (fun _ => []) c is ∧ t.flag (pathBusy p) c = true
      ∧ s.SameBut t [.regs, .sail, .core] ∧ s.SameRegs t [.CORE_STATUS]

/-- Time (R12, R14, R16, R31, R33, R614, R615): what each source of time does to the time state, the offset, the clock and what
it slews by, and a commit of a timetable. -/
def Claim.TimeSources : Prop :=
  ∀ s : State, s.Live →
    let heard (t : State) (x tai : Int) : Prop := t.get F.SAIL_TIME_OFFSET_OFFSET_NS = offsetCode x
      ∧ (s.sail.ran = true → t.sail.slew = x ∧ t.sail.clock = s.sail.clock)
      ∧ (s.sail.ran = false → t.sail.clock = tai ∧ t.sail.slew = s.sail.slew)
    (∀ (p : Fin 32) (x : Int) (tai : BitVec 64), s.portUp p = true →
      let good := if x.natAbs ≤ 50 then s.sail.ptpGood + 1 else 0
      ∃ t, exec (.ptpMessage p ⟨x, tai⟩) s = .next t ∧ heard t x tai.toNat ∧ t.sail.ptpSeen = true ∧ t.sail.taiNext = none
        ∧ t.timeState = (if s.timeState = 2 then if x.natAbs > 20000 then 0 else 2
            else if good ≥ 16 then 2 else s.timeState)
        ∧ (s.timeState ≠ 2 → good < 16 → t.sail.ptpGood = good))
    ∧ (s.timeState = 2 → ∃ t, exec .ptpLoss s = .next t ∧ t.timeState = 1)
    ∧ (s.timeState = 1 → s.sail.ppsPresent = false → ∃ t, exec .holdoverExpire s = .next t ∧ t.timeState = 0)
    ∧ (∀ x : Int,
      (s.timeState = 1 → ∃ t, exec (.ppsEdge x) s = .next t ∧ t.sail.ppsPresent = true
        ∧ heard t x (nextSecond s.sail.clock) ∧ s.SameBut t [.regs, .sail] ∧ s.SameRegs t [.SAIL_TIME_OFFSET])
      ∧ (s.timeState = 2 → 1000 < x.natAbs → ∃ t, exec (.ppsEdge x) s = .next t ∧ s.SameBut t [.ctrs]
        ∧ t.count .PKG_PPS_REJECT_COUNT = min counterMax (s.count .PKG_PPS_REJECT_COUNT + 1))
      ∧ (s.timeState = 2 → x.natAbs ≤ 1000 →
        exec (.ppsEdge x) s = .next { s with sail := { s.sail with ppsPresent := true } })
      ∧ (s.timeState = 0 → s.sail.ptpSeen = false → s.sail.taiNext = none → s.sail.taiSet = true →
        let good := if x.natAbs ≤ 50 then s.sail.ppsGood + 1 else 0
        ∃ t, exec (.ppsEdge x) s = .next t ∧ heard t x (nextSecond s.sail.clock)
          ∧ t.timeState = (if good ≥ 16 then 1 else 0) ∧ (good < 16 → t.sail.ppsGood = good))
      ∧ (∀ second : Nat, s.timeState = 0 → s.sail.ptpSeen = false → s.sail.taiNext = some second →
        ∃ t, exec (.ppsEdge x) s = .next t ∧ s.SameBut t [.sail] ∧ t.sail.taiNext = none ∧ t.sail.taiSet = true
          ∧ (s.sail.ran = false → t.sail.clock = second * 1000000000)
          ∧ (s.sail.ran = true → t.sail.slew = s.secondsOff second x)))
    ∧ exec .ppsLoss s = .next { s with sail := { s.sail with ppsPresent := false, ppsGood := 0 } }
    ∧ exec .ref10mLoss s = .next { s with sail := { s.sail with refPresent := false } }
    ∧ exec .ref10mReturn s = .next { s with sail := { s.sail with refPresent := true } }
    ∧ (∀ (a : Agent) (x : BitVec 64), ∃ t, exec (.taiSecondsWrite a x) s = .next t
      ∧ if a = .host then Claim.hostDenied s t
        else if s.timeState = 0 ∧ s.sail.ptpSeen = false then
          t.sail.taiNext = some (x.toNat % 2 ^ 48) ∧ t.sail.taiSet = false
            ∧ t.get F.SAIL_TAI_SECONDS_SECONDS = x.toNat % 2 ^ 48
            ∧ s.SameBut t [.regs, .sail] ∧ s.SameRegs t [.SAIL_TAI_SECONDS]
        else t = s)
    ∧ (∀ (a : Agent) (x : BitVec 64), ∃ t, exec (.sailTtCommit a x) s = .next t
      ∧ if a = .host then Claim.hostDenied s t
        else t.sail.commit = some (x.toNat % 2 ^ 48) ∧ t.get F.SAIL_TT_COMMIT_TARGET = x.toNat % 2 ^ 48
          ∧ s.SameBut t [.regs, .sail] ∧ s.SameRegs t [.SAIL_TT_COMMIT])

/-- The phases of a sailing, the sources of time, and a commit: its parts. -/
def Obligations.SailingsAndTime : Prop := Claim.SailingPhases ∧ Claim.TimeSources

/-! ### State processing cores -/

/-- The tile commands that read operands and write an output: core, OP code, which descriptors of the code they run, and the
operation of R71 that gives the output. -/
def Claim.tileTable : Instr → Option (Nat × Nat × (BitVec 512 → Bool) × (TileCtx → BitVec 512 → TileOut))
  | .mm c => some (c, 0x01, anyDesc, TileCtx.mm)
  | .mmPrescan c => some (c, 0x02, anyDesc, TileCtx.prescan)
  | .winMerge c => some (c, 0x03, anyDesc, fun x d => x.recPairs d mergeRec)
  | .accAdd c => some (c, 0x04, anyDesc, fun x d => x.recPairs d addRec)
  | .accRound c => some (c, 0x05, anyDesc, TileCtx.accRound)
  | .tileAdd c => some (c, 0x10, anyDesc, fun x d => x.map2 d fadd)
  | .tileMul c => some (c, 0x11, anyDesc, fun x d => x.map2 d fmul)
  | .tileScale c => some (c, 0x12, anyDesc, fun x d => x.map1 d fun a => fmul a (tScalar d))
  | .addRow c => some (c, 0x13, anyDesc, fun x d => x.mapRow d fun a v => fadd a (fmul (tScalar d) v))
  | .mulRow c => some (c, 0x14, anyDesc, fun x d => x.mapRow d fmul)
  | .sumRow c => some (c, 0x18, anyDesc, fun x d => x.reduceRows d treeSum)
  | .maxRow c => some (c, 0x19, anyDesc, fun x d => x.reduceRows d treeMax)
  | .softmaxRow c => some (c, 0x20, anyDesc, TileCtx.softmax)
  | .softmaxRecalc c => some (c, 0x21, fun d => !tGrad d, fun x d => x.recalc d false)
  | .softmaxGrad c => some (c, 0x21, tGrad, fun x d => x.recalc d true)
  | .rmsnorm c => some (c, 0x22, anyDesc, TileCtx.rmsnormTile)
  | .exp2 c => some (c, 0x23, anyDesc, fun x d => x.map1 d exp2f)
  | .recip c => some (c, 0x24, anyDesc, fun x d => x.map1 d recipf)
  | .rsqrt c => some (c, 0x25, anyDesc, fun x d => x.map1 d rsqrtf)
  | .silu c => some (c, 0x26, anyDesc, fun x d => x.map1 d siluf)
  | .siluMul c => some (c, 0x27, anyDesc, fun x d => x.map2 d fun a b => fmul (siluf a) b)
  | .convert c => some (c, 0x28, anyDesc, TileCtx.convert)
  | .route c => some (c, 0x30, anyDesc, TileCtx.route)
  | .combine c => some (c, 0x31, anyDesc, TileCtx.combine)
  | .copy c => some (c, 0x38, anyDesc, TileCtx.copy)
  | _ => none

/-- A tile in flight on its path that has not run, in banks that are powered and words that are readable, runs to its result:
the operation's output stands in the local store, and the tile waits for TILE_COMPLETE with its status. Nothing else changes
but the lost marks of words written, and ROUTE's count of deferrals (R65, R71, R74). -/
def Obligations.TilesRun : Prop :=
  ∀ (i : Instr) (c op : Nat) (pick : BitVec 512 → Bool) (f : TileCtx → BitVec 512 → TileOut) (s : State) (p : Path)
    (fl : Flight),
    Claim.tileTable i = some (c, op, pick, f) → s.Live → opPath op = some p → s.flight c p = some fl →
    fl.ran = false → tOp fl.desc = op → pick fl.desc = true →
    let x : TileCtx := ⟨s, c, fl.wins⟩
    let o := f x fl.desc
    (x.reads fl.desc).all (fun q => !s.rangeDark c q.1 q.2 && (s.lsLost c q.1 q.2).isNone) = true →
    o.writes.all (fun w => !s.rangeDark c w.1 w.2.length) = true → o.status ≤ stNonfinite → o.starved = 0 →
    ∃ t, exec i s = .next t
      ∧ t.flight c p = some { fl with ran := true, status := o.status, reason := o.reason }
      ∧ t.ls = o.writes.foldl (fun m w => SMap.putList memDefault m (lsKey c w.1) w.2) s.ls
      ∧ s.SameBut t [.ls, .lost, .core, .ctrs, .regs] ∧ s.SameRegs t [.CORE_STATUS]
      ∧ s.SameCounts t [.CORE_ROUTE_DEFER_COUNT]

/-- WIN_ADV moves the HEAD of its window on, in units of 256 bytes, modulo SIZE (R71, R86). -/
def Claim.WindowAdvances : Prop :=
  ∀ (s : State) (c : Fin 80) (fl : Flight), s.Live → s.flight c .vector = some fl → tOp fl.desc = 0x39 → fl.ran = false →
    let w := bits (tParam fl.desc) 2 0
    let win := (fl.wins.getD w 0).toNat
    ∃ t, exec (.winAdv c) s = .next t
      ∧ t.get F.CORE_WIN_HEAD (8 * c + w) = (bits win 63 48 + tKTileM1 fl.desc + 1) % bits win 47 32 % 2 ^ 16
      ∧ t.flight c .vector = some { fl with ran := true, status := 0 }
      ∧ s.SameBut t [.regs, .core] ∧ s.SameRegs t [.CORE_WIN, .CORE_STATUS]

/-- How tiles end (R25, R74, R85, R542): an OK tile leaves its path and writes the completion record it asked for; a tile that
times out or meets a first parity fault ends FAULT (7) with a record. -/
def Claim.TilesAreDone : Prop :=
  ∀ (s : State) (c : Fin 80) (p : Path) (fl : Flight), s.Live → s.flight c p = some fl →
    (fl.ran = true → fl.status = 0 → tPost fl.desc = false →
      ∃ t, exec (.tileComplete c p) s = .next t
        ∧ t.core.flights = s.core.flights.put (fun _ => none) (3 * c + pathIndex p) none
        ∧ t.flag (pathBusy p) c = false
        ∧ t.irq.waiting = s.irq.waiting
          ++ (if tNotify fl.desc then [⟨s.tagCore (tTag fl.desc), 0x02, 0, c, tTag fl.desc, s.now, 0, false⟩] else [])
        ∧ s.SameBut t [.regs, .core, .irq, .sail] ∧ s.SameRegs t [.CORE_STATUS])
    ∧ ((s.err.domains.get domDefault (domKey 6 c)).depth = 0 → s.recurs 4 6 c 0 = false →
      (∃ t, exec (.tileTimeout c p) s = .next t
        ∧ t.core.flights = s.core.flights.put (fun _ => none) (3 * c + pathIndex p) none
        ∧ ∃ r ∈ t.irq.waiting, r.source = 0x02 ∧ r.status = 7 ∧ r.tag = tTag fl.desc)
      ∧ (s.coreRetired c = false → ∃ t, exec (.coreParityFault c p) s = .next t
        ∧ t.core.flights = s.core.flights.put (fun _ => none) (3 * c + pathIndex p) none
        ∧ ∃ r ∈ t.irq.waiting, r.source = 0x02 ∧ r.status = 7 ∧ r.tag = tTag fl.desc))

/-- WIN_ADV, and how tiles end: its parts. -/
def Obligations.TilesEnd : Prop := Claim.WindowAdvances ∧ Claim.TilesAreDone

/-- An AUTO bank enters retention when nothing uses it and nothing starts soon, and comes back ON; the zeroing of a bank ends
(R85). -/
def Obligations.BankModes : Prop :=
  ∀ (s : State) (c : Fin 80) (b : Fin 48), s.Live →
    (∀ now : BitVec 32, s.bankMode c b = 3 → s.bankUsed c b = false → s.startsSoon c now.toNat = false →
      s.core.zeroing.get (fun _ => false) (48 * c + b) = false →
      ∃ t, exec (.bankAutoRetain c b now) s = .next t ∧ t.core.retained.get (fun _ => false) (48 * c + b) = true
        ∧ s.SameBut t [.core])
    ∧ exec (.bankAutoWake c b) s
      = .next { s with core := { s.core with retained := s.core.retained.put (fun _ => false) (48 * c + b) false } }
    ∧ exec (.bankZeroDone c b) s
      = .next { s with core := { s.core with zeroing := s.core.zeroing.put (fun _ => false) (48 * c + b) false } }

/-! ### The session directory -/

/-- The directory command at `a` is in the queue, readable in general-use HBM, of a code the unit runs next, with no reserved
bit set, on a device that has a directory, outside the wait for a capture point (R91, R97, R117, R271): `e` is its entry. -/
structure Claim.SdirReady (s : State) (a : BitVec 48) (op e : Nat) : Prop where
  live : s.Live
  calm : s.Calm
  queued : s.sdir.queue.contains a.toNat = true
  running : s.ckState ≠ 1
  entry : ∃ b, s.entryAt true a.toNat 32 = .ok b ∧ ofLE b = e
  code : dOp e = op
  first : s.sdirFirst a.toNat (dSession e) = true
  home : s.hasHome = true
  records : s.recCount ≠ 0
  reserved : dReserved e = false

/-- Bringing record `i` into the cache writes no dirty entry back: it is cached, or its set has room or replaces a clean
entry (R93). -/
def Claim.Quiet (s : State) (i : Nat) : Prop :=
  s.cached i = true ∨ ∀ v, cacheVictim (s.cacheWays i) = some v → v.dirty = false

/-- As before, on a session whose record `b` stands at index `i` and verifies where it is read (R93, R94). -/
structure Claim.SdirHeld (s : State) (a : BitVec 48) (op e i : Nat) (b : List Byte) : Prop where
  ready : Claim.SdirReady s a op e
  found : s.findSession (dSession e) = some i
  ok : s.hbmOk i = true ∨ (s.cached i = true ∧ wholeOps.contains op = false)
  bytes : s.recBytes i = b
  quiet : Claim.Quiet s i

/-- As before, with no transfer of the session in progress or queued. -/
structure Claim.SdirStill (s : State) (a : BitVec 48) (op e i : Nat) (b : List Byte) : Prop where
  held : Claim.SdirHeld s a op e i b
  id : rId b = dSession e
  motion : rMotion b = 0
  revival : s.reviveQueued (dSession e) = false
  move : s.moveOf (dSession e) = none

/-- As before, on a session without a record. -/
structure Claim.SdirAbsent (s : State) (a : BitVec 48) (op e : Nat) : Prop where
  ready : Claim.SdirReady s a op e
  absent : s.findSession (dSession e) = none
  unbroken : s.brokenRec (dSession e) = none

/-- The command has left the queue. -/
def Claim.SdirGone (s t : State) (a : BitVec 48) : Prop := t.sdir.queue = s.sdir.queue.erase a.toNat

/-- The command has left the queue and a completion record with its TAG and status waits to be written (R99, R116). -/
def Claim.SdirEnds (s t : State) (a : BitVec 48) (e status : Nat) : Prop :=
  Claim.SdirGone s t a
    ∧ ∃ r, t.irq.waiting = s.irq.waiting ++ [⟨s.tagCore (dTag e), 0x05, status, 0, dTag e, s.now, r, false⟩]

/-- A completion record with a TAG and a status waits to be written. -/
def Claim.SdirTold (t : State) (tag status : Nat) : Prop :=
  ∃ r ∈ t.irq.waiting, r.source = 0x05 ∧ r.status = status ∧ r.tag = tag

/-- A record's 256 bytes with its CRC (R94). -/
def Claim.sealed (b : List Byte) : List Byte :=
  let x := (padTo 256 b).take 0xFC
  x ++ leBytes 4 (crc32c x)

/-- The record `i` now holds `b` before its CRC. HBM holds it too, with a fresh CRC, when bytes changed that the cache entry
does not hold; otherwise no memory changed (R93, R94). -/
def Claim.RecordIs (s t : State) (i : Nat) (b : List Byte) : Prop :=
  ∀ k, s.place (s.recAddr i) = .hbm k → s.recAddr i % 4096 + 256 ≤ 4096 →
    (t.recBytes i).take 0xFC = (padTo 256 b).take 0xFC
      ∧ t.mem = if ((padTo 256 b).take 0xFC).drop 56 = ((s.recHbm i).take 0xFC).drop 56 then s.mem
        else SMap.putList memDefault s.mem k (Claim.sealed b)

/-- LOOKUP ends OK with the record for a session held, and NOT_FOUND (7) for one that is not; the use is a hit or a miss of
the cache, and a miss in a full set replaces the least recently used unlocked entry, written back when it is dirty; a reserved
code ends BAD_OP (0x10) (R93, R98, R99, R116). -/
def Claim.DirectoryLookups : Prop :=
  ∀ (s : State) (a : BitVec 48) (e i : Nat) (b : List Byte),
    (Claim.SdirHeld s a 0x01 e i b → ∃ t, exec (.lookup a) s = .next t ∧ Claim.SdirGone s t a ∧ t.mem = s.mem
      ∧ t.irq.waiting = s.irq.waiting ++ [⟨s.tagCore (dTag e), 0x05, 0, 0, dTag e, s.now,
          (Config.packResults 0x05 (b.map (·.toNat))).toNat, false⟩]
      ∧ (s.cached i = true → t.count .SDIR_HIT_COUNT = min counterMax (s.count .SDIR_HIT_COUNT + 1))
      ∧ (s.cached i = false → t.count .SDIR_MISS_COUNT = min counterMax (s.count .SDIR_MISS_COUNT + 1)
        ∧ (cacheVictim (s.cacheWays i) = none → t.cacheWays i = ⟨i, false, b.take 56⟩ :: s.cacheWays i)))
    ∧ (∀ (v : CacheEntry) (k : Nat), Claim.SdirReady s a 0x01 e → s.findSession (dSession e) = some i → s.hbmOk i = true →
      s.cacheEntry i = none → cacheVictim (s.cacheWays i) = some v → v.dirty = true → s.hbmOk v.index = true →
      s.place (s.recAddr v.index) = .hbm k → s.recAddr v.index % 4096 + 256 ≤ 4096 →
      ∃ t, exec (.lookup a) s = .next t ∧ Claim.SdirEnds s t a e 0
        ∧ t.cacheWays i = ⟨i, false, (s.recHbm i).take 56⟩ :: (s.cacheWays i).erase v
        ∧ t.mem = SMap.putList memDefault s.mem k (Claim.sealed (v.bytes ++ (s.recHbm v.index).drop 56)))
    ∧ (Claim.SdirAbsent s a 0x01 e → ∃ t, exec (.lookup a) s = .next t ∧ Claim.SdirEnds s t a e 7
      ∧ s.SameBut t [.sdir, .irq])
    ∧ (∀ op, (op = 0 ∨ 0x12 < op) → Claim.SdirReady s a op e →
      ∃ t, exec (.sdirBadOp a) s = .next t ∧ Claim.SdirEnds s t a e 0x10 ∧ s.SameBut t [.sdir, .irq])

/-- Directory commands that need a record, with their codes and the states of the session in which they have their effect
(R98). -/
def Claim.sdirTable : Instr → Option (BitVec 48 × Nat × List Nat)
  | .beginTurn a => some (a, 0x03, [1, 2])
  | .endTurn a => some (a, 0x04, [1])
  | .moor a => some (a, 0x05, [2])
  | .layUp a => some (a, 0x06, [2, 3])
  | .revive a => some (a, 0x07, [3, 4])
  | .reberth a => some (a, 0x08, [2])
  | .pin a => some (a, 0x09, [1, 2, 3, 4, 5, 6, 7])
  | .unpin a => some (a, 0x0A, [1, 2, 3, 4, 5, 6, 7])
  | .setHint a => some (a, 0x0B, [2])
  | .restore a _ _ => some (a, 0x11, [7])
  | .release a => some (a, 0x12, [1, 2, 3, 4, 6, 7])
  | _ => none

/-- The commands that change a held session's record and end OK (R95, R98, R102): BEGIN_TURN and END_TURN, PIN within the
limit, UNPIN, SET_HINT; an ACTIVE session is BUSY (1); a command in another state than those it is listed for, or on a session
not held, ends BAD_TRANSITION (2). -/
def Claim.DirectoryRecordChanges : Prop :=
  ∀ (s : State) (a : BitVec 48) (e i : Nat) (b : List Byte),
    (Claim.SdirStill s a 0x03 e i b → rState b = 2 →
      ∃ t, exec (.beginTurn a) s = .next t ∧ Claim.SdirEnds s t a e 0
        ∧ Claim.RecordIs s t i (setCtl (setCtl (setAll b [(0x20, 8, s.now), (0x28, 8, 0), (0x88, 4, dTag e)]) 46 45 0) 2 0 1))
    ∧ (Claim.SdirStill s a 0x03 e i b → rState b = 1 →
      ∃ t, exec (.beginTurn a) s = .next t ∧ Claim.SdirEnds s t a e 1 ∧ t.mem = s.mem)
    ∧ (Claim.SdirHeld s a 0x04 e i b → rState b = 1 →
      let x := setAll b [(0x18, 8, s.committedNow b), (0x20, 8, s.now), (0x84, 4, min (2 ^ 32 - 1) (rTurns b + 1)), (0x88, 4, 0)]
      ∃ t, exec (.endTurn a) s = .next t ∧ Claim.SdirEnds s t a e 0
        ∧ Claim.RecordIs s t i (setCtl (if bit (dArg48 e) 0 then
            setCtl (setLE x 0x28 8 ((s.now + dArg48 e / 2) % 2 ^ 48)) 46 46 1 else x) 2 0 2))
    ∧ (Claim.SdirStill s a 0x09 e i b → rState b ≠ 0 →
      rPinned b = true ∨ overLimit 4 (s.quota (tenantOf (dSession e)) 0x38 4) (s.pinnedOf (tenantOf (dSession e))) 1 = false →
      ∃ t, exec (.pin a) s = .next t ∧ Claim.SdirEnds s t a e 0 ∧ Claim.RecordIs s t i (setCtl b 47 47 1))
    ∧ (Claim.SdirStill s a 0x09 e i b → rState b ≠ 0 → rPinned b = false →
      overLimit 4 (s.quota (tenantOf (dSession e)) 0x38 4) (s.pinnedOf (tenantOf (dSession e))) 1 = true →
      ∃ t, exec (.pin a) s = .next t ∧ Claim.SdirEnds s t a e 0x0C ∧ t.mem = s.mem)
    ∧ (Claim.SdirHeld s a 0x0A e i b → rState b ≠ 0 →
      ∃ t, exec (.unpin a) s = .next t ∧ Claim.SdirEnds s t a e 0 ∧ Claim.RecordIs s t i (setCtl b 47 47 0))
    ∧ (Claim.SdirHeld s a 0x0B e i b → rState b = 2 →
      ∃ t, exec (.setHint a) s = .next t ∧ Claim.SdirEnds s t a e 0
        ∧ Claim.RecordIs s t i (setLE b 0x28 8 (dArg48 e)))
    ∧ (∀ (c : Instr) (op : Nat) (states : List Nat), Claim.sdirTable c = some (a, op, states) →
      (Claim.SdirStill s a op e i b → rState b ∉ states → ∃ t, exec c s = .next t ∧ Claim.SdirEnds s t a e 2 ∧ t.mem = s.mem)
      ∧ (Claim.SdirAbsent s a op e → ∃ t, exec c s = .next t ∧ Claim.SdirEnds s t a e 2 ∧ s.SameBut t [.sdir, .irq]))

/-- Directory commands that read or change a session record: its parts. -/
def Obligations.DirectoryRecords : Prop := Claim.DirectoryLookups ∧ Claim.DirectoryRecordChanges

/-- ADMIT finds what it needs: a free index entry `ix` and record `i`, and `n`, the lowest free number of the lowest class `c` of
its range with quota (R92, R93, R101 to R103). -/
structure Claim.Admits (s : State) (e ix i c n : Nat) : Prop where
  range : dClass e ≤ dMaxClass e
  enabled : s.enabled (tenantOf (dSession e)) = true
  quota : s.recordsFull (tenantOf (dSession e)) = false
  index : s.freeIndex (dSession e) = some ix
  record : s.freeRec = some i
  berth : s.classFor (tenantOf (dSession e)) i (dClass e) (dMaxClass e) = some (c, n)
  quiet : Claim.Quiet s i

/-- The session has a record `i` and the berth number `n` of class `c`, and is counted. -/
def Claim.Admitted (s t : State) (i c n : Nat) : Prop :=
  t.sdir.berthUse = s.sdir.berthUse.put (fun _ => 0) (berthKey c n) (i + 1)
    ∧ (t.cacheEntry i).isSome = true
    ∧ t.count .SDIR_ADMIT_COUNT = min counterMax (s.count .SDIR_ADMIT_COUNT + 1)

/-- ADMIT takes the lowest class of the range with quota and a free number, from the queue or from the wait (R103); it waits
when no class has both; a wait of ADMIT_WAIT sailings ends NO_BERTH or QUOTA_BERTH; the other refusals end with their status
(R99, R101, R102). -/
def Obligations.DirectoryAdmits : Prop :=
  ∀ s : State, s.Live → s.Calm →
    (∀ (a : BitVec 48) (e : Nat), Claim.SdirAbsent s a 0x02 e → s.entropyOk = true →
      (∀ ix i c n, Claim.Admits s e ix i c n →
        ∃ t, exec (.admitSession a) s = .next t ∧ Claim.SdirEnds s t a e 0 ∧ Claim.Admitted s t i c n)
      ∧ (∀ ix i, dClass e ≤ dMaxClass e → s.enabled (tenantOf (dSession e)) = true →
        s.recordsFull (tenantOf (dSession e)) = false → s.freeIndex (dSession e) = some ix → s.freeRec = some i →
        s.classFor (tenantOf (dSession e)) i (dClass e) (dMaxClass e) = none →
        ∃ t, exec (.admitSession a) s = .next t ∧ Claim.SdirGone s t a
          ∧ t.sdir.waits = s.sdir.waits ++ [⟨BitVec.ofNat 256 e, s.now, [], dClass e⟩] ∧ s.SameBut t [.sdir])
      ∧ (∀ st, st = (if dMaxClass e < dClass e then 0x10 else if s.enabled (tenantOf (dSession e)) = false then 0x0A
          else if s.recordsFull (tenantOf (dSession e)) = true then 3
          else if s.freeIndex (dSession e) = none ∨ s.freeRec = none then 6 else 0) → st ≠ 0 →
        ∃ t, exec (.admitSession a) s = .next t ∧ Claim.SdirEnds s t a e st ∧ s.SameBut t [.sdir, .irq, .ctrs]))
    ∧ (∀ (w : SdirWait) (session : BitVec 64) (at_ : BitVec 40),
      s.sdir.waits.find? (fun w => dSession w.entry.toNat == session.toNat) = some w →
      let e := w.entry.toNat
      (∀ ix i c n, dOp e = 0x02 → s.ckState ≠ 1 → s.entropyOk = true → s.findSession (dSession e) = none →
        Claim.Admits s e ix i c n →
        ∃ t, exec (.admitWaitResume session at_) s = .next t ∧ t.sdir.waits = s.sdir.waits.erase w
          ∧ Claim.SdirTold t (dTag e) 0 ∧ Claim.Admitted s t i c n)
      ∧ (dOp e ≠ 0x0F → w.since + s.get F.SDIR_WAIT_ADMIT_WAIT ≤ s.now →
        ∃ t, exec (.admitWaitExpire session at_) s = .next t ∧ t.sdir.waits = s.sdir.waits.erase w
          ∧ t.irq.waiting = s.irq.waiting ++ [⟨s.tagCore (dTag e), 0x05, s.waitStatus w, 0, dTag e, s.now, 0, false⟩]
          ∧ t.count .SDIR_REFUSE_COUNT = min counterMax (s.count .SDIR_REFUSE_COUNT + 1)
          ∧ s.SameBut t [.sdir, .irq, .ctrs]))

/-- The commands that start a transfer of a session with none in progress (R98, R100, R107, R182, R188, R193, R343): the move
joins the moves, or the revival its queue. -/
def Claim.DirectoryMovesStart : Prop :=
  ∀ (s : State) (a : BitVec 48) (e i : Nat) (b : List Byte),
    let w := s.worstBytes b
    let t := tenantOf (dSession e)
    (Claim.SdirStill s a 0x05 e i b → rState b = 2 → rPinned b = false →
      (s.moorFull t (mibOf w) = false → ∃ u, exec (.moor a) s = .next u ∧ Claim.SdirGone s u a
        ∧ u.sdir.moves = s.sdir.moves ++ [⟨1, dSession e, i, s.newLoc 1, 0, rClass b, rBerth b, rClass b, rBerth b,
            some (dTag e), mibOf w, s.now, s.epoch, s.crewShares, [], false, 0, []⟩])
      ∧ (s.moorFull t (mibOf w) = true → s.layupFull t (mbOf w) = false →
        ∃ u, exec (.moor a) s = .next u ∧ Claim.SdirGone s u a
          ∧ u.sdir.moves = s.sdir.moves ++ [⟨2, dSession e, i, s.newLoc 2, 0, rClass b, rBerth b, rClass b, rBerth b,
              some (dTag e), mbOf w, s.now, s.epoch, s.crewShares, [], false, 0, []⟩]))
    ∧ (Claim.SdirStill s a 0x06 e i b → rState b = 2 ∨ rState b = 3 → s.layupFull t (mbOf w) = false →
      ∃ u, exec (.layUp a) s = .next u ∧ Claim.SdirGone s u a
        ∧ u.sdir.moves = s.sdir.moves ++ [⟨2, dSession e, i, s.newLoc 2, if rState b = 3 then rLower b else 0, rClass b,
            rBerth b, rClass b, rBerth b, some (dTag e), mbOf w, s.now, s.epoch, s.crewShares, [], false, 0, []⟩])
    ∧ (Claim.SdirStill s a 0x07 e i b → rState b = 3 ∨ rState b = 4 → s.enabled t = true →
      rProfile b = s.get F.CFG_AP_STATUS_ACTIVE →
      ∃ u, exec (.revive a) s = .next u ∧ Claim.SdirGone s u a
        ∧ u.sdir.revivals = s.sdir.revivals ++ [⟨dSession e, rClass b, if bit (dArg48 e) 0 then 1 else 0, s.now, dTag e⟩])
    ∧ (∀ n, Claim.SdirStill s a 0x08 e i b → rState b = 2 → rClass b < dClass e → s.berthQuotaFull t (dClass e) = false →
      s.freeBerth (dClass e) = some n →
      ∃ u, exec (.reberth a) s = .next u ∧ Claim.SdirGone s u a
        ∧ u.sdir.moves = s.sdir.moves ++ [⟨5, dSession e, i, 0, 0, dClass e, n, rClass b, rBerth b, some (dTag e), 0, s.now,
            s.epoch, s.crewShares, [], false, dArg48 e, []⟩])
    ∧ (Claim.SdirStill s a 0x0C e i b → rState b = 2 ∨ rState b = 3 ∨ rState b = 4 → s.entropyOk = true →
      ∃ u, exec (.sealSession a) s = .next u ∧ Claim.SdirGone s u a ∧ u.sealer.serial = s.sealer.serial + 1
        ∧ u.sdir.moves = s.sdir.moves ++ [⟨4, dSession e, i,
            sealedLoc (s.get F.CFG_LC_STATUS_ARCHIVE_GEN) s.sealer.serial, if rState b = 2 then 0 else rLower b, rClass b,
            rBerth b, rClass b, rBerth b, some (dTag e), 0, s.now, s.epoch, s.crewShares, [], false, 0, []⟩])
    ∧ (∀ (others : List (BitVec 48)) (rec_ : List (BitVec 8)) (n : Nat), Claim.SdirStill s a 0x11 e i b → rState b = 7 →
      let r := padTo 256 rec_
      let loc := if rState r = 3 ∨ rState r = 4 then rLower r else 0
      (s.commonCommit (others.map (·.toNat))).isSome = true → rec_ ≠ [] → rId r = dSession e → rState r ≠ 0 → rState r ≠ 6 →
      (rState r = 3 ∨ rState r = 4 → s.sdir.gens.get (fun _ => 0) (locSlot loc) ≤ locGen loc) →
      rProfile r = s.get F.CFG_AP_STATUS_ACTIVE → s.berthQuotaFull t (rClass r) = false → s.lockRoom i = true →
      s.freeBerth (rClass r) = some n →
      ∃ u, exec (.restore a others rec_) s = .next u ∧ Claim.SdirGone s u a
        ∧ u.sdir.moves = s.sdir.moves ++ [⟨6, dSession e, i, loc, 0, rClass r, n, rClass r, n, some (dTag e), 0, s.now,
            s.epoch, s.crewShares, [], false, 0, r⟩])

/-- Moves and revivals over time (R107, R108, R189): a queued revival starts with a berth; one that is late is cancelled with
REVIVE_LATE (0xE); a share's report is kept until the last share has reported. -/
def Claim.DirectoryMovesGoOn : Prop :=
  ∀ s : State, s.Live → s.Calm → s.hasHome = true → s.recCount ≠ 0 →
    (∀ (r : Revival) (i n : Nat), s.get F.SAIL_STATUS_PHASE = 0 → s.ckState ≠ 1 → s.sdir.revivals = [r] → r.cls < 4 →
      s.sdir.revived.1 ≠ s.now → s.get F.SDIR_REVIVE_REVIVE_BUDGET ≠ 0 → s.findSession r.session = some i →
      s.recOk i = true → rState (s.recBytes i) = 3 ∨ rState (s.recBytes i) = 4 ∨ rState (s.recBytes i) = 6 →
      rMotion (s.recBytes i) = 0 → s.berthQuotaFull (tenantOf r.session) r.cls = false → s.lockRoom i = true →
      s.freeBerth r.cls = some n →
      ∃ t, exec .revivalStart s = .next t ∧ t.sdir.revivals = []
        ∧ t.sdir.moves = s.sdir.moves ++ [⟨3, r.session, i, rLower (s.recBytes i), rLower (s.recBytes i), r.cls, n, r.cls, n,
            some r.tag, 0, s.now, s.epoch, s.crewShares, [], r.prio == 1, 0, []⟩])
    ∧ (∀ (m : Move) (session : BitVec 64), s.moveOf session.toNat = some m → m.motion = 3 →
      m.started + s.get F.SDIR_WAIT_REVIVE_DEADLINE ≤ s.now →
      ∃ t, exec (.reviveDeadlineExpire session) s = .next t
        ∧ t.sdir.moves = s.sdir.moves.filter (fun x => decide (x.session ≠ m.session))
        ∧ t.count .SDIR_CANCEL_COUNT = min counterMax (s.count .SDIR_CANCEL_COUNT + 1)
        ∧ (∀ tag, m.tag = some tag → Claim.SdirTold t tag 0x0E))
    ∧ (∀ (m : Move) (session : BitVec 64) (share : BitVec 16) (bytes : BitVec 64) (manifests image : List (BitVec 8))
        (history : List (BitVec 48 × List (BitVec 8))) (at_ : BitVec 40),
      s.moveOf session.toNat = some m → share.toNat ∈ m.waiting → m.waiting.erase share.toNat ≠ [] →
      ∃ t, exec (.shareReport session (.moved share 0 bytes manifests image history) at_) s = .next t
        ∧ t.sdir.moves = s.sdir.moves.map (fun y => if y.session = m.session then
            { m with
              waiting := m.waiting.erase share.toNat,
              reports := m.reports
                ++ [⟨share.toNat, 0, bytes.toNat, manifests, image, history.map fun h => (h.1.toNat, h.2)⟩] } else y)
        ∧ s.SameBut t [.sdir])

/-- Moves and revivals of sessions start, go on and are late: its parts. -/
def Obligations.DirectoryMoves : Prop := Claim.DirectoryMovesStart ∧ Claim.DirectoryMovesGoOn

/-- How CROSS_IN goes on for a session with an offer: a status that ends it (R99, R420, R516), or none when it waits for a berth
or a lock. -/
def Claim.crossInStatus (s : State) (e : Nat) (c : Crossing) : Option Nat :=
  let t := tenantOf (dSession e)
  let r := cbRecord c.begin_
  if s.bundleReject (dSession e) (cbBundle c.begin_) ≠ 0 then some 7
  else if rProfile r ≠ s.get F.CFG_AP_STATUS_ACTIVE then some 0x0D
  else if s.enabled t = false then some 0x0A
  else if s.recordsFull t = true then some 3
  else match s.freeIndex (dSession e), s.freeRec with
    | some _, some i =>
      if rPrior r = 3 ∨ rPrior r = 4 then if s.lockRoom i then some 0 else none
      else if (s.classFor t i (rClass r) (rClass r)).isSome then some 0 else none
    | _, _ => some 6

/-- CROSS_IN has run to its status: with OK the crossing goes on at the destination in step 3, waiting for the crew's shares;
the offer is gone and the command has ended (R420). -/
def Claim.CrossedIn (s t : State) (e : Nat) (c : Crossing) (st : Nat) : Prop :=
  Claim.SdirTold t (dTag e) st ∧ t.mct.offers = s.mct.offers.filter (fun x => decide (x.session ≠ c.session))
    ∧ (st = 0 → c.source = false → ∃ x ∈ t.mct.crossings, x.session = c.session ∧ x.source = false ∧ x.step = 3)

/-- How UNSEAL of a session without a record goes on: a status that ends it (R99, R102, R105, R516), or none when the session is
taken. The status for a class above MAX_CLASS is open (assumption 41), and stands as 0x11 here. -/
def Claim.unsealStatus (s : State) (e : Nat) (bytes : List Byte) : Option Nat :=
  let t := tenantOf (dSession e)
  let r := padTo 256 (((s.sections (dSession e) bytes bxRecord).head?).getD [])
  if s.bundleReject (dSession e) bytes ≠ 0 then some 7
  else if rProfile r ≠ s.get F.CFG_AP_STATUS_ACTIVE then some 0x0D
  else if s.enabled t = false then some 0x0A
  else if dMaxClass e < rClass r then some 0x11
  else if s.recordsFull t = true then some 3
  else if s.freeIndex (dSession e) = none ∨ s.freeRec = none then some 6
  else none

/-- Sessions come, cross and go (R98, R420, R421, R516): UNSEAL imports a verified bundle and queues its revival, or ends with
the status of the first check that fails; CROSS_OUT puts a session IN_CROSSING; CROSS_IN takes an offered one, waits, or ends;
CROSS_DONE ends a crossing; RELEASE frees a session and ends an ACTIVE turn's request. -/
def Obligations.DirectoryCrossings : Prop :=
  ∀ (s : State) (a : BitVec 48) (e : Nat),
    (∀ (bundle : List (BitVec 8)), Claim.SdirAbsent s a 0x0D e →
      let bytes := if bundle.isEmpty then s.nand.bundles.get (fun _ => []) (dArg64 e) else bundle
      let r := padTo 256 (((s.sections (dSession e) bytes bxRecord).head?).getD [])
      ∃ t, exec (.unsealBundle a bundle) s = .next t ∧ Claim.SdirGone s t a
        ∧ match Claim.unsealStatus s e bytes with
          | none => t.sdir.revivals = s.sdir.revivals ++ [⟨dSession e, rClass r, 0, s.now, dTag e⟩]
            ∧ t.nand.logs = s.nand.logs.put (fun _ => []) (dSession e) (s.sections (dSession e) bytes bxLog)
          | some st => t.sdir.revivals = s.sdir.revivals ∧ (st ≠ 0x11 → Claim.SdirTold t (dTag e) st)
            ∧ (s.bundleReject (dSession e) bytes ≠ 0 →
              t.count .SEC_BUNDLE_REJECT_COUNT = min counterMax (s.count .SEC_BUNDLE_REJECT_COUNT + 1)))
    ∧ (∀ (i : Nat) (b : List Byte) (at_ : BitVec 40), Claim.SdirStill s a 0x0E e i b → s.entropyOk = true →
      (rState b = 1 ∨ rState b = 2 → s.crewShares ≠ [] →
        ∃ t, exec (.crossOut a at_) s = .next t ∧ Claim.SdirEnds s t a e 0
          ∧ t.mct.crossings = s.mct.crossings ++ [{ session := dSession e, op := s.mct.nextOp, peer := dArg64 e, source := true, step := 1, since := s.now, digest := [], begin_ := [], berth := rBerth b, waiting := s.crewShares, epoch := s.epoch }]
          ∧ Claim.RecordIs s t i (setCtl (setCtl (setLE (if rState b = 1 then setLE b 0x18 8 (s.committedNow b) else b)
              0x90 8 (dArg64 e)) 10 8 (rState b)) 2 0 5))
      ∧ (rState b = 3 ∨ rState b = 4 → s.crossing (dSession e) = none →
        ∃ t, exec (.crossOut a at_) s = .next t ∧ Claim.SdirGone s t a ∧ Claim.SdirTold t (dTag e) 0
          ∧ ∃ x ∈ t.mct.crossings, x.session = dSession e ∧ x.source = true ∧ x.peer = dArg64 e)
      ∧ (rState b = 0 ∨ 5 ≤ rState b → ∃ t, exec (.crossOut a at_) s = .next t ∧ Claim.SdirEnds s t a e 2 ∧ t.mem = s.mem))
    ∧ (∀ at_ : BitVec 40, Claim.SdirAbsent s a 0x0F e →
      (s.mct.offers.find? (fun c => c.session == dSession e) = none →
        ∃ t, exec (.crossIn a at_) s = .next t ∧ Claim.SdirEnds s t a e 7 ∧ s.SameBut t [.sdir, .irq])
      ∧ (∀ c, s.mct.offers.find? (fun c => c.session == dSession e) = some c →
        ∃ t, exec (.crossIn a at_) s = .next t ∧ Claim.SdirGone s t a
          ∧ match Claim.crossInStatus s e c with
            | some st => Claim.CrossedIn s t e c st
            | none => t.sdir.waits = s.sdir.waits
                ++ [⟨BitVec.ofNat 256 e, s.now, cbRecord c.begin_, rClass (cbRecord c.begin_)⟩]))
    ∧ (∀ (i : Nat) (b : List Byte) (c : Crossing) (log : List (List (BitVec 8))) (at_ : BitVec 40),
      Claim.SdirHeld s a 0x10 e i b → s.crossing (dSession e) = some c → rState b = 5 →
      let gone (t : State) : Prop := t.mct.crossings = s.mct.crossings.filter (fun x => decide (x.session ≠ c.session))
      (bit (dArg48 e) 0 = true → c.source = true → c.step = 6 →
        ∃ t, exec (.crossDone a log at_) s = .next t ∧ Claim.SdirEnds s t a e 0 ∧ gone t
          ∧ Claim.RecordIs s t i (setCtl (setCtl (setLE b 0x90 8 0) 10 8 0) 2 0 (rPrior b)))
      ∧ (bit (dArg48 e) 0 = false → c.source = true → c.step = 4 ∨ c.step = 5 →
        ∃ t, exec (.crossDone a log at_) s = .next t ∧ Claim.SdirEnds s t a e 0 ∧ gone t
          ∧ ∀ k, s.sdir.berthUse.get (fun _ => 0) k = i + 1 → t.sdir.berthUse.get (fun _ => 0) k = 0)
      ∧ ((bit (dArg48 e) 0 = true ∧ c.source = true ∧ (c.step = 4 ∨ c.step = 5)) ∨ (c.source = false ∧ c.step < 5) →
        ∃ t, exec (.crossDone a log at_) s = .next t ∧ Claim.SdirEnds s t a e 2 ∧ t.mct = s.mct))
    ∧ (∀ (i : Nat) (b : List Byte), Claim.SdirStill s a 0x12 e i b → rState b ≠ 0 → rState b ≠ 5 →
      (s.sdir.merged.all fun m => m.1 != dSession e) = true →
      ∃ t, exec (.release a) s = .next t ∧ Claim.SdirEnds s t a e 0
        ∧ (∀ k, s.sdir.berthUse.get (fun _ => 0) k = i + 1 → t.sdir.berthUse.get (fun _ => 0) k = 0)
        ∧ t.nand.logs.get (fun _ => []) (dSession e) = []
        ∧ (rState b = 1 → t.host.requests
          = (s.host.requests.filter fun r => r.session == dSession e && r.op == 1 && r.begun).foldl List.erase s.host.requests)
        ∧ (rState b ≠ 1 → t.host.requests = s.host.requests))

/-! ### Berths -/

/-- The berth command at `a` is queued, readable in general-use HBM, of a code the unit runs next, outside the wait for a
capture point, and the oldest of its berth, or a CLOSE that passes a command which waits for history (R128, R129, R131, R271):
`e` is its entry. -/
structure Claim.BerthTaken (s : State) (a : BitVec 48) (op : Nat) (e : BitVec 256) : Prop where
  live : s.Live
  calm : s.Calm
  queued : s.berth.queue.contains a.toNat = true
  running : s.ckState ≠ 1
  entry : ∃ b, s.entryAt true a.toNat 32 = .ok b ∧ BitVec.ofNat 256 (ofLE b) = e
  code : bOp e = op
  first : (s.berthQueued a.toNat).head? = some a.toNat ∨ (op = 2 ∧ s.lapWaits (bClass e) (bNumber e) = true)

/-- As before, on a device with a LAYER island, with no move of the berth's share under way, none that CLOSE must wait for,
and, for every command but CLOSE, no earlier command of the berth that waits or runs (R118, R131, R139, R188). -/
structure Claim.BerthRuns (s : State) (a : BitVec 48) (op : Nat) (e : BitVec 256) : Prop where
  taken : Claim.BerthTaken s a op e
  layer : s.hasLayer = true
  still : s.berthMoving (bClass e) (bNumber e) = false
  close : op = 2 → s.closeHeld (bClass e) (bNumber e) = false
  free : op ≠ 2 → s.berthHeld (bClass e) (bNumber e) = false

/-- An entry with no reserved bit set and a number in range, of a berth whose control area lies in HBM at `k` (R128). -/
structure Claim.BerthFits (s : State) (e : BitVec 256) (k : Nat) : Prop where
  reserved : bit e.toNat 156 = false ∧ bits e.toNat 71 64 = 0
  number : bNumber e < s.get F.BERTH_CLASS_COUNT (bClass e)
  base : s.place (s.berthBase (bClass e) (bNumber e)) = .hbm k

/-- The berth is open for the entry's session and has its layer; `b` is its header (R122, R129). -/
structure Claim.BerthBody (s : State) (e : BitVec 256) (k : Nat) (b : List Byte) : Prop where
  fits : Claim.BerthFits s e k
  ok : s.headerOk (bClass e) (bNumber e) = true
  header : s.header (bClass e) (bNumber e) = b
  isOpen : hOpen b = true
  owner : hSession b = bSession e
  layer : bLayer e < (s.shape (bClass e)).layers

/-- A berth command that passes every shared check. -/
structure Claim.BerthHeld (s : State) (a : BitVec 48) (op : Nat) (e : BitVec 256) (k : Nat) (b : List Byte) : Prop where
  runs : Claim.BerthRuns s a op e
  body : Claim.BerthBody s e k b

/-- The completion record of a berth command (R130). -/
def Claim.berthRec (s : State) (e : BitVec 256) (status : Nat) : CqRec :=
  ⟨s.tagCore (bTag e), 0x06, status, 0, bTag e, s.now, 0, false⟩

/-- The command has left the queue and a completion record with its TAG and a status waits to be written (R130, R145). -/
def Claim.BerthEnds (s t : State) (a : BitVec 48) (e : BitVec 256) (status : Nat) : Prop :=
  t.berth.queue = s.berth.queue.erase a.toNat ∧ t.irq.waiting = s.irq.waiting ++ [Claim.berthRec s e status]

/-- A completion record with the command's TAG and a status waits to be written. -/
def Claim.BerthTold (t : State) (e : BitVec 256) (status : Nat) : Prop :=
  ∃ r ∈ t.irq.waiting, r.source = 0x06 ∧ r.status = status ∧ r.tag = bTag e

/-- A control area as it is written over `old`: COMMITTED is the smallest FILL, GLOBAL_VALID the number of valid entries,
BUCKET follows when one of them changes, and the CRC is fresh (R122, R137). -/
def Claim.headerOf (s : State) (c : Nat) (old b : List Byte) : List Byte :=
  let p := s.shape c
  let committed := ((List.range p.layers).map (hFill b)).foldl min (2 ^ 48 - 1)
  let globals := ((List.range p.gt).filter (hGlobalValid b)).length
  let b := setAll b [(0x10, 8, if p.layers = 0 then 0 else committed), (0x2C, 2, globals)]
  withCrc (setLE b 0x2B 1
    (if hCommitted b = hCommitted old ∧ hGlobals b = hGlobals old then hBucket old else s.bucketOf p b))

/-- The control area of a berth. -/
def Claim.controlArea (s : State) (e : BitVec 256) : Nat × Nat := (s.berthBase (bClass e) (bNumber e), 4096)

/-- The tiles of a berth that a list of patches writes, with their manifests. -/
def Claim.tileRanges (s : State) (e : BitVec 256) (ps : List (Nat × List (Nat × List Byte))) : List (Nat × Nat) :=
  let base := s.berthBase (bClass e) (bNumber e)
  ps.flatMap fun x => [(tileAddr base x.1, 16384), ((s.shape (bClass e)).manifestAddr base x.1, 32)]

/-- The berth commands with their codes (R129). -/
def Claim.berthTable : Instr → Option (BitVec 48 × Nat)
  | .berthOpen a => some (a, 1)
  | .berthClose a => some (a, 2)
  | .append a => some (a, 3)
  | .specWrite a => some (a, 4)
  | .specResolve a => some (a, 5)
  | .historySave a => some (a, 6)
  | .globalLoad a => some (a, 7)
  | .globalClear a => some (a, 8)
  | _ => none

/-- Berth commands that fail a shared check (R128 to R130, R142): NO_POOL (1) on a device without a LAYER island, BAD_OP (0xD)
for reserved bits or a reserved code, BAD_BERTH (2) for a number out of range, BAD_STATE (3) on a berth that is closed or
another session's, COUNT_RANGE (5) for a layer out of range. -/
def Claim.BerthsRefuse : Prop :=
  ∀ (s : State) (a : BitVec 48) (e : BitVec 256), let c := bClass e; let n := bNumber e
    (∀ (cmd : Instr) (op : Nat), Claim.berthTable cmd = some (a, op) →
      (Claim.BerthTaken s a op e → s.hasLayer = false →
        ∃ t, exec cmd s = .next t ∧ Claim.BerthEnds s t a e 1 ∧ s.SameBut t [.berth, .irq])
      ∧ (Claim.BerthRuns s a op e →
        (bit e.toNat 156 = true ∨ bits e.toNat 71 64 ≠ 0 →
          ∃ t, exec cmd s = .next t ∧ Claim.BerthEnds s t a e 0xD ∧ s.SameBut t [.berth, .irq])
        ∧ (bit e.toNat 156 = false → bits e.toNat 71 64 = 0 → s.get F.BERTH_CLASS_COUNT c ≤ n →
          ∃ t, exec cmd s = .next t ∧ Claim.BerthEnds s t a e 2 ∧ s.SameBut t [.berth, .irq])
        ∧ (∀ k, Claim.BerthFits s e k → op = 1 → (s.shape c).layers ≤ bLayer e →
          ∃ t, exec cmd s = .next t ∧ Claim.BerthEnds s t a e 5 ∧ s.SameBut t [.berth, .irq])
        ∧ (∀ k, Claim.BerthFits s e k → op = 1 → bLayer e < (s.shape c).layers → s.berthWithdrawn c n = true →
          ∃ t, exec cmd s = .next t ∧ Claim.BerthEnds s t a e 0xB ∧ s.SameBut t [.berth, .irq])
        ∧ (∀ k, Claim.BerthFits s e k → s.headerOk c n = true →
          (op = 1 → bLayer e < (s.shape c).layers → s.berthWithdrawn c n = false → hOpen (s.header c n) = true →
            ∃ t, exec cmd s = .next t ∧ Claim.BerthEnds s t a e 3 ∧ s.SameBut t [.berth, .irq])
          ∧ (op ≠ 1 → hOpen (s.header c n) = false ∨ hSession (s.header c n) ≠ bSession e →
            ∃ t, exec cmd s = .next t ∧ Claim.BerthEnds s t a e 3 ∧ s.SameBut t [.berth, .irq])
          ∧ (op ≠ 1 → hOpen (s.header c n) = true → hSession (s.header c n) = bSession e → (s.shape c).layers ≤ bLayer e →
            ∃ t, exec cmd s = .next t ∧ Claim.BerthEnds s t a e 5
              ∧ t.count .BERTH_GLOBAL_REFUSE_COUNT
                = min counterMax (s.count .BERTH_GLOBAL_REFUSE_COUNT + if op = 7 then 1 else 0)
              ∧ s.SameBut t [.berth, .irq, .ctrs] ∧ s.SameCounts t [.BERTH_GLOBAL_REFUSE_COUNT]))))
    ∧ (∀ op, (op = 0 ∨ 8 < op) → Claim.BerthRuns s a op e →
      ∃ t, exec (.berthBadOp a) s = .next t ∧ Claim.BerthEnds s t a e 0xD ∧ s.SameBut t [.berth, .irq])

/-- BERTH_OPEN opens a closed number: the header is zeroed and then names the session, the number and the class, OPEN and the
epoch, and IN_USE counts it; BERTH_CLOSE ends the commands of the berth that wait, zeroes the header and counts down, and
cancels an open tag (R122, R129, R131, R135, R144). -/
def Claim.BerthsAreOpened : Prop :=
  ∀ (s : State) (a : BitVec 48) (e : BitVec 256) (k : Nat), let c := bClass e; let n := bNumber e
    (Claim.BerthRuns s a 1 e → Claim.BerthFits s e k → bLayer e < (s.shape c).layers → s.berthWithdrawn c n = false →
      s.headerOk c n = true → hOpen (s.header c n) = false →
      ∃ t, exec (.berthOpen a) s = .next t ∧ Claim.BerthEnds s t a e 0
        ∧ (let zero := Claim.headerOf s c (s.header c n) (List.replicate 4096 0)
          t.header c n = Claim.headerOf s c zero (setAll zero
            [(0, 8, bSession e), (8, 4, putBits (putBits n 21 20 c) 31 31 1), (0xC, 4, s.epoch)]))
        ∧ t.get F.BERTH_IN_USE_COUNT c = (s.get F.BERTH_IN_USE_COUNT c + 1) % 2 ^ 32
        ∧ Claim.MemOnly s t [Claim.controlArea s e]
        ∧ s.SameBut t [.regs, .mem, .nmu, .berth, .irq] ∧ s.SameRegs t [.BERTH_IN_USE])
    ∧ (∀ b, Claim.BerthHeld s a 2 e k b →
      let mine (j : BerthJob) : Bool := bClass j.entry == c && bNumber j.entry == n
      let before := (s.berthQueued a.toNat).takeWhile (fun x => x ≠ a.toNat)
      let ended := (s.berth.laps.filter mine ++ s.berth.saves.filter mine ++ s.berth.loads.filter mine).map (·.entry)
        ++ before.map s.entry256
      (hSpecOpen b = false →
        ∃ t, exec (.berthClose a) s = .next t
          ∧ t.berth.queue = before.foldl List.erase (s.berth.queue.erase a.toNat)
          ∧ t.irq.waiting = s.irq.waiting ++ (ended.map fun x => Claim.berthRec s x 0xC) ++ [Claim.berthRec s e 0]
          ∧ (t.berth.laps ++ t.berth.saves ++ t.berth.loads).filter mine = []
          ∧ t.header c n = Claim.headerOf s c b (List.replicate 4096 0)
          ∧ t.get F.BERTH_IN_USE_COUNT c = s.get F.BERTH_IN_USE_COUNT c - 1
          ∧ Claim.MemOnly s t [Claim.controlArea s e]
          ∧ s.SameBut t [.regs, .mem, .nmu, .berth, .irq] ∧ s.SameRegs t [.BERTH_IN_USE])
      ∧ (hSpecOpen b = true →
        ∃ t, exec (.berthClose a) s = .next t ∧ Claim.BerthTold t e 0 ∧ hOpen (t.header c n) = false
          ∧ t.count .BERTH_SPEC_ORPHAN_COUNT = min counterMax (s.count .BERTH_SPEC_ORPHAN_COUNT + 1)
          ∧ t.get F.BERTH_IN_USE_COUNT c = s.get F.BERTH_IN_USE_COUNT c - 1))

/-- Berths open and close: its parts. -/
def Obligations.BerthsOpenAndClose : Prop := Claim.BerthsRefuse ∧ Claim.BerthsAreOpened

/-- The tiles that an APPEND writes into, with what it writes (R121, R123). -/
def Claim.appendTiles (s : State) (e : BitVec 256) : List (Nat × List (Nat × List Byte)) :=
  let p := s.shape (bClass e)
  joinPatches ((headKinds p).flatMap fun x => ringPatches p (bLayer e) x.1 x.2 (bPos e) (s.rowsFor e x.1 x.2))

/-- How an APPEND of an open berth ends: a status, or none when its lap must wait (R123, R125, R129, R132, R140). -/
def Claim.appendStatus (s : State) (e : BitVec 256) (b : List Byte) : Option Nat :=
  let c := bClass e
  let p := s.shape c
  if s.berthWithdrawn c (bNumber e) then some 0xB
  else if bPos e ≠ hFill b (bLayer e) then some 4
  else if bCount e = 0 ∨ min p.w 1024 < bCount e then some 5
  else if hSpecOpen b = true ∧ hSpecBase b < bPos e + bCount e then some 5
  else if lapOk p b (bPos e + bCount e - 1) = false then none
  else if s.sourceOk e p = false then some 5
  else if s.tilesOk c (bNumber e) (Claim.appendTiles s e) = false then some 3
  else some 0

/-- An APPEND has run to a status: with OK, FILL of its layer has moved on by COUNT and only its tiles, their manifests and the
control area are written; a share that cannot be read is reported lost (R123, R124, R140). -/
def Claim.Appended (s t : State) (e : BitVec 256) (st : Nat) : Prop :=
  Claim.BerthTold t e st
    ∧ (st = 0 → hFill (t.header (bClass e) (bNumber e)) (bLayer e) = (bPos e + bCount e) % 2 ^ 48
      ∧ t.irq.waiting = s.irq.waiting ++ [Claim.berthRec s e 0]
      ∧ Claim.MemOnly s t (Claim.controlArea s e :: Claim.tileRanges s e (Claim.appendTiles s e))
      ∧ s.SameBut t [.mem, .nmu, .berth, .irq, .out])
    ∧ (st = 3 → Output.shareLost (bSession e) ∈ t.out)
    ∧ (st ≠ 0 → t.mem = s.mem)
    ∧ (st ≠ 0 → st ≠ 3 → s.SameBut t [.berth, .irq])

/-- APPEND at FILL, within the window's room, with a readable source, ends OK; one whose old chunk is not yet in history
waits, and runs once HISTORY_UPTO has advanced; every other APPEND ends with the status of the first condition that fails
(R123, R125, R129). -/
def Obligations.AppendsAndLaps : Prop :=
  ∀ (s : State) (e : BitVec 256) (k : Nat) (b : List Byte),
    (∀ a : BitVec 48, Claim.BerthHeld s a 3 e k b →
      ∃ t, exec (.append a) s = .next t ∧ t.berth.queue = s.berth.queue.erase a.toNat
        ∧ match Claim.appendStatus s e b with
          | some st => Claim.Appended s t e st
          | none => t.berth.laps = s.berth.laps ++ [⟨a.toNat, e⟩]
            ∧ t.count .BERTH_LAP_STALL_COUNT = min counterMax (s.count .BERTH_LAP_STALL_COUNT + 1)
            ∧ s.SameBut t [.ctrs, .berth] ∧ s.SameCounts t [.BERTH_LAP_STALL_COUNT])
    ∧ (∀ (j : BerthJob) (cls : Fin 4) (number : BitVec 20), s.Live → s.Calm → s.ckState ≠ 1 →
      s.berth.laps.find? (fun j => bClass j.entry == cls.val && bNumber j.entry == number.toNat) = some j → j.entry = e →
      bOp e = 3 → s.berthMoving (bClass e) (bNumber e) = false → Claim.BerthBody s e k b →
      match Claim.appendStatus s e b with
      | some st => ∃ t, exec (.appendLapResume cls number) s = .next t ∧ t.berth.laps = s.berth.laps.erase j
          ∧ Claim.Appended s t e st
      | none => exec (.appendLapResume cls number) s = .next s)

/-- How a SPEC_WRITE of an open berth ends. Of several conditions that fail, COUNT_RANGE comes before SPEC_OPEN and that
before POS_MISMATCH, which is the model's choice (assumption 95; R132, R140). -/
def Claim.specStatus (s : State) (e : BitVec 256) (b : List Byte) : Nat :=
  let c := bClass e
  let p := s.shape c
  if s.berthWithdrawn c (bNumber e) then 0xB
  else if bCount e = 0 ∨ p.sp < bCount e then 5
  else if hSpecOpen b = true ∧ hSpecTag b ≠ bSpecTag e then 7
  else if bPos e ≠ hFill b (bLayer e) ∨ (hSpecOpen b = true ∧ bPos e ≠ hSpecBase b) then 4
  else if s.sourceOk e p = false then 5
  else if hSpecOpen b = true ∧ s.tilesOk c (bNumber e) (joinPatches ((headKinds p).flatMap fun x =>
      specPatches p (bLayer e) x.1 x.2 (s.rowsFor e x.1 x.2))) = false then 3
  else 0

/-- The tiles that a SPEC_RESOLVE of COUNT drafts writes into (R133). -/
def Claim.resolveTiles (s : State) (e : BitVec 256) (b : List Byte) : List (Nat × List (Nat × List Byte)) :=
  let p := s.shape (bClass e)
  joinPatches (((List.range p.layers).map fun l =>
    (s.resolvePatches (bClass e) (bNumber e) p (hSpecBase b) (bCount e) l).getD []).flatten)

/-- How a SPEC_RESOLVE of an open berth ends: a status, or none when its lap must wait (R125, R133, R134). -/
def Claim.resolveStatus (s : State) (e : BitVec 256) (b : List Byte) : Option Nat :=
  let c := bClass e
  let p := s.shape c
  let j := bCount e
  if hSpecOpen b = false ∨ hSpecTag b ≠ bSpecTag e then some 8
  else if ((List.range p.layers).any fun l => hFill b l != hSpecBase b || decide (hSpecFill b l < j)) = true then some 9
  else if j = 0 then some 0
  else if lapOk p b (hSpecBase b + j - 1) = false then none
  else if ((List.range p.layers).any fun l => (s.resolvePatches c (bNumber e) p (hSpecBase b) j l).isNone) = true then some 3
  else if s.tilesOk c (bNumber e) (Claim.resolveTiles s e b) = false then some 3
  else some 0

/-- A SPEC_RESOLVE has run to a status: with OK every FILL has moved on by COUNT, the tag is closed, and nothing else of the
header changes that the spec does not derive (R133, R134). -/
def Claim.Resolved (s t : State) (e : BitVec 256) (b : List Byte) (st : Nat) : Prop :=
  Claim.BerthTold t e st
    ∧ (st = 0 → (let p := s.shape (bClass e)
        t.header (bClass e) (bNumber e) = Claim.headerOf s (bClass e) b (setLE (setLE
          ((List.range p.layers).foldl (fun b l => setLE b (0x40 + 8 * l) 8 (hFill b l + bCount e)) b) 0x140 64 0) 0x2A 1 0))
      ∧ (if bCount e = 0 then t.count .BERTH_SPEC_CANCEL_COUNT = min counterMax (s.count .BERTH_SPEC_CANCEL_COUNT + 1)
        else t.count .BERTH_SPEC_COMMIT_COUNT = min counterMax (s.count .BERTH_SPEC_COMMIT_COUNT + 1))
      ∧ t.irq.waiting = s.irq.waiting ++ [Claim.berthRec s e 0]
      ∧ Claim.MemOnly s t (Claim.controlArea s e
          :: if bCount e = 0 then [] else Claim.tileRanges s e (Claim.resolveTiles s e b))
      ∧ s.SameBut t [.mem, .nmu, .berth, .irq, .out, .ctrs]
      ∧ s.SameCounts t [if bCount e = 0 then .BERTH_SPEC_CANCEL_COUNT else .BERTH_SPEC_COMMIT_COUNT])
    ∧ (st = 8 ∨ st = 9 → s.SameBut t [.berth, .irq, .ctrs] ∧ s.SameCounts t [.BERTH_SPEC_REFUSE_COUNT])

/-- Speculation (R132 to R134): a SPEC_WRITE that opens a tag leaves TAG, BASE and SPEC_FILL in the header, and one of the
the status of the condition that fails. -/
def Obligations.Speculation : Prop :=
  ∀ (s : State) (e : BitVec 256) (k : Nat) (b : List Byte),
    let c := bClass e; let n := bNumber e
    (∀ a : BitVec 48, Claim.BerthHeld s a 4 e k b →
      ∃ t, exec (.specWrite a) s = .next t ∧ t.berth.queue = s.berth.queue.erase a.toNat
        ∧ Claim.BerthTold t e (Claim.specStatus s e b)
        ∧ (Claim.specStatus s e b = 0 → hSpecOpen (t.header c n) = true
          ∧ hSpecTag (t.header c n) = bSpecTag e ∧ hSpecBase (t.header c n) = bPos e
          ∧ hSpecFill (t.header c n) (bLayer e) = bCount e
          ∧ (∀ l, hFill (t.header c n) l = hFill b l ∨ 32 ≤ l)
          ∧ (hSpecOpen b = true → ∀ l < 32, l ≠ bLayer e → hSpecFill (t.header c n) l = hSpecFill b l)
          ∧ s.SameBut t [.mem, .nmu, .berth, .irq, .out])
        ∧ (Claim.specStatus s e b ≠ 0 → t.mem = s.mem))
    ∧ (∀ a : BitVec 48, Claim.BerthHeld s a 5 e k b →
      ∃ t, exec (.specResolve a) s = .next t ∧ t.berth.queue = s.berth.queue.erase a.toNat
        ∧ match Claim.resolveStatus s e b with
          | some st => Claim.Resolved s t e b st
          | none => t.berth.laps = s.berth.laps ++ [⟨a.toNat, e⟩]
            ∧ t.count .BERTH_LAP_STALL_COUNT = min counterMax (s.count .BERTH_LAP_STALL_COUNT + 1)
            ∧ s.SameBut t [.ctrs, .berth])
    ∧ (∀ (j : BerthJob) (cls : Fin 4) (number : BitVec 20), s.Live → s.Calm → s.ckState ≠ 1 →
      s.berth.laps.find? (fun j => bClass j.entry == cls.val && bNumber j.entry == number.toNat) = some j → j.entry = e →
      bOp e = 5 → s.berthMoving c n = false → Claim.BerthBody s e k b →
      match Claim.resolveStatus s e b with
      | some st => ∃ t, exec (.appendLapResume cls number) s = .next t ∧ t.berth.laps = s.berth.laps.erase j
          ∧ Claim.Resolved s t e b st
      | none => exec (.appendLapResume cls number) s = .next s)

/-- How a GLOBAL_LOAD of an open berth is refused, or none when its reads are under way. A POS that is no multiple of 128 ends
COUNT_RANGE, which is the model's choice (assumption 45; R127, R140). -/
def Claim.loadStatus (s : State) (e : BitVec 256) (b : List Byte) : Option Nat :=
  let p := s.shape (bClass e)
  if s.berthWithdrawn (bClass e) (bNumber e) then some 0xB
  else if bPos e % 128 ≠ 0 ∨ hHistory b < bPos e + 128 ∨ p.gt ≤ bSlot e then some 5
  else if hGlobalValid b (bSlot e) then some 3
  else if hCommitted b - p.w < bPos e + 128
      ∨ ((List.range p.gt).any fun j => hGlobalValid b j && hGlobalPos b j == bPos e) = true then some 0xA
  else none

/-- History and globals (R125, R127, R190): a HISTORY_SAVE of a complete chunk at HISTORY_UPTO is under way, another position
ends POS_MISMATCH (4), and a chunk not yet committed COUNT_RANGE (5); a GLOBAL_LOAD of a saved chunk outside the window is
under way, and a refused one is counted; GLOBAL_CLEAR clears VALID, and a slot out of range ends COUNT_RANGE, the model's
choice (assumption 45). -/
def Claim.HistoryCommands : Prop :=
  ∀ (s : State) (a : BitVec 48) (e : BitVec 256) (k : Nat) (b : List Byte),
    let c := bClass e; let n := bNumber e; let p := s.shape c
    (Claim.BerthHeld s a 6 e k b →
      (bPos e = hHistory b → bPos e + 128 ≤ hCommitted b →
        exec (.historySave a) s = .next { s with berth := { s.berth with queue := s.berth.queue.erase a.toNat, saves := s.berth.saves ++ [⟨a.toNat, e⟩] } })
      ∧ (bPos e ≠ hHistory b →
        ∃ t, exec (.historySave a) s = .next t ∧ Claim.BerthEnds s t a e 4 ∧ s.SameBut t [.berth, .irq])
      ∧ (bPos e = hHistory b → hCommitted b < bPos e + 128 →
        ∃ t, exec (.historySave a) s = .next t ∧ Claim.BerthEnds s t a e 5 ∧ s.SameBut t [.berth, .irq]))
    ∧ (Claim.BerthHeld s a 7 e k b →
      ∃ t, exec (.globalLoad a) s = .next t
        ∧ match Claim.loadStatus s e b with
          | none => t.berth.queue = s.berth.queue.erase a.toNat ∧ t.berth.loads = s.berth.loads ++ [⟨a.toNat, e⟩]
            ∧ t.mem = s.mem ∧ t.irq.waiting = s.irq.waiting
          | some st => Claim.BerthEnds s t a e st ∧ s.SameBut t [.berth, .irq, .ctrs]
            ∧ t.count .BERTH_GLOBAL_REFUSE_COUNT
              = min counterMax (s.count .BERTH_GLOBAL_REFUSE_COUNT + if st = 5 ∨ st = 0xA then 1 else 0)
            ∧ s.SameCounts t [.BERTH_GLOBAL_REFUSE_COUNT])
    ∧ (Claim.BerthHeld s a 8 e k b →
      (bSlot e < p.gt →
        ∃ t, exec (.globalClear a) s = .next t ∧ Claim.BerthEnds s t a e 0
          ∧ t.header c n = Claim.headerOf s c b
              (setLE b (0x200 + 8 * bSlot e) 8 (putBits (hGlobal b (bSlot e)) 63 63 0))
          ∧ Claim.MemOnly s t [Claim.controlArea s e]
          ∧ s.SameBut t [.mem, .nmu, .berth, .irq, .out])
      ∧ (p.gt ≤ bSlot e →
        ∃ t, exec (.globalClear a) s = .next t ∧ Claim.BerthEnds s t a e 5 ∧ s.SameBut t [.berth, .irq]))

/-- The ends of saves and loads (R125, R127, R186, R190, R202): a save whose tiles read and whose record has room puts the
record into history under its session and position and moves HISTORY_UPTO on; one that fails ends HISTORY_FAILED (6) with the
commands that wait for it; a load whose record decodes writes its tiles; a late one ends HISTORY_FAILED. -/
def Claim.HistoryTransfersEnd : Prop :=
  ∀ (s : State) (j : BerthJob) (cls : Fin 4) (number : BitVec 20) (k : Nat),
    let e := j.entry; let c := bClass e; let n := bNumber e; let p := s.shape c
    let mine (j : BerthJob) : Bool := bClass j.entry == c && bNumber j.entry == n
    s.Live → s.Calm → c = cls.val → n = number.toNat → s.place (s.berthBase c n) = .hbm k →
    (∀ backlog : BitVec 16,
      s.berth.saves.find? (fun j => bClass j.entry == cls.val && bNumber j.entry == number.toNat) = some j →
      let hc := s.get F.TIER_CLASSES_HISTORY_CLASS
      let read := (chunkTiles p (bPos e)).map fun i => (i, s.readTile c n i)
      let rec_ := historyBytes (read.map fun x =>
        ⟨x.1, manifestOf kindTile (x.2.getD []), s.codeTile hc (s.storesBlock hc backlog.toNat) (x.2.getD [])⟩)
      (s.get F.TIER_RATE_FLASH_WRITE ≠ 0 → s.ckState ≠ 1 → s.headerOk c n = true →
        read.all (fun x => x.2.isSome) = true → s.flashRoom (ceilDiv rec_.length 16384) = true →
        ∃ t, exec (.historySaveDone cls number 0 backlog) s = .next t ∧ t.berth.saves = (s.berth.saves.erase j).filter (fun j => !mine j)
          ∧ t.tier.history = s.tier.history.put (fun _ => 0) (historyKey (bSession e) (bPos e)) rec_.length
          ∧ hHistory (t.header c n) = (hHistory (s.header c n) + 128) % 2 ^ 48
          ∧ Claim.BerthTold t e 0 ∧ ∀ x ∈ (s.berth.saves.erase j).filter mine, Claim.BerthTold t x.entry 4)
      ∧ (∀ status : BitVec 4, status.toNat = fsLate ∨ (s.get F.TIER_RATE_FLASH_WRITE ≠ 0 ∧ s.ckState ≠ 1
            ∧ (status.toNat = fsWrite ∨ status.toNat = fsNoSpace)) →
        ∃ t, exec (.historySaveDone cls number status backlog) s = .next t
          ∧ t.berth.saves = (s.berth.saves.erase j).filter (fun j => !mine j)
          ∧ t.berth.laps = s.berth.laps.filter (fun j => !mine j)
          ∧ (∀ x ∈ j :: ((s.berth.saves.erase j).filter mine ++ s.berth.laps.filter mine), Claim.BerthTold t x.entry 6)
          ∧ t.count .BERTH_HISTORY_FAIL_COUNT = min counterMax (s.count .BERTH_HISTORY_FAIL_COUNT + 1)
          ∧ s.SameBut t [.ctrs, .berth, .irq]))
    ∧ (s.berth.loads.find? (fun j => bClass j.entry == cls.val && bNumber j.entry == number.toNat) = some j →
      let rec_ := s.historyPlain (bSession e) (bPos e)
      let tiles := (List.range (chunkTiles p (bPos e)).length).map fun i =>
        historyTile rec_ (chunkTiles p (bPos e)).length i
      (s.get F.TIER_RATE_FLASH_READ ≠ 0 → s.ckState ≠ 1 → s.headerOk c n = true → rec_ ≠ [] →
        s.flashWaits (historyOwner (bSession e) (bPos e)) 0 rec_.length = false →
        s.flashFails (historyOwner (bSession e) (bPos e)) 0 rec_.length = false → tiles.all (·.isSome) = true →
        ∃ t, exec (.globalLoadDone cls number 0) s = .next t ∧ t.berth.loads = s.berth.loads.erase j
          ∧ (∀ l < p.layers, ∀ x ∈ headKinds p,
            t.berth.written.get (fun _ => false) (tileAddr (s.berthBase c n) (p.tile l x.1 x.2 .global (bSlot e))) = true)
          ∧ hGlobalValid (t.header c n) (bSlot e) = true ∧ hGlobalPos (t.header c n) (bSlot e) = bPos e
          ∧ t.irq.waiting = s.irq.waiting ++ [Claim.berthRec s e 0]
          ∧ s.SameBut t [.mem, .nmu, .berth, .irq, .out])
      ∧ (∀ status : BitVec 4, status.toNat = fsLate →
        ∃ t, exec (.globalLoadDone cls number status) s = .next t ∧ t.berth.loads = s.berth.loads.erase j
          ∧ t.irq.waiting = s.irq.waiting ++ [Claim.berthRec s e 6]
          ∧ t.count .FERRY_LATE_COUNT = min counterMax (s.count .FERRY_LATE_COUNT + 1)
          ∧ s.SameBut t [.ctrs, .berth, .irq] ∧ s.SameCounts t [.FERRY_LATE_COUNT]))

/-- History saves and global loads, and their ends: its parts. -/
def Obligations.HistoryAndGlobals : Prop := Claim.HistoryCommands ∧ Claim.HistoryTransfersEnd

/-! ### Ferries and share moves -/

/-- The completion record of a ferry transfer (R180). -/
def Claim.ferryRec (s : State) (f : Nat) (d : BitVec 512) (status : Nat) : CqRec :=
  ⟨s.tagCore (fTag d), 0x03, status, f, fTag d, s.now, 0, false⟩

/-- A completion record with the transfer's TAG and a status waits to be written. -/
def Claim.FerryTold (t : State) (d : BitVec 512) (status : Nat) : Prop :=
  ∃ r ∈ t.irq.waiting, r.source = 0x03 ∧ r.status = status ∧ r.tag = fTag d

/-- The transfers without `x`. -/
def Claim.xfersWithout (s : State) (x : Xfer) : List Xfer :=
  s.tier.xfers.filter fun y => !(y.ferry == x.ferry && y.id == x.id)

/-- The transfers with `x` changed. -/
def Claim.xfersWith (s : State) (x y : Xfer) : List Xfer :=
  s.tier.xfers.map fun z => if z.ferry = x.ferry ∧ z.id = x.id then y else z

/-- A write of FERRY_SUBMIT keeps the address; a descriptor without fault joins the queue of a ferry with room; one with a
fault is REJECTED (7) with its reason; on a retired ferry it ends READ_FAILED (2); a full queue drops it; while the on-chip
image is written it is held (R174, R177, R180, R181, R201, R271, R547). -/
def Claim.FerryDescriptorQueues : Prop :=
  ∀ (s : State) (f : Fin 32) (a : BitVec 48), s.Live →
    let ad := a.toNat / 64 * 64
    let n := (s.tier.xfers.filter fun x => x.ferry == f.val && x.phase == 0).length
    (s.ckpt.writing = true →
      ∃ t, exec (.ferryDescriptor f a) s = .next t ∧ t.ckpt.held = s.ckpt.held ++ [(SubmitUnit.ferry.code, f.val, ad)]
        ∧ t.get F.FERRY_SUBMIT_DESC_ADDR f = a.toNat / 64
        ∧ s.SameBut t [.regs, .ckpt] ∧ s.SameRegs t [.FERRY_SUBMIT])
    ∧ (s.ckpt.writing = false → 256 ≤ n →
      ∃ t, exec (.ferryDescriptor f a) s = .next t ∧ t.tier = s.tier
        ∧ t.count .FERRY_QUEUE_FULL_COUNT = min counterMax (s.count .FERRY_QUEUE_FULL_COUNT + 1))
    ∧ (∀ b : List Byte, s.ckpt.writing = false → n < 256 → s.entryAt false ad 64 = .ok b →
      let d : BitVec 512 := BitVec.ofNat 512 (ofLE b)
      (s.flag F.FERRY_STATUS_FAULTED f = true →
        ∃ t, exec (.ferryDescriptor f a) s = .next t ∧ t.tier = s.tier
          ∧ t.irq.waiting = s.irq.waiting ++ [Claim.ferryRec s f d 2]
          ∧ t.count .FERRY_READ_FAIL_COUNT = min counterMax (s.count .FERRY_READ_FAIL_COUNT + 1))
      ∧ (s.flag F.FERRY_STATUS_FAULTED f = false → s.fReject d ≠ 0 →
        ∃ t, exec (.ferryDescriptor f a) s = .next t ∧ t.tier = s.tier ∧ Claim.FerryTold t d 7
          ∧ t.get F.FERRY_STATUS_REJECT_REASON f = s.fReject d
          ∧ t.count .FERRY_REJECT_COUNT = min counterMax (s.count .FERRY_REJECT_COUNT + 1))
      ∧ (s.flag F.FERRY_STATUS_FAULTED f = false → s.fReject d = 0 →
        ∃ t, exec (.ferryDescriptor f a) s = .next t
          ∧ t.tier.xfers = s.tier.xfers ++ [{ id := s.tier.nextId, ferry := f, desc := d, addr := ad, work := .firmware, tiles := List.range (fTiles d) }]
          ∧ t.get F.FERRY_STATUS_QUEUED f = n + 1
          ∧ t.get F.FERRY_SUBMIT_DESC_ADDR f = a.toNat / 64
          ∧ s.SameBut t [.regs, .tier] ∧ s.SameRegs t [.FERRY_SUBMIT, .FERRY_STATUS]))

/-- The head of a ferry's queue takes a free place in flight and, without WAIT, begins with the windows of that moment; with
WAIT it joins its bollard's list, and begins when it has its count; a tile outside its window has the transfer REJECTED; a
transfer that left the queue its deadline ago ends LATE (R86, R174, R177, R178, R180, R191, R199). -/
def Claim.FerryTransfersStartAndExpire : Prop :=
  ∀ (s : State) (f : Fin 32) (x : Xfer) (at_ : BitVec 40), s.Live →
    let mine := s.tier.xfers.filter fun x => x.ferry == f.val
    let src := s.captureWins (fSrcSpace x.desc) (fSrcAddr x.desc)
    let dst := s.captureWins (fDstSpace x.desc) (fDstAddr x.desc)
    (s.ckState ≠ 1 → s.asleep (f / 4) = false →
      (∀ since, (mine.find? (fun x => x.phase == 1 && s.ferryGranted x) = some x ∧ since = x.since)
          ∨ (mine.find? (fun x => x.phase == 1 && s.ferryGranted x) = none ∧ mine.find? (fun x => x.phase == 0) = some x
            ∧ (mine.filter fun x => x.phase ≠ 0).length < 64 ∧ fWait x.desc = false ∧ since = s.now) →
        (x.work = .firmware → s.winsFit x.desc src dst = true ∧ fSrcSpace x.desc ≠ 7) →
        ∃ t, exec (.ferryTransferStart ⟨f, at_⟩) s = .next t
          ∧ t.tier.xfers = Claim.xfersWith s x { x with
              phase := 2, since := since, joined := (if x.phase = 0 then false else x.joined), srcWins := src,
              dstWins := dst, epoch := s.epoch }
          ∧ s.SameBut t [.regs, .tier, .irq] ∧ s.SameRegs t [.FERRY_STATUS])
      ∧ (mine.find? (fun x => x.phase == 1 && s.ferryGranted x) = some x → x.work = .firmware →
        s.winsFit x.desc src dst = false →
        ∃ t, exec (.ferryTransferStart ⟨f, at_⟩) s = .next t ∧ t.tier.xfers = Claim.xfersWithout s x
          ∧ t.get F.FERRY_STATUS_REJECT_REASON f = 3 ∧ Claim.FerryTold t x.desc 7)
      ∧ (mine.find? (fun x => x.phase == 1 && s.ferryGranted x) = none → mine.find? (fun x => x.phase == 0) = some x →
        (mine.filter fun x => x.phase ≠ 0).length < 64 → fWait x.desc = true → s.ferryGranted x = false →
        s.get F.BOLL_COUNT_COUNT (fWaitBollard x.desc) = 0 →
        ∃ t, exec (.ferryTransferStart ⟨f, at_⟩) s = .next t
          ∧ t.tier.xfers = Claim.xfersWith s x { x with phase := 1, since := s.now, joined := true }
          ∧ t.waiters (fWaitBollard x.desc) = s.waiters (fWaitBollard x.desc) ++ [.ferry f x.id]
          ∧ s.SameBut t [.regs, .tier, .irq] ∧ s.SameRegs t [.FERRY_STATUS, .BOLL_COUNT]))
    ∧ (∀ (id : BitVec 32), s.Calm → s.xfer f id.toNat = some x → x.phase ≠ 0 →
      let own := fDeadline x.desc
      let d := if own = 0 then s.get F.FERRY_CLASS_DEADLINE (fClass x.desc) else own
      d ≠ 0 → x.since + d ≤ s.now →
      (x.work = .firmware →
        ∃ t, exec (.ferryLate f id) s = .next t ∧ t.tier.xfers = Claim.xfersWithout s x ∧ Claim.FerryTold t x.desc 1
          ∧ t.count .FERRY_LATE_COUNT = min counterMax (s.count .FERRY_LATE_COUNT + 1))
      ∧ (∀ session m, x.work = .share session → s.shareOf session = some m →
        ∃ t, exec (.ferryLate f id) s = .next t ∧ Output.shareReport session m.motion 1 0 [] [] [] ∈ t.out
          ∧ t.tier.shares = s.tier.shares.filter (fun m => m.session ≠ session)
          ∧ t.tier.xfers.all (fun y => y.work != .share session) = true
          ∧ t.count .FERRY_LATE_COUNT = min counterMax (s.count .FERRY_LATE_COUNT + 1)))

/-- Ferry descriptors queue, start and expire: its parts. -/
def Obligations.FerryTransfers : Prop := Claim.FerryDescriptorQueues ∧ Claim.FerryTransfersStartAndExpire

/-- A tile move of session firmware's transfer (R85, R176, R179, R180): a tile that reads stands at its destination afterwards,
in a local store, a shared buffer, general-use HBM outside the berths, or host memory; it leaves the transfer's list, and the
last one ends the transfer OK, with its post and its completion as asked; a fault of a tier or of a check ends it with that
status. -/
def Obligations.FerryTileMoves : Prop :=
  ∀ (s : State) (f : Fin 32) (id : BitVec 32) (tile : BitVec 24) (data bs : List Byte) (backlog : BitVec 16) (x : Xfer)
    (at_ : BitVec 40),
    s.Live → s.Calm → s.core.waiting = [] → s.ckState ≠ 1 → s.xfer f id.toNat = some x → x.work = .firmware → x.phase = 2 →
    s.xferHeld x = false → tile.toNat ∈ x.tiles →
    let d := fDstAddr x.desc + tile.toNat * fDstPitch x.desc
    (∀ y, s.ferrySource x tile.toNat = .ok bs → bs.length = 16384 → s.ferryDestBad x tile.toNat = .ok y → fDstSpace x.desc ≠ 7 →
      ∃ t, exec (.ferryTileDone ⟨f, at_⟩ id tile 0 data backlog) s = .next t
        ∧ (∀ l, fDstSpace x.desc = 0 → resolve x.dstWins (bits d 27 0) = some l →
          l.read t (bits d 35 28) 0 16384 = bs ∧ t.mem = s.mem ∧ t.hostMem = s.hostMem)
        ∧ (fDstSpace x.desc = 1 → bits d 63 29 = 0 → bits d 27 0 + 16384 ≤ sharedHalf →
          t.readMem (sharedAddr d) 16384 = bs ∧ Claim.MemOnly s t [(sharedAddr d, 16384)] ∧ t.ls = s.ls
            ∧ t.hostMem = s.hostMem)
        ∧ (fDstSpace x.desc = 2 → s.berthTileAt d 16384 = none → s.hbmRange d 16384 = true →
          t.readMem d 16384 = bs ∧ Claim.MemOnly s t [(d, 16384)] ∧ t.ls = s.ls ∧ t.hostMem = s.hostMem)
        ∧ (∀ b, fDstSpace x.desc = 3 ∨ fDstSpace x.desc = 4 → s.busAddr (fDstSpace x.desc) d 16384 = some b →
          t.readHost b 16384 = bs ∧ t.mem = s.mem ∧ t.ls = s.ls)
        ∧ (x.tiles.erase tile.toNat ≠ [] →
          t.tier.xfers = Claim.xfersWith s x { x with tiles := x.tiles.erase tile.toNat }
          ∧ s.SameBut t [.mem, .ls, .hostMem, .nmu, .berth, .tier])
        ∧ (x.tiles.erase tile.toNat = [] → t.tier.xfers = Claim.xfersWithout s x
          ∧ (fNotify x.desc = true → Claim.FerryTold t x.desc 0)
          ∧ (fPost x.desc = true → s.waiters (fPostBollard x.desc) = [] →
            t.get F.BOLL_COUNT_COUNT (fPostBollard x.desc)
              = min 65535 (s.get F.BOLL_COUNT_COUNT (fPostBollard x.desc) + 1))))
    ∧ (∀ fault : BitVec 4, fault.toNat = 2 ∨ fault.toNat = 3 ∨ fault.toNat = 4 →
      ∃ t, exec (.ferryTileDone ⟨f, at_⟩ id tile fault data backlog) s = .next t
        ∧ t.tier.xfers = Claim.xfersWithout s x ∧ Claim.FerryTold t x.desc fault.toNat)

/-- An order of the HOME island (R98, R100, R182, R188, R190, R195): MOTION 0 cancels the session's move here and frees an image;
MOTION 10 frees the session's history; an order to moor a berthed share starts its move, with room reserved in the window that
takes the image, or ends NO_SPACE (5) when no window has room. -/
def Obligations.ShareMovesStart : Prop :=
  ∀ (s : State) (o : ShareOrder), s.Live → s.hasLayer = true →
    (o.motion = 0 → ∃ t, exec (.shareMoveStart o) s = .next t
      ∧ t.tier.shares = s.tier.shares.filter (fun m => m.session ≠ o.session.toNat)
      ∧ (o.old ≠ 0 → t.image o.old.toNat = none ∧ Output.imageFreed o.session.toNat o.old.toNat ∈ t.out))
    ∧ (o.motion = 10 → ∃ t, exec (.shareMoveStart o) s = .next t ∧ t.historyOf o.session.toNat = []
      ∧ t.tier.shares = s.tier.shares ∧ t.tier.images = s.tier.images)
    ∧ (o.motion = 1 → o.old = 0 → o.image = [] → o.history = [] → locKind o.loc.toNat = 1 → s.ckState ≠ 1 →
      s.flashRoom 0 = true → s.shareOf o.session.toNat = none → s.berthIdle o.cls.val o.berth.toNat = true →
      s.berthIdle o.fromClass.val o.fromBerth.toNat = true → s.headerOk o.cls.val o.berth.toNat = true →
      hSession (s.header o.cls.val o.berth.toNat) = o.session.toNat → hSpecOpen (s.header o.cls.val o.berth.toNat) = false →
      let tiles := imageTileList (s.shape o.cls.val) (s.header o.cls.val o.berth.toNat)
      tiles ≠ [] → s.shareFerries ≠ [] →
      (∀ w, s.moorWindow (worstImage tiles.length) = some w →
        ∃ t, exec (.shareMoveStart o) s = .next t
          ∧ t.tier.shares = s.tier.shares ++ [{ session := o.session.toNat, motion := 1, cls := o.cls.val, berth := o.berth.toNat, fromClass := o.fromClass.val, fromBerth := o.fromBerth.toNat, src := 0, dst := o.loc.toNat, tiles := tiles, reserved := worstImage tiles.length, header := s.header o.cls.val o.berth.toNat, window := w, epoch := s.epoch }]
          ∧ t.mem = s.mem ∧ t.tier.images = s.tier.images)
      ∧ (s.moorWindow (worstImage tiles.length) = none →
        ∃ t, exec (.shareMoveStart o) s = .next t
          ∧ Output.shareReport o.session.toNat 1 5 0 [] [] [] ∈ t.out
          ∧ t.tier.shares = s.tier.shares.filter (fun m => m.session ≠ o.session.toNat) ∧ t.mem = s.mem))

/-! ### Near-memory units -/

/-- The near-memory commands: where the descriptor lies and its operation code (R247). -/
def Claim.nmuTable : Instr → Option (BitVec 48 × Nat)
  | .nmuMove a => some (a, 0x01)
  | .nmuFill a => some (a, 0x02)
  | .nmuAdd a => some (a, 0x10)
  | .nmuMul a => some (a, 0x11)
  | .axpy a => some (a, 0x12)
  | .nmuScale a => some (a, 0x13)
  | .nmuSilu a => some (a, 0x18)
  | .nmuSiluMul a => some (a, 0x19)
  | .diffAdd a => some (a, 0x20)
  | .diffReplace a => some (a, 0x21)
  | _ => none

/-- The counter of a status that a near-memory command starts with (R265). -/
def Claim.nmuCounter (st : Nat) : Option Ctr :=
  if st = 2 then some .NMU_REJECT_COUNT
  else if st = 3 then some .NMU_LINE_ECC_COUNT
  else if st = 4 then some .NMU_MANIFEST_FAIL_COUNT
  else none

/-- The next descriptor of the queue, with the command's operation code, starts with the status its checks give it: with OK its
pieces wait for their stacks and nothing else changes; with another status it has no pieces, leaves the queue, and is counted; a
command for an island in POWER_OFF wakes the island and waits (R241, R245, R247, R250, R251, R260, R265, R582). -/
def Claim.NearMemoryCommandsRun : Prop :=
  ∀ (i : Instr) (a : BitVec 48) (op : Nat) (b : List Byte) (s : State), Claim.nmuTable i = some (a, op) →
    s.Live → s.nmuNext = some a.toNat → s.ckState ≠ 1 → s.entryAt true a.toNat 64 = .ok b →
    let d : BitVec 512 := BitVec.ofNat 512 (ofLE b)
    let st := (s.nmuOutcome d).1
    nOp d = op →
    (s.nmuAsleep d = [] →
      ∃ t, exec i s = .next t
        ∧ t.nmu.active = s.nmu.active ++ [⟨a.toNat, d, st, if st = 0 then s.piecesOfNmu d else [], [], 0⟩]
        ∧ t.mem = s.mem ∧ t.nmu.pieces = s.nmu.pieces
        ∧ (st = 0 → s.piecesOfNmu d ≠ [] → s.SameBut t [.nmu] ∧ t.nmu.queue = s.nmu.queue)
        ∧ (st ≠ 0 → t.nmu.queue = s.nmu.queue.erase a.toNat)
        ∧ (st = 2 → t.get F.NMU_STATUS_REJECT_REASON = s.nmuReject d)
        ∧ (∀ c, Claim.nmuCounter st = some c → t.count c = min counterMax (s.count c + 1)))
    ∧ (s.nmuAsleep d ≠ [] → ∃ t, exec i s = .next t ∧ s.SameBut t [.pwr]
      ∧ ∀ g ∈ s.nmuAsleep d, ∀ k, s.islandOf g = some k → s.pwr.off.get (fun _ => 0) k = 1 → t.pwr.off.get (fun _ => 0) k = 3)

/-- What the pieces of a command that are still queued write, in their order: destination and bytes of each element (R247,
R249, R258). -/
def Claim.nmuOut (s : State) (c : NmuCmd) : List (Nat × List Byte × Bool) :=
  (piecesUpTo c.addr s.nmu.pieces).flatMap fun p =>
    (mineOf (s.nmuWork c.desc) p.unit).map fun e => (e.dst, s.nmuBytes c.desc e)

/-- Pieces and ends (R241, R242, R247 to R250, R258): the dispatcher sends the oldest waiting piece of a ready stack, and rejects a
next descriptor with a reserved OP; a command whose pieces are all sent has written what they compute when it ends, then its
status word, and completes as asked; a difference whose result fails its digest ends DIGEST (6). -/
def Claim.NearMemoryPiecesAndEnds : Prop :=
  ∀ (s : State) (c : NmuCmd), s.Live → s.Calm →
    (∀ (stack : Fin 16) (p : Nat × Bool), s.nmuNext = none →
      s.nmu.active.findSome? (fun c => (c.toSend.find? fun p => s.unitStack p.1 == stack.val).map fun p => (c, p))
        = some (c, p) →
      let n := (s.nmu.pieces.filter fun p => p.stack == stack.val).length
      n < 64 →
      ∃ t, exec (.nmuPieceDispatch stack) s = .next t
        ∧ t.nmu.active = s.nmu.active.map (fun x => if x.addr = c.addr then
            { x with toSend := x.toSend.erase p, sent := x.sent ++ [p.1] } else x)
        ∧ t.nmu.pieces = s.nmu.pieces ++ [⟨c.addr, p.1, stack⟩]
        ∧ t.get F.NMU_STACK_PIECES stack = n + 1 ∧ t.flag F.NMU_STACK_RDY stack = decide (n + 1 < 64)
        ∧ t.nmu.queue = (if c.toSend.length = 1 then s.nmu.queue.erase c.addr else s.nmu.queue)
        ∧ t.count .NMU_BRIDGE_COUNT = min counterMax (s.count .NMU_BRIDGE_COUNT + if p.2 then 1 else 0)
        ∧ s.SameBut t [.regs, .ctrs, .nmu] ∧ s.SameRegs t [.NMU_STACK, .NMU_STATUS] ∧ s.SameCounts t [.NMU_BRIDGE_COUNT])
    ∧ (∀ (stack : Fin 16) (a : Nat) (b : List Byte), s.nmuNext = some a → s.ckState ≠ 1 → s.entryAt true a 64 = .ok b →
      nmuOps.contains (nOp (BitVec.ofNat 512 (ofLE b))) = false → s.nmu.active = [] →
      ∃ t, exec (.nmuPieceDispatch stack) s = .next t ∧ t.nmu.queue = s.nmu.queue.erase a
        ∧ t.get F.NMU_STATUS_REJECT_REASON = 1
        ∧ (∃ r ∈ t.irq.waiting, r.source = 0x04 ∧ r.status = 2 ∧ r.tag = nTag (BitVec.ofNat 512 (ofLE b)))
        ∧ t.count .NMU_REJECT_COUNT = min counterMax (s.count .NMU_REJECT_COUNT + 1))
    ∧ (∀ (a : BitVec 48), s.nmu.active.find? (fun c => c.addr == a.toNat) = some c → c.toSend = [] → c.phase = 0 →
      c.status ≤ 1 → s.nmu.pieces.all (fun p => p.cmd == c.addr) = true → s.nmuOverlap c.desc = false →
      nManifest c.desc = false →
      let m := s.allStoredIn s.mem ((Claim.nmuOut s c).map fun w => (w.1, w.2.1))
      let u : State := { s with mem := m }
      let st := if isElemOp (nOp c.desc) = true ∧ (Claim.nmuOut s c).any (fun w => w.2.2) = true then 1 else c.status
      let fin := if isDiff (nOp c.desc) = true ∧ sha384 (u.readMem (nDst c.desc) (u.diffTarget c.desc)) ≠ u.diffDigest c.desc
        then 6 else st
      ∃ t, exec (.nmuCommandDone a) s = .next t
        ∧ (fin ≠ 6 → t.mem = s.storedIn m a.toNat (leBytes 8 (2 ^ 63 + fin * 2 ^ 48 + s.now)))
        ∧ t.nmu.active = s.nmu.active.filter (fun x => x.addr ≠ c.addr)
        ∧ t.nmu.pieces = []
        ∧ t.irq.waiting = s.irq.waiting
          ++ (if fin = 6 ∨ nNotify c.desc = true then
            [⟨s.tagCore (nTag c.desc), 0x04, fin, 0, nTag c.desc, s.now, 0, false⟩] else [])
        ∧ (fin ≠ 6 → nPost c.desc = false → isDiff (nOp c.desc) = false →
          s.SameBut t [.regs, .mem, .nmu, .irq] ∧ s.SameRegs t [.NMU_STACK])
        ∧ (fin ≠ 6 → isDiff (nOp c.desc) = true → t.count .NMU_DIFF_COUNT = min counterMax (s.count .NMU_DIFF_COUNT + 1))
        ∧ (fin ≠ 6 → nPost c.desc = true → s.waiters (nBollard c.desc) = [] →
          t.get F.BOLL_COUNT_COUNT (nBollard c.desc) = min 65535 (s.get F.BOLL_COUNT_COUNT (nBollard c.desc) + 1))
        ∧ (fin = 6 → t.count .NMU_DIGEST_FAIL_COUNT = min counterMax (s.count .NMU_DIGEST_FAIL_COUNT + 1)))

/-- Near-memory commands start, are dispatched, and end: its parts. -/
def Obligations.NearMemoryCommands : Prop := Claim.NearMemoryCommandsRun ∧ Claim.NearMemoryPiecesAndEnds

/-- Why copy-on-write holds a write to a frame it watches: behind an earlier one, stalled when the pool has no free frame, or
while the frame is copied (R253, R255). -/
def Claim.holdWhy (s : State) (k : Nat) : HoldWhy :=
  if s.blocked k then .behind else if (s.freePool (frameOf k).1).isNone then .stalled else .copying

/-- Copy-on-write (R253 to R255): a write to a watched frame is held; when its copy is done the frame counts as preserved, its
old content stands in the pool frame, and the held writes proceed; stalled writes proceed without a copy once ARMED is
clear. -/
def Obligations.CopyOnWrite : Prop :=
  ∀ s : State, s.Live → s.lost = [] → s.err.retired = [] → (∀ x, s.fwCopy = some x → x.2 = 0) →
    (∀ k n, s.steerFixed k n = false) →
    (∀ (a : BitVec 48) (bytes : List (BitVec 8)) (k : Nat), s.hbmKey a.toNat = some k →
      (s.mustPreserve (frameOf k).1 (frameOf k).2 = true →
        ∃ t, exec (.cowWriteHold a bytes) s = .next t
          ∧ t.nmu.held = s.nmu.held ++ [⟨k, bytes.take (4096 - k % 4096), Claim.holdWhy s k, s.now⟩]
          ∧ t.count .NMU_COW_STALL_COUNT
            = min counterMax (s.count .NMU_COW_STALL_COUNT + if Claim.holdWhy s k = .stalled then 1 else 0)
          ∧ s.SameBut t [.nmu, .ctrs] ∧ s.SameCounts t [.NMU_COW_STALL_COUNT])
      ∧ (s.mustPreserve (frameOf k).1 (frameOf k).2 = false → exec (.cowWriteHold a bytes) s = .next s))
    ∧ (∀ (stack : Fin 16) (frame : Fin 8912896) (h : HeldWrite) (pool : Nat),
      s.nmu.held = [h] → frameOf h.addr = (stack.val, frame.val) → h.why = .copying →
      h.addr % 4096 + h.bytes.length ≤ 4096 →
      (s.freePool stack = some pool → frameAddr stack frame = h.addr / 4096 * 4096 →
        ∃ t, exec (.cowCopyDone stack frame) s = .next t
          ∧ t.nmu.preserved.get (fun _ => 0) (frameKey stack frame) = pool + 1
          ∧ t.nmu.held = []
          ∧ t.bytesAt (spareAddr stack pool) 4096 = s.bytesAt (frameAddr stack frame) 4096
          ∧ t.bytesAt h.addr h.bytes.length = h.bytes
          ∧ t.get F.NMU_STACK_POOL_FREE stack = s.get F.NMU_STACK_POOL_FREE stack - 1
          ∧ t.count .NMU_COW_COPY_COUNT = min counterMax (s.count .NMU_COW_COPY_COUNT + 1)
          ∧ s.SameBut t [.regs, .ctrs, .mem, .nmu] ∧ s.SameRegs t [.NMU_STACK] ∧ s.SameCounts t [.NMU_COW_COPY_COUNT])
      ∧ (s.freePool stack = none →
        ∃ t, exec (.cowCopyDone stack frame) s = .next t ∧ t.nmu.held = [{ h with why := .stalled, since := s.now }]
          ∧ t.count .NMU_COW_STALL_COUNT = min counterMax (s.count .NMU_COW_STALL_COUNT + 1)
          ∧ s.SameBut t [.nmu, .ctrs] ∧ s.SameCounts t [.NMU_COW_STALL_COUNT]))
    ∧ (∀ (stack : Fin 16) (h : HeldWrite), s.nmu.held = [h] → h.why = .stalled → (frameOf h.addr).1 = stack.val →
      domainOf (frameAddr stack (frameOf h.addr).2) = domainOf h.addr → s.flag F.NMU_COW_ARMED stack = false →
      ∃ t, exec (.cowStallRelease stack) s = .next t ∧ t.nmu.held = []
        ∧ t.mem = SMap.putList memDefault s.mem h.addr h.bytes ∧ s.SameBut t [.mem, .nmu])
    ∧ (∀ (stack : Fin 16), s.ckState = 2 → s.get F.NMU_COW_FRONTIER stack < s.get F.NMU_COW_LIMIT stack →
      s.get F.CKPT_RATE_DRAIN ≠ 0 → s.nmu.held = [] →
      let f := s.get F.NMU_COW_FRONTIER stack
      ∃ t, exec (.drainFrameRead stack) s = .next t
        ∧ t.ckpt.stream = s.ckpt.stream ++ [(drainKey stack f, s.drainBytes stack f)]
        ∧ t.get F.NMU_COW_FRONTIER stack = (s.nmu.drainSet.next stack (f + 1) stackFrames).getD stackFrames
        ∧ t.nmu.preserved.get (fun _ => 0) (frameKey stack f) = 0 ∧ t.mem = s.mem
        ∧ s.SameBut t [.regs, .nmu, .ckpt, .out] ∧ s.SameRegs t [.NMU_COW, .NMU_STACK])

/-! ### Checkpoints -/

/-- Capture (R266, R267, R271, R277, R278, R293): at its sailing a checkpoint's capture begins, with its interrupt, or is skipped
while an earlier one drains; cores set READY; at the capture point copy-on-write is armed over DIRTY and the on-chip state is
taken; the written image starts the drain; a capture that is late counts as skipped. -/
def Claim.CheckpointCaptures : Prop :=
  ∀ (s : State) (at_ : BitVec 40), s.Live →
    (∀ k, s.scheduled s.now = some k → s.phase = 0 → s.captureAt k = s.now → s.ckpt.skipped ≠ k → s.ckpt.number ≠ k →
      (s.ckState = 0 → ∃ t, exec (.ckptCaptureStart at_) s = .next t ∧ t.ckState = 1 ∧ t.ckpt.number = k
        ∧ t.ckpt.at_ = s.now ∧ t.ckpt.stream = [] ∧ t.ckpt.buddy = s.get F.CKPT_BUDDY_ADDR
        ∧ t.flag F.IRQ_SRC_PENDING 0x40 = true)
      ∧ (s.ckState = 2 → ∃ t, exec (.ckptCaptureStart at_) s = .next t ∧ t.ckState = 2 ∧ t.ckpt.skipped = k
        ∧ t.get F.CKPT_STATUS_LAST_RESULT = 2 ∧ t.get F.CKPT_CONTROL_READY = 0
        ∧ t.count .CKPT_SKIP_COUNT = min counterMax (s.count .CKPT_SKIP_COUNT + 1)))
    ∧ (s.scheduled s.now = none → exec (.ckptCaptureStart at_) s = .next s)
    ∧ (∀ c : Fin 16, ∃ t, exec (.ckptReady c) s = .next t
      ∧ t.get F.CKPT_CONTROL_READY = s.get F.CKPT_CONTROL_READY ||| 2 ^ c.val
      ∧ s.SameBut t [.regs] ∧ s.SameRegs t [.CKPT_CONTROL])
    ∧ (s.ckState = 1 → s.ckpt.writing = false → s.allReady = true → s.allCut = true → s.atBoundary = true →
      ∃ t, exec .ckptCapturePoint s = .next t ∧ t.ckpt.writing = true ∧ t.ckpt.snap = some s.snapshot
        ∧ t.nmu.drainSet = s.nmu.dirty ∧ t.nmu.dirty = ⟨false, [], []⟩
        ∧ (∀ k < 16, t.flag F.NMU_COW_ARMED k = true ∧ t.get F.NMU_COW_LIMIT k = stackFrames
          ∧ t.get F.NMU_COW_FRONTIER k = (s.nmu.dirty.next k 0 stackFrames).getD stackFrames)
        ∧ s.SameBut t [.regs, .ctrs, .nmu, .ckpt] ∧ s.SameRegs t [.NMU_COW, .NMU_STACK]
        ∧ s.SameCounts t [.CKPT_TRIM_GROUP_COUNT, .CKPT_TRIM_FALLBACK_COUNT])
    ∧ (s.ckState = 1 → (s.allReady = false ∨ s.allCut = false ∨ s.atBoundary = false) → exec .ckptCapturePoint s = .next s)
    ∧ (s.ckState = 1 → s.ckpt.writing = true → s.ckpt.held = [] →
      ∃ t, exec (.ckptImageWritten at_) s = .next t ∧ t.ckState = 2 ∧ t.ckpt.writing = false
        ∧ t.get F.CKPT_CONTROL_READY = 0
        ∧ (s.mct.tx.all (fun e => e.2.waiting.isEmpty) = true → t.ckpt.stream = s.ckpt.stream ++ s.imageParts))
    ∧ (s.ckState = 1 → s.ckpt.writing = false → s.captureOver at_.toNat = true →
      ∃ t, exec (.ckptCaptureLate at_) s = .next t ∧ t.ckState = 0 ∧ t.ckpt.skipped = s.ckpt.number
        ∧ t.get F.CKPT_STATUS_LAST_RESULT = 3 ∧ t.get F.CKPT_CONTROL_READY = 0 ∧ t.nmu.dirty = s.nmu.dirty
        ∧ t.count .CKPT_CAPTURE_LATE_COUNT = min counterMax (s.count .CKPT_CAPTURE_LATE_COUNT + 1))

/-- The buddy's side and the commit (R280 to R283): frame versions are stored under the checkpoint; a commit record whose digest
is that of the frames received takes the slot of its parity, once every page of the drain has programmed, and is confirmed, and
any other one frees what was received; the confirmation commits the checkpoint. -/
def Claim.CheckpointCommits : Prop :=
  ∀ s : State, s.Live →
    (∀ (k : BitVec 48) (image : Bool) (stack : Fin 16) (frame : BitVec 28) (data : List (BitVec 8)) (source : BitVec 64),
      source.toNat = s.ckpt.source → s.ckpt.source ≠ 0 → k.toNat ≠ 0 →
      let v := (drainKey (if image then 16 else stack.val) frame.toNat, padTo 4096 data)
      ∃ t, exec (.drainFrameReceive source k image stack frame data) s = .next t ∧ t.ckpt.receiving = k.toNat
        ∧ t.ckpt.received = (if k.toNat = s.ckpt.receiving then s.ckpt.received else []) ++ [v]
        ∧ (k.toNat = s.ckpt.receiving → s.versionsWait.length < 3 →
          t.flash.versions = s.flash.versions ++ [⟨k.toNat, v.1, v.2, 0⟩] ∧ s.SameBut t [.ckpt, .flash]))
    ∧ (∀ (source : BitVec 64) (r : List (BitVec 8)), source.toNat = s.ckpt.source → s.ckpt.source ≠ 0 →
      crNumber r = s.ckpt.receiving → crNumber r ≠ 0 →
      ∃ t, exec (.ckptCommitRecord source r) s = .next t
        ∧ t.nand.slots.get (fun _ => []) ((crNumber r + 1) % 2) = s.nand.slots.get (fun _ => []) ((crNumber r + 1) % 2)
        ∧ (if crOk r = true ∧ crDigest r = drainDigest s.ckpt.received then
            (s.versionsWait = [] → s.drainWritten = true →
              t.nand.slots.get (fun _ => []) (crNumber r % 2) = r ∧ t.ckpt.receiving = 0 ∧ t.ckpt.received = []
                ∧ Output.ckptConfirm (crNumber r) ∈ t.out)
            ∧ (t.nand.slots.get (fun _ => []) (crNumber r % 2) = r ∨ t.ckpt.commitWaits = r)
          else t.nand.slots = s.nand.slots ∧ t.ckpt.receiving = 0 ∧ t.ckpt.received = [] ∧ t.ckpt.commitWaits = []))
    ∧ (∀ k : BitVec 48, s.ckState = 2 → s.ckpt.number = k.toNat → s.ckpt.sent = true → s.ckpt.held = [] →
      ∃ t, exec (.ckptConfirm k true) s = .next t ∧ t.ckState = 0 ∧ t.get F.CKPT_STATUS_LAST_RESULT = 1
        ∧ t.get F.CKPT_COMMITTED_NEWEST = k.toNat
        ∧ t.get F.CKPT_COMMITTED_PREVIOUS = s.get F.CKPT_COMMITTED_NEWEST
        ∧ (∀ j < 16, t.flag F.NMU_COW_ARMED j = false)
        ∧ t.count .CKPT_COMMIT_COUNT = min counterMax (s.count .CKPT_COMMIT_COUNT + 1))

/-- A checkpoint captures, drains to its buddy, and commits: its parts. -/
def Obligations.CheckpointCaptureAndCommit : Prop := Claim.CheckpointCaptures ∧ Claim.CheckpointCommits

/-- Abandonment (R254, R279, R283): a stall that lasts (4), a drain that is late (5), a refusal of the buddy (6) and ABANDON (7)
end a capture or drain: ARMED falls, held writes proceed, the drain set is dirty again. -/
def Claim.CheckpointsAreAbandoned : Prop :=
  ∀ s : State, s.Live → s.ckState = 1 ∨ s.ckState = 2 → s.ckpt.held = [] →
    let gone (c : Instr) (cause : Nat) : Prop :=
      ∃ t, exec c s = .next t ∧ t.ckState = 0 ∧ t.get F.CKPT_STATUS_LAST_RESULT = cause ∧ t.get F.CKPT_CONTROL_READY = 0
        ∧ (∀ k < 16, t.flag F.NMU_COW_ARMED k = false) ∧ t.nmu.held = []
        ∧ (s.nmu.held = [] → t.nmu.dirty = s.nmu.dirty.union s.nmu.drainSet)
        ∧ t.count .CKPT_ABANDON_COUNT = min counterMax (s.count .CKPT_ABANDON_COUNT + 1)
    (s.nmu.held.any (fun h => h.why == .stalled && decide (h.since + s.get F.CKPT_LIMIT_STALL_SAILINGS ≤ s.now)) = true →
      gone .ckptStallExpire 4)
    ∧ (s.ckState = 2 → s.ckpt.at_ + s.sailingsIn (s.get F.CKPT_LIMIT_DRAIN_S) ≤ s.now → gone .ckptDrainExpire 5)
    ∧ (∀ k : BitVec 48, s.ckState = 2 → s.ckpt.number = k.toNat → gone (.ckptConfirm k false) 6)
    ∧ (∀ a : Agent, if a = .host then ∃ t, exec (.ckptAbandon a) s = .next t ∧ Claim.hostDenied s t
      else gone (.ckptAbandon a) 7)

/-- Restore (R268, R274, R276, R284 to R286, R293): a stopped device starts to restore the record that CKPT_RESTORE names, or the
newest that stands, and ends with result 9 when there is none or its configuration or profile is another; read back, its state
is that of the checkpoint; an image with a reserved bit set ends with result 9; at its boundary the device starts its first
sailing. -/
def Claim.CheckpointsRestore : Prop :=
  ∀ s : State, s.Live →
    (∀ x y : List (BitVec 8), ∃ t, exec (.ckptRestore .host x y) s = .next t ∧ Claim.hostDenied s t)
    ∧ (∀ (a : Agent) (x y : List (BitVec 8)), a ≠ .host →
      (s.stopped = true → ∃ t, exec (.ckptRestore a x y) s = .next t
        ∧ match s.restoreRecord (s.get F.CKPT_RESTORE_NUMBER) x y with
          | some r => if crConfig r = s.boot.configDigest ∧ crProfile r = s.get F.CFG_AP_STATUS_ACTIVE then
              t.ckState = 3 ∧ t.ckpt.restoring = crNumber r ∧ s.SameBut t [.regs, .ctrs, .ckpt] ∧ s.SameRegs t [.CKPT_STATUS]
            else t.ckState = 0 ∧ t.get F.CKPT_STATUS_LAST_RESULT = 9
          | none => t.ckState = 0 ∧ t.get F.CKPT_STATUS_LAST_RESULT = 9)
      ∧ (s.stopped = false → ∃ t, exec (.ckptRestore a x y) s = .next t ∧ t.ckState = s.ckState ∧ t.ckpt = s.ckpt))
    ∧ (∀ (groups : List (List (BitVec 8))), s.ckState = 3 → s.err.retired = [] →
      (∀ x : Snapshot, s.ckpt.snaps.get (fun _ => none) s.ckpt.restoring = some x →
        groups.all (fun g => (expandGroup g).isSome) = true →
        ∃ t, exec (.ckptRestoreDone groups) s = .next t ∧ t.ckState = 4 ∧ t.get F.CKPT_STATUS_LAST_RESULT = 8
          ∧ t.ckpt.number = s.ckpt.restoring
          ∧ t.sail.carry = x.items.foldl (fun m e => m.put (fun _ => []) e.1 (e.2 ++ m.get (fun _ => []) e.1)) x.carry
          ∧ t.sail.items = [] ∧ t.nmu.queue = x.nmuQueue ∧ t.rcl = x.rcl ∧ t.text = x.text
          ∧ t.sdir = { x.sdir with berthGone := s.sdir.berthGone }
          ∧ t.count .CKPT_RESTORE_COUNT = min counterMax (s.count .CKPT_RESTORE_COUNT + 1))
      ∧ (s.ckpt.snaps.get (fun _ => none) s.ckpt.restoring = none
          ∨ groups.any (fun g => (expandGroup g).isNone) = true →
        ∃ t, exec (.ckptRestoreDone groups) s = .next t ∧ t.ckState = 0 ∧ t.get F.CKPT_STATUS_LAST_RESULT = 9
          ∧ t.mem = s.mem ∧ t.ckpt = s.ckpt))
    ∧ (∀ (alone : Bool) (telem : BitVec 64) (temp : BitVec 32), s.ckState = 4 → s.stopped = true → s.chart.staged = none →
      ∃ t, exec (.ckptResume alone telem temp) s = .next t ∧ t.ckState = 0 ∧ t.phase = 0
        ∧ t.now = s.get F.CKPT_RESTORE_RESUME_AT ∧ t.get F.CFG_STATUS_STAGE = 9)

/-- A checkpoint is abandoned, or a record is restored: its parts. -/
def Obligations.CheckpointAbandonAndRestore : Prop := Claim.CheckpointsAreAbandoned ∧ Claim.CheckpointsRestore

/-! ### The text engine -/

/-- The text command at `a` is queued, readable in general-use HBM, the oldest of its stream, of a code the engine runs next, on a
device with a HOME island, outside the wait for a capture point (R271, R299 to R301): `e` is its entry. -/
structure Claim.TextTaken (s : State) (a : BitVec 48) (op : Nat) (e : List Byte) : Prop where
  live : s.Live
  calm : s.Calm
  queued : s.text.queue.contains a.toNat = true
  home : s.get F.CHART_CFG_HOME_MASK ≠ 0
  running : s.ckState ≠ 1
  entry : s.entryAt true a.toNat 32 = .ok e
  code : xOp e = op
  first : s.text.queue.find? (fun x => xStream (s.readMem x 32) == xStream e) = some a.toNat

/-- As before, with no reserved bit set (R302). -/
structure Claim.TextReady (s : State) (a : BitVec 48) (op : Nat) (e : List Byte) : Prop where
  taken : Claim.TextTaken s a op e
  reserved : xReserved e = false

/-- The command has left the queue and a completion record with its TAG, its stream, a status and what it reports waits to be
written (R302). -/
def Claim.TextEnds (s t : State) (a : BitVec 48) (e : List Byte) (status : Nat) (results : List Nat) : Prop :=
  t.text.queue = s.text.queue.erase a.toNat
    ∧ t.irq.waiting = s.irq.waiting
      ++ [⟨s.tagCore (xTag e), 0x07, status, xStream e, xTag e, s.now, (Config.packResults 0x07 results).toNat, false⟩]

/-- The command ends with a status and no other effect. -/
def Claim.TextRefused (s t : State) (a : BitVec 48) (e : List Byte) (status : Nat) : Prop :=
  Claim.TextEnds s t a e status [] ∧ s.SameBut t [.regs, .text, .irq] ∧ s.SameRegs t [.TEXT_STATUS]
    ∧ t.text.streams = s.text.streams ∧ t.text.stops = s.text.stops

/-- The writes that put bytes in tiles with manifests, zeros filling the last tile (R303). -/
def Claim.tileWrites (base manifests : Nat) (bs : List Byte) : List (Nat × List Byte) :=
  (List.range (ceilDiv bs.length 16384)).flatMap fun i =>
    let t := padTo 16384 (bs.drop (16384 * i))
    [(base + 16384 * i, t), (manifests + 32 * i, manifestOf kindTile t)]

/-- The text commands with their codes (R301). -/
def Claim.textTable : Instr → Option (BitVec 48 × Nat)
  | .tokOpen a => some (a, 1)
  | .tokFeed a => some (a, 2)
  | .detOpen a => some (a, 3)
  | .detPush a => some (a, 4)
  | .detFinish a => some (a, 5)
  | .textClose a => some (a, 6)
  | .stopLoad a => some (a, 7)
  | .gramMask a => some (a, 8)
  | .gramPeek a => some (a, 9)
  | _ => none

/-- Streams open with a cleared context and close (R301, R321); a number that is open, or not open, ends BAD_STREAM (4), a grammar
that is not there GRAMMAR (9), a reserved bit REJECTED (5), a reserved code BAD_OP (3) (R302). -/
def Claim.TextStreamsOpenAndClose : Prop :=
  ∀ (s : State) (a : BitVec 48) (e : List Byte),
    (Claim.TextReady s a 1 e → ∃ t, exec (.tokOpen a) s = .next t
      ∧ if (s.stream (xStream e)).isSome then Claim.TextRefused s t a e 4
        else Claim.TextEnds s t a e 0 []
          ∧ t.text.streams = s.text.streams.put (fun _ => none) (xStream e) (some { detok := false })
          ∧ s.SameBut t [.regs, .text, .irq] ∧ s.SameRegs t [.TEXT_STATUS])
    ∧ (Claim.TextReady s a 3 e → ∃ t, exec (.detOpen a) s = .next t
      ∧ if (s.stream (xStream e)).isSome then Claim.TextRefused s t a e 4
        else if xGrammar e ≠ 0xFFFF ∧ s.get F.TEXT_GRAM_CFG_GRAMMARS ≤ xGrammar e then Claim.TextRefused s t a e 9
        else Claim.TextEnds s t a e 0 []
          ∧ t.text.streams = s.text.streams.put (fun _ => none) (xStream e) (some { detok := true, slot := if xStopOn e then some (xSlot e) else none, grammar := xGrammar e, gstate := if xGrammar e = 0xFFFF then 0 else s.gramStart (xGrammar e) })
          ∧ s.SameBut t [.regs, .text, .irq] ∧ s.SameRegs t [.TEXT_STATUS])
    ∧ (Claim.TextReady s a 6 e → ∃ t, exec (.textClose a) s = .next t
      ∧ if (s.stream (xStream e)).isNone then Claim.TextRefused s t a e 4
        else Claim.TextEnds s t a e 0 [] ∧ t.stream (xStream e) = none
          ∧ (∀ n, n ≠ xStream e → t.stream n = s.stream n)
          ∧ s.SameBut t [.regs, .text, .irq] ∧ s.SameRegs t [.TEXT_STATUS])
    ∧ (∀ (c : Instr) (op : Nat), Claim.textTable c = some (a, op) → Claim.TextTaken s a op e → xReserved e = true →
      ∃ t, exec c s = .next t ∧ Claim.TextRefused s t a e 5)
    ∧ (∀ op, (op = 0 ∨ 0xA ≤ op) → Claim.TextTaken s a op e →
      ∃ t, exec (.textBadOp a) s = .next t ∧ Claim.TextRefused s t a e 3)

/-- Tokenising and detokenising (R303, R311 to R318): a feed of verified tiles writes its tokens as tiles and keeps the stream;
a push runs its tokens through the stream and writes the bytes released; a finish ends the generation; a stream of the other
kind, one that has ended, or none, ends BAD_STREAM (4), a range that does not fit REJECTED (5), a tile that does not verify
MANIFEST (6). -/
def Claim.TextFeedsAndPushes : Prop :=
  ∀ (s : State) (a : BitVec 48) (e : List Byte),
    (Claim.TextReady s a 2 e → ∃ t, exec (.tokFeed a) s = .next t
      ∧ match s.stream (xStream e) with
        | none => Claim.TextRefused s t a e 4
        | some x =>
          let n := ceilDiv (xLen e) 16384
          let cap := xCap e
          if x.detok = true ∨ x.ended = true then Claim.TextRefused s t a e 4
          else match s.clientRange (xSrc e) (n * 16416), s.clientRange (xDst e) (cap + cap / 16384 * 32) with
            | some src, some dst =>
              if src % 16384 ≠ 0 ∨ dst % 16384 ≠ 0 ∨ cap % 16384 ≠ 0 ∨ cap < ceilDiv (4 * (xLen e + 259)) 16384 * 16384 then
                Claim.TextRefused s t a e 5
              else if (List.range n).all (s.tileVerifies src (src + n * 16384)) = false then
                Claim.TextEnds s t a e 6 [] ∧ t.text.streams = s.text.streams ∧ t.mem = s.mem
                  ∧ t.count .ERR_MANIFEST_FAIL_COUNT = min counterMax (s.count .ERR_MANIFEST_FAIL_COUNT + 1)
              else
                let o := s.feed x (s.readMem src (xLen e)) (xLast e)
                Claim.TextEnds s t a e 0 [o.tokens.length, o.stream.invalidCount, if o.stream.invalid then 1 else 0,
                    if o.stream.truncated then 1 else 0]
                  ∧ t.mem = s.allStoredIn s.mem (Claim.tileWrites dst (dst + cap) (o.tokens.flatMap (leBytes 4)))
                  ∧ t.text.streams = s.text.streams.put (fun _ => none) (xStream e) (some o.stream)
                  ∧ t.count .TEXT_INVALID_BYTE_COUNT = min counterMax (s.count .TEXT_INVALID_BYTE_COUNT + o.bad)
                  ∧ s.SameBut t [.regs, .ctrs, .mem, .nmu, .text, .irq] ∧ s.SameRegs t [.TEXT_STATUS]
                  ∧ s.SameCounts t [.TEXT_INVALID_BYTE_COUNT, .TEXT_TRUNCATED_COUNT]
            | _, _ => Claim.TextRefused s t a e 5)
    ∧ (Claim.TextReady s a 4 e → ∃ t, exec (.detPush a) s = .next t
      ∧ match s.stream (xStream e) with
        | none => Claim.TextRefused s t a e 4
        | some x =>
          if x.detok = false ∨ x.ended = true then Claim.TextRefused s t a e 4
          else if xLen e = 0 ∨ 64 < xLen e ∨ xCap e < 768 * xLen e + 256 then Claim.TextRefused s t a e 5
          else match s.clientRange (xSrc e) (4 * xLen e), s.clientRange (xDst e) (xCap e) with
            | some src, some dst =>
              let o := pushTokens s (s.stopsOf x) ((List.range (xLen e)).map fun i => s.readLE (src + 4 * i) 4)
                { det := { stream := x } }
              Claim.TextEnds s t a e o.status [o.consumed, o.det.released.length, x.offset, o.det.stop.getD 0,
                  o.det.stream.tokens - 1, o.det.stream.gstate, if o.det.replaced = 0 then 0 else 1]
                ∧ t.mem = s.storedIn s.mem dst o.det.released
                ∧ t.text.streams = s.text.streams.put (fun _ => none) (xStream e) (some o.det.stream)
                ∧ s.SameBut t [.regs, .ctrs, .mem, .nmu, .text, .irq] ∧ s.SameRegs t [.TEXT_STATUS]
                ∧ s.SameCounts t [.TEXT_REPLACED_COUNT, .TEXT_STOP_COUNT, .TEXT_VIOLATION_COUNT]
            | _, _ => Claim.TextRefused s t a e 5)
    ∧ (Claim.TextReady s a 5 e → ∃ t, exec (.detFinish a) s = .next t
      ∧ match s.stream (xStream e) with
        | none => Claim.TextRefused s t a e 4
        | some x =>
          if x.detok = false ∨ x.ended = true then Claim.TextRefused s t a e 4
          else if xCap e < 256 then Claim.TextRefused s t a e 5
          else match s.clientRange (xDst e) (xCap e) with
            | none => Claim.TextRefused s t a e 5
            | some dst =>
              let d := detEnd (s.stopsOf x) x
              Claim.TextEnds s t a e (if d.stop.isSome then 1 else 2) [0, d.released.length, x.offset, d.stop.getD 0,
                  d.stream.tokens - 1, d.stream.gstate, if d.replaced = 0 then 0 else 1]
                ∧ t.mem = s.storedIn s.mem dst d.released
                ∧ t.text.streams = s.text.streams.put (fun _ => none) (xStream e) (some d.stream)
                ∧ s.SameBut t [.regs, .ctrs, .mem, .nmu, .text, .irq] ∧ s.SameRegs t [.TEXT_STATUS])

/-- Text streams open, take tokens and text, and close: its parts. -/
def Obligations.TextStreams : Prop := Claim.TextStreamsOpenAndClose ∧ Claim.TextFeedsAndPushes

/-- Stop sets and grammars (R302, R316, R320, R322, R323): a valid stop set is loaded into a slot that no stream uses; a mask is
written as tiles; a peek gives the state a token leads to and changes no stream. -/
def Obligations.TextStopsAndGrammars : Prop :=
  ∀ (s : State) (a : BitVec 48) (e : List Byte),
    (Claim.TextReady s a 7 e →
      let set := match s.clientRange (xSrc e) 1 with | some k => s.readMem k 521 | none => []
      let used := s.text.streams.any fun p => match p.2 with | some x => x.slot == some (xSlot e) | none => false
      ∃ t, exec (.stopLoad a) s = .next t
        ∧ if s.clientRange (xSrc e) (stopBytes set) = none then Claim.TextRefused s t a e 5
          else match stopSet set with
            | none => Claim.TextRefused s t a e 8
            | some l => if used = true then Claim.TextRefused s t a e 8
              else Claim.TextEnds s t a e 0 [] ∧ t.text.stops = s.text.stops.put (fun _ => []) (xSlot e) l
                ∧ t.text.streams = s.text.streams ∧ s.SameBut t [.regs, .text, .irq] ∧ s.SameRegs t [.TEXT_STATUS])
    ∧ (Claim.TextReady s a 8 e →
      let m := s.gramMask (xGrammar e) (xState e)
      ∃ t, exec (.gramMask a) s = .next t
        ∧ if s.gramOk e = false then Claim.TextRefused s t a e 9
          else match s.clientRange (xDst e) (xCap e + xCap e / 16384 * 32) with
            | none => Claim.TextRefused s t a e 5
            | some dst =>
              if dst % 16384 ≠ 0 ∨ xCap e % 16384 ≠ 0 ∨ xCap e < m.length then Claim.TextRefused s t a e 5
              else Claim.TextEnds s t a e 0 [if m.all (· == 0) then 1 else 0]
                ∧ t.mem = s.allStoredIn s.mem (Claim.tileWrites dst (dst + xCap e) m)
                ∧ t.text.streams = s.text.streams
                ∧ s.SameBut t [.regs, .ctrs, .mem, .nmu, .text, .irq] ∧ s.SameRegs t [.TEXT_STATUS]
                ∧ s.SameCounts t [.TEXT_MASK_HIT_COUNT, .TEXT_MASK_MISS_COUNT, .TEXT_DEAD_COUNT])
    ∧ (Claim.TextReady s a 9 e →
      ∃ t, exec (.gramPeek a) s = .next t
        ∧ if s.gramOk e = false ∨ s.vocab ≤ xLen e then Claim.TextRefused s t a e 9
          else Claim.TextEnds s t a e 0 (match s.gramNext (xGrammar e) (xState e) (xLen e) with | some q => [q, 0] | none => [0, 1])
            ∧ t.text.streams = s.text.streams ∧ s.SameBut t [.regs, .text, .irq] ∧ s.SameRegs t [.TEXT_STATUS])

/-! ### The sampler and the seal engine -/

/-- The sampler command at `a` is queued, readable, the oldest of its context, of a code the sampler runs next (R328, R329): `e`
is its entry. -/
structure Claim.SampReady (s : State) (a : BitVec 48) (op : Nat) (e : List Byte) : Prop where
  live : s.Live
  calm : s.Calm
  queued : s.sealer.sampQueue.contains a.toNat = true
  entry : s.entryAt false a.toNat 64 = .ok e
  code : pOp e = op
  first : s.sealer.sampQueue.find? (fun x => pCtx (s.readMem x 64) == pCtx e) = some a.toNat

/-- The command has left the queue and a completion record with its TAG, a status and what it reports waits to be written
(R333). -/
def Claim.SampEnds (s t : State) (a : BitVec 48) (e : List Byte) (status : Nat) (results : List Nat) : Prop :=
  t.sealer.sampQueue = s.sealer.sampQueue.erase a.toNat
    ∧ t.irq.waiting = s.irq.waiting
      ++ [⟨s.tagCore (pTag e), 0x08, status, 0, pTag e, s.now, (Config.packResults 0x08 results).toNat, false⟩]

/-- The command ends REJECTED (5) with a reason and no other effect (R333, R348). -/
def Claim.SampRefused (s t : State) (a : BitVec 48) (e : List Byte) (reason : Nat) : Prop :=
  Claim.SampEnds s t a e 5 [] ∧ t.get F.SAMP_STATUS_REJECT_REASON = reason ∧ s.SameBut t [.regs, .sealer, .irq]
    ∧ s.SameRegs t [.SAMP_STATUS]

/-- SAMPLE over verified logits and mask draws with the session's key and reports the token of R332; a token other than EXPECT
reports REPLAY_MISMATCH (3). A reserved bit (1), too many tokens (3), a range that does not fit (4) and a reserved parameter (2)
have it REJECTED; a tile or a key slot that does not verify ends it MANIFEST (4) (R331 to R334, R348, R518). -/
def Claim.SamplerDraws : Prop :=
  ∀ (s : State) (a : BitVec 48) (session : BitVec 64) (e : List Byte), Claim.SampReady s a 1 e →
    let lt := ceilDiv (4 * s.vocab) 16384
    let mt := ceilDiv (ceilDiv s.vocab 8) 16384
    ∃ t, exec (.sample a session) s = .next t
      ∧ if pReserved e = true then Claim.SampRefused s t a e 1
        else if 32 < pN e then Claim.SampRefused s t a e 3
        else match s.ctxAt e, s.clientRange (pLogits e) (lt * 16416),
            s.clientRange (if pMaskOn e then pMask e else pLogits e) (if pMaskOn e then mt * 16416 else 0),
            s.clientRange (if pN e = 0 then pLogits e else pTokens e) (4 * pN e) with
          | some ctx, some logits, some mask, some tokens =>
            let c := s.readMem ctx ctxBytes
            if logits % 16384 ≠ 0 ∨ (pMaskOn e = true ∧ mask % 16384 ≠ 0) then Claim.SampRefused s t a e 4
            else if s.ctxReserved c = true then Claim.SampRefused s t a e 2
            else if (List.range lt).all (s.tileVerifies logits (logits + lt * 16384)) = false
                ∨ (pMaskOn e = true ∧ (List.range mt).all (s.tileVerifies mask (mask + mt * 16384)) = false) then
              Claim.SampEnds s t a e 4 [] ∧ t.mem = s.mem
                ∧ t.count .ERR_MANIFEST_FAIL_COUNT = min counterMax (s.count .ERR_MANIFEST_FAIL_COUNT + 1)
            else match s.findSession session.toNat with
              | none => Claim.SampRefused s t a e 4
              | some i => match s.slotKey session.toNat (rKeySlot (s.recBytes i)) with
                | none => Claim.SampEnds s t a e 4 [] ∧ t.mem = s.mem
                  ∧ t.count .SEC_KEYSLOT_TAG_COUNT = min counterMax (s.count .SEC_KEYSLOT_TAG_COUNT + 1)
                | some key =>
                  let counts := (countTokens (cCounts c) ((List.range (pN e)).map (s.tokenAt tokens))).1
                  let ls := (List.range s.vocab).map fun j => (BitVec.ofNat 32 (s.readLE (logits + 4 * j) 4) : F32)
                  let m := s.readMem mask (ceilDiv s.vocab 8)
                  let o := s.sample c counts ls (if pMaskOn e then some fun t => bit (m.getD (t / 8) 0).toNat (t % 8) else none)
                    (pGen e) (drawU key (pPos e) 0)
                  let status := if o.status ≤ 1 && pExpectOn e && o.token ≠ pExpect e then 3 else o.status
                  Claim.SampEnds s t a e status [o.token, status, if o.short then 1 else 0, if o.nonfinite then 1 else 0]
                    ∧ t.mem = s.storedIn s.mem (ctx + 0x84) (leBytes 4 (cSticky c ||| (if o.short then 1 else 0)
                        ||| (if o.status = 1 then 2 else 0) ||| (if o.nonfinite then 8 else 0)))
                    ∧ (o.status ≠ 2 → s.SameBut t [.regs, .ctrs, .mem, .nmu, .sealer, .irq] ∧ s.SameRegs t [.SAMP_STATUS])
          | _, _, _, _ => Claim.SampRefused s t a e 4

/-- COUNT adds its tokens to the context's table in ascending token order; RESET clears ENTRIES, STICKY and COUNTS; a reserved
code ends BAD_OP (6) (R329 to R331, R348). -/
def Claim.SamplerContexts : Prop :=
  ∀ (s : State) (a : BitVec 48) (e : List Byte),
    (Claim.SampReady s a 2 e → ∃ t, exec (.sampCount a) s = .next t
      ∧ if pReserved e = true then Claim.SampRefused s t a e 1
        else if pN e = 0 ∨ 64 < pN e then Claim.SampRefused s t a e 3
        else match s.ctxAt e, s.clientRange (pTokens e) (4 * pN e) with
          | some ctx, some tokens =>
            let c := s.readMem ctx ctxBytes
            let r := countTokens (cCounts c) ((List.range (pN e)).map (s.tokenAt tokens))
            Claim.SampEnds s t a e 0 []
              ∧ t.mem = s.allStoredIn s.mem [(ctx + 0x80, leBytes 4 r.1.length
                  ++ leBytes 4 (cSticky c ||| (if decide (r.2 > 0) then 4 else 0))), (ctx + 0x100, countBytes r.1)]
              ∧ t.count .SAMP_COUNT_FULL_COUNT = min counterMax (s.count .SAMP_COUNT_FULL_COUNT + r.2)
              ∧ s.SameBut t [.regs, .ctrs, .mem, .nmu, .sealer, .irq] ∧ s.SameRegs t [.SAMP_STATUS]
              ∧ s.SameCounts t [.SAMP_COUNT_FULL_COUNT]
          | _, _ => Claim.SampRefused s t a e 4)
    ∧ (Claim.SampReady s a 3 e → ∃ t, exec (.sampReset a) s = .next t
      ∧ if pReserved e = true then Claim.SampRefused s t a e 1
        else match s.ctxAt e with
          | some ctx => Claim.SampEnds s t a e 0 []
            ∧ t.mem = s.allStoredIn s.mem [(ctx + 0x80, List.replicate 8 0), (ctx + 0x100, List.replicate 32768 0)]
            ∧ s.SameBut t [.regs, .mem, .nmu, .sealer, .irq] ∧ s.SameRegs t [.SAMP_STATUS]
          | none => Claim.SampRefused s t a e 4)
    ∧ (∀ op, (op = 0 ∨ 4 ≤ op) → Claim.SampReady s a op e →
      ∃ t, exec (.sampBadOp a) s = .next t ∧ Claim.SampEnds s t a e 6 [] ∧ s.SameBut t [.regs, .sealer, .irq])

/-- SAMPLE draws a token; contexts count and are reset: its parts. -/
def Obligations.Sampler : Prop := Claim.SamplerDraws ∧ Claim.SamplerContexts

/-- The seal engine command at `a` is queued, readable in general-use HBM, the oldest of its session, of a code the engine runs
next (R345, R346): `e` is its entry. -/
structure Claim.SealReady (s : State) (a : BitVec 48) (op : Nat) (e : List Byte) : Prop where
  live : s.Live
  calm : s.Calm
  queued : s.sealer.queue.contains a.toNat = true
  entry : s.entryAt true a.toNat 64 = .ok e
  code : eOp e = op
  first : s.sealer.queue.find? (fun x => eSession (s.readMem x 64) == eSession e) = some a.toNat

/-- The command has left the queue and a completion record with its TAG, a status and RESULT waits to be written (R347). -/
def Claim.SealEnds (s t : State) (a : BitVec 48) (e : List Byte) (status result : Nat) : Prop :=
  t.sealer.queue = s.sealer.queue.erase a.toNat
    ∧ t.irq.waiting = s.irq.waiting ++ [⟨s.tagCore (eTag e), 0x09, status, 0, eTag e, s.now, result, false⟩]

/-- The command ends with a status and no other effect. -/
def Claim.SealRefused (s t : State) (a : BitVec 48) (e : List Byte) (status : Nat) : Prop :=
  Claim.SealEnds s t a e status 0 ∧ s.SameBut t [.sealer, .irq] ∧ t.sealer.set = s.sealer.set

/-- A seal engine command for a session: NO_SESSION (3) without a record, and for one that fails its CRC, which faults the
session; otherwise `body` says what happens to the record at an index (R94, R347). -/
def Claim.sealRecord (s t : State) (a : BitVec 48) (e : List Byte) (body : Nat → Prop) : Prop :=
  match s.findSession (eSession e) with
  | none => Claim.SealRefused s t a e 3
  | some i =>
    if s.hbmOk i = false then (∃ r ∈ t.irq.waiting, r.source = 0x09 ∧ r.status = 3 ∧ r.tag = eTag e)
        ∧ t.count .SDIR_CRC_FAIL_COUNT = min counterMax (s.count .SDIR_CRC_FAIL_COUNT + 1)
    else body i

/-- A ticket joins the open set, or waits for a later one when the set is full, and its place is reported (R340, R346). Deferred
tickets beyond MAX_TICKETS go to later sets, which is the model's choice (assumption 56). -/
def Claim.TicketPlaced (s t : State) (a : BitVec 48) (e ticket : List Byte) : Prop :=
  let most := s.get F.SEAL_CFG_MAX_TICKETS
  if s.sealer.set.length < most then
    t.sealer.set = s.sealer.set ++ [ticket] ∧ Claim.SealEnds s t a e 0 (s.sealer.set.length + s.now % 2 ^ 32 * 2 ^ 32)
  else
    t.sealer.set = s.sealer.set ∧ t.sealer.deferred = s.sealer.deferred ++ [ticket]
      ∧ Claim.SealEnds s t a e 0 (s.sealer.deferred.length % max 1 most
        + (s.now + 1 + s.sealer.deferred.length / max 1 most) % 2 ^ 32 * 2 ^ 32)
      ∧ t.count .SEAL_DEFER_COUNT = min counterMax (s.count .SEAL_DEFER_COUNT + 1)

/-- The seal engine's commands (R336 to R338, R344, R346, R347, R521): LOG_APPEND chains an entry onto the session's log; TICKET
and VERDICT put a ticket into the open set; TENANT_REPORT keeps one report for a period; a reserved code ends BAD_OP (1), a
reserved bit or a range that does not fit REJECTED (2), a ticket that is not that of the log MISMATCH (4) or LOG_BROKEN (5), a
tile that does not verify MANIFEST (6). -/
def Claim.SealEngineCommands : Prop :=
  ∀ (s : State) (a : BitVec 48) (e : List Byte),
    (Claim.SealReady s a 1 e →
      let n := ceilDiv (eLength e) 16384
      ∃ t, exec (.logAppend a) s = .next t
        ∧ if eReserved e = true ∨ 0x4000000 < eLength e ∨ eType e = 0 ∨ 7 < eType e ∨ eArg e % 16384 ≠ 0
              ∨ s.hbmRange (eArg e) (n * 16416) = false then Claim.SealRefused s t a e 2
          else Claim.sealRecord s t a e fun i =>
            if (List.range n).all (s.tileVerifies (eArg e) (eArg e + n * 16384)) = false then
              Claim.SealEnds s t a e 6 0 ∧ t.nand.logs = s.nand.logs ∧ t.mem = s.mem
                ∧ t.count .ERR_MANIFEST_FAIL_COUNT = min counterMax (s.count .ERR_MANIFEST_FAIL_COUNT + 1)
            else
              let b := s.recBytes i
              let id := rId b
              let turn := rState b == 1
              let c := if turn then setLE b 0x18 8 (s.committedNow b) else b
              Claim.SealEnds s t a e 0 (rLogSeq b)
                ∧ t.nand.logs = s.nand.logs.put (fun _ => []) id ((s.log id).take (rLogSeq b)
                  ++ [logEntry (rLogSeq b) (eType e) (rCommitted c) (s.chainBefore id (rLogSeq b)) (s.readMem (eArg e) (eLength e))])
                ∧ Claim.RecordIs s t i (setAll c [(0x78, 8, rLogSeq b + 1),
                    (0x70, 8, (Config.freeWord (s.free + if turn then 1 else 0)).toNat)]))
    ∧ (Claim.SealReady s a 2 e → ∃ t, exec (.ticket a) s = .next t
      ∧ if eReserved e = true then Claim.SealRefused s t a e 2
        else Claim.sealRecord s t a e fun i =>
          let b := s.recBytes i
          let id := rId b
          let out := (s.log id).getD (eSeqA e) []
          let p := lPayload out
          if (s.log id).length ≤ eSeqA e ∨ lType out ≠ 6 then Claim.SealRefused s t a e 4
          else if s.logOk id (eSeqA e) = false ∨ s.logOk id (eSeqB e) = false then Claim.SealRefused s t a e 5
          else if eReqTag e ≠ rTag b ∨ eEndReason e ≠ outEndReason p ∨ eStopString e ≠ outStopString p
              ∨ eStopIndex e ≠ outStopIndex p then Claim.SealRefused s t a e 4
          else Claim.TicketPlaced s t a e (s.ticketOf e b)
            ∧ t.count .SEAL_TICKET_COUNT = min counterMax (s.count .SEAL_TICKET_COUNT + 1)
            ∧ s.SameBut t [.ctrs, .sealer, .irq])
    ∧ (Claim.SealReady s a 3 e → ∃ t, exec (.verdict a) s = .next t
      ∧ if eReserved e = true ∨ eArg e % 64 ≠ 0 ∨ s.hbmRange (eArg e) 256 = false ∨ eVerdict e = 0 ∨ 6 < eVerdict e then
          Claim.SealRefused s t a e 2
        else Claim.sealRecord s t a e fun _ =>
          let x := s.readMem (eArg e) 256
          if ticketParses x = false ∨ leAt x 8 8 ≠ eSession e then Claim.SealRefused s t a e 4
          else Claim.TicketPlaced s t a e ((setAll x [(0, 4, 0x20001),
                (0x2C, 4, if eVerdict e = 2 then eStopIndex e else leAt x 0x2C 4),
                (0x30, 2, leAt x 0x30 2 ||| (if s.debugOpen then 128 else 0)), (0x36, 1, eVerdict e)]).take 0xE0
              ++ dig32 (sha384 x))
            ∧ t.count .SEAL_VERDICT_COUNT = min counterMax (s.count .SEAL_VERDICT_COUNT + 1)
            ∧ s.SameBut t [.ctrs, .sealer, .irq])
    ∧ (∀ (power : BitVec 32) (milli : Fin 1000), Claim.SealReady s a 4 e → ∃ t, exec (.tenantReport a power milli) s = .next t
      ∧ match s.dataAddr 3 (eArg e) 128 with
        | none => Claim.SealRefused s t a e 2
        | some h =>
          if eReserved e = true ∨ eArg e % 64 ≠ 0 then Claim.SealRefused s t a e 2
          else
            let kept := s.sealer.reports.get (fun _ => (0, [])) (eType e)
            let r := if kept.1 = s.period + 1 then kept.2 else s.tenantReport (eType e) (1000 * power.toNat + milli)
            Claim.SealEnds s t a e 0 0 ∧ t.sealer.reports.get (fun _ => (0, [])) (eType e) = (s.period + 1, r)
              ∧ t.hostMem = SMap.putList memDefault s.hostMem h r ∧ s.SameBut t [.sealer, .irq, .hostMem])
    ∧ (∀ op, (op = 0 ∨ 5 ≤ op) → Claim.SealReady s a op e →
      ∃ t, exec (.sealBadOp a) s = .next t ∧ Claim.SealRefused s t a e 1)

/-- The seal (R340, R342, R506): the set of a sailing closes once, with SAILING and LEAF in its tickets, the deferred ones opening
the next; the oldest closed set is signed and written to the ring, its tickets first, when the ring has room and random values
can be drawn. -/
def Claim.SealsAreWritten : Prop :=
  ∀ s : State, s.Live → s.Calm →
    (let most := max 1 (s.get F.SEAL_CFG_MAX_TICKETS)
     s.stopped = false → s.sealer.ringFull = false → s.sealer.lastClosed ≠ some s.now →
      ∃ t, exec .ticketSetClose s = .next t
        ∧ t.sealer = { s.sealer with
            closed := s.sealer.closed ++ [(s.now, s.sealer.set.mapIdx fun i t => placeTicket t s.now i)],
            set := s.sealer.deferred.take most, deferred := s.sealer.deferred.drop most, lastClosed := some s.now }
        ∧ t.get F.SEAL_STATUS_BACKLOG = (s.sealer.closed.length + 1) % 2 ^ 16
        ∧ s.SameBut t [.regs, .sealer] ∧ s.SameRegs t [.SEAL_STATUS])
    ∧ (s.stopped = true ∨ s.sealer.ringFull = true ∨ s.sealer.lastClosed = some s.now → exec .ticketSetClose s = .next s)
    ∧ (∀ drained : Nat, s.sealer.closed = [] ∨ s.entropyOk = false → exec (.sealRecordWrite drained) s = .next s)
    ∧ (∀ (drained n : Nat) (ts : List (List Byte)) (rest : List (Nat × List (List Byte))),
      s.sealer.closed = (n, ts) :: rest → s.entropyOk = true →
      let body := s.sealBody n ts
      let bytes := ts.flatten ++ padTo 3648 (body ++ s.identitySign body)
      let size := s.get F.SEAL_RING_SIZE_BYTES
      let o := s.sealer.written % max 1 size
      (s.sealer.written - drained + bytes.length ≤ size →
        ∃ t, exec (.sealRecordWrite drained) s = .next t ∧ t.sealer.closed = rest ∧ t.sealer.prev = sha384 body
          ∧ t.sealer.written = s.sealer.written + bytes.length ∧ t.sealer.ringFull = false
          ∧ t.get F.SEAL_STATUS_LAST_SEALED = n % 2 ^ 48 ∧ t.flag F.IRQ_SRC_PENDING 0x44 = true
          ∧ t.mem = s.allStoredIn s.mem [(s.get F.SEAL_RING_BASE_ADDR + o, bytes.take (size - o)),
              (s.get F.SEAL_RING_BASE_ADDR, bytes.drop (size - o))])
      ∧ (size < s.sealer.written - drained + bytes.length →
        exec (.sealRecordWrite drained) s = .next { s with sealer := { s.sealer with ringFull := true } }))

/-- Logs, tickets and reports join the seal; sets close and are written: its parts. -/
def Obligations.SealEngine : Prop := Claim.SealEngineCommands ∧ Claim.SealsAreWritten

/-! ### Recall -/

/-- The recall command at `a` is queued, readable, of a code the engine runs next, and, unless it is a QUERY, the oldest of its
index with no DROP waiting, outside the wait for a capture point (R271, R361, R362, R367): `e` is its entry. -/
structure Claim.RclReady (s : State) (a : BitVec 48) (op : Nat) (e : List Byte) : Prop where
  live : s.Live
  calm : s.Calm
  queued : s.rcl.queue.contains a.toNat = true
  running : s.ckState ≠ 1
  entry : s.entryAt false a.toNat 128 = .ok e
  code : qOp e = op
  first : op = 4 ∨ (s.rcl.queue.find? (fun x => qOp (s.readMem x 128) ≠ 4 && qNumber (s.readMem x 128) == qNumber e)
    = some a.toNat ∧ s.rcl.drops.any (fun d => d.2 == qNumber e) = false)

/-- A completion record of a recall command has joined those that wait (R369). -/
def Claim.RclDone (s t : State) (e : List Byte) (status : Nat) : Prop :=
  t.irq.waiting = s.irq.waiting ++ [⟨s.tagCore (qTag e), 0x0A, status, 0, qTag e, s.now, 0, false⟩]

/-- As before, and the command has left the queue. -/
def Claim.RclEnds (s t : State) (a : BitVec 48) (e : List Byte) (status : Nat) : Prop :=
  t.rcl.queue = s.rcl.queue.erase a.toNat ∧ Claim.RclDone s t e status

/-- The command ends REJECTED (4) with a reason and no other effect (R369, R372). -/
def Claim.RclRefused (s t : State) (a : BitVec 48) (e : List Byte) (reason : Nat) : Prop :=
  Claim.RclEnds s t a e 4 ∧ t.get F.RCL_STATUS_REJECT_REASON = reason ∧ s.SameBut t [.regs, .rcl, .irq]
    ∧ s.SameRegs t [.RCL_STATUS, .RCL_PIPE_STATUS]

/-- The command ends with a status of its own and no other effect; DENIED (5) is counted (R369, R374). -/
def Claim.RclStops (s t : State) (a : BitVec 48) (e : List Byte) (status : Nat) : Prop :=
  Claim.RclEnds s t a e status ∧ s.SameBut t [.regs, .ctrs, .rcl, .irq] ∧ s.SameRegs t [.RCL_STATUS, .RCL_PIPE_STATUS]
    ∧ s.SameCounts t [.RCL_DENIED_COUNT]
    ∧ t.count .RCL_DENIED_COUNT = min counterMax (s.count .RCL_DENIED_COUNT + if status = 5 then 1 else 0)

/-- The command's vector fails its manifest: MANIFEST (6), counted, with no store (R367, R369). -/
def Claim.RclUnverified (s t : State) (a : BitVec 48) (e : List Byte) : Prop :=
  Claim.RclEnds s t a e 6 ∧ t.mem = s.mem
    ∧ t.count .ERR_MANIFEST_FAIL_COUNT = min counterMax (s.count .ERR_MANIFEST_FAIL_COUNT + 1)

/-- What INSERT, DELETE, MERGE and DROP check first: a reserved bit REJECTED, a handle that is not good BAD_HANDLE (3), an index of
another tenant DENIED (5); otherwise `body` says what happens to the index's header (R352, R360). -/
def Claim.rclOwned (s t : State) (a : BitVec 48) (e : List Byte) (body : List Byte → Prop) : Prop :=
  if qReserved e = true then Claim.RclRefused s t a e 1
  else if s.handleOk e = false then Claim.RclStops s t a e 3
  else if tenantOf (qSession e) ≠ iTenant (s.idx (qNumber e)) then Claim.RclStops s t a e 5
  else body (s.idx (qNumber e))

/-- An index header with its CRC (R352). -/
def Claim.idxOf (h : List Byte) : List Byte :=
  let b := (padTo 256 h).take 0xFC
  b ++ leBytes 4 (crc32c b)

/-- CREATE installs a template as a LIVE index of the next generation; INSERT adds a record to the side list; DELETE sets a
tombstone; a reserved code ends BAD_OP (2) (R351 to R353, R361, R363, R368). -/
def Obligations.RecallIndexes : Prop :=
  ∀ (s : State) (a : BitVec 48) (e : List Byte),
    let n := qNumber e
    (Claim.RclReady s a 1 e → ∃ t, exec (.rclCreate a) s = .next t
      ∧ if qReserved e = true ∨ bits (qHandle e) 63 48 ≠ 0 then Claim.RclRefused s t a e 1
        else if s.get F.RCL_CFG_INDEXES ≤ n then Claim.RclStops s t a e 3
        else match s.clientRange (qVec e) 256 with
          | none => Claim.RclRefused s t a e 4
          | some v =>
            if iState (s.idx n) ≠ 0 ∨ (s.idxIsland n).isNone ∨ templateOk (s.readMem v 256) = false then Claim.RclRefused s t a e 2
            else Claim.RclEnds s t a e 0
              ∧ t.mem = s.storedIn s.mem (s.idxAddr n) (Claim.idxOf (setAll (s.readMem v 256)
                  [(8, 2, tenantOf (qSession e)), (0xF, 1, 1), (0x10, 2, iGen (s.idx n) + 1), (0x34, 4, 0), (0x40, 8, 0),
                    (0x54, 4, 0), (0x58, 8, 0), (0x60, 4, 0)]))
              ∧ s.SameBut t [.regs, .mem, .nmu, .rcl, .irq] ∧ s.SameRegs t [.RCL_STATUS, .RCL_PIPE_STATUS])
    ∧ (Claim.RclReady s a 2 e → ∃ t, exec (.rclInsert a) s = .next t
      ∧ Claim.rclOwned s t a e fun h =>
        if iState h = 3 then Claim.RclStops s t a e 8
        else if iSideCount h = iSideCap h then Claim.RclStops s t a e 9
        else if iNextId h = iIdCap h then Claim.RclStops s t a e 0xA
        else match s.rclVec e h with
          | none => Claim.RclRefused s t a e 4
          | some (_, false) => Claim.RclUnverified s t a e
          | some (v, true) =>
            let f := s.tableF h ((List.range (iD h)).map fun i => BitVec.ofNat 32 (s.readLE (v + 4 * i) 4))
            if f.any (fun r => r.any fun x => F32.isNan x || F32.isInf x) = true then Claim.RclStops s t a e 7
            else Claim.RclEnds s t a e 0
              ∧ t.mem = s.allStoredIn s.mem
                [(iSide h + iSideCount h * sideSize h, sideBytes h (iNextId h) (qAttr e) (encodeVec f)),
                  (s.idxAddr n, Claim.idxOf (setAll h [(0x34, 4, iSideCount h + 1), (0x40, 8, iNextId h + 1)]))]
              ∧ s.SameBut t [.regs, .mem, .nmu, .rcl, .irq] ∧ s.SameRegs t [.RCL_STATUS, .RCL_PIPE_STATUS])
    ∧ (Claim.RclReady s a 3 e → ∃ t, exec (.rclDelete a) s = .next t
      ∧ Claim.rclOwned s t a e fun h =>
        let id := bits (qAttr e) 31 0
        if iNextId h ≤ id then Claim.RclStops s t a e 0xC
        else Claim.RclEnds s t a e 0
          ∧ t.mem = s.storedIn s.mem (iTomb h + id / 8) (leBytes 1 (s.readLE (iTomb h + id / 8) 1 ||| 2 ^ (id % 8)))
          ∧ s.SameBut t [.regs, .mem, .nmu, .rcl, .irq] ∧ s.SameRegs t [.RCL_STATUS, .RCL_PIPE_STATUS])
    ∧ (∀ op, (op = 0 ∨ 7 ≤ op) → Claim.RclReady s a op e →
      ∃ t, exec (.rclBadOp a) s = .next t ∧ Claim.RclStops s t a e 2)

/-- A QUERY takes a context and a table slot, or waits for them with nothing else done (R357 to R359, R365, R366): it leaves the
queue, stands among the running ones with what it finds in the index as it stands, and stores to its table slot and its scratch
area alone, unless a record of the index fails its CRC (8) and the header is marked DAMAGED. -/
def Claim.queryRuns (s t : State) (a : BitVec 48) (e : List Byte) : Prop :=
  match s.rclPlace (qNumber e) with
  | none => t.rcl = { s.rcl with waiting := s.rcl.waiting.filter (· ≠ a.toNat) ++ [a.toNat] } ∧ s.SameBut t [.rcl]
  | some (p, c, k) =>
    let h := s.idx (qNumber e)
    let q : List F32 := (List.range (iD h)).map fun i => BitVec.ofNat 32 (s.readLE (((clientAddr (qVec e)).getD 0) + 4 * i) 4)
    let r := s.query h e q
    let table := sharedBase + p / 4 * sharedHalf + (s.get F.RCL_TABLE_BASE_ADDR + (p % 4 * s.get F.RCL_CFG_TABLE_SLOTS + k) * 32768)
    t.rcl.queue = s.rcl.queue.erase a.toNat ∧ t.rcl.waiting = s.rcl.waiting.erase a.toNat
      ∧ t.rcl.active = s.rcl.active ++ [⟨a.toNat, e, qNumber e, p, c, k, r.1, r.2.1, r.2.2, s.epoch⟩]
      ∧ t.count .RCL_NODE_CRC_COUNT = min counterMax (s.count .RCL_NODE_CRC_COUNT + if r.1 = 8 then 1 else 0)
      ∧ Claim.MemOnly s t ((s.get F.RCL_SCRATCH_BASE_ADDR + (p * 4096 + c) * s.get F.RCL_CFG_SCRATCH_KIB * 1024, scratchNeed h e)
          :: (table, 32768) :: if r.1 = 8 then [(s.idxAddr (qNumber e), 256)] else [])

/-- A query's checks in the order of R357 to R360 and R366, after which it runs or waits; one that waits takes its places later; at
its end the places are free and its results stand in tiles. -/
def Claim.RecallQueriesRun : Prop :=
  ∀ (s : State) (a : BitVec 48) (e : List Byte),
    let h := s.idx (qNumber e)
    (Claim.RclReady s a 4 e → ∃ t, exec (.rclQuery a) s = .next t
      ∧ if s.rcl.waiting.contains a.toNat = true then t = s
        else if qReserved e = true then Claim.RclRefused s t a e 1
        else if s.handleOk e = false then Claim.RclStops s t a e 3
        else if iState h = 3 then Claim.RclStops s t a e 8
        else if iShared h = false ∧ ((iOwner h ≠ 0 ∧ iOwner h ≠ qSession e) ∨ tenantOf (qSession e) ≠ iTenant h) then
          Claim.RclStops s t a e 5
        else if iShared h = false ∧ qBitmap e ≠ 0 then Claim.RclRefused s t a e 6
        else if iShared h = true ∧ iRestricted h = true ∧ qBitmap e = 0 then Claim.RclStops s t a e 5
        else if qBeamMax e < qBeam e ∨ qVisitMax e = 0 then Claim.RclRefused s t a e 3
        else if qBitmap e ≠ 0 ∧ s.hbmRange (qBitmap e) (ceilDiv (iNextId h) 8) = false then Claim.RclRefused s t a e 4
        else if qResult e % 16384 ≠ 0 ∨ (s.clientRange (qResult e) 16416).isNone then Claim.RclRefused s t a e 4
        else if s.get F.RCL_CFG_SCRATCH_KIB * 1024 < 16 * (qVisitMax e * iDegree h + 1 + qBeamMax e + qK e) then
          Claim.RclRefused s t a e 5
        else match s.rclVec e h with
          | none => Claim.RclRefused s t a e 4
          | some (_, false) => Claim.RclUnverified s t a e
          | some (_, true) => Claim.queryRuns s t a e)
    ∧ (Claim.RclReady s a 4 e → ∃ t, exec (.rclQueryStart a) s = .next t
      ∧ if s.rcl.waiting.contains a.toNat = false then t = s
        else if s.handleOk e = false then Claim.RclStops s t a e 3
        else Claim.queryRuns s t a e)
    ∧ (s.Live → s.Calm → s.ckState ≠ 1 → ∃ t, exec (.rclQueryDone a) s = .next t
      ∧ match s.rcl.active.find? (fun q => q.addr == a.toNat) with
        | none => t = s
        | some x =>
          let dst := (clientAddr (qResult x.entry)).getD 0
          t.rcl.active = s.rcl.active.erase x ∧ Claim.RclDone s t x.entry x.status
            ∧ t.count .RCL_WIDEN_COUNT = min counterMax (s.count .RCL_WIDEN_COUNT + x.widened)
            ∧ t.mem = (if x.status ≤ 1 then s.allStoredIn s.mem (Claim.tileWrites dst (dst + 16384)
                (leBytes 4 x.found.length ++ List.replicate 12 0
                  ++ x.found.flatMap fun r => leBytes 8 r.2.2 ++ leBytes 4 r.2.1 ++ leBytes 4 r.1)) else s.mem)
            ∧ s.SameBut t [.regs, .ctrs, .mem, .nmu, .rcl, .irq]
            ∧ s.SameRegs t [.RCL_STATUS, .RCL_PIPE_STATUS, .CHART_DRAIN])

/-- MERGE marks the index MERGING and takes the new areas (R364): a DAMAGED index ends NODE_CRC (8), one that merges BUSY (0xB), an
area or a list that does not fit REJECTED. -/
def Claim.RecallMergesAndDrops : Prop :=
  ∀ (s : State) (a : BitVec 48) (e : List Byte),
    (Claim.RclReady s a 5 e → ∃ t, exec (.rclMerge a) s = .next t
      ∧ Claim.rclOwned s t a e fun h =>
        if iState h = 3 then Claim.RclStops s t a e 8
        else if iState h = 2 then Claim.RclStops s t a e 0xB
        else match s.clientRange (qVec e) 64 with
          | none => Claim.RclRefused s t a e 4
          | some v =>
            let m := s.readMem v 64
            let ids := bits (leAt m 24 8) 32 0
            if leAt m 36 28 ≠ 0 ∨ ids < iNextId h ∨ 2 ^ 32 < leAt m 24 8 then Claim.RclRefused s t a e 2
            else if s.hbmRange (leAt m 0 8) (ids * nodeSize h) = false ∨ s.hbmRange (leAt m 8 8) (leAt m 32 4 * sideSize h) = false
                ∨ s.hbmRange (leAt m 16 8) (ceilDiv ids 8) = false then Claim.RclRefused s t a e 4
            else t.rcl.queue = s.rcl.queue.erase a.toNat
              ∧ t.rcl.merges = s.rcl.merges ++ [⟨m ++ e, qNumber e, false, []⟩]
              ∧ t.mem = s.storedIn s.mem (s.idxAddr (qNumber e)) (Claim.idxOf (setAll h
                [(0xF, 1, 2), (0x58, 8, iSide h), (0x60, 4, iSideCount h), (0x28, 8, leAt m 8 8), (0x34, 4, 0),
                  (0x30, 4, leAt m 32 4)]))
              ∧ s.SameBut t [.regs, .mem, .nmu, .rcl] ∧ s.SameRegs t [.RCL_STATUS, .RCL_PIPE_STATUS])
    ∧ (Claim.RclReady s a 6 e → ∃ t, exec (.rclDrop a) s = .next t
      ∧ Claim.rclOwned s t a e fun h =>
        if s.idxBusy (qNumber e) = true then t.rcl.queue = s.rcl.queue.erase a.toNat
          ∧ t.rcl.drops = s.rcl.drops ++ [(e, qNumber e)] ∧ s.SameBut t [.regs, .rcl]
        else Claim.RclEnds s t a e 0 ∧ t.mem = s.storedIn s.mem (s.idxAddr (qNumber e)) (Claim.idxOf (setLE h 0xF 1 0))
          ∧ s.SameBut t [.regs, .mem, .nmu, .rcl, .irq] ∧ s.SameRegs t [.RCL_STATUS, .RCL_PIPE_STATUS])
    ∧ (∀ index : BitVec 32, s.Live → s.Calm → s.ckState ≠ 1 → ∃ t, exec (.rclDropResume index) s = .next t
      ∧ match s.rcl.drops.find? (fun d => d.2 == index.toNat) with
        | none => t = s
        | some d =>
          if s.idxBusy index.toNat = true then t = s
          else t.rcl = { s.rcl with drops := s.rcl.drops.erase d } ∧ Claim.RclDone s t d.1 0
            ∧ t.mem = s.storedIn s.mem (s.idxAddr index.toNat) (Claim.idxOf (setLE (s.idx index.toNat) 0xF 1 0))
            ∧ s.SameBut t [.ctrs, .mem, .nmu, .rcl, .irq] ∧ s.SameCounts t [.RCL_QUERY_COUNT])

/-- A merge that has ended (R356, R364): the new nodes, bitmap and header are stored in this order and the index switches; the
command completes once no query from before the switch runs; a record that fails its CRC, or an index found DAMAGED, ends it
NODE_CRC (8). -/
def Claim.RecallMergeEnds : Prop :=
  ∀ (s : State) (index : BitVec 32), s.Live → s.Calm → s.ckState ≠ 1 →
    let n := index.toNat
    let h := s.idx n
    let ends (t : State) (m : RclMerge) (l : List RclMerge) : Prop :=
      t.rcl = { s.rcl with merges := l.erase m } ∧ Claim.RclDone s t (m.entry.drop 64) 0
        ∧ t.count .RCL_MERGE_COUNT = min counterMax (s.count .RCL_MERGE_COUNT + 1)
    ∃ t, exec (.rclMergeDone index) s = .next t
      ∧ match s.rcl.merges.find? (fun m => m.index == n) with
        | none => t = s
        | some m =>
          let area := m.entry.take 64
          if m.switched = true then
            (if m.before = [] then ends t m s.rcl.merges ∧ t.mem = s.mem else t = s)
          else if iState h = 3 then t.rcl = { s.rcl with merges := s.rcl.merges.erase m }
            ∧ Claim.RclDone s t (m.entry.drop 64) 8 ∧ t.mem = s.mem
          else match s.merge h with
            | none => t.rcl = { s.rcl with merges := s.rcl.merges.erase m } ∧ Claim.RclDone s t (m.entry.drop 64) 8
              ∧ t.mem = s.storedIn s.mem (s.idxAddr n) (Claim.idxOf (setLE h 0xF 1 3))
            | some b =>
              let before := (s.rcl.active.filter fun q => q.index == n).map fun q => (q.pipe, q.ctx)
              let m' := { m with switched := true, before := before }
              let l := s.rcl.merges.map fun y => if y = m then m' else y
              t.mem = s.allStoredIn s.mem ((b.graph.filterMap fun p => p.2.map fun nd =>
                    (leAt area 0 8 + p.1 * nodeSize h, nodeBytes h nd))
                  ++ [(leAt area 16 8, s.readMem (iTomb h) (ceilDiv (iNextId h) 8)),
                    (s.idxAddr n, Claim.idxOf (setAll h [(0x20, 8, leAt area 0 8), (0x38, 8, leAt area 16 8),
                      (0x48, 8, leAt area 24 8), (0x54, 4, b.count), (0x50, 4, b.entry), (0x60, 4, 0), (0xF, 1, 1)]))])
                ∧ if before = [] then ends t m' l else t.rcl = { s.rcl with merges := l } ∧ t.irq = s.irq

/-- Recall queries run; indexes merge and are dropped: its parts. -/
def Obligations.RecallQueries : Prop := Claim.RecallQueriesRun ∧ Claim.RecallMergesAndDrops ∧ Claim.RecallMergeEnds

/-! ### Charts and islands -/

/-- Staging (R381): the first chart of a stopped device becomes current at once; a later one that passes every check is staged,
and one that does not is rejected with its reason. -/
def Claim.ChartsAreStaged : Prop :=
  ∀ (s : State) (a : Agent) (e : BitVec 32), s.Live →
    ∃ t, exec (.chartStage a e) s = .next t
      ∧ if a = .host then Claim.hostDenied s t
        else if s.stageReason e.toNat ≠ 0 then
          t.get F.CHART_STATUS_REJECT_REASON = s.stageReason e.toNat ∧ t.chart.staged = s.chart.staged ∧ t.epoch = s.epoch
            ∧ t.count .CHART_REJECT_COUNT = min counterMax (s.count .CHART_REJECT_COUNT + 1)
        else if s.stopped = true ∧ s.flag F.CHART_STATUS_HAVE_CHART = false then
          t.flag F.CHART_STATUS_HAVE_CHART = true ∧ t.epoch = (s.chartOf e.toNat).epoch % 2 ^ 32
            ∧ t.count .CHART_APPLY_COUNT = min counterMax (s.count .CHART_APPLY_COUNT + 1)
        else
          t.chart.staged = some (s.chartOf e.toNat) ∧ t.flag F.CHART_STATUS_STAGED = true ∧ t.epoch = s.epoch
            ∧ t.get F.CHART_STATUS_STAGED_EPOCH = (s.chartOf e.toNat).epoch % 2 ^ 32
            ∧ s.SameBut t [.regs, .chart] ∧ s.SameRegs t [.CHART_STAGE, .CHART_STATUS, .CHART_EFFECTIVE, .CFG_STATUS]

/-- In the LATCH of its sailing the staged chart becomes current and the former one previous; a forming island with its
granules becomes ACTIVE; once grace is over and nothing is open the previous epoch retires (R383, R389, R393). -/
def Claim.StagedChartsBecomeCurrent : Prop :=
  ∀ s : State, s.Live →
    (∃ t, exec .chartApply s = .next t
      ∧ match s.chart.staged with
        | none => t = s
        | some x =>
          if s.phase = 0 ∧ x.effective = s.now then
            t.epoch = x.epoch % 2 ^ 32 ∧ t.get F.CHART_STATUS_PREVIOUS = s.epoch
              ∧ t.flag F.CHART_STATUS_PREV_LIVE = true ∧ t.chart.staged = none ∧ t.flag F.CHART_STATUS_STAGED = false
              ∧ t.chart.since = s.now ∧ t.count .CHART_APPLY_COUNT = min counterMax (s.count .CHART_APPLY_COUNT + 1)
              ∧ (∀ i < 8, t.islandState i =
                let old := (s.islands.find? fun y => y.1 == i).map (·.2)
                let new := x.islands[i]?.bind fun y => if y.granules = 0 then none else some y
                if old = new then s.islandState i else if new.isSome then 1 else 0)
          else t = s)
    ∧ (∀ (i : Fin 8) (powered : BitVec 8), ∃ t, exec (.islandActivate i powered) s = .next t
      ∧ if s.phase = 0 ∧ s.islandState i = 1 ∧ s.get F.CHART_ISLAND_GRANULES i &&& s.heldGranules = 0
          ∧ (s.get F.CHART_ISLAND_ROLE i = 0
            ∨ s.get F.CHART_ISLAND_GRANULES i &&& s.chart.dark &&& (255 - powered.toNat) = 0) then
          t.islandState i = 2 ∧ (∀ j < 8, j ≠ i.val → t.islandState j = s.islandState j)
            ∧ s.SameBut t [.regs, .chart] ∧ s.SameRegs t [.CHART_ISLAND]
        else t = s)
    ∧ (∃ t, exec .epochRetire s = .next t
      ∧ if s.phase = 0 ∧ s.flag F.CHART_STATUS_PREV_LIVE = true ∧ s.leavers = []
          ∧ (List.range 8).all (fun i => s.islandState i ≠ 1 && decide (s.drainCount i = 0)) = true
          ∧ s.chart.since + s.get F.CHART_CFG_GRACE ≤ s.now then
          t.flag F.CHART_STATUS_PREV_LIVE = false ∧ t.epoch = s.epoch
            ∧ t.mct.notices = s.mct.notices ++ [s.get F.CHART_STATUS_PREVIOUS]
            ∧ s.SameBut t [.regs, .chart, .mct] ∧ s.SameRegs t [.CHART_STATUS, .CHART_DRAIN]
        else t = s)

/-- Leaving islands (R384 to R386): a quiet one releases its granules at LATCH; one that is not quiet within LEAVE_LIMIT is
ended by force. -/
def Claim.IslandsLeave : Prop :=
  ∀ (s : State) (i : Fin 8), s.Live →
    (∃ t, exec (.islandQuietRelease i) s = .next t
      ∧ match s.leaving i with
        | none => t = s
        | some x =>
          if s.phase = 0 ∧ s.quiet i x = true then
            t.leaving i = none ∧ t.flag F.CHART_ISLAND_OLD_LEAVING i = false
              ∧ (∀ j < 8, j ≠ i.val → t.leaving j = s.leaving j)
              ∧ s.SameBut t [.regs, .mem, .ls, .free, .chart, .mct] ∧ s.SameRegs t [.CHART_ISLAND]
          else t = s)
    ∧ (∃ t, exec (.leaveTimeout i) s = .next t
      ∧ match s.leaving i with
        | none => t = s
        | some x =>
          if s.chart.since + s.get F.CHART_CFG_LEAVE_LIMIT ≤ s.now ∧ s.quiet i x = false then
            t.leaving i = none ∧ t.flag F.CHART_ISLAND_OLD_LEAVING i = false
              ∧ t.count .CHART_LEAVE_TIMEOUT_COUNT = min counterMax (s.count .CHART_LEAVE_TIMEOUT_COUNT + 1)
          else t = s)

/-- Charts are staged, rejected, and become current; leaving islands release their granules: its parts. -/
def Obligations.ChartsTakeEffect : Prop := Claim.ChartsAreStaged ∧ Claim.StagedChartsBecomeCurrent ∧ Claim.IslandsLeave

/-! ### The crossing transport -/

/-- A sound, authentic packet of a type from a peer of known incarnation, without an acknowledgement, in its turn and within the
credit, with none held behind it (R404, R406, R409, R410, R412). -/
structure Claim.PacketDue (s : State) (src : BitVec 64) (h : BitVec 512) (type_ : Nat) : Prop where
  live : s.Live
  calm : s.Calm
  kind : hdrType h = type_
  sound : hdrBad h = false
  key : s.jobKnown h = true
  peer : s.mct.peers.get (fun _ => none) src.toNat = some (hdrIncarnation h)
  noAck : hdrAckValid h = false
  turn : hdrSeq h = (s.rx src.toNat (hdrVc h)).expected % 2 ^ 32
  credit : (s.rx src.toNat (hdrVc h)).expected < max (s.rx src.toNat (hdrVc h)).limit (s.get F.MCT_VC_INITIAL (hdrVc h))
  alone : (s.rx src.toNat (hdrVc h)).held = []

/-- The packets of a peer with their types (R407): type, peer, header, payload, whether the ECN field is CE, whether the packet
passed its check, and when it arrives. -/
def Claim.packetTable : Instr → Option (Nat × BitVec 64 × BitVec 512 × List (BitVec 8) × Bool × Bool × BitVec 40)
  | .mctAck src h p ce sec at_ => some (0, src, h, p, ce, sec, at_)
  | .mctRequest src h p ce sec at_ => some (1, src, h, p, ce, sec, at_)
  | .mctResponse src h p ce sec at_ => some (2, src, h, p, ce, sec, at_)
  | .tileHalf src h p ce sec at_ => some (3, src, h, p, ce, sec, at_)
  | .peerRead src h p ce sec at_ => some (4, src, h, p, ce, sec, at_)
  | .specCommit src h p ce sec at_ => some (5, src, h, p, ce, sec, at_)
  | .specCancel src h p ce sec at_ => some (6, src, h, p, ce, sec, at_)
  | .cut src h p ce sec at_ => some (7, src, h, p, ce, sec, at_)
  | .creditReq src h p ce sec at_ => some (9, src, h, p, ce, sec, at_)
  | .crossBegin src h p ce sec at_ => some (0xA, src, h, p, ce, sec, at_)
  | .crossReady src h p ce sec at_ => some (0xB, src, h, p, ce, sec, at_)
  | .crossHeld src h p ce sec at_ => some (0xC, src, h, p, ce, sec, at_)
  | .crossCommit src h p ce sec at_ => some (0xD, src, h, p, ce, sec, at_)
  | .crossAbort src h p ce sec at_ => some (0xE, src, h, p, ce, sec, at_)
  | .crossAsk src h p ce sec at_ => some (0xF, src, h, p, ce, sec, at_)
  | .crossTell src h p ce sec at_ => some (0x10, src, h, p, ce, sec, at_)
  | _ => none

/-- Every packet of a peer is taken (R404, R406, R409, R410, R413): one with a reserved bit, or one that fails its check or names a
key that is not loaded, is counted and dropped; of a known incarnation and without an acknowledgement, a duplicate is dropped with
an acknowledgement due, one beyond the credit is counted and dropped, one ahead of its turn is held, and one in its turn moves the
turn on. -/
def Claim.PacketsAreTaken : Prop :=
  ∀ (s : State) (c : Instr) (type_ : Nat) (src : BitVec 64) (h : BitVec 512) (p : List (BitVec 8)) (ce sec : Bool) (at_ : BitVec 40),
    Claim.packetTable c = some (type_, src, h, p, ce, sec, at_) → s.Live →
    ∃ t, exec c s = .next t
      ∧ if hdrType h ≠ type_ then t = s
        else if hdrBad h = true then s.SameBut t [.ctrs]
          ∧ t.count .MCT_BAD_HEADER_COUNT = min counterMax (s.count .MCT_BAD_HEADER_COUNT + 1)
        else if sec = false ∨ s.jobKnown h = false then s.SameBut t [.ctrs]
          ∧ t.count .MCT_AUTH_FAIL_COUNT = min counterMax (s.count .MCT_AUTH_FAIL_COUNT + 1)
        else type_ ≠ 0 → ce = false → hdrAckValid h = false →
          s.mct.peers.get (fun _ => none) src.toNat = some (hdrIncarnation h) →
          let r := s.rx src.toNat (hdrVc h)
          let d := (hdrSeq h + 2 ^ 32 - r.expected % 2 ^ 32) % 2 ^ 32
          if 2 ^ 31 ≤ d then t.rx src.toNat (hdrVc h) = { r with due := true } ∧ s.SameBut t [.mct]
          else if max r.limit (s.get F.MCT_VC_INITIAL (hdrVc h)) ≤ r.expected + d ∨ 256 < d then s.SameBut t [.ctrs]
            ∧ t.count .MCT_DROP_WINDOW_COUNT = min counterMax (s.count .MCT_DROP_WINDOW_COUNT + 1)
          else if d ≠ 0 then s.SameBut t [.mct]
            ∧ t.rx src.toNat (hdrVc h) = { r with due := true, held := r.held.put (fun _ => none) (r.expected + d) (some ⟨h, p⟩) }
          else r.held = [] → (t.rx src.toNat (hdrVc h)).expected = r.expected + 1

/-- Data packets (R387, R388, R407, R408, R415): a delivered REQUEST opens its operation, and one of another epoch or island is
forwarded or answered; a RESPONSE closes its operation, or leaves it open to be tried again; the second half of a tile puts it
into the receive window; a PEER_READ sends its tile in two halves. -/
def Claim.DataPackets : Prop :=
  ∀ (s : State) (src : BitVec 64) (h : BitVec 512) (p : List (BitVec 8)) (at_ : BitVec 40),
    (Claim.PacketDue s src h 1 → ∃ t, exec (.mctRequest src h p false true at_) s = .next t
      ∧ match s.route h with
        | .deliver =>
          if hdrSpecTag h = 0 then
            t.mct.ops = s.mct.ops ++ [⟨hdrOp h, originOf src.toNat h, hdrVc h, hdrEpoch h, hdrIsland h, 0, false⟩]
          else t.mct.staged = s.mct.staged ++ [⟨src.toNat, hdrSpecTag h, ⟨h, p⟩⟩] ∧ t.mct.ops = s.mct.ops
            ∧ s.SameBut t [.mct, .pwr]
        | .forward _ => t.count .CHART_FORWARD_COUNT = min counterMax (s.count .CHART_FORWARD_COUNT + 1)
        | .answer st _ =>
          t.count .CHART_NOT_READY_COUNT = min counterMax (s.count .CHART_NOT_READY_COUNT + if st = 1 then 1 else 0)
            ∧ t.count .CHART_REDIRECT_COUNT = min counterMax (s.count .CHART_REDIRECT_COUNT + if st = 3 then 1 else 0)
            ∧ t.count .CHART_STALE_COUNT = min counterMax (s.count .CHART_STALE_COUNT + if st = 4 then 1 else 0)
            ∧ t.count .CHART_AHEAD_COUNT = min counterMax (s.count .CHART_AHEAD_COUNT + if st = 5 then 1 else 0))
    ∧ (Claim.PacketDue s src h 2 → ∃ t, exec (.mctResponse src h p false true at_) s = .next t
      ∧ match s.tier.xfers.find? (fun x => x.op == hdrOp h && hdrOrigin h == s.selfAddr && s.xferPeer x == some src.toNat) with
        | some x =>
          (leAt p 0 1 = 0 → t.tier = s.tier)
            ∧ (leAt p 0 1 = 1 ∨ leAt p 0 1 = 5 → t.xfer x.ferry x.id = some { x with sent := [] })
        | none =>
          match s.mct.ops.find? (fun o => o.id == hdrOp h && o.started && (o.peer == src.toNat || hdrOrigin h == s.selfAddr)) with
          | none => True
          | some o =>
            if leAt p 0 1 = 1 ∨ leAt p 0 1 = 5 then t.mct.ops = s.mct.ops
            else t.mct.ops = s.mct.ops.erase o
              ∧ (2 ≤ leAt p 0 1 ∧ leAt p 0 1 ≤ 4 → ∃ r ∈ t.irq.waiting, r.source = 0x0B ∧ r.tag = o.tag)
              ∧ (leAt p 0 1 = 0 → hdrSpecTag h ≠ 0 → t.mct.staged = s.mct.staged ++ [⟨src.toNat, hdrSpecTag h, ⟨h, p⟩⟩]))
    ∧ (Claim.PacketDue s src h 3 → ∃ t, exec (.tileHalf src h p false true at_) s = .next t
      ∧ (s.route h = .deliver →
        let tile := leAt p 0 4
        let half := leAt p 4 1 % 2
        let x : MctHalf := ⟨src.toNat, hdrOp h, tile, half, padTo 8192 (p.drop 16), if half = 1 then padTo 32 (p.drop 8208) else []⟩
        let same (y : MctHalf) : Bool := y.peer == src.toNat && y.op == hdrOp h && y.tile == tile
        match s.mct.halves.find? (fun y => same y && y.half != half) with
        | none => t.mct.halves = s.mct.halves.filter (fun y => !(same y && y.half == half)) ++ [x] ∧ s.SameBut t [.mct, .pwr]
        | some y =>
          let bytes := if half = 1 then y.bytes ++ x.bytes else x.bytes ++ y.bytes
          t.mct.halves = s.mct.halves.filter (fun y => !same y)
            ∧ if manifestOk kindTile (if half = 1 then x.manifest else y.manifest) bytes = false then t.mem = s.mem
                ∧ t.count .ERR_MANIFEST_FAIL_COUNT = min counterMax (s.count .ERR_MANIFEST_FAIL_COUNT + 1)
              else if hdrOrigin h = s.selfAddr then t.mem = s.mem ∧ t.mct.arrived = s.mct.arrived
                ++ (if s.tier.xfers.any (fun z => z.op == hdrOp h) then [⟨hdrOp h, tile, bytes⟩] else [])
              else if hdrVc h = 2 ∨ hdrVc h = 3 ∨ s.get F.MCT_WIN_SIZE_BYTES < (tile + 1) * 16384 then t.mem = s.mem
              else t.mem = s.storedIn s.mem (s.get F.MCT_WIN_BASE_ADDR + tile * 16384) bytes ∧ s.SameBut t [.mem, .nmu, .mct, .pwr]))
    ∧ (Claim.PacketDue s src h 4 → ∃ t, exec (.peerRead src h p false true at_) s = .next t
      ∧ (s.route h = .deliver → leAt p 0 8 % 16384 = 0 → leAt p 8 4 = 1 → leAt p 0 8 + 16384 ≤ s.get F.MCT_WIN_SIZE_BYTES →
        let d := originOf src.toNat h
        s.charted d = true → s.reachable d = true → s.ckState ≠ 1 → (s.tx d 1).waiting = [] →
        (s.tx d 1).next + 1 < (s.tx d 1).ack + (s.tx d 1).credit.getD (s.get F.MCT_VC_INITIAL 1) →
        (s.tx d 1).next + 1 - (s.tx d 1).ack < (s.tx d 1).window →
        ∃ x y, (t.tx d 1).sent = (s.tx d 1).sent ++ [x, y]
          ∧ (t.tx d 1).next = (s.tx d 1).next + 2 ∧ hdrType x.pkt.hdr = 3 ∧ hdrType y.pkt.hdr = 3
          ∧ (x.pkt.payload.drop 16) ++ ((y.pkt.payload.drop 16).take 8192)
            = s.readMem (s.get F.MCT_WIN_BASE_ADDR + leAt p 0 8) 16384))

/-- Requests, responses and tiles of the crossing transport: its parts. -/
def Obligations.TransportData : Prop := Claim.PacketsAreTaken ∧ Claim.DataPackets

/-- Control packets (R271, R409, R413, R414, R417): an ACK acknowledges what was sent; a tag's staged results are delivered or
discarded; a cut is noted; a credit request is answered with the credit there is; a bad packet is counted and dropped. -/
def Obligations.TransportControl : Prop :=
  ∀ (s : State) (src : BitVec 64) (h : BitVec 512) (p : List (BitVec 8)) (at_ : BitVec 40),
    (s.Live → s.Calm → hdrType h = 0 → hdrBad h = false → s.jobKnown h = true →
      s.mct.peers.get (fun _ => none) src.toNat = some (hdrIncarnation h) →
      let x := s.tx src.toNat (hdrVc h)
      let k := (hdrAck h + 2 ^ 32 - x.ack % 2 ^ 32) % 2 ^ 32
      ∃ t, exec (.mctAck src h p false true at_) s = .next t
        ∧ if hdrAckValid h = false ∨ x.next - x.ack < k then t = s
          else (t.tx src.toNat (hdrVc h)).ack = x.ack + k ∧ (t.tx src.toNat (hdrVc h)).credit = some (hdrCredit h)
            ∧ (hdrSack h = 0 → x.waiting = [] →
              (t.tx src.toNat (hdrVc h)).sent = x.sent.filter (fun y => decide (x.ack + k ≤ y.seq))
                ∧ (s.tier.xfers.all (fun y => y.sent.isEmpty) = true → s.SameBut t [.mct])))
    ∧ (Claim.PacketDue s src h 5 → ∃ t, exec (.specCommit src h p false true at_) s = .next t
      ∧ let mine (x : MctStaged) : Bool := x.peer == src.toNat && x.tag == leAt p 0 2
        let xs := (s.mct.staged.filter mine).take (leAt p 2 2)
        t.mct.staged = s.mct.staged.filter (fun x => !mine x)
        ∧ t.mct.ops = s.mct.ops ++ (xs.filter fun x => hdrType x.pkt.hdr == 1).map (fun x => ⟨hdrOp x.pkt.hdr,
            originOf src.toNat x.pkt.hdr, hdrVc x.pkt.hdr, hdrEpoch x.pkt.hdr, hdrIsland x.pkt.hdr, 0, false⟩))
    ∧ (Claim.PacketDue s src h 6 → ∃ t, exec (.specCancel src h p false true at_) s = .next t
      ∧ t.mct.staged = s.mct.staged.filter (fun x => !(x.peer == src.toNat && x.tag == leAt p 0 2)) ∧ s.SameBut t [.mct])
    ∧ (Claim.PacketDue s src h 7 → ∃ t, exec (.cut src h p false true at_) s = .next t
      ∧ t.mct.cuts = s.mct.cuts ++ [(leAt p 0 8 % 2 ^ 48, src.toNat)] ∧ s.SameBut t [.mct])
    ∧ (Claim.PacketDue s src h 9 → ∃ t, exec (.creditReq src h p false true at_) s = .next t
      ∧ ∀ v : Nat, v = leAt p 0 1 % 8 → v ≠ hdrVc h → (t.rx src.toNat v).due = false
        ∧ (t.rx src.toNat v).limit = max (s.rx src.toNat v).limit ((s.rx src.toNat v).expected + s.freeCredit v))
    ∧ (∀ secure : Bool, s.Live → ∃ t, exec (.mctBadPacket h secure) s = .next t ∧ s.SameBut t [.ctrs]
      ∧ t.count .MCT_BAD_HEADER_COUNT = min counterMax (s.count .MCT_BAD_HEADER_COUNT
        + if hdrBad h = true ∨ 0x10 < hdrType h then 1 else 0)
      ∧ t.count .MCT_AUTH_FAIL_COUNT = min counterMax (s.count .MCT_AUTH_FAIL_COUNT
        + if hdrBad h = false ∧ hdrType h ≤ 0x10 ∧ (secure = false ∨ s.jobKnown h = false) then 1 else 0))

/-- A crossing of this device has come to a step in this sailing (R420). -/
def Claim.CrossingAt (s t : State) (c : Crossing) (step : Nat) : Prop :=
  t.crossing c.session = some { c with step := step, since := s.now }

/-- One aborted crossing is counted; when its peer cannot be reached, the end of its operation may abort others. -/
def Claim.abortCounted (s t : State) (peer : Nat) : Prop :=
  s.charted peer = true → s.reachable peer = true →
    t.count .MCT_CROSS_ABORT_COUNT = min counterMax (s.count .MCT_CROSS_ABORT_COUNT + 1)

/-- The messages of a crossing (R420, R421): an offer waits; the source goes on at CROSS_READY, or aborts when it is refused, and
hands over at CROSS_HELD with the digest it gathered, or aborts with another; the destination holds the session at CROSS_COMMIT;
either side learns of an end. A message that the crossing is not waiting for changes nothing of it. -/
def Obligations.CrossingMessages : Prop :=
  ∀ (s : State) (src : BitVec 64) (h : BitVec 512) (p : List (BitVec 8)) (at_ : BitVec 40),
    let aborts (t : State) (c : Crossing) : Prop := Claim.CrossingAt s t c 6 ∧ Claim.abortCounted s t c.peer
    let found (body : Crossing → Prop) : Prop := match s.crossingOf src.toNat h with
      | some c => s.crossing c.session = some c → body c
      | none => True
    (Claim.PacketDue s src h 0xA → ∃ t, exec (.crossBegin src h p false true at_) s = .next t
      ∧ t.mct.offers = s.mct.offers ++ (if s.mct.offers.any (fun x => x.session == rId (cbRecord p)) then [] else [{ session := rId (cbRecord p), op := hdrOp h, peer := src.toNat, source := false, step := 2, since := s.now, digest := cbDigest p, begin_ := p, berth := 0, epoch := hdrEpoch h }])
      ∧ (s.mct.crossings = [] → s.SameBut t [.mct]))
    ∧ (Claim.PacketDue s src h 0xB → ∃ t, exec (.crossReady src h p false true at_) s = .next t
      ∧ found fun c =>
        if c.source = false ∨ c.step ≠ 2 then s.SameBut t [.mct] ∧ t.mct.crossings = s.mct.crossings
        else if leAt p 0 1 ≠ 0 then aborts t c
        else (s.findSession c.session).isSome → s.SameBut t [.mct, .out]
          ∧ t.crossing c.session = some { c with step := 3, since := s.now, berth := leAt p 1 4 })
    ∧ (Claim.PacketDue s src h 0xC → ∃ t, exec (.crossHeld src h p false true at_) s = .next t
      ∧ found fun c =>
        if c.source = false ∨ c.step ≠ 3 then s.SameBut t [.mct] ∧ t.mct.crossings = s.mct.crossings
        else if padTo 48 p ≠ padTo 48 c.digest then aborts t c
        else Claim.CrossingAt s t c 4 ∧ t.mct.outcomes = s.mct.outcomes ++ [(c.session, c.op, true, s.now)]
          ∧ t.count .MCT_CROSS_COUNT = min counterMax (s.count .MCT_CROSS_COUNT + 1))
    ∧ (Claim.PacketDue s src h 0xD → ∃ t, exec (.crossCommit src h p false true at_) s = .next t ∧ s.SameBut t [.mct]
      ∧ found fun c => if c.source = true ∨ c.step ≠ 4 then t.mct.crossings = s.mct.crossings else Claim.CrossingAt s t c 5)
    ∧ (Claim.PacketDue s src h 0xE → ∃ t, exec (.crossAbort src h p false true at_) s = .next t
      ∧ t.mct.offers = s.mct.offers.filter (fun c => !(c.peer == src.toNat && c.op == hdrOp h))
      ∧ found fun c => if 5 ≤ c.step ∨ (c.source = true ∧ c.step = 4) then t.mct.crossings = s.mct.crossings else aborts t c)
    ∧ (Claim.PacketDue s src h 0x10 → ∃ t, exec (.crossTell src h p false true at_) s = .next t
      ∧ found fun c =>
        if leAt p 0 1 = 0 then Claim.CrossingAt s t c 5 ∧ s.SameBut t [.mct]
        else if leAt p 0 1 = 1 then
          (if 5 ≤ c.step ∨ (c.source = true ∧ c.step = 4) then t.mct.crossings = s.mct.crossings else aborts t c)
        else True)
    ∧ (Claim.PacketDue s src h 0xF → ∃ t, exec (.crossAsk src h p false true at_) s = .next t
      ∧ (let id := leAt p 0 8
        let op := leAt p 8 8
        let sends (o : Nat) : Prop := s.charted src.toNat = true → s.reachable src.toNat = true → (s.tx src.toNat 4).waiting = [] →
          s.maySend src.toNat 4 = true → ∃ x, (t.tx src.toNat 4).sent = (s.tx src.toNat 4).sent ++ [x]
            ∧ hdrType x.pkt.hdr = 0x10 ∧ x.pkt.payload = leBytes 1 o
        if s.mct.outcomes.any (fun o => o.1 == id && o.2.1 == op && o.2.2.1) = true then sends 0
        else match s.mct.crossings.find? (fun c => c.session == id && c.op == op) with
          | some c => if c.source = true then Claim.abortCounted s t c.peer else sends 2
          | none => sends (if (s.findSession id).isSome then 0 else 1)))

/-- Timers and notices (R389, R409, R411, R420 to R422): each takes effect when it is due, and otherwise changes nothing. -/
def Obligations.TransportTimers : Prop :=
  ∀ (s : State) (at_ : BitVec 40), s.Live →
    (∃ t, exec .retire s = .next t ∧ match s.mct.notices with
      | [] => t = s
      | e :: es => t = { s with mct := { s.mct with notices := es }, out := s.out ++ [.retireNotice e] })
    ∧ (∀ (peer : BitVec 64) (vc : Fin 5) (seq : BitVec 32), ∃ t, exec (.mctRto peer vc seq at_) s = .next t
      ∧ match (s.tx peer.toNat vc).sent.find? (fun x => x.seq % 2 ^ 32 == seq.toNat) with
        | none => t = s
        | some x =>
          if x.tries < s.get F.MCT_RETX_RETRIES then (t.tx peer.toNat vc).sent
              = (s.tx peer.toNat vc).sent.map (fun y => if y.seq = x.seq then { y with tries := y.tries + 1 } else y)
            ∧ t.count .MCT_RETX_COUNT = min counterMax (s.count .MCT_RETX_COUNT + 1)
            ∧ t.count .MCT_RTO_COUNT = min counterMax (s.count .MCT_RTO_COUNT + 1)
          else t.tx peer.toNat vc = {} ∧ t.opsWith peer.toNat vc = []
            ∧ t.count .MCT_PEER_LOST_COUNT = min counterMax (s.count .MCT_PEER_LOST_COUNT + 1))
    ∧ (∀ (peer : BitVec 64) (vc : Fin 5), ∃ t, exec (.mctAckTimer peer vc at_) s = .next t
      ∧ if (s.rx peer.toNat vc).due = false then t = s
        else (t.rx peer.toNat vc).due = false ∧ (t.rx peer.toNat vc).expected = (s.rx peer.toNat vc).expected)
    ∧ (∀ session : BitVec 64, ∃ t, exec (.crossWaitExpire session at_) s = .next t
      ∧ match s.crossing session.toNat with
        | none => t = s
        | some c =>
          if c.source = true ∧ (c.step = 2 ∨ c.step = 3) ∧ c.since + s.get F.MCT_CROSS_WAIT < s.now then Claim.CrossingAt s t c 6
            ∧ Claim.abortCounted s t c.peer
          else t = s)
    ∧ (∃ t, exec (.crossGrant at_) s = .next t ∧ (s.phase ≠ 0 → t = s)
      ∧ ∀ w : SdirWait, s.phase = 0 → s.sdir.waits = [w] → dOp w.entry.toNat = 0x0F →
        let e := w.entry.toNat
        match s.mct.offers.find? (fun c => c.session == dSession e) with
        | none => t.sdir.waits = [] ∧ Claim.SdirTold t (dTag e) 7
        | some c =>
          if (s.findSession (dSession e)).isSome then t.sdir.waits = [] ∧ Claim.CrossedIn s t e c 2
          else match Claim.crossInStatus s e c with
            | some st => t.sdir.waits = [] ∧ Claim.CrossedIn s t e c st
            | none => t = s)
    ∧ (∀ session : BitVec 64, exec (.crossOutcomeExpire session) s = .next { s with mct := { s.mct with outcomes := s.mct.outcomes.filter fun o => !(o.1 == session.toNat
        && decide (s.get F.MCT_CROSS_KEEP_S * 1000000 ≤ (s.now - o.2.2.2) * s.get F.SAIL_PERIOD_PERIOD_US)) } })

/-! ### The flash store -/

/-- The flash unit has nothing of its own to go on with: no page waits for a stripe, no LUN is being rebuilt, no commit record waits
for its drain. -/
structure Claim.FlashAtRest (s : State) : Prop where
  live : s.Live
  staging : s.flash.staging = []
  rebuilding : s.flash.rebuilding = []
  commit : s.ckpt.commitWaits = []

/-- How LUN operations end (R209, R211, R215, R220 to R223, R227). An erase that succeeds wears its block; a page is programmed, and
a stripe's pages enter the map when its XOR page is; programs and erases that fail take the block out of service. -/
def Claim.FlashOperationsEnd : Prop :=
  ∀ (s : State) (lun : Fin 512) (ok : Bool) (step : Fin 18) (corrected : BitVec 16), Claim.FlashAtRest s →
    let transient (t : State) (o : FlashOp) : Prop :=
      t.count .FLASH_DIE_TRANSIENT_COUNT = min counterMax (s.count .FLASH_DIE_TRANSIENT_COUNT + if 0 < o.retries then 1 else 0)
    ∃ t, exec (.flashOpComplete lun ok step corrected) s = .next t
      ∧ match s.lunBusy lun with
        | none => t = s
        | some o =>
          let b := o.page / 8192
          o.lun = lun.val →
          match o.kind, s.page o.page with
          | .erase, _ =>
            if ok = true then
              t.block b = { s.block b with reads := 0, maxBits := 0, due := false, releaseCk := 0 }
                ∧ t.blockPe b = min (2 ^ 24 - 1) (s.blockPe b + 1) ∧ t.blockLevel b = 0 ∧ t.blockHours b = 0
                ∧ t.nand.tables2.get entryDefault b = t.nand.tables.get entryDefault b ∧ transient t o
                ∧ (s.flash.ops = [] → t.lunBusy lun = none ∧ s.SameBut t [.regs, .ctrs, .out, .nand, .flash]
                  ∧ s.SameRegs t [.FLASH_STATUS] ∧ s.SameCounts t [.FLASH_DIE_TRANSIENT_COUNT])
            else t.blockState b = 2 ∧ t.nand.tables2.get entryDefault b = t.nand.tables.get entryDefault b
              ∧ t.count .FLASH_ERASE_FAIL_COUNT = min counterMax (s.count .FLASH_ERASE_FAIL_COUNT + 1)
          | .program, some x =>
            if ok = true then
              t.page o.page = some { x with done := true } ∧ transient t o
                ∧ (o.page % 8192 = 0 → t.blockHours b = s.taiHours % 2 ^ 32)
                ∧ (s.Calm → x.area = 4 →
                  let new := (s.stripePages x.stripe).filterMap fun e =>
                    e.2.lpn.bind fun l => if s.flash.moving.get (fun _ => 0) l = x.stripe + 1 then some (l, e.1) else none
                  t.mem = s.allStoredIn s.mem (new.map fun e => (s.mapAddr e.1, leBytes 8 (mapWord e.2)))
                    ∧ ∀ e ∈ new, t.flash.moving.get (fun _ => 0) e.1 = 0 ∧ t.flash.staged.get (fun _ => []) e.1 = [])
                ∧ s.SameBut t [.regs, .ctrs, .out, .mem, .nmu, .nand, .flash]
                ∧ s.SameRegs t [.FLASH_STATUS, .FLASH_LUN_STATUS]
                ∧ s.SameCounts t [.FLASH_DIE_TRANSIENT_COUNT, .FLASH_REFRESH_COUNT]
            else t.blockState b = 2
              ∧ t.count .FLASH_PROGRAM_FAIL_COUNT = min counterMax (s.count .FLASH_PROGRAM_FAIL_COUNT + 1)
          | _, _ => True

/-- How a LUN's reads end (R209, R220, R221, R227): a read counts for its block; one that decodes has its page read again, with its
codewords' CRCs; one that does not has the other pages of its stripe read, or, where they cannot make it, its page is recorded as
uncorrectable. -/
def Claim.FlashReadsEnd : Prop :=
  ∀ (s : State) (lun : Fin 512) (ok : Bool) (step : Fin 18) (corrected : BitVec 16) (o : FlashOp) (x : FlashPage),
    Claim.FlashAtRest s → s.lunBusy lun = some o → o.kind = .read → s.page o.page = some x →
    let b := o.page / 8192
    ∃ t, exec (.flashOpComplete lun ok step corrected) s = .next t
      ∧ (step.val ≤ s.flash.profile.levels + 2 →
        (t.block b).reads = (s.block b).reads + 1 ∧ (t.block b).maxBits = max (s.block b).maxBits corrected.toNat)
      ∧ (step.val ≤ s.flash.profile.levels + 2 → o.target = none → o.client = .ferry ∨ o.client = .patrol ∨ o.client = .catchup →
        if ok = true ∧ step.val ≤ s.flash.profile.levels + 1 ∧ pageOk x.bytes = true then
          ∀ l, x.lpn = some l → t.flash.pageFault.get (fun _ => 0) l
            = if s.flash.pageFault.get (fun _ => 0) l = 1 then 0 else s.flash.pageFault.get (fun _ => 0) l
        else if x.area = 1 ∨ s.stripeDone x.stripe = false then
          t.count .FLASH_UNCORRECTABLE_COUNT = min counterMax (s.count .FLASH_UNCORRECTABLE_COUNT + 1)
            ∧ ∀ l, x.lpn = some l → s.mapped l = some o.page → s.flash.staged.get (fun _ => []) l = [] →
              t.flash.pageFault.get (fun _ => 0) l = 1
        else ((s.stripePages x.stripe).filter fun e => e.1 ≠ o.page) ≠ [] → t.flash.recon = s.flash.recon ++ [o]
          ∧ (s.flash.ops = [] → t.allOps.any (fun r => r.target == some o.page) = true))

/-- An operation past its time is a die event (R208, R224, R225): the LUN is reset and the operation runs again, or, on a second
event in the window or after the retries, the LUN is permanently faulted and its rebuild awaits. -/
def Claim.FlashDieEvents : Prop :=
  ∀ (s : State) (lun : Fin 512), s.Live → ∃ t, exec (.flashBusyTimeout lun) s = .next t
    ∧ match s.lunBusy lun with
      | none => t = s
      | some o =>
        o.lun = lun.val → (s.err.domains.get domDefault (domKey 2 lun)).depth = 0 → s.retired 2 lun = false →
        (o.retries = 0 → t.flash.events = s.flash.events ++ [(lun.val, s.now)])
          ∧ if (o.retries = 0 ∧ s.dieRecurs lun = true) ∨ (o.retries ≠ 0 ∧ s.get F.FLASH_DIE_RULE_RETRIES ≤ o.retries) then
            t.lunState lun = 2 ∧ lun.val ∈ t.flash.rebuilding ∧ lun.val ∈ t.flash.dead ∧ t.retired 2 lun = true
          else t.lunBusy lun = some { o with retries := o.retries + 1 } ∧ .onfi lun .resetLun ∈ t.out

/-- What the flash unit does on its own (R212, R217, R225, R227, R229): it rebuilds a faulted LUN, collects the block with the fewest
valid pages, patrols, keeps the last-power time, and reads every programmed page after a long time without power. -/
def Claim.FlashHousekeeping : Prop :=
  ∀ s : State, s.Live →
    (∃ t, exec .rebuildStart s = .next t
      ∧ match s.flash.rebuilding with
        | [] => t = s
        | n :: ns =>
          if s.flash.started = true then t = s
          else if s.stillOn n ≠ [] then t.flash.started = true ∧ t.flash.rebuilding = n :: ns ∧ s.SameBut t [.out, .flash]
          else n < 512 → let left := (s.members (s.groupOf n)).filter (· ≠ n)
            t.lunState n = 3 ∧ t.flash.started = false ∧ t.flash.rebuilding = ns ++ (if left.length < 4 then left else []))
    ∧ (∃ t, exec .gcStart s = .next t
      ∧ if s.flash.collecting.isSome = true ∨ s.get F.FLASH_GC_START ≤ s.freePct then t = s
        else match s.gcBlock with
          | none => t = s
          | some k => t.flash.collecting = (if s.validIn k = [] then none else some k)
            ∧ (s.validIn k = [] → (t.block k).use = 3)
            ∧ s.SameBut t [.regs, .out, .nand, .flash] ∧ s.SameRegs t [.FLASH_STATUS, .FLASH_LUN_STATUS])
    ∧ (∀ (lun : Fin 512) (plane : Fin 4) (block : BitVec 16) (page : Fin 8192),
      let p := pageKey (blockKey lun plane block.toNat) page
      let o : FlashOp := ⟨s.flash.nextOp, lun, .read, .patrol, p, 0, none⟩
      ∃ t, exec (.patrolRead lun plane block page) s = .next t
        ∧ if (match s.page p with | some x => x.done | none => false) = false ∨ s.lunDead lun = true then t = s
          else if (s.lunBusy lun).isSome then
            t = { s with flash := { s.flash with ops := s.flash.ops ++ [o], nextOp := s.flash.nextOp + 1 } }
          else s.SameBut t [.out, .flash] ∧ (s.flash.ops = [] → t.lunBusy lun = some o ∧ t.flash.ops = []
            ∧ t.out = s.out ++ [.onfi lun .read]))
    ∧ (∃ t, exec .lastPowerWrite s = .next t ∧ s.SameBut t [.nand] ∧ t.nand.lastPower = s.taiSeconds
      ∧ t.nand.profileDays = if s.get F.CFG_STATUS_STAGE = 9 then
          s.nand.profileDays.put (fun _ => 0) (s.get F.CFG_AP_STATUS_ACTIVE) (s.taiSeconds / 86400) else s.nand.profileDays)
    ∧ (∃ t, exec .catchupPass s = .next t
      ∧ if s.flag F.FLASH_STATUS_CATCHUP = true ∨ s.taiSeconds ≤ s.nand.lastPower + 86400 then t = s
        else s.SameBut t [.regs, .out, .flash] ∧ s.SameRegs t [.FLASH_STATUS]
          ∧ (∀ (p : Nat) (x : FlashPage), s.flash.ops = [] → (p, some x) ∈ s.nand.pages → x.done = true →
            s.lunDead (pageLun p) = false → t.flag F.FLASH_STATUS_CATCHUP = true))

/-- LUN operations end, and what the flash store does on its own: its parts. -/
def Obligations.FlashStore : Prop := Claim.FlashOperationsEnd ∧ Claim.FlashReadsEnd ∧ Claim.FlashDieEvents ∧ Claim.FlashHousekeeping

/-! ### Fabric ports and egress -/

/-- At a place in the current sailing, only one class of a port holds frames, and nothing keeps its head back (R435, R437 to
R439, R441). -/
structure Claim.OneReady (s : State) (p k at_ : Nat) (f : EgrFrame) (fs : List EgrFrame) : Prop where
  live : s.Live
  up : s.portUp p = true
  frames : (s.queue (queueOf p k)).frames = f :: fs
  others : ∀ j < 8, j ≠ k → (s.queue (queueOf p j)).frames = []
  open_ : s.gateOpen p k at_ = true
  fits : s.fits p k f.length at_ = true
  long : s.gated p = true → ((classWindows k (s.gates p)).any fun w => decide (s.wireTime p f.length ≤ w)) = true
  shaped : s.shaped (queueOf p k) (s.absTime at_) = true

/-- Fabric ports (R398 to R400, R542): a lane event makes the port train again, or retires the lane; a port that has trained
goes UP at its width; dropped FEC frames are counted. -/
def Claim.FabricPorts : Prop :=
  ∀ s : State, s.Live →
    (∀ (lane : Fin 32) (lost : Bool) (frames : BitVec 32) (failed : Fin 16),
      ∃ t, exec (.fabLaneEvent lane lost frames failed) s = .next t
        ∧ if (lost = false ∧ frames.toNat ≤ 16) ∨ s.flag F.FAB_GROUP_ENABLE (laneGroup lane) = false ∨ s.retired 3 lane = true then
            t = s
          else (s.err.domains.get domDefault (domKey 3 lane)).depth = 0 →
            if s.recurs 1 3 lane 0 = true ∨ s.get F.ERR_RULE_RETRIES 1 ≤ failed.val then
              t.retired 3 lane = true ∧ t.laneRetired lane = true
                ∧ t.count .ERR_RETIRE_COUNT = min counterMax (s.count .ERR_RETIRE_COUNT + 1)
            else t.get F.FAB_PORT_STATUS_STATE (s.portOf lane) = psTraining ∧ t.retired 3 lane = false
              ∧ t.err.notes = s.err.notes ++ [⟨3, lane, 0, s.now⟩])
    ∧ (∀ (p : Fin 32) (at_ : BitVec 40), ∃ t, exec (.portTrainDone p at_) s = .next t
      ∧ if s.beginsPort p = true ∧ s.get F.FAB_PORT_STATUS_STATE p = psTraining ∧ 0 < (s.portLanes p).2 then
          t.portUp p = true ∧ t.get F.FAB_PORT_STATUS_LANES p = (s.portLanes p).2
        else t = s)
    ∧ (∃ t, exec .fecFrameDrop s = .next t ∧ s.SameBut t [.ctrs] ∧ s.SameCounts t [.FAB_FEC_UNCORR_COUNT]
      ∧ t.count .FAB_FEC_UNCORR_COUNT = min counterMax (s.count .FAB_FEC_UNCORR_COUNT + 1))

/-- A message of session firmware (R387, R388, R403, R405, R407, R413, R416): a REQUEST (kind 0) opens its operation, a RESPONSE
(kind 1) closes the one it answers, SPEC_COMMIT and SPEC_CANCEL (kinds 2 and 3) go behind the drafts they resolve; with room on its
channel the message goes out at once, and a request to a peer that cannot be reached completes with its TAG. -/
def Claim.FirmwareMessages : Prop :=
  ∀ (s : State) (peer : BitVec 64) (kind : Fin 4) (op : BitVec 64) (epoch : BitVec 32) (island role : Fin 8) (assign specTag : BitVec 16)
    (tag : BitVec 32) (payload : List (BitVec 8)) (at_ : BitVec 40), s.Live →
    let o : MctOp := ⟨op.toNat, peer.toNat, 0, epoch.toNat, island, tag.toNat, true⟩
    let vc := if kind = 1 then 1 else 0
    ∃ t, exec (.egressEnqueue (.message peer kind op epoch island role assign specTag tag payload) at_) s = .next t
      ∧ if s.charted peer.toNat = true ∧ s.reachable peer.toNat = true then
          t.mct.ops = (if kind = 0 then s.mct.ops ++ [o]
              else if kind = 1 then s.mct.ops.filter (fun o => !(o.id == op.toNat && !o.started)) else s.mct.ops)
            ∧ (s.ckState ≠ 1 → (s.tx peer.toNat vc).waiting = [] → s.maySend peer.toNat vc = true →
              ∃ x, (t.tx peer.toNat vc).sent = (s.tx peer.toNat vc).sent ++ [x] ∧ hdrType x.pkt.hdr = kindType kind
                ∧ hdrOp x.pkt.hdr = op.toNat ∧ x.pkt.payload = payload)
        else kind = 0 → s.mct.ops.all (fun x => x.id != op.toNat || x.peer != peer.toNat) = true →
          t.mct.ops = s.mct.ops ∧ ∃ r, t.irq.waiting = s.irq.waiting ++ [r] ∧ r.source = 0x0B ∧ r.tag = tag.toNat

/-- Egress (R431 to R439): a frame joins its queue behind the others; at an end of a frame, a change of gates and a credit of zero
the scheduler starts the frame that nothing keeps back. -/
def Claim.EgressSchedules : Prop :=
  ∀ (s : State) (at_ : BitVec 40), s.Live →
    (∀ (p : Fin 32) (length : BitVec 16), ∃ t, exec (.egressEnqueue (.frame p length) at_) s = .next t
      ∧ let n := queueOf p (s.get F.EGR_CFG_CTRL_TCLASS)
        let f : EgrFrame := { length := length.toNat, peer := 0, pkt := none, stamp := 0 }
        (s.queue n).frames.length < s.get F.EGR_QUEUE_CFG_MAX_FRAMES n → (s.queue n).source = [] →
        s.portUp p = false ∨ (s.egr.sending.get (fun _ => none) p).isSome = true →
        s.SameBut t [.egr] ∧ (t.queue n).frames = (s.queue n).frames ++ [{ f with stamp := s.absTime at_.toNat }]
          ∧ ∀ m, m ≠ n → t.queue m = s.queue m)
    ∧ (∀ n : Fin 256, ∃ t, exec (.egressSourceResume n at_) s = .next t
      ∧ match (s.queue n).source with
        | [] => t = s
        | f :: fs =>
          if s.get F.EGR_QUEUE_CFG_MAX_FRAMES n ≤ (s.queue n).frames.length then t = s
          else (t.queue n).source = fs
            ∧ (s.portUp (n.val / 8) = false ∨ (s.egr.sending.get (fun _ => none) (n.val / 8)).isSome = true →
              s.SameBut t [.egr] ∧ (t.queue n).frames = (s.queue n).frames ++ [{ f with stamp := s.absTime at_.toNat }]))
    ∧ (∀ p : Fin 32, ∃ t, exec (.frameTxDone p at_) s = .next t ∧ ((∀ j < 8, (s.queue (queueOf p j)).frames = []) →
      t = { s with egr := { s.egr with sending := s.egr.sending.put (fun _ => none) p none } }))
    ∧ (∀ p : Fin 32, ∃ t, exec (.gateChange p at_) s = .next t ∧ (s.flag F.EGR_GCL_CTRL_ENABLE p = false → t = s))
    ∧ (∀ n : Fin 256, ∃ t, exec (.shaperCreditZero n at_) s = .next t ∧ (s.shaped n (s.absTime at_.toNat) = false → t = s))
    ∧ (∀ (p : Fin 32) (k : Fin 8) (f : EgrFrame) (fs : List EgrFrame), Claim.OneReady s p k at_.toNat f fs →
      let starts (c : Instr) : Prop := ∃ t o, exec c s = .next t ∧ t.out = s.out ++ [o]
        ∧ t.egr.sending.get (fun _ => none) p = some (queueOf p k, f) ∧ (t.queue (queueOf p k)).frames = fs
      starts (.frameTxDone p at_)
      ∧ (s.egr.sending.get (fun _ => none) p = none →
        (s.flag F.EGR_GCL_CTRL_ENABLE p = true → starts (.gateChange p at_))
        ∧ ∀ n : Fin 256, n.val = queueOf p k → starts (.shaperCreditZero n at_)))

/-- Fabric ports retrain and retire lanes; egress schedules frames: its parts. -/
def Obligations.FabricAndEgress : Prop := Claim.FabricPorts ∧ Claim.FirmwareMessages ∧ Claim.EgressSchedules

/-! ### The host port -/

/-- The commands at which a request of an OP begins, and what its payload must be (R562). -/
def Claim.requestTable : Instr → Option (Fin 64 × Nat × (List Byte → State → Bool))
  | .hostTurn r => some (r, 1, turnOk)
  | .hostControl r => some (r, 3, fun p _ => decide (p.length = 32) && bits (leAt p 0 32) 179 176 == 0
      && bits (leAt p 0 32) 31 0 == 0 && decide (1 ≤ bits (leAt p 0 32) 191 184) && decide (bits (leAt p 0 32) 191 184 ≤ 0x12))
  | .hostReplay r => some (r, 4, fun p _ => decide (p.length = 32) && leAt p 24 8 == 0)
  | _ => none

/-- A request ends: it is gone, and its DONE entry waits for its ring (R459, R561). -/
def Claim.RequestEnds (s t : State) (q : HostReq) (status : Nat) : Prop :=
  t.host.requests = s.host.requests.erase q
    ∧ t.host.waiting = s.host.waiting ++ [⟨q.ring, 2, status, 0, q.tag, q.session, 0, 0, 0, []⟩] ∧ s.SameBut t [.host]

/-- Requests of the host (R562): the oldest one of a ring that has not begun begins with its payload, ends CANCELLED when it was
cancelled before, or ends with BAD_REQUEST when its payload is wrong; CANCEL marks the request it names. -/
def Obligations.HostRequests : Prop :=
  ∀ s : State, s.Live →
    (∀ (c : Instr) (ring : Fin 64) (op : Nat) (ok : List Byte → State → Bool), Claim.requestTable c = some (ring, op, ok) →
      ∃ t, exec c s = .next t
        ∧ match s.nextRequest ring with
          | none => t = s
          | some q =>
            if q.op ≠ op then t = s
            else if q.cancelled = true then Claim.RequestEnds s t q 1
            else if ok (s.payload q) s = false then Claim.RequestEnds s t q 2
            else t = { s with host := { s.host with requests := s.host.requests.map fun x =>
              if x = q then { q with begun := true, payload := s.payload q, manifests := manifestsOf (s.payload q) } else x } })
    ∧ (∀ ring : Fin 64, ∃ t, exec (.hostCancel ring) s = .next t
      ∧ match s.nextRequest ring with
        | none => t = s
        | some q =>
          let p := s.payload q
          if q.op ≠ 2 then t = s
          else if q.cancelled = true then Claim.RequestEnds s t q 1
          else if p.length < 8 ∨ 2 ^ 38 ≤ leAt p 0 8 then Claim.RequestEnds s t q 2
          else match s.request (bits (leAt p 0 8) 37 32) (bits (leAt p 0 8) 31 0) with
            | none => Claim.RequestEnds s t q 2
            | some x =>
              if x = q then Claim.RequestEnds s t q 2
              else s.SameBut t [.host]
                ∧ t.host.requests = (s.host.requests.map fun y => if y = x then { x with cancelled := true } else y).erase q
                ∧ t.host.waiting = s.host.waiting ++ [⟨q.ring, 2, 0, 0, q.tag, q.session, 0, 0, 0, []⟩])

/-- Completion rings (R455 to R460): an entry is written with what it names before it and CQ_PRODUCED after it; a full ring
stalls and then fails; a ring runs from SEQ 1 once enabled, and is QUIESCED once disabled and drained. -/
def Obligations.CompletionRings : Prop :=
  ∀ (s : State) (ring : Fin 64), s.Live →
    let x := s.ring ring
    let put (m : List Host.Cell) (a : Nat) (bs : List Byte) : List Host.Cell := SMap.putList memDefault m a bs
    (∀ (kind : BitVec 8) (tag : BitVec 32) (session offset : BitVec 64) (place : BitVec 32) (data : List (BitVec 8)),
      ∃ t, exec (.cqEntryWrite ring kind tag session offset place data) s = .next t
        ∧ (x.state ≠ 1 → x.state ≠ 3 → t = s)
        ∧ (x.state = 1 → x.draining = false → s.nextEntry ring = none → s.ringRoom ring = true →
          let written (m : List Host.Cell) (e : HostEntry) : Prop :=
            t.hostMem = put (put m (s.cplAddr ring x.produced) (e.bytes (x.produced + 1) s.now)) (s.ctlAddr ring + 8) (leBytes 8 (x.produced + 1))
              ∧ (t.ring ring).produced = x.produced + 1 ∧ t.host.waiting = s.host.waiting ∧ s.SameBut t [.host, .hostMem]
          (kind = 5 → data = [] → written s.hostMem ⟨ring, 5, 0, 0, tag.toNat, session.toNat, 0, 0, 0, []⟩)
          ∧ (∀ (q : HostReq) (b : Nat), kind = 1 → s.request ring tag.toNat = some q → place.toNat + data.length ≤ q.outLen →
            s.dataAddr 3 (q.out + place.toNat) data.length = some b →
            written (put s.hostMem b data)
              ⟨ring, 1, 0, 0, tag.toNat, q.session, offset.toNat, data.length, q.out + place.toNat, data⟩)
          ∧ (kind = 2 → t = s)))
    ∧ (∃ t, exec (.cqStallTimeout ring) s = .next t
      ∧ if s.ringHeld ring = true ∧ x.stalled = false then (t.ring ring).stalled = true
          ∧ t.count .HOST_CQ_STALL_COUNT = min counterMax (s.count .HOST_CQ_STALL_COUNT + 1)
        else t = s)
    ∧ (∃ t, exec (.ringFailTimeout ring) s = .next t
      ∧ if s.ringHeld ring = false then t = s
        else x.state ≠ 3 → (t.ring ring).state = 3
          ∧ t.host.requests = s.host.requests.filter (fun q => q.ring ≠ ring.val)
          ∧ t.host.waiting = s.host.waiting.filter (fun e => e.ring ≠ ring.val)
          ∧ t.count .HOST_RING_FAIL_COUNT = min counterMax (s.count .HOST_RING_FAIL_COUNT + 1))
    ∧ (∃ t, exec (.ringEnable ring) s = .next t
      ∧ if s.phase ≠ 0 ∨ s.flag F.HOST_RING_ENABLE ring = false ∨ x.en = true then t = s
        else if s.busInData (s.ringBase ring) (s.ringBytes ring) = true then
          t.ring ring = { x with en := true, consumed := 0, produced := 0, badPolls := 0, draining := false, state := 1 }
            ∧ t.hostMem = put (put s.hostMem (s.ctlAddr ring) (leBytes 16 0)) (s.ctlAddr ring + 0x20) (leBytes 4 1)
            ∧ s.SameBut t [.host, .hostMem]
        else t.ring ring = { x with en := true, state := 0, draining := false } ∧ t.hostMem = s.hostMem)
    ∧ (∃ t, exec (.ringDisable ring) s = .next t
      ∧ if s.phase ≠ 0 ∨ s.flag F.HOST_RING_ENABLE ring = true ∨ x.en = false then t = s
        else if x.state ≠ 1 then t.ring ring = { x with en := false, draining := false } ∧ s.SameBut t [.host]
        else if s.host.requests.any (·.ring == ring.val) = true ∨ s.host.waiting.any (·.ring == ring.val) = true then
          t.ring ring = { x with en := false, draining := true } ∧ s.SameBut t [.host]
        else t.ring ring = { x with en := false, draining := false, state := 2 })

/-- Windows, links and vectors of the host port (R462, R463, R468, R471, R472, R546). -/
def Obligations.HostWindowsAndLinks : Prop :=
  ∀ s : State, s.Live →
    (∀ w : Fin 80, ∃ t, exec (.winLost w) s = .next t
      ∧ if (s.window w).lost = true then t = s else (t.window w).lost = true)
    ∧ (∀ w : Fin 80, ∃ t, exec (.winDrain w) s = .next t
      ∧ if (s.window w).use ≠ 1 then t = s
        else (t.window w).drain = true
          ∧ (s.hasHome = false → s.SameBut t [.regs, .out] ∧ s.SameRegs t [.HOST_WIN, .HOST_CXL_WIN]))
    ∧ (∀ (l : Fin 2) (exhausted : Bool), ∃ t, exec (.hostLinkEvent l exhausted) s = .next t
      ∧ if s.linkGone l = true then t = s
        else (s.err.domains.get domDefault (domKey 4 l)).depth = 0 →
          if exhausted = false ∧ s.recurs 2 4 l 0 = false then t.get F.HOST_LINK_STATUS_RATE l = 0
            ∧ t.get F.HOST_LINK_STATUS_WIDTH l = 0 ∧ t.linkGone l = false ∧ t.err.notes = s.err.notes ++ [⟨4, l, 0, s.now⟩]
          else if s.get F.HOST_CFG_BIFURCATION = 0 ∨ s.linkGone (1 - l.val) = true then t.fatal = true
          else t.linkGone l = true ∧ t.fatal = false)
    ∧ (∀ (l : Fin 2) (rate : BitVec 4) (width : BitVec 5) (cxl : Bool), ∃ t, exec (.hostLinkTrainDone l rate width cxl) s = .next t
      ∧ if s.linkGone l = false ∧ 1 ≤ rate.toNat ∧ rate.toNat ≤ 4 ∧ width.toNat ∈ [1, 2, 4, 8, 16]
            ∧ ((s.get F.HOST_CFG_BIFURCATION = 1 ∧ width.toNat ≤ 8) ∨ (s.get F.HOST_CFG_BIFURCATION ≠ 1 ∧ l = 0)) then
          t.get F.HOST_LINK_STATUS_RATE l = rate.toNat ∧ t.get F.HOST_LINK_STATUS_WIDTH l = width.toNat
            ∧ t.host.linkUp = s.host.linkUp ||| BitVec.ofNat 2 (2 ^ l.val)
            ∧ (t.flag F.HOST_LINK_STATUS_CXL l = true ↔ cxl = true ∧ s.get F.HOST_CFG_BIFURCATION ≠ 1 ∧ rate = 3 ∧ width = 16)
            ∧ s.SameBut t [.regs, .host, .err] ∧ s.SameRegs t [.HOST_LINK_STATUS]
        else t = s)
    ∧ (∃ t, exec .linkBReset s = .next t
      ∧ if s.get F.HOST_CFG_BIFURCATION = 1 then t.get F.HOST_LINK_STATUS_RATE 1 = 0
          ∧ t.get F.HOST_LINK_STATUS_WIDTH 1 = 0 ∧ t.host.linkUp = s.host.linkUp &&& 1
          ∧ s.SameBut t [.regs, .host] ∧ s.SameRegs t [.HOST_LINK_STATUS]
          ∧ t.get F.HOST_LINK_STATUS_RATE 0 = s.get F.HOST_LINK_STATUS_RATE 0
        else t = s)
    ∧ (∀ v : Fin 72, ∃ t, exec (.msixUnmask v) s = .next t ∧ t.msixMasked v = false
      ∧ t.out = s.out ++ (if bit s.host.msixPending.toNat v then [.msix v] else [])
      ∧ bit t.host.msixPending.toNat v = false ∧ s.SameBut t [.host, .out])
    ∧ (∀ offset : BitVec 37, ∃ t, exec (.cxlMemStore offset) s = .next t
      ∧ if s.flag F.HOST_LINK_STATUS_CXL = true ∧ offset.toNat < s.get F.HOST_CXL_MEM_SIZE_GIB * 0x40000000 then s.SameBut t [.ctrs]
          ∧ t.count .HOST_WRITE_DENIED_COUNT = min counterMax (s.count .HOST_WRITE_DENIED_COUNT + 1)
        else t = s)

/-! ### Resets and start-up -/

/-- Start-up has stopped with an error (R482). -/
def Claim.Stopped (t : State) (e : Err) : Prop := t.stage = sgStopped ∧ t.get F.CFG_STATUS_ERROR = e.code % 256

/-- Resets (R412, R472, R506, R549, R607, R613): a cold reset brings every block back, burns the finished row repairs and drops what
HBM training kept; a warm one keeps it; at the release the straps are read, the generator is seeded, and the incarnation goes up. -/
def Obligations.Resets : Prop :=
  ∀ s : State,
    exec .coldReset s = .next (State.reboot { s with fuses := { s.fuses with trained := [], repairs := (s.err.rows.filter fun e => e.2 == 2).foldl (fun m e => m.put (fun _ => 0) e.1 1) s.fuses.repairs } })
    ∧ (∃ t, exec .warmReset s = .next t
      ∧ t = if s.boot.released = true then { s.reboot with boot := { s.reboot.boot with cold := false } } else s)
    ∧ (∀ (straps : BitVec 7) (check : BitVec 16), s.Live → ∃ t, exec (.resetRelease straps check) s = .next t
      ∧ if s.boot.released = true then t = s
        else t.boot.released = true ∧ t.flag F.SEC_STATUS_DRBG_READY = true
          ∧ t.mct.incarnation = s.mct.incarnation + 1 ∧ t.sdir.seed = (Config.drbg s.free).setWidth 32
          ∧ (s.boot.cold = true → t.get F.PKG_STRAP_BOARD_ID = bits straps.toNat 6 3
            ∧ t.get F.PKG_STRAP_NOR_QUAD = bits straps.toNat 2 2 ∧ t.get F.PKG_STRAP_BIFURCATION = bits straps.toNat 1 0
            ∧ (t.get F.HOST_CFG_BIFURCATION = 1 ↔ bits straps.toNat 1 0 = 1) ∧ t.boot.hbmUp = [])
          ∧ (s.boot.cold = false → t.boot.hbmUp = s.fuses.trained.filter (fun e => e.2 && !bit check.toNat e.1)
            ∧ ∀ i, t.reg .PKG_STRAP i = s.reg .PKG_STRAP i)
          ∧ s.SameBut t [.regs, .sdir, .mct, .sec, .boot, .free])

/-- Start-up up to the memory (R207, R473, R479 to R482): a copy is chosen or the device is in RECOVERY; a copy whose sections fail
gives way to the other; the FIELDS stage loads the records, checks them and loads session firmware; stacks train; all HBM is
zero, and the flash part fits, before start-up goes on. -/
def Obligations.StartUpToMemory : Prop :=
  ∀ s : State, s.Live →
    let c := s.get F.CFG_STATUS_COPY
    let b := s.copyOf c
    (∃ t, exec .configImageSelect s = .next t
      ∧ if s.boot.released = false ∨ s.stage ≠ sgRom then t = s
        else match s.bestCopy with
          | some c => t.stage = sgImage ∧ t.get F.CFG_STATUS_COPY = c ∧ t.boot.configDigest = imgDigest (s.copyOf c)
          | none => t.stage = sgRecovery)
    ∧ (∃ t, exec .configSectionsRead s = .next t
      ∧ if s.stage ≠ sgImage then t = s
        else if imgSectionsOk b = false then
          (if s.candidate (1 - c) = true then
            t.get F.CFG_STATUS_COPY = 1 - c ∧ t.flag F.CFG_STATUS_FALLBACK = true ∧ t.stage = sgImage
              ∧ t.count .CFG_FALLBACK_COUNT = min counterMax (s.count .CFG_FALLBACK_COUNT + 1)
          else t.stage = sgRecovery)
        else
          let rs := fieldRecords ((imgSection b 1).getD [])
          let u := rs.foldl (fun s r => (Act.applyRecord r.1 r.2).run s) s
          if ¬(rs.Pairwise fun x y => x.1 < y.1) ∨ rs.any (fun r => badRecord r.1 r.2) = true then Claim.Stopped t .CFG_IMAGE_FIELD
          else match u.reservedReg, u.startError with
            | some _, _ => Claim.Stopped t .CFG_IMAGE_FIELD
            | none, some e => Claim.Stopped t e
            | none, none => t.stage = sgMemory
              ∧ (∀ k < 16, bit (u.get F.SAIL_WATCH_CFG_CORES) k = true →
                t.irq.local_.get (fun _ => []) k = (imgSection b 2).getD [])
              ∧ u.SameBut t [.regs, .irq, .boot] ∧ u.SameRegs t [.CFG_STATUS, .FAB_PORT_STATUS])
    ∧ (∀ (k : Fin 16) (ok : Bool), ∃ t, exec (.hbmTrainDone k ok) s = .next t
      ∧ if s.boot.released = false ∨ sgMemory < s.stage ∨ s.boot.hbmUp.get (fun _ => false) k = true then t = s
        else if ok = true then t.boot.hbmUp.get (fun _ => false) k = true
          ∧ t.fuses.trained.get (fun _ => false) k = true ∧ s.SameBut t [.boot, .fuses]
        else if s.boot.hbmFails.get (fun _ => 0) k = 0 then t.boot.hbmFails.get (fun _ => 0) k = 1 ∧ s.SameBut t [.boot]
        else Claim.Stopped t .CFG_HBM_TRAIN)
    ∧ (∀ ok : Bool, ∃ t, exec (.memoryZeroDone ok) s = .next t
      ∧ let flash := s.get F.FLASH_CFG_IFACE
        if s.stage ≠ sgMemory ∨ (List.range 16).all (fun k => s.boot.hbmUp.get (fun _ => false) k) = false then t = s
        else if flash ≠ 0 ∧ ¬(ok = true ∧ (imgSection b 4).isSome = true ∧ (partProfile ((imgSection b 4).getD [])).ok = true) then
          Claim.Stopped t .CFG_FLASH_PART
        else t.boot.zeroed = true ∧ sgMemory ≤ t.stage
          ∧ (flash ≠ 0 → t.flash.profile = partProfile ((imgSection b 4).getD []))
          ∧ (flash = 0 → s.Calm → t.mem = s.storedIn (s.mem.filter fun e => decide (hbmEnd ≤ e.1)
              && (decide (e.1 < spareBase) || decide (spareBase + 0x800000000 ≤ e.1)))
            (s.get F.IRQ_FW_BASE_ADDR) ((imgSection b 2).getD [])))

/-- The model package (R161, R162, R485 to R490): the table must have MODEL_DIGEST, and a section its digest in the table; a section
that fails is fetched once more, and then stops start-up or has the islands that need it await it; steering records are checked
layer by layer. -/
def Claim.ThePackage : Prop :=
  ∀ s : State, s.Live →
    (∀ sent : List (BitVec 8), ∃ t, exec (.packageFetchStart sent) s = .next t
      ∧ if s.stage ≠ sgPackage ∨ s.boot.table ≠ [] then t = s
        else match s.packageTable sent with
          | none => t = s
          | some table =>
            if sha384 table = s.boot.modelDigest then
              t.boot.table = table ∧ s.SameBut t [.regs, .boot] ∧ s.SameRegs t [.CFG_STATUS]
            else Claim.Stopped t .CFG_PACKAGE_DIGEST)
    ∧ (∀ (type : BitVec 16) (index : BitVec 32) (sent : List (BitVec 8)),
      let k := pkgKey type.toNat index.toNat
      let want := ((pkgEntries s.boot.table).find? fun e => e.type == type.toNat && e.index == index.toNat).map (·.digest)
      let sound := match s.sectionBytes type.toNat index.toNat sent with
        | some d => decide (want = some (sha384 d))
        | none => false
      let fails (t : State) (e : Err) : Prop :=
        if s.stage = sgPackage then Claim.Stopped t e
        else t.flag F.CFG_PKG_FETCH_BUSY = false ∧ t.boot.awaits.any (fun e => e.1 == k) = true
      let lands (t : State) (d : List Byte) : Prop :=
        t.boot.sections = s.boot.sections.set k d ∧ t.boot.retried = s.boot.retried.filter (· ≠ k)
          ∧ (s.stage ≠ sgPackage → t.flag F.CFG_PKG_FETCH_BUSY = false)
      ∃ t, exec (.packageSectionLand type index sent) s = .next t
        ∧ if s.wantsSection type.toNat index.toNat = false then t = s
          else if sound = true then
            let d := (s.sectionBytes type.toNat index.toNat sent).getD []
            let kib := s.get F.ATTN_STEER_CFG_RECORD_KIB * 1024
            let assign := ((s.islands.find? fun i => i.2.role == 2).map (·.2.assign)).getD 0
            (type ≠ 3 → type ≠ 4 → type ≠ 5 → lands t d)
              ∧ (type = 3 → index.toNat < s.get F.ATTN_STEER_CFG_SETS →
                if (List.range (s.get F.BERTH_SHAPE_LAYERS)).all
                    (fun l => s.steerOk ((d.drop ((assign + l) * kib)).take kib) (assign + l)) = true then lands t d
                else fails t .CFG_STEER_RECORD)
          else if k ∈ s.boot.retried then fails t .CFG_PACKAGE_DIGEST
          else t = { s with boot := { s.boot with retried := k :: s.boot.retried } })
    ∧ (∀ (a : Agent) (type : BitVec 16) (index : BitVec 32), ∃ t, exec (.pkgFetch a type index) s = .next t
      ∧ if a = .host then Claim.hostDenied s t
        else t.get F.CFG_PKG_FETCH_INDEX = index.toNat
          ∧ if type = 0 ∨ 8 ≤ type.toNat then t.get F.CFG_PKG_FETCH_TYPE = s.get F.CFG_PKG_FETCH_TYPE
            else t.get F.CFG_PKG_FETCH_TYPE = type.toNat
              ∧ (sgTime < s.stage → s.stage ≤ sgRunning → t.flag F.CFG_PKG_FETCH_BUSY = true)
              ∧ s.SameBut t [.regs] ∧ s.SameRegs t [.CFG_PKG_FETCH])

/-- The end of start-up (R480, R491 to R496, R513): advances are burned, record before counter bit; GO, or the time when the image
holds nothing back, lets the first sailing start; a signed image is written to the copy that may take it. -/
def Claim.StartUpEnds : Prop :=
  ∀ s : State, s.Live →
    (∀ day : BitVec 24, ∃ t, exec (.fuseAdvance day 255) s = .next t
      ∧ if s.stage < sgMemory ∨ sgHeld < s.stage ∨ s.boot.advanced = true then t = s
        else if s.asked = [] then t = { s with boot := { s.boot with advanced := true } }
        else ∀ k n : Nat, s.asked = [(k, n)] → k ≠ 4 → (∀ r ∈ s.fuses.records, ¬(r.1 = k ∧ r.2.1 = n ∧ r.2.2.2 = false)) →
          t.get (lcField k) = n ∧ t.boot.advanced = true
            ∧ t.fuses.records = s.fuses.records ++ [(k, n, s.lcRecord day.toNat, true)]
            ∧ s.SameBut t [.regs, .boot, .fuses] ∧ s.SameRegs t [.CFG_LC_STATUS, .CFG_AP_STATUS])
    ∧ (∀ (n : BitVec 48) (telem : BitVec 64) (temp : BitVec 32), ∃ t, exec (.firstSailing n telem temp) s = .next t
      ∧ if ((s.stage = sgTime ∧ s.timeReady = true ∧ s.boot.held = false) ∨ (s.stage = sgHeld ∧ s.boot.go = true))
            ∧ s.stopped = true ∧ (s.boot.advanced = true ∨ s.asked = []) then
          t.stage = sgRunning ∧ t.now = n.toNat ∧ t.phase = 0 ∧ t.tier.images = [] ∧ t.tier.history = [] ∧ t.sail.commit = none
        else t = s)
    ∧ (∀ a : Agent, ∃ t, exec (.cfgGo a) s = .next t
      ∧ if a = .host then Claim.hostDenied s t
        else if s.stage ≠ sgHeld then t = s
        else if s.ckState = ckRestore ∨ s.ckState = ckResume then t.boot.go = s.boot.go
          ∧ t.flag F.CFG_STATUS_LOCKED_WRITE = true
          ∧ t.count .CFG_LOCKED_WRITE_COUNT = min counterMax (s.count .CFG_LOCKED_WRITE_COUNT + 1)
        else t = { s with boot := { s.boot with go := true } })
    ∧ (∀ image : List (BitVec 8),
      let fits := s.imgCandidate image = true ∧ 2 * image.length ≤ Config.norBytes
      let wrote (t : State) (c : Nat) : Prop := t.copyOf c = image ∧ t.copyOf (1 - c) = s.copyOf (1 - c) ∧ s.SameBut t [.fuses]
      (∃ t, exec (.recoveryImage image) s = .next t
        ∧ if s.stage = sgRecovery ∧ fits then wrote t (if 1 ∈ s.boot.failed then 1 else 0) else t = s)
      ∧ (∃ t, exec (.pldmUpdate image) s = .next t
        ∧ if s.stage = sgRecovery ∧ fits then wrote t (if 1 ∈ s.boot.failed then 1 else 0)
          else if sgImage < s.stage ∧ s.stage ≠ sgRecovery ∧ fits then wrote t (1 - s.get F.CFG_STATUS_COPY)
          else t = s))

/-- Start-up from the model package to the first sailing: its parts. -/
def Obligations.StartUpToSailing : Prop := Claim.ThePackage ∧ Claim.StartUpEnds

/-! ### Identity, keys and entropy -/

/-- Attestation (R508 to R511): measurement blocks are answered signed, all of them with the countersignature over nonce and
blocks; certificates by portion; a challenge with the digests of the chain and of the measurements. -/
def Claim.Attestation : Prop :=
  ∀ s : State, s.Live →
    (∀ nonce : BitVec 256,
      (s.sec.entropyDown = false →
        let sig := leBytes 3309 (Config.mldsaSign idMlSeed (attestDigest nonce s.measurements) (Config.drbg s.free)).toNat
        let parts := s.measurements ++ [leBytes 1 0xF0 ++ sig]
        exec (.spdmGetMeasurements 0xFF nonce) s = .next { s with
          free := s.free + 1, sec := { s.sec with draws := s.sec.draws + 1 },
          out := s.out ++ [.spdm spdmMeasurements (parts ++ [spdmSign (leBytes 32 nonce.toNat :: parts)])] })
      ∧ (s.sec.entropyDown = true → exec (.spdmGetMeasurements 0xFF nonce) s
        = .next { s with sec := { s.sec with waiting := s.sec.waiting ++ [nonce] } })
      ∧ (∀ (i : BitVec 8) (b : List Byte), i ≠ 0xFF → s.measurement i.toNat = some b →
        let part := leBytes 1 i.toNat ++ b
        exec (.spdmGetMeasurements i nonce) s
          = .next { s with out := s.out ++ [.spdm spdmMeasurements [part, spdmSign [leBytes 32 nonce.toNat, part]]] })
      ∧ (∀ i : BitVec 8, i ≠ 0xFF → s.measurement i.toNat = none →
        exec (.spdmGetMeasurements i nonce) s = .next { s with out := s.out ++ [.spdm spdmError []] })
      ∧ (let parts := [sha384 (s.fuses.chains.get (fun _ => []) 0), leBytes 32 nonce.toNat, sha384 s.measurements.flatten]
        exec (.spdmChallenge nonce) s = .next { s with out := s.out ++ [.spdm spdmChallenge (parts ++ [spdmSign parts])] }))
    ∧ (∀ (slot : BitVec 4) (offset length : BitVec 16),
      let chain := s.fuses.chains.get (fun _ => []) slot.toNat
      (slot.toNat ≤ 1 → offset.toNat < chain.length → exec (.spdmGetCertificate slot offset length) s
        = .next { s with out := s.out ++ [.spdm spdmCertificate [(chain.drop offset.toNat).take length.toNat]] })
      ∧ (1 < slot.toNat ∨ chain.length ≤ offset.toNat → exec (.spdmGetCertificate slot offset length) s
        = .next { s with out := s.out ++ [.spdm spdmError []] }))

/-- Keys (R509, R512, R526): only a session with the key service loads keys; a load takes effect at once while sailings are
stopped, else it waits for the boundary; an agreed MKA key is installed; a key whose grace is over is not accepted. -/
def Obligations.KeysAreLoaded : Prop :=
  ∀ s : State, s.Live →
    (∀ (session : BitVec 32) (authenticated : Bool) (root : List (BitVec 8)),
      let service := authenticated && sha384 root == s.digestReg .SEC_KEYSVC_DIGEST && (s.digestReg .SEC_KEYSVC_DIGEST).any (· ≠ 0)
      ∃ t, exec (.spdmKeyExchange session authenticated root) s = .next t
        ∧ t.sec.sessions.get (fun _ => false) session.toNat = service
        ∧ (service = true → t.flag F.SEC_STATUS_KEYSVC_SESSION = true)
        ∧ s.SameBut t [.regs, .sec, .out] ∧ s.SameRegs t [.SEC_STATUS])
    ∧ (∀ session : BitVec 32, ∃ t, exec (.spdmEndSession session) s = .next t
      ∧ t.sec.sessions.get (fun _ => false) session.toNat = false
      ∧ t.out = s.out ++ [.spdm spdmSessionEnd [leBytes 4 session.toNat]]
      ∧ s.SameBut t [.regs, .sec, .out] ∧ s.SameRegs t [.SEC_STATUS])
    ∧ (∀ (session : BitVec 32) (job : Bool) (slot : BitVec 8) (key : BitVec 256) (peer : BitVec 64) (name : BitVec 256),
      let k : StoredKey := ⟨if job then 1 else 0, slot.toNat, key, if job then 0 else peer.toNat, if job then 0 else name.toNat⟩
      let c := Instr.keyLoad session job slot key peer name
      (s.sec.sessions.get (fun _ => false) session.toNat = false → ∃ t, exec c s = .next t ∧ s.SameBut t [.ctrs, .out]
        ∧ t.count .SEC_SPDM_AUTH_FAIL_COUNT = min counterMax (s.count .SEC_SPDM_AUTH_FAIL_COUNT + 1)
        ∧ t.out = s.out ++ [.spdm spdmError []])
      ∧ (s.sec.sessions.get (fun _ => false) session.toNat = true → job = true ∨ slot ≠ 255 →
        (s.stopped = false → ∃ t, exec c s = .next t ∧ s.SameBut t [.ctrs, .out, .sec]
          ∧ t.sec = { s.sec with loading := s.sec.loading ++ [k] }
          ∧ t.count .SEC_KEY_LOAD_COUNT = min counterMax (s.count .SEC_KEY_LOAD_COUNT + 1))
        ∧ (s.stopped = true → ∃ t, exec c s = .next t ∧ s.SameBut t [.ctrs, .out, .sec]
          ∧ (key ≠ 0 → k ∈ t.sec.keys) ∧ ∀ x ∈ t.sec.keys, x.kind = k.kind → x.slot = k.slot → key ≠ 0 ∧ x = k))
      ∧ (s.sec.sessions.get (fun _ => false) session.toNat = true → job = false → slot = 255 →
        exec c s = .next { s with out := s.out ++ [.spdm spdmError []] }))
    ∧ (∀ slot : BitVec 8, exec (.keyGraceExpire slot) s = .next { s with
        sec := { s.sec with grace := s.sec.grace.filter fun g => !(g.1.slot == slot.toNat && decide (g.2 < s.now)) } })
    ∧ (∀ (slot : BitVec 8) (pdu : List (BitVec 8)), ∃ t, exec (.mkpduReceive slot pdu) s = .next t
      ∧ match s.sec.keys.find? fun k => k.kind == 0 && k.slot == slot.toNat with
        | none => t = s
        | some k =>
          if s.get F.MCT_SEC_MODE = 1 ∧ Config.mkaValid k.key k.name pdu = true then
            t = { s with sec := { s.sec with saks := s.sec.saks.put (fun _ => none) k.slot (some (Config.mkaSak k.key pdu)) } }
          else t = s)

/-- Entropy (R506): a failing source is flagged, counted and recorded; the signatures that waited are made when it passes; the
generator is seeded anew after 2^20 requests. -/
def Claim.EntropyFailsAndPasses : Prop :=
  ∀ s : State, s.Live →
    (∃ t, exec .drbgReseed s = .next t
      ∧ t = if 2 ^ 20 ≤ s.sec.draws ∧ s.sec.entropyDown = false then { s with sec := { s.sec with draws := 0 } } else s)
    ∧ (∃ t, exec .secEntropyFail s = .next t ∧ t.sec.entropyDown = true ∧ t.flag F.SEC_STATUS_ENTROPY_FAIL = true
      ∧ t.count .SEC_ENTROPY_FAIL_COUNT = min counterMax (s.count .SEC_ENTROPY_FAIL_COUNT + 1))
    ∧ (∃ t, exec .entropyPass s = .next t ∧ t.sec.entropyDown = false ∧ t.sec.waiting = []
      ∧ ((s.sdir.moves.filter fun m => m.motion == 4 && m.waiting.isEmpty) = [] →
        t.out.length = s.out.length + s.sec.waiting.length ∧ t.sec.draws = s.sec.draws + s.sec.waiting.length
          ∧ s.SameBut t [.sec, .out, .free]))

/-- Measurements, certificates, challenges, and the entropy source: its parts. -/
def Obligations.AttestationAndEntropy : Prop := Claim.Attestation ∧ Claim.EntropyFailsAndPasses

/-! ### Integrity -/

/-- A domain outside recovery (R539). -/
def Claim.Fresh (s : State) (dtype index : Nat) : Prop :=
  (s.err.domains.get domDefault (domKey dtype index)).depth = 0

/-- How a read of a line of HBM ends (R532, R542 to R544): an error corrected at once is counted; one that a retry corrects is a
fault event; one that nothing corrects loses the line; the second event in a row is repaired by a spare row, and without one the
pseudo-channel is retired. `found` is how many tries the read took, if it found an error. -/
def Claim.HbmReadEnds (s t : State) (addr : BitVec 48) (row : BitVec 24) (found : Option Nat) (nmu : Bool) : Prop :=
  match s.hbmLine addr.toNat, found with
  | some (line, d), some tries =>
    let again := s.recurs 0 1 d row.toNat
    let corrected := t.count .ERR_HBM_CORRECTED_COUNT = min counterMax (s.count .ERR_HBM_CORRECTED_COUNT + 1)
      ∧ (nmu = true → t.count .NMU_LINE_CORRECTED_COUNT = min counterMax (s.count .NMU_LINE_CORRECTED_COUNT + 1))
    if tries = 0 then corrected ∧ s.SameBut t [.ctrs]
    else
      (tries ≤ s.get F.ERR_RULE_RETRIES 0 → corrected)
      ∧ (Claim.Fresh s 1 d →
        (tries ≤ s.get F.ERR_RULE_RETRIES 0 → again = false →
          t.mem = s.mem ∧ t.lost = s.lost ∧ t.err.notes = s.err.notes ++ [⟨1, d, row.toNat, s.now⟩])
        ∧ (s.get F.ERR_RULE_RETRIES 0 < tries → again = false →
          t.lost.get (fun _ => false) line = true
            ∧ t.mem = SMap.putList memDefault s.mem line (freeBytes s.free 64) ∧ t.free = s.free + 64
            ∧ t.err.notes = s.err.notes ++ [⟨1, d, row.toNat, s.now⟩]
            ∧ t.count .ERR_HBM_UNCORRECTABLE_COUNT = min counterMax (s.count .ERR_HBM_UNCORRECTABLE_COUNT + 1))
        ∧ (again = true → s.get F.ERR_SPARE_ROWS_FREE d ≠ 0 → d < 512 →
          t.err.rows.get (fun _ => 0) (d * 2 ^ 24 + row.toNat) = 1
            ∧ t.get F.ERR_SPARE_ROWS_FREE d = s.get F.ERR_SPARE_ROWS_FREE d - 1))
      ∧ (again = true → s.get F.ERR_SPARE_ROWS_FREE d = 0 → t.retired 1 d = true)
  | _, _ => t = s

/-- Reads of HBM lines, by a unit or by the scrubber, which meets a lost line as a line that no retry corrects (R532, R534, R542 to
R544). -/
def Claim.HbmErrors : Prop :=
  ∀ (s : State) (addr : BitVec 48) (row : BitVec 24), s.Live →
    (∀ (tries : Fin 16) (nmu : Bool), ∃ t, exec (.hbmLineError addr row ⟨tries, nmu⟩) s = .next t
      ∧ Claim.HbmReadEnds s t addr row (some tries.val) nmu)
    ∧ (∀ found : Option (Fin 16), ∃ t, exec (.hbmScrub addr row found) s = .next t
      ∧ Claim.HbmReadEnds s t addr row
        (if ((s.hbmLine addr.toNat).map fun e => s.lost.get (fun _ => false) e.1) = some true then some 16
          else found.map (·.val)) false)

/-- Rows and pseudo-channels that are repaired or retired, and domains that settle (R539, R542 to R544). -/
def Claim.HbmRepairs : Prop :=
  ∀ (s : State) (pc : Fin 512), s.Live →
    let done (t : State) (dtype i : Nat) : Prop := let d := s.err.domains.get domDefault (domKey dtype i)
      t.err.domains.get domDefault (domKey dtype i)
        = if d.depth = 0 then d else { d with busy := false, settleAt := s.now + s.get F.ERR_CFG_SETTLE }
    (∀ row : BitVec 24, ∃ t, exec (.rowRemapDone pc row) s = .next t
      ∧ if s.err.rows.get (fun _ => 0) (pc * 2 ^ 24 + row.toNat) = 1 then
          t.err.rows.get (fun _ => 0) (pc * 2 ^ 24 + row.toNat) = 2 ∧ done t 1 pc
            ∧ t.count .ERR_REMAP_COUNT = min counterMax (s.count .ERR_REMAP_COUNT + 1) ∧ s.SameBut t [.ctrs, .err]
        else t = s)
    ∧ (∀ failed : Fin 16, ∃ t, exec (.hbmPcFault pc failed) s = .next t
      ∧ if s.retired 1 pc = true then t = s
        else if s.recurs 0 1 pc pcPlace = true ∨ s.get F.ERR_RULE_RETRIES 0 ≤ failed.val then
          let gone := s.nmu.poolGone.get (fun _ => 0) (pc.val / 32)
          t.retired 1 pc = true
            ∧ t.err.moved.get (fun _ => 0) pc = min pcUnits (t.poolRank (pc.val / 32) (s.get F.NMU_POOL_FRAMES) - gone)
            ∧ t.nmu.poolGone.get (fun _ => 0) (pc.val / 32) = gone + t.err.moved.get (fun _ => 0) pc
        else Claim.Fresh s 1 pc → t.retired 1 pc = false ∧ t.err.notes = s.err.notes ++ [⟨1, pc, pcPlace, s.now⟩])
    ∧ (∃ t, exec (.pcRetireDone pc) s = .next t
      ∧ if s.retired 1 pc = true then done t 1 pc ∧ s.SameBut t [.err] else t = s)
    ∧ (∀ (dtype : Fin 16) (index : BitVec 16), let d := s.err.domains.get domDefault (domKey dtype index.toNat)
      ∃ t, exec (.domainSettle dtype index) s = .next t
        ∧ if 0 < d.depth ∧ d.busy = false ∧ d.settleAt ≤ s.now then
            t.err.domains.get domDefault (domKey dtype index.toNat) = {} ∧ s.SameBut t [.err]
          else t = s)

/-- HBM errors, spare rows and pseudo-channel retirement: its parts. -/
def Obligations.HbmErrorsAndRepairs : Prop := Claim.HbmErrors ∧ Claim.HbmRepairs

/-- Words of SRAM (R533, R534, R550): a corrected word is counted and loses nothing; an uncorrectable one is lost, and in the seal
engine's key store or where no domain serves, the device is FATAL. A scrub read handles what it finds as any read. -/
def Claim.SramErrors : Prop :=
  ∀ (s : State) (word : SramWord), s.Live →
    let fresh := ∀ b, Claim.Fresh s 8 b
    let ends (t : State) (found : Option Bool) : Prop :=
      match found with
      | some true =>
        if wordExists word = true then
          t.count .ERR_SRAM_UNCORRECTABLE_COUNT = min counterMax (s.count .ERR_SRAM_UNCORRECTABLE_COUNT + 1)
            ∧ match word with
              | .localStore c a => t.lost.get (fun _ => false) (lsLostBase + lsKey c (a.toNat / 8 * 8)) = true
              | .shared a => t.lost.get (fun _ => false) (sharedBase + a.toNat / 8 * 8) = true
              | .table => t.fatal = false
              | .keyStore | .unserved => t.fatal = true
        else t = s
      | some false =>
        if wordExists word = true then
          t.count .ERR_SRAM_CORRECTED_COUNT = min counterMax (s.count .ERR_SRAM_CORRECTED_COUNT + 1)
            ∧ (fresh → t.lost = s.lost ∧ t.ls = s.ls ∧ t.mem = s.mem)
        else t = s
      | none => t = s
    (∀ bad : Bool, ∃ t, exec (.sramWordError word bad) s = .next t ∧ ends t (some bad))
    ∧ (∀ found : Option Bool, ∃ t, exec (.sramScrub word found) s = .next t ∧ ends t found)

/-- Ferries, the causeway and the record queue (R453, R538, R542, R545, R547). -/
def Claim.OtherErrors : Prop :=
  ∀ s : State, s.Live →
    (∀ f : Fin 32, ∃ t, exec (.ferryParityFault f) s = .next t
      ∧ if s.retired 7 f = true then t = s
        else if s.recurs 5 7 f 0 = true then t.retired 7 f = true
        else Claim.Fresh s 7 f → t.retired 7 f = false ∧ t.err.notes = s.err.notes ++ [⟨7, f, 0, s.now⟩]
          ∧ match s.tier.xfers.find? fun x => x.ferry == f.val && x.phase ≠ 0 with
            | none => t.tier = s.tier
            | some x => t.count .FERRY_READ_FAIL_COUNT = min counterMax (s.count .FERRY_READ_FAIL_COUNT + 1)
              ∧ (x.work = .firmware →
                t.tier.xfers = s.tier.xfers.filter fun y => !(y.ferry == x.ferry && y.id == x.id)))
    ∧ (∀ (g : Fin 32) (lane : Fin 100) (replays : BitVec 16) (failed : Fin 16),
      let spares := s.get F.ERR_CAUSEWAY_SPARES g
      ∃ t, exec (.causewayLaneEvent g lane replays failed) s = .next t
        ∧ if replays.toNat ≤ 8 ∨ s.retired 5 g = true then t = s
          else
            let permanent := s.recurs 3 5 g lane = true ∨ s.get F.ERR_RULE_RETRIES 3 ≤ failed.val
            (permanent → spares = 0 → t.retired 5 g = true ∧ t.flag F.ERR_CAUSEWAY_RETIRED g = true)
            ∧ (permanent → spares ≠ 0 → t.get F.ERR_CAUSEWAY_SPARES g = spares - 1
              ∧ (t.err.domains.get domDefault (domKey 5 g)).busy = true)
            ∧ (¬ permanent → t.get F.ERR_CAUSEWAY_SPARES g = spares)
            ∧ (¬ (permanent ∧ spares = 0) → Claim.Fresh s 5 g → t.retired 5 g = false
              ∧ t.err.notes = s.err.notes ++ [⟨5, g, lane, s.now⟩]))
    ∧ (∀ g : Fin 32, let d := s.err.domains.get domDefault (domKey 5 g)
      ∃ t, exec (.spareLaneDone g) s = .next t
        ∧ if d.busy = true ∧ 0 < d.depth then
            t.err.domains.get domDefault (domKey 5 g) = { d with busy := false, settleAt := s.now + s.get F.ERR_CFG_SETTLE }
              ∧ s.SameBut t [.err]
          else t = s)
    ∧ (∀ agent : Agent, ∃ t, exec (.errPop agent) s = .next t
      ∧ match agent with
        | .mgmt => t.err.queue = s.err.queue.tail ∧ s.SameBut t [.regs, .err] ∧ s.SameRegs t [.ERR_STATUS, .ERR_HEAD]
          ∧ (s.err.queue.tail.length < 128 → t.get F.ERR_STATUS_QUEUED = s.err.queue.tail.length)
          ∧ ∀ i : Fin 8, t.get F.ERR_HEAD_WORD i = match s.err.queue.tail with
            | r :: _ => leAt r.bytes (8 * i) 8 % 2 ^ 64
            | [] => 0
        | .control _ => t = s
        | .host => Claim.hostDenied s t)

/-- SRAM words, ferries, the causeway and the record queue: its parts. -/
def Obligations.OtherHardwareErrors : Prop := Claim.SramErrors ∧ Claim.OtherErrors

/-! ### Power -/

/-- The on-chip image areas of an island's stacks, left open (R277). -/
def Claim.imageAreas (s : State) (granules : List Nat) : List Host.Cell :=
  (granules.flatMap fun g => [2 * g, 2 * g + 1]).foldl
    (fun m k => SMap.putList memDefault m (spareAddr k 0) (s.imageShare k)) s.mem

/-- Islands in POWER_OFF, clock gating, the safety limits, the trip and the voltage loop (R579 to R587). -/
def Obligations.PowerChanges : Prop :=
  ∀ s : State, s.Live →
    (∀ (i : Fin 8) (at_ : BitVec 40), ∃ t, exec (.islandPowerOff i at_) s = .next t
      ∧ if s.mayPowerOff i at_.toNat = true then
          t.pwr.off.get (fun _ => 0) i = 1 ∧ bit (t.get F.PWR_STATUS_ISLAND_OFF) i = true
            ∧ t.mem = Claim.imageAreas s (bitList 8 (s.get F.CHART_ISLAND_GRANULES i)) ∧ t.free = s.free + 1
            ∧ s.SameBut t [.regs, .ctrs, .pwr, .mem, .free] ∧ s.SameRegs t [.PWR_STATUS]
            ∧ t.count .PWR_ISLAND_OFF_COUNT = min counterMax (s.count .PWR_ISLAND_OFF_COUNT + 1)
        else t = s)
    ∧ (∀ (i : Fin 8) (known : Bool), ∃ t, exec (.islandWake i known) s = .next t
      ∧ if s.pwr.off.get (fun _ => 0) i = 1 then
          t = { s with pwr := { s.pwr with off := s.pwr.off.put (fun _ => 0) i (if known then 2 else 3) } }
        else t = s)
    ∧ (∀ i : Fin 8, ∃ t, exec (.islandWakeDone i) s = .next t
      ∧ if 2 ≤ s.pwr.off.get (fun _ => 0) i then
          t.pwr.off.get (fun _ => 0) i = 0 ∧ bit (t.get F.PWR_STATUS_ISLAND_OFF) i = false
            ∧ s.SameBut t [.regs, .ctrs, .pwr] ∧ s.SameRegs t [.PWR_STATUS]
            ∧ t.count .PWR_WAKE_LATE_COUNT
              = min counterMax (s.count .PWR_WAKE_LATE_COUNT + if s.pwr.off.get (fun _ => 0) i = 3 then 1 else 0)
        else t = s)
    ∧ (∀ (u : GatedUnit) (gap : BitVec 32), exec (.clockGate u gap) s
      = .next { s with pwr := { s.pwr with gated := s.pwr.gated.put (fun _ => false) (gatedKey u) (decide (100 ≤ gap.toNat) && !s.unitBusy u) } })
    ∧ (∀ x : Sensors, ∃ t, exec (.throttleStep x) s = .next t
      ∧ let step := s.get F.PWR_STATUS_STEP
        if ∃ e ∈ s.limits x, e.2 = true then
          (∀ e ∈ s.limits x, e.2 = true → t.get e.1 = 1)
            ∧ if step < 4 then
                t.get F.PWR_STATUS_STEP = step + 1
                  ∧ t.count .PWR_LIMIT_STEP_COUNT = min counterMax (s.count .PWR_LIMIT_STEP_COUNT + 1)
                  ∧ (stepBand (step + 1)).1 ≤ t.get F.PWR_STATUS_VCORE_MV ∧ t.get F.PWR_STATUS_VCORE_MV ≤ (stepBand (step + 1)).2
                  ∧ s.period ∈ t.pwr.lowered
              else t.get F.PWR_STATUS_STEP = step ∧ s.SameBut t [.regs] ∧ s.SameRegs t [.PWR_STATUS]
        else t = s)
    ∧ (∀ x : Sensors, ∃ t, exec (.limitRelease x) s = .next t
      ∧ if s.limited = true ∧ s.released x = true then
          t.limited = false ∧ t.pwr.climbing = true ∧ t.get F.PWR_STATUS_STEP = s.get F.PWR_STATUS_STEP
            ∧ s.SameBut t [.regs, .pwr] ∧ s.SameRegs t [.PWR_STATUS]
        else t = s)
    ∧ (∀ x : Sensors, ∃ t, exec (.powerTrip x) s = .next t
      ∧ if s.trips x = true then
          t.fatal = true ∧ t.pwr.trip = true ∧ Output.trip ∈ t.out ∧ t.get F.HOST_FATAL_CODE = Err.PWR_TRIP.code
        else t = s)
    ∧ (∀ mv : BitVec 10, ∃ t, exec (.voltageLoopAdjust mv) s = .next t
      ∧ let band := stepBand (s.get F.PWR_STATUS_STEP)
        if band.1 ≤ mv.toNat ∧ mv.toNat ≤ band.2 then
          t.get F.PWR_STATUS_VCORE_MV = mv.toNat ∧ t.get F.PWR_STATUS_STEP = s.get F.PWR_STATUS_STEP
            ∧ s.SameBut t [.regs] ∧ s.SameRegs t [.PWR_STATUS]
        else t = s)

/-! ### Interrupts, completion queues, bollards and the watch -/

/-- Interrupts and ends of requests (R559 to R561, R563, R564): a core claims the lowest source that it may claim, other agents
claim nothing; a completion record is written to its queue and PRODUCED after it, or held while the queue is full; IRQ_END ends
the request it names. -/
def Obligations.InterruptsAndCompletions : Prop :=
  ∀ (s : State) (c : Fin 16), s.Live →
    (∀ a : Agent, ∃ t, exec (.irqClaim a c) s = .next t
      ∧ match if a = .control c then s.claimable c else none with
        | none => t = { s with irq := { s.irq with claims := s.irq.claims ++ [(c.val, 0x3FF)] } }
        | some src => t.irq.claims = s.irq.claims ++ [(c.val, src)] ∧ t.flag F.IRQ_SRC_PENDING src = false
          ∧ s.SameBut t [.regs, .irq, .ctrs] ∧ s.SameRegs t [.IRQ_SRC]
          ∧ t.irq.claimed = (if src = 0x10 + c.val then s.irq.claimed ||| BitVec.ofNat 16 (2 ^ c.val) else s.irq.claimed)
          ∧ (s.flag F.IRQ_SRC_MASK src = true →
            t.count .IRQ_MASKED_CLAIM_COUNT = min counterMax (s.count .IRQ_MASKED_CLAIM_COUNT + 1)))
    ∧ (∀ (a : Agent) (src : Fin 69) (mask : Bool), ∃ t, exec (.irqMaskWrite a src mask) s = .next t
      ∧ if a = .host then Claim.hostDenied s t
        else if 0x10 ≤ src.val then
          t.flag F.IRQ_SRC_MASK src = mask ∧ s.SameBut t [.regs] ∧ s.SameRegs t [.IRQ_SRC]
        else t = s)
    ∧ (∀ (a : Agent) (v : BitVec 64), ∃ t, exec (.irqEnd a c v) s = .next t
      ∧ if a = .host then Claim.hostDenied s t
        else if 4 ≤ bits v.toNat 47 40 then
          t.host.requests = s.host.requests ∧ t.host.waiting = s.host.waiting ∧ s.SameCounts t [.ERR_OVERFLOW_COUNT]
        else match s.request (bits v.toNat 37 32) (bits v.toNat 31 0) with
        | some q => t.host.requests = s.host.requests.erase q
          ∧ t.host.waiting = s.host.waiting ++ [⟨q.ring, 2, bits v.toNat 47 40, bits v.toNat 63 48, q.tag, q.session, 0, 0, 0, []⟩]
        | none => t.host.requests = s.host.requests ∧ t.host.waiting = s.host.waiting
          ∧ t.count .IRQ_END_UNKNOWN_COUNT = min counterMax (s.count .IRQ_END_UNKNOWN_COUNT + 1))
    ∧ (∃ t, exec (.cqRecordWrite c) s = .next t
      ∧ match s.irq.waiting.find? fun r => r.core == c.val with
        | none => t = s
        | some r =>
          if s.cqRoom c = true then
            let i := s.get F.IRQ_CQ_STATUS_PRODUCED c
            t.irq.waiting = s.irq.waiting.erase r ∧ t.get F.IRQ_CQ_STATUS_PRODUCED c = (i + 1) % 2 ^ 32
              ∧ t.flag F.IRQ_SRC_PENDING (0x20 + c) = true
              ∧ (s.Calm → t.mem = s.storedIn s.mem (s.get F.IRQ_CQ_BASE c + 32 * (i % s.cqSize c)) (r.bytes i)
                ∧ s.SameBut t [.regs, .mem, .nmu, .irq] ∧ s.SameRegs t [.IRQ_CQ_STATUS, .IRQ_SRC])
          else
            let new := (s.cqHolds c).filter fun i => (s.irq.waiting[i]?.map fun r => !r.held).getD false
            t.irq.waiting = (s.irq.waiting.mapIdx fun i x => if new.contains i then { x with held := true } else x)
              ∧ t.count .IRQ_CQ_FULL_COUNT = min counterMax (s.count .IRQ_CQ_FULL_COUNT + new.length)
              ∧ s.SameBut t [.irq, .ctrs])

/-- How a bollard's counts are given out (R570): `total` counts are there for the takers `l`, and the first of them take one each
while there are any. A control core that took one waits no more, and its source is pending. -/
def Claim.CountsGiven (t : State) (b total : Nat) (l : List Taker) : Prop :=
  t.get F.BOLL_COUNT_COUNT b = total - min total l.length ∧ t.waiters b = l.drop total
    ∧ (0 < min total l.length → t.flag F.BOLL_COUNT_WAITERS b = !(l.drop total).isEmpty)
    ∧ ∀ c < 16, Taker.control c ∈ l.take total →
      t.flag F.BOLL_WAIT_PENDING c = false ∧ t.flag F.IRQ_SRC_PENDING (0x30 + c) = true

/-- Bollards (R6, R453, R568 to R571, R577): counts that are posted or written go to the takers in list order; a core joins one list
at a time, and leaves without a count on CANCEL. -/
def Obligations.Bollards : Prop :=
  ∀ (s : State) (a : Agent), s.Live →
    let frame (t : State) : Prop := s.SameBut t [.regs, .irq, .sail]
      ∧ s.SameRegs t [.BOLL_COUNT, .BOLL_POST, .BOLL_WAIT, .IRQ_SRC]
    (∀ v : BitVec 32, ∃ t, exec (.bollPost a v) s = .next t
      ∧ if a = .host then Claim.hostDenied s t
        else
          let b := bits v.toNat 14 0
          let sum := s.get F.BOLL_COUNT_COUNT b + bits v.toNat 31 16
          if bits v.toNat 31 16 = 0 then t.irq.lists = s.irq.lists ∧ t.sail = s.sail ∧ s.SameCounts t [.ERR_OVERFLOW_COUNT]
          else
            Claim.CountsGiven t b (min sum 65535) (s.waiters b) ∧ (sum ≤ 65535 → frame t)
              ∧ (65535 < sum → t.count .BOLL_OVERFLOW_COUNT = min counterMax (s.count .BOLL_OVERFLOW_COUNT + 1)))
    ∧ (∀ (b : BitVec 15) (n : BitVec 16), ∃ t, exec (.bollCountWrite a b n) s = .next t
      ∧ if a = .host then Claim.hostDenied s t
        else Claim.CountsGiven t b.toNat n.toNat (s.waiters b.toNat) ∧ frame t)
    ∧ (∀ (c : Fin 16) (b : BitVec 15), ∃ t, exec (.bollWaitJoin a c b) s = .next t
      ∧ if a = .host then Claim.hostDenied s t
        else if s.flag F.BOLL_WAIT_PENDING c = true then
          s.SameBut t [.ctrs] ∧ t.count .BOLL_WAIT_BUSY_COUNT = min counterMax (s.count .BOLL_WAIT_BUSY_COUNT + 1)
        else
          let n := s.get F.BOLL_COUNT_COUNT b.toNat
          let l := s.waiters b.toNat ++ [.control c]
          Claim.CountsGiven t b.toNat n l ∧ t.flag F.BOLL_COUNT_WAITERS b.toNat = !(l.drop n).isEmpty ∧ frame t ∧ t.get F.BOLL_WAIT_INDEX c = b.toNat
            ∧ (Taker.control c ∉ l.take n → t.flag F.BOLL_WAIT_PENDING c = true))
    ∧ (∀ (c : Fin 16) (b : BitVec 15), ∃ t, exec (.bollWaitCancel a c b) s = .next t
      ∧ if a = .host then Claim.hostDenied s t
        else t.flag F.BOLL_WAIT_PENDING c = false ∧ t.get F.BOLL_WAIT_INDEX c = b.toNat
          ∧ s.SameBut t [.regs, .irq] ∧ s.SameRegs t [.BOLL_COUNT, .BOLL_WAIT]
          ∧ (∀ x < 32768, t.get F.BOLL_COUNT_COUNT x = s.get F.BOLL_COUNT_COUNT x)
          ∧ ((s.irq.lists.map (·.1)).Nodup → ∀ x, t.waiters x = (s.waiters x).filter (· ≠ .control c)))

/-- The watch (R565 to R567): a core that has not claimed SAIL_START in time, or has not kicked, has missed the sailing; the first
miss raises its WATCH source, the second resets it, and a third reset in the window retires it; with too few cores left the device
is FATAL; a restart loads a core's firmware. -/
def Obligations.TheWatch : Prop :=
  ∀ (s : State) (c : Fin 16), s.Live →
    (∃ t, exec (.watchAckDeadline c) s = .next t
      ∧ if s.stopped = false ∧ s.watched c = true ∧ bit s.irq.claimed.toNat c = false then
          t = { s with irq := { s.irq with missing := s.irq.missing ||| BitVec.ofNat 16 (2 ^ c.val) } }
        else t = s)
    ∧ (∃ t, exec (.watchKick c) s = .next t
      ∧ if s.phase < 2 then t = { s with irq := { s.irq with kicked := s.irq.kicked ||| BitVec.ofNat 16 (2 ^ c.val) } }
        else t = s)
    ∧ (∃ t, exec (.watchCoreRestart c) s = .next t
      ∧ if bit s.irq.inReset.toNat c = true then
          bit t.irq.inReset.toNat c = false ∧ t.irq.misses.get (fun _ => 0) c = 0
            ∧ t.irq.local_.get (fun _ => []) c = s.readMem (s.get F.IRQ_FW_BASE_ADDR) (s.irq.local_.get (fun _ => []) c).length
            ∧ s.SameBut t [.irq]
        else t = s)
    ∧ (∃ t, exec .watchKickDeadline s = .next t
      ∧ if s.phase = 2 then
          let missed (k : Nat) : Prop := k < 16 ∧ s.watched k = true
            ∧ (bit s.irq.missing.toNat k = true ∨ s.inCapture s.now = false ∧ bit s.irq.kicked.toNat k = false)
          let first (k : Nat) : Prop := s.irq.misses.get (fun _ => 0) k = 0
          let resets (k : Nat) := ((s.irq.resets.get (fun _ => []) k).filter fun r => decide (s.now ≤ r + s.windowSailings 4)).length
          (∀ k, missed k → bit t.irq.missing.toNat k = true
            ∧ (first k → t.irq.misses.get (fun _ => 0) k = 1 ∧ t.flag F.IRQ_SRC_PENDING k = true)
            ∧ (¬ first k → t.irq.misses.get (fun _ => 0) k = 0
              ∧ (resets k < 2 → bit t.irq.inReset.toNat k = true ∧ t.flag F.BOLL_WAIT_PENDING k = false)
              ∧ (2 ≤ resets k → bit (t.get F.SAIL_WATCH_STATUS_RETIRED) k = true ∧ t.watched k = false)))
            ∧ ((∀ k, ¬ missed k) → s.count .SAIL_WATCH_MISS_COUNT = t.count .SAIL_WATCH_MISS_COUNT
              ∧ (s.get F.SAIL_WATCH_CFG_MIN_LIVE ≤ ((List.range 16).filter s.coreLive).length → t = s))
            ∧ ((∃ k, missed k) → s.count .SAIL_WATCH_MISS_COUNT < counterMax →
              s.count .SAIL_WATCH_MISS_COUNT < t.count .SAIL_WATCH_MISS_COUNT)
            ∧ t.fatal = decide (((List.range 16).filter t.coreLive).length < s.get F.SAIL_WATCH_CFG_MIN_LIVE)
        else t = s)

/-! ### Register writes -/

/-- A register whose writes have no action of their own (R603). -/
def Claim.plainReg (r : Reg) : Prop :=
  submitReg r = none ∧ r ∉ [Reg.SAIL_TT_COMMIT, .SAIL_TAI_SECONDS, .SAIL_WATCH_KICK, .CHART_STAGE, .CKPT_CONTROL, .CFG_CONTROL,
    .CFG_PKG_FETCH, .ERR_POP, .IRQ_SRC, .IRQ_END, .BOLL_POST, .BOLL_WAIT, .BOLL_COUNT, .HOST_WIN, .HOST_CXL_WIN, .EGR_GCL]

/-- Register writes by class (R6, R26, R27, R453, R463, R483, R598, R601): RW fields take a write at once and SL fields in their
shadow, and while the device is stopped at once too; fields that a reserved encoding keeps back and locked fields do not change,
and the write is flagged; RW1C bits clear; the host writes HOST_ registers only; a store of a core goes to memory, but for the
timetable of the sailing. -/
def Obligations.RegisterWrites : Prop :=
  ∀ s : State, s.Live →
    (∀ (a : Agent) (place : WritePlace) (width : BitVec 4) (v : BitVec 64), ∃ t, exec (.registerWrite a place width v) s = .next t)
    ∧ (∀ (a : Agent) (off : BitVec 26) (v : BitVec 64) (r : Reg) (i : Nat), a ≠ .host → off.toNat % 8 = 0 →
      regWordAt off.toNat = some ⟨r, i, 0⟩ → Claim.plainReg r → r ∉ [.SAIL_STATUS, .CFG_STATUS, .ERR_STATUS, .ERR_HEAD] →
      s.stopped = false ∨ r ∉ [.CORE_LS_PWR, .EGR_GCL_CTRL, .EGR_SHAPER] →
      let m : BitVec 128 := BitVec.ofNat 128 (2 ^ 64 - 1)
      let x : BitVec 128 := v.setWidth 128
      let w := m &&& softMask r i &&& ~~~fieldsMask (s.refused r i m x)
      let live := if s.stopped then w else w &&& ~~~slMask r
      let sl := w &&& slMask r
      let clear := x &&& accMask r i (· == .RW1C)
      ∃ t, exec (.registerWrite a (.bar0 off) 8 v) s = .next t
        ∧ t.reg r i = ((s.reg r i &&& ~~~live) ||| (x &&& live)) &&& ~~~clear &&& fieldMask r
        ∧ t.shadowReg r i = ((s.shadowReg r i &&& ~~~sl) ||| (x &&& sl)) &&& (if sl = 0 then BitVec.allOnes 128 else fieldMask r)
        ∧ (s.locksOut r i m x = true → t.flag F.CFG_STATUS_LOCKED_WRITE = true
          ∧ t.count .CFG_LOCKED_WRITE_COUNT = min counterMax (s.count .CFG_LOCKED_WRITE_COUNT + 1))
        ∧ (s.locksOut r i m x = false → s.refused r i m x = [] → s.SameBut t [.regs, .shadow]
          ∧ s.SameRegs t [r, .SAIL_STATUS]))
    ∧ (∀ (off : BitVec 26) (width : BitVec 4) (v : BitVec 64), hostRegAt off.toNat = false →
      ∃ t, exec (.registerWrite .host (.bar0 off) width v) s = .next t ∧ Claim.hostDenied s t)
    ∧ (∀ (off : BitVec 20) (v : BitVec 64) (k : Nat), off.toNat = 16 * k + 8 → k < 72 → s.msixMasked k = true →
      ∃ t, exec (.registerWrite .host (.bar2 off) 8 v) s = .next t ∧ s.SameBut t [.host, .out]
        ∧ (t.host.msixTable.get msixDefault k).toNat = (s.host.msixTable.get msixDefault k).toNat % 2 ^ 64 + v.toNat * 2 ^ 64
        ∧ t.out = s.out ++ (if !bit v.toNat 32 && bit s.host.msixPending.toNat k then [.msix k] else []))
    ∧ (∀ (agent : Agent) (a : BitVec 48) (width : BitVec 4) (v : BitVec 64), agent ≠ .host → 1 ≤ width.toNat → width.toNat ≤ 8 →
      s.memRange a.toNat width.toNat = true →
      ∃ t, exec (.registerWrite agent (.device a) width v) s = .next t
        ∧ if agent ≠ .mgmt ∧ s.inTimetable a.toNat width.toNat = true then t.mem = s.mem ∧ t.ls = s.ls
          else s.Calm → t.mem = s.storedIn s.mem a.toNat (leBytes width.toNat v.toNat) ∧ s.SameBut t [.mem, .nmu, .pwr])

/-! ### Rules stated whole -/

/-- R399: a PAUSE or priority-based flow control frame is ignored and counted, and nothing is sent. -/
def Obligations.PausesAreCounted : Prop :=
  ∀ s : State, s.Live → ∃ t, exec .pauseFrame s = .next t ∧ s.SameBut t [.ctrs] ∧ s.SameCounts t [.FAB_PAUSE_RX_COUNT]
    ∧ t.count .FAB_PAUSE_RX_COUNT = min counterMax (s.count .FAB_PAUSE_RX_COUNT + 1)

/-- R433: while a queue holds MAX_FRAMES descriptors, the next frame of the class is held at its source, nothing is dropped, the
hold is counted, and no other queue is stopped. -/
def Obligations.FullQueuesHoldFrames : Prop :=
  ∀ (s : State) (p : Fin 32) (length : BitVec 16) (at_ : BitVec 40), s.Live →
    s.portUp p = false ∨ (s.egr.sending.get (fun _ => none) p).isSome = true →
    let n := queueOf p (s.get F.EGR_CFG_CTRL_TCLASS)
    s.get F.EGR_QUEUE_CFG_MAX_FRAMES n ≤ (s.queue n).frames.length →
    ∃ t, exec (.egressEnqueue (.frame p length) at_) s = .next t ∧ s.SameBut t [.egr, .ctrs] ∧ s.SameCounts t [.EGR_FULL_COUNT]
      ∧ t.queue n = { s.queue n with source := (s.queue n).source ++ [{ length := length.toNat, peer := 0, pkt := none, stamp := 0 }] }
      ∧ (∀ m, m ≠ n → t.queue m = s.queue m)
      ∧ t.count .EGR_FULL_COUNT = min counterMax (s.count .EGR_FULL_COUNT + 1)

/-- R488: start-up stops with CFG_PACKAGE_LATE when no source has answered within WAIT_S seconds of the PACKAGE stage. -/
def Obligations.LatePackageStops : Prop :=
  ∀ (s : State) (seconds : BitVec 32), s.Live → s.stage = sgPackage → s.boot.table = [] →
    (s.boot.waitS ≤ seconds.toNat → ∃ t, exec (.packageWaitExpire seconds) s = .next t ∧ Claim.Stopped t .CFG_PACKAGE_LATE)
    ∧ (seconds.toNat < s.boot.waitS → exec (.packageWaitExpire seconds) s = .next s)

/-- R495: a burn that fails its read-back stops start-up with CFG_FUSE_BURN, and its counter keeps its value. Two burns make an
advance; `good` of them read back before one fails. -/
def Obligations.FailedBurnStops : Prop :=
  ∀ (s : State) (day : BitVec 24) (good : BitVec 8) (k n : Nat), s.Live → sgMemory ≤ s.stage → s.stage ≤ sgHeld →
    s.boot.advanced = false → (∀ r ∈ s.fuses.records, r.2.2.2 = true) → good ≠ 255 → s.asked[good.toNat / 2]? = some (k, n) →
    (∀ e ∈ s.asked, e.1 ≠ 4) ∨ (s.asked = [(4, n)] ∧ s.floorMay day.toNat = true) →
    ∃ t, exec (.fuseAdvance day good) s = .next t ∧ Claim.Stopped t .CFG_FUSE_BURN ∧ t.get (lcField k) = n - 1
      ∧ t.boot.advanced = false

/-! ### What every command leaves alone -/

/-- What each command can touch at most, before anything it retires is carried out (R551): parts of the state, registers and
counters. Device resets touch everything, and so can a register write; they have no entry. -/
def Claim.touches : Instr → Option Touch
  | .sailLatch _ _ _ _ =>
    some ⟨[.chart, .core, .egr, .err, .free, .host, .irq, .lost, .ls, .mem, .nand, .nmu, .out, .pwr, .sail, .sdir,
      .sec, .shadow, .tier], Reg.all, [.EGR_GCL_REJECT_COUNT, .ERR_ESCALATE_COUNT, .ERR_OVERFLOW_COUNT,
      .ERR_RETIRE_COUNT, .NMU_COW_COPY_COUNT, .NMU_COW_STALL_COUNT, .NMU_LINE_ECC_COUNT, .PWR_TENSION_COUNT,
      .SDIR_CRC_FAIL_COUNT, .SDIR_HIT_COUNT, .SDIR_MISS_COUNT, .SDIR_TENSION_COUNT]⟩
  | .sailRun =>
    some (touchRaise.join ⟨[.hostMem], [.HOST_EVENT, .SAIL_STATUS], [.HOST_ENTRY_CRC_COUNT, .HOST_RING_FAIL_COUNT]⟩)
  | .slotIssue _ _ =>
    some (touchTileEnd.join ⟨[.core, .pwr], [.SAIL_STATUS], [.CORE_HAZARD_STALL_COUNT, .SAIL_DROP_COUNT]⟩)
  | .sailClose =>
    some (touchRaise.join ⟨[.irq, .sail], [.BOLL_COUNT, .SAIL_STATUS], [.SAIL_CARRY_COUNT, .SAIL_CARRY_FULL_COUNT,
      .SAIL_DROP_COUNT, .SAIL_STRICT_MISS_COUNT, .SAIL_TT_REJECT_COUNT]⟩)
  | .sailCloseOverrun _ => some (touchRaise.join ⟨[.sail], [.SAIL_STATUS], [.SAIL_CLOSE_OVERRUN_COUNT]⟩)
  | .ticketSetClose => some ⟨[.sealer], [.SEAL_STATUS], []⟩
  | .sealRecordWrite _ => some (touchStore.join ⟨[.free, .sealer, .sec], [.SEAL_STATUS], [.SEAL_LATE_COUNT]⟩)
  | .sailTtCommit _ _ => some ⟨[.sail], [.SAIL_TT_COMMIT], [.HOST_WRITE_DENIED_COUNT]⟩
  | .ptpMessage _ _ =>
    some (touchRaise.join ⟨[.sail], [.CFG_STATUS, .FAB_PORT_STATUS, .SAIL_STATUS, .SAIL_TIME_OFFSET],
      [.SAIL_UNLOCK_COUNT]⟩)
  | .ptpLoss => some (touchRaise.join ⟨[.sail], [.CFG_STATUS, .FAB_PORT_STATUS, .SAIL_STATUS], [.SAIL_UNLOCK_COUNT]⟩)
  | .holdoverExpire => some (touchRaise.join ⟨[.sail], [.CFG_STATUS, .SAIL_STATUS], [.SAIL_UNLOCK_COUNT]⟩)
  | .ppsEdge _ =>
    some (touchRaise.join ⟨[.sail], [.CFG_STATUS, .SAIL_STATUS, .SAIL_TIME_OFFSET], [.PKG_PPS_REJECT_COUNT,
      .SAIL_UNLOCK_COUNT]⟩)
  | .ppsLoss | .ref10mLoss | .ref10mReturn => some ⟨[.sail], [], []⟩
  | .taiSecondsWrite _ _ => some ⟨[.sail], [.SAIL_TAI_SECONDS], [.HOST_WRITE_DENIED_COUNT]⟩
  | .mm _ | .mmPrescan _ | .winMerge _ | .accAdd _ | .accRound _ | .tileAdd _ | .tileMul _ | .tileScale _ | .addRow _
  | .mulRow _ | .sumRow _ | .maxRow _ | .softmaxRow _ | .softmaxRecalc _ | .softmaxGrad _ | .rmsnorm _ | .exp2 _
  | .recip _ | .rsqrt _ | .silu _ | .siluMul _ | .convert _ | .route _ | .combine _ | .copy _ =>
    some touchTile
  | .winAdv _ => some ⟨[.core], [.CORE_STATUS, .CORE_WIN], []⟩
  | .tileComplete _ _ => some (touchTileEnd.join ⟨[.core], [], []⟩)
  | .tileTimeout _ _ | .coreParityFault _ _ => some (touchTileEnd.join ⟨[.core, .free, .lost, .ls], [], []⟩)
  | .bankAutoRetain _ _ _ | .bankAutoWake _ _ | .bankZeroDone _ _ => some ⟨[.core], [], []⟩
  | .lookup _ | .unpin _ | .setHint _ => some touchRecord
  | .admitSession _ | .admitWaitResume _ _ | .reberth _ | .crossIn _ _ | .restore _ _ _ | .crossGrant _ =>
    some touchWaiter
  | .admitWaitExpire _ _ => some (touchSend.join ⟨[.sdir], [], [.SDIR_REFUSE_COUNT]⟩)
  | .beginTurn _ | .revive _ | .pin _ =>
    some (touchRecord.join ⟨[.mct, .tier], [.BOLL_COUNT, .CHART_DRAIN, .FERRY_STATUS, .SDIR_FREE, .TIER_MOOR_STATUS],
      [.SDIR_CANCEL_COUNT]⟩)
  | .endTurn _ => some (touchRecord.join ⟨[.free], [], []⟩)
  | .moor _ | .layUp _ => some (touchRecord.join ⟨[.free], [], [.SDIR_TENSION_COUNT]⟩)
  | .sealSession _ => some (touchRecord.join ⟨[.sealer], [], []⟩)
  | .unsealBundle _ _ => some (touchRecord.join ⟨[.free, .nand, .sec], [.SEC_STATUS], [.SEC_BUNDLE_REJECT_COUNT]⟩)
  | .crossOut _ _ => some ((touchRecord.join touchSend).join ⟨[.free, .sealer, .sec], [], []⟩)
  | .crossDone _ _ _ => some (((touchImage.join touchRecord).join touchSend).join ⟨[], [.SDIR_FREE], []⟩)
  | .release _ =>
    some ((touchImage.join touchRecord).join ⟨[.mct], [.BOLL_COUNT, .CHART_DRAIN, .FERRY_STATUS, .SDIR_FREE],
      [.SDIR_CANCEL_COUNT]⟩)
  | .sdirBadOp _ => some (touchRaise.join ⟨[.irq, .sdir], [], [.SDIR_REFUSE_COUNT]⟩)
  | .revivalStart => some (touchRecord.join ⟨[], [.SDIR_FREE], []⟩)
  | .reviveDeadlineExpire _ =>
    some (touchBerth.join ⟨[.mct, .tier], [.BOLL_COUNT, .CHART_DRAIN, .FERRY_STATUS, .SDIR_LOCKED, .SDIR_STATE_COUNT,
      .TIER_MOOR_STATUS], [.SDIR_CANCEL_COUNT, .SDIR_CRC_FAIL_COUNT]⟩)
  | .shareReport _ _ _ =>
    some ((touchImage.join touchSend).join ⟨[.free, .sdir, .sealer, .sec], [.SDIR_FREE, .SDIR_LOCKED,
      .SDIR_STATE_COUNT], [.SDIR_CANCEL_COUNT, .SDIR_CRC_FAIL_COUNT, .SDIR_LAYUP_COUNT, .SDIR_MOOR_COUNT,
      .SDIR_REFUSE_COUNT, .SDIR_REVIVE_COUNT, .SDIR_TENSION_COUNT, .TIER_DIVERT_COUNT]⟩)
  | .berthOpen _ =>
    some (touchStore.join ⟨[.berth, .irq], [.BERTH_IN_USE], [.BERTH_SPEC_REFUSE_COUNT, .ERR_MANIFEST_FAIL_COUNT]⟩)
  | .berthClose _ =>
    some (touchStore.join ⟨[.berth, .irq, .mct], [.BERTH_IN_USE], [.BERTH_GLOBAL_REFUSE_COUNT,
      .BERTH_SPEC_ORPHAN_COUNT, .BERTH_SPEC_REFUSE_COUNT, .ERR_MANIFEST_FAIL_COUNT]⟩)
  | .append _ =>
    some (touchStore.join ⟨[.berth, .irq], [], [.BERTH_GLOBAL_REFUSE_COUNT, .BERTH_LAP_STALL_COUNT,
      .BERTH_SPEC_REFUSE_COUNT, .ERR_MANIFEST_FAIL_COUNT]⟩)
  | .appendLapResume _ _ =>
    some (touchStore.join ⟨[.berth, .irq], [], [.BERTH_GLOBAL_REFUSE_COUNT, .BERTH_SPEC_CANCEL_COUNT,
      .BERTH_SPEC_COMMIT_COUNT, .BERTH_SPEC_REFUSE_COUNT, .ERR_MANIFEST_FAIL_COUNT]⟩)
  | .specWrite _ | .globalClear _ =>
    some (touchStore.join ⟨[.berth, .irq], [], [.BERTH_GLOBAL_REFUSE_COUNT, .BERTH_SPEC_REFUSE_COUNT,
      .ERR_MANIFEST_FAIL_COUNT]⟩)
  | .specResolve _ =>
    some (touchStore.join ⟨[.berth, .irq], [], [.BERTH_GLOBAL_REFUSE_COUNT, .BERTH_LAP_STALL_COUNT,
      .BERTH_SPEC_CANCEL_COUNT, .BERTH_SPEC_COMMIT_COUNT, .BERTH_SPEC_REFUSE_COUNT, .ERR_MANIFEST_FAIL_COUNT]⟩)
  | .historySave _ =>
    some (touchRaise.join ⟨[.berth, .irq], [], [.BERTH_GLOBAL_REFUSE_COUNT, .BERTH_SPEC_REFUSE_COUNT,
      .ERR_MANIFEST_FAIL_COUNT]⟩)
  | .historySaveDone _ _ _ _ =>
    some (touchStore.join ⟨[.berth, .flash, .irq, .nand, .sdir, .tier], [.FLASH_STATUS], [.BERTH_HISTORY_FAIL_COUNT,
      .BERTH_SPEC_REFUSE_COUNT, .ERR_MANIFEST_FAIL_COUNT, .FERRY_LATE_COUNT, .FERRY_WRITE_FAIL_COUNT,
      .TIER_CODEC_TENSION_COUNT, .TIER_NO_SPACE_COUNT, .TIER_STORED_COUNT]⟩)
  | .globalLoad _ =>
    some (touchRaise.join ⟨[.berth, .flash, .irq], [], [.BERTH_GLOBAL_REFUSE_COUNT, .BERTH_SPEC_REFUSE_COUNT,
      .ERR_MANIFEST_FAIL_COUNT]⟩)
  | .globalLoadDone _ _ _ =>
    some (touchStore.join ⟨[.berth, .irq], [], [.BERTH_SPEC_REFUSE_COUNT, .ERR_MANIFEST_FAIL_COUNT, .FERRY_LATE_COUNT,
      .FERRY_MANIFEST_FAIL_COUNT, .FERRY_READ_FAIL_COUNT]⟩)
  | .berthBadOp _ => some (touchRaise.join ⟨[.berth, .irq], [], [.BERTH_SPEC_REFUSE_COUNT]⟩)
  | .ferryDescriptor _ _ => some (touchSubmit.join ⟨[], [.FERRY_SUBMIT], []⟩)
  | .ferryTransferStart _ =>
    some (((touchSend.join touchTransfer).join touchStore).join ⟨[.free, .hostMem, .ls, .pwr], [],
      [.ERR_MANIFEST_FAIL_COUNT]⟩)
  | .ferryTileDone _ _ _ _ _ _ =>
    some (((touchSend.join touchTransfer).join touchStore).join ⟨[.berth, .boot, .core, .flash, .free, .hostMem, .ls,
      .nand], [.BERTH_IN_USE, .CORE_LS_PWR, .FLASH_STATUS, .HOST_CXL_WIN, .HOST_EVENT, .HOST_WIN],
      [.ERR_MANIFEST_FAIL_COUNT, .TIER_CODEC_TENSION_COUNT, .TIER_NO_SPACE_COUNT, .TIER_STORED_COUNT]⟩)
  | .ferryLate _ _ =>
    some ((touchTransfer.join touchStore).join ⟨[.core, .free, .hostMem, .ls, .mct, .tier], [.CHART_DRAIN,
      .CORE_LS_PWR, .FERRY_STATUS, .TIER_MOOR_STATUS], [.ERR_MANIFEST_FAIL_COUNT, .TIER_NO_SPACE_COUNT]⟩)
  | .shareMoveStart _ =>
    some (touchImage.join ⟨[.berth, .hostMem, .irq, .mct], [.BERTH_IN_USE, .BOLL_COUNT, .CHART_DRAIN, .FERRY_STATUS],
      [.BERTH_SPEC_ORPHAN_COUNT, .ERR_MANIFEST_FAIL_COUNT, .TIER_NO_SPACE_COUNT]⟩)
  | .flashOpComplete _ _ _ _ =>
    some (touchStore.join ⟨[.ckpt, .flash, .nand], [.FLASH_LUN_STATUS, .FLASH_STATUS], [.FLASH_DIE_TRANSIENT_COUNT,
      .FLASH_ERASE_FAIL_COUNT, .FLASH_PROGRAM_FAIL_COUNT, .FLASH_RECON_COUNT, .FLASH_REFRESH_COUNT, .FLASH_RETRY_COUNT,
      .FLASH_RT_TENSION_COUNT, .FLASH_SOFT_COUNT, .FLASH_UNCORRECTABLE_COUNT]⟩)
  | .flashBusyTimeout _ => some (touchRaise.join ⟨[.flash], [], []⟩)
  | .rebuildStart => some ⟨[.err, .flash, .nand, .out], [.FLASH_LUN_STATUS, .FLASH_STATUS], []⟩
  | .gcStart => some ⟨[.flash, .nand, .out], [.FLASH_LUN_STATUS, .FLASH_STATUS], []⟩
  | .patrolRead _ _ _ _ => some ⟨[.flash, .out], [], []⟩
  | .lastPowerWrite => some ⟨[.nand], [], []⟩
  | .catchupPass => some ⟨[.flash, .out], [.FLASH_STATUS], []⟩
  | .nmuMove _ | .nmuFill _ | .nmuAdd _ | .nmuMul _ | .axpy _ | .nmuScale _ | .nmuSilu _ | .nmuSiluMul _ | .diffAdd _
  | .diffReplace _ =>
    some touchNmu
  | .nmuPieceDispatch _ =>
    some (touchStore.join ⟨[.free, .irq], [.NMU_STATUS], [.ERR_MANIFEST_FAIL_COUNT, .NMU_BRIDGE_COUNT,
      .NMU_DIGEST_FAIL_COUNT, .NMU_MANIFEST_FAIL_COUNT, .NMU_REJECT_COUNT]⟩)
  | .nmuCommandDone _ =>
    some (touchStore.join ⟨[.free, .irq, .sail], [.BOLL_COUNT, .BOLL_WAIT, .NMU_STATUS], [.BOLL_OVERFLOW_COUNT,
      .ERR_MANIFEST_FAIL_COUNT, .NMU_DIFF_COUNT, .NMU_DIGEST_FAIL_COUNT, .NMU_MANIFEST_FAIL_COUNT, .NMU_REJECT_COUNT]⟩)
  | .cowWriteHold _ _ => some (touchRaise.join ⟨[.nmu], [], [.NMU_COW_STALL_COUNT]⟩)
  | .cowCopyDone _ _ | .cowStallRelease _ => some touchStore
  | .drainFrameRead _ => some (touchStore.join ⟨[.ckpt], [.NMU_COW], []⟩)
  | .ckptCaptureStart _ => some (touchSend.join ⟨[.ckpt, .nmu], [.CKPT_CONTROL, .CKPT_STATUS], [.CKPT_SKIP_COUNT]⟩)
  | .ckptReady _ => some ⟨[], [.CKPT_CONTROL], []⟩
  | .ckptCapturePoint =>
    some ⟨[.ckpt, .nmu], [.NMU_COW, .NMU_STACK], [.CKPT_TRIM_FALLBACK_COUNT, .CKPT_TRIM_GROUP_COUNT]⟩
  | .ckptImageWritten _ =>
    some (touchSubmit.join ⟨[.egr, .free, .mct, .mem], [.CKPT_CONTROL, .CKPT_STATUS], [.EGR_CE_MARK_COUNT,
      .EGR_FULL_COUNT, .EGR_GATE_HOLD_COUNT, .EGR_NO_FIT_COUNT]⟩)
  | .ckptCaptureLate _ =>
    some (touchRaise.join ⟨[.ckpt, .egr, .mct], [.CKPT_CONTROL, .CKPT_STATUS], [.CKPT_CAPTURE_LATE_COUNT,
      .EGR_CE_MARK_COUNT, .EGR_FULL_COUNT, .EGR_GATE_HOLD_COUNT, .EGR_NO_FIT_COUNT]⟩)
  | .drainFrameReceive _ _ _ _ _ _ => some ⟨[.ckpt, .flash, .nand, .out], [.FLASH_LUN_STATUS, .FLASH_STATUS], []⟩
  | .ckptCommitRecord _ _ =>
    some ⟨[.ckpt, .flash, .nand, .out], [.FLASH_LUN_STATUS, .FLASH_STATUS], [.ERR_MANIFEST_FAIL_COUNT]⟩
  | .ckptConfirm _ _ =>
    some (touchAbandon.join ⟨[.flash, .nand], [.CKPT_COMMITTED, .FLASH_STATUS], [.CKPT_COMMIT_COUNT]⟩)
  | .ckptStallExpire | .ckptDrainExpire => some touchAbandon
  | .ckptAbandon _ => some (touchAbandon.join ⟨[], [], [.HOST_WRITE_DENIED_COUNT]⟩)
  | .ckptRestore _ _ _ =>
    some (touchRaise.join ⟨[.ckpt], [.CKPT_STATUS], [.ERR_MANIFEST_FAIL_COUNT, .HOST_WRITE_DENIED_COUNT]⟩)
  | .ckptRestoreDone _ =>
    some ⟨[.berth, .chart, .ckpt, .core, .err, .flash, .host, .irq, .lost, .ls, .mct, .mem, .nand, .nmu, .out, .rcl,
      .sail, .sdir, .sec, .shadow, .text, .tier], Reg.all, [.CKPT_RESTORE_COUNT, .ERR_ESCALATE_COUNT,
      .ERR_OVERFLOW_COUNT, .ERR_RETIRE_COUNT, .NMU_COW_COPY_COUNT, .NMU_COW_STALL_COUNT, .NMU_LINE_ECC_COUNT]⟩
  | .ckptResume _ _ _ =>
    some ⟨[.chart, .core, .egr, .err, .free, .host, .irq, .lost, .ls, .mct, .mem, .nand, .nmu, .out, .pwr, .sail,
      .sdir, .sec, .shadow, .tier], Reg.all, [.CHART_APPLY_COUNT, .EGR_CE_MARK_COUNT, .EGR_FULL_COUNT,
      .EGR_GATE_HOLD_COUNT, .EGR_GCL_REJECT_COUNT, .EGR_NO_FIT_COUNT, .ERR_ESCALATE_COUNT, .ERR_OVERFLOW_COUNT,
      .ERR_RETIRE_COUNT, .MCT_CROSS_ABORT_COUNT, .NMU_COW_COPY_COUNT, .NMU_COW_STALL_COUNT, .NMU_LINE_ECC_COUNT,
      .PWR_TENSION_COUNT, .SAIL_TT_REJECT_COUNT, .SDIR_CRC_FAIL_COUNT, .SDIR_HIT_COUNT, .SDIR_MISS_COUNT,
      .SDIR_TENSION_COUNT]⟩
  | .tokOpen _ | .textClose _ | .stopLoad _ | .textBadOp _ => some (touchRaise.join ⟨[.irq, .text], [.TEXT_STATUS], []⟩)
  | .tokFeed _ =>
    some (touchStore.join ⟨[.irq, .text], [.TEXT_STATUS], [.ERR_MANIFEST_FAIL_COUNT, .TEXT_INVALID_BYTE_COUNT,
      .TEXT_TRUNCATED_COUNT]⟩)
  | .detOpen _ | .gramPeek _ =>
    some (touchRaise.join ⟨[.boot, .irq, .text], [.TEXT_STATUS], [.ERR_MANIFEST_FAIL_COUNT]⟩)
  | .detPush _ | .detFinish _ =>
    some (touchStore.join ⟨[.boot, .irq, .text], [.TEXT_STATUS], [.ERR_MANIFEST_FAIL_COUNT, .TEXT_REPLACED_COUNT,
      .TEXT_STOP_COUNT, .TEXT_VIOLATION_COUNT]⟩)
  | .gramMask _ =>
    some (touchStore.join ⟨[.boot, .irq, .text], [.TEXT_STATUS], [.ERR_MANIFEST_FAIL_COUNT, .TEXT_DEAD_COUNT,
      .TEXT_MASK_HIT_COUNT, .TEXT_MASK_MISS_COUNT]⟩)
  | .sample _ _ =>
    some (touchStore.join ⟨[.irq, .sealer], [.SAMP_STATUS], [.ERR_MANIFEST_FAIL_COUNT, .SAMP_DEAD_END_COUNT,
      .SAMP_EMPTY_END_COUNT, .SAMP_REPLAY_MISMATCH_COUNT, .SAMP_SHORT_COUNT, .SEC_KEYSLOT_TAG_COUNT]⟩)
  | .sampCount _ => some (touchStore.join ⟨[.irq, .sealer], [.SAMP_STATUS], [.SAMP_COUNT_FULL_COUNT]⟩)
  | .sampReset _ => some (touchStore.join ⟨[.irq, .sealer], [.SAMP_STATUS], []⟩)
  | .sampBadOp _ => some (touchRaise.join ⟨[.irq, .sealer], [.SAMP_STATUS], []⟩)
  | .logAppend _ =>
    some (touchStore.join ⟨[.free, .irq, .nand, .sdir, .sealer], [.SDIR_LOCKED, .SDIR_STATE_COUNT],
      [.ERR_MANIFEST_FAIL_COUNT, .SDIR_CRC_FAIL_COUNT]⟩)
  | .ticket _ =>
    some (touchStore.join ⟨[.irq, .sdir, .sealer], [.SDIR_LOCKED, .SDIR_STATE_COUNT], [.SDIR_CRC_FAIL_COUNT,
      .SEAL_DEFER_COUNT, .SEAL_TICKET_COUNT]⟩)
  | .verdict _ =>
    some (touchStore.join ⟨[.irq, .sdir, .sealer], [.SDIR_LOCKED, .SDIR_STATE_COUNT], [.SDIR_CRC_FAIL_COUNT,
      .SEAL_DEFER_COUNT, .SEAL_VERDICT_COUNT]⟩)
  | .tenantReport _ _ _ => some (touchRaise.join ⟨[.hostMem, .irq, .sealer], [], []⟩)
  | .sealBadOp _ => some (touchRaise.join ⟨[.irq, .sealer], [], []⟩)
  | .rclCreate _ | .rclMerge _ | .rclDrop _ =>
    some (touchStore.join ⟨[.irq, .rcl], [.RCL_PIPE_STATUS, .RCL_STATUS], [.RCL_DENIED_COUNT, .RCL_QUERY_COUNT,
      .RCL_SHORT_COUNT]⟩)
  | .rclInsert _ =>
    some (touchStore.join ⟨[.irq, .rcl], [.RCL_PIPE_STATUS, .RCL_STATUS], [.ERR_MANIFEST_FAIL_COUNT, .RCL_DENIED_COUNT,
      .RCL_NODE_CRC_COUNT, .RCL_QUERY_COUNT, .RCL_SHORT_COUNT]⟩)
  | .rclDelete _ =>
    some (touchStore.join ⟨[.irq, .rcl], [.RCL_PIPE_STATUS, .RCL_STATUS], [.RCL_DENIED_COUNT, .RCL_NODE_CRC_COUNT,
      .RCL_QUERY_COUNT, .RCL_SHORT_COUNT]⟩)
  | .rclQuery _ =>
    some (touchStore.join ⟨[.free, .irq, .rcl], [.RCL_PIPE_STATUS, .RCL_STATUS], [.ERR_MANIFEST_FAIL_COUNT,
      .RCL_DENIED_COUNT, .RCL_NODE_CRC_COUNT, .RCL_QUERY_COUNT, .RCL_SHORT_COUNT]⟩)
  | .rclQueryStart _ =>
    some (touchStore.join ⟨[.free, .irq, .rcl], [.RCL_PIPE_STATUS, .RCL_STATUS], [.RCL_DENIED_COUNT,
      .RCL_NODE_CRC_COUNT, .RCL_QUERY_COUNT, .RCL_SHORT_COUNT]⟩)
  | .rclQueryDone _ =>
    some (touchStore.join ⟨[.irq, .rcl], [.CHART_DRAIN, .RCL_PIPE_STATUS, .RCL_STATUS], [.RCL_DENIED_COUNT,
      .RCL_QUERY_COUNT, .RCL_SHORT_COUNT, .RCL_WIDEN_COUNT]⟩)
  | .rclMergeDone _ =>
    some (touchStore.join ⟨[.irq, .rcl], [], [.RCL_DENIED_COUNT, .RCL_MERGE_COUNT, .RCL_NODE_CRC_COUNT,
      .RCL_QUERY_COUNT, .RCL_SHORT_COUNT]⟩)
  | .rclDropResume _ =>
    some (touchStore.join ⟨[.irq, .rcl], [], [.RCL_DENIED_COUNT, .RCL_QUERY_COUNT, .RCL_SHORT_COUNT]⟩)
  | .rclBadOp _ =>
    some (touchRaise.join ⟨[.irq, .rcl], [.RCL_PIPE_STATUS, .RCL_STATUS], [.RCL_DENIED_COUNT, .RCL_QUERY_COUNT,
      .RCL_SHORT_COUNT]⟩)
  | .chartStage _ _ =>
    some (touchRaise.join ⟨[], [.CFG_STATUS, .CHART_EFFECTIVE, .CHART_STAGE, .CHART_STATUS], [.CHART_APPLY_COUNT,
      .CHART_REJECT_COUNT, .HOST_WRITE_DENIED_COUNT]⟩)
  | .chartApply =>
    some ⟨[.chart, .free, .ls, .mct, .mem, .out], [.CHART_DRAIN, .CHART_EFFECTIVE, .CHART_ISLAND, .CHART_STATUS,
      .IRQ_SRC], [.CHART_APPLY_COUNT]⟩
  | .islandQuietRelease _ => some ⟨[.chart, .free, .ls, .mct, .mem], [.CHART_ISLAND], []⟩
  | .islandActivate _ _ => some ⟨[.chart], [.CHART_ISLAND], []⟩
  | .leaveTimeout _ =>
    some (((touchTileEnd.join touchTransfer).join touchStore).join ⟨[.berth, .core, .free, .hostMem, .ls, .mct, .rcl,
      .tier], [.BERTH_IN_USE, .CHART_DRAIN, .FERRY_STATUS, .RCL_PIPE_STATUS, .RCL_STATUS, .TIER_MOOR_STATUS],
      [.BERTH_SPEC_REFUSE_COUNT, .CHART_LEAVE_TIMEOUT_COUNT, .MCT_CROSS_ABORT_COUNT]⟩)
  | .epochRetire => some ⟨[.chart, .mct], [.CHART_DRAIN, .CHART_STATUS], []⟩
  | .mctAck _ _ _ _ _ _ | .mctRequest _ _ _ _ _ _ | .mctResponse _ _ _ _ _ _ | .tileHalf _ _ _ _ _ _
  | .peerRead _ _ _ _ _ _ | .specCommit _ _ _ _ _ _ | .specCancel _ _ _ _ _ _ | .cut _ _ _ _ _ _
  | .creditReq _ _ _ _ _ _ | .crossBegin _ _ _ _ _ _ | .crossReady _ _ _ _ _ _ | .crossHeld _ _ _ _ _ _
  | .crossCommit _ _ _ _ _ _ | .crossAbort _ _ _ _ _ _ | .crossAsk _ _ _ _ _ _ | .crossTell _ _ _ _ _ _ =>
    some touchPacket
  | .retire => some ⟨[.mct, .out], [], []⟩
  | .mctBadPacket _ _ => some ⟨[], [], [.MCT_AUTH_FAIL_COUNT, .MCT_BAD_HEADER_COUNT]⟩
  | .mctRto _ _ _ _ =>
    some ((touchAbandon.join touchSend).join ⟨[.core, .free, .hostMem, .ls], [.CORE_LS_PWR], [.ERR_MANIFEST_FAIL_COUNT,
      .MCT_PEER_LOST_COUNT, .MCT_RETX_COUNT, .MCT_RTO_COUNT, .NMU_COW_COPY_COUNT, .NMU_COW_STALL_COUNT,
      .NMU_LINE_ECC_COUNT]⟩)
  | .mctAckTimer _ _ _ =>
    some (touchRaise.join ⟨[.egr, .mct], [], [.EGR_CE_MARK_COUNT, .EGR_FULL_COUNT, .EGR_GATE_HOLD_COUNT,
      .EGR_NO_FIT_COUNT]⟩)
  | .crossWaitExpire _ _ | .egressEnqueue _ _ => some touchSend
  | .crossOutcomeExpire _ => some ⟨[.mct], [], []⟩
  | .fabLaneEvent _ _ _ _ => some (touchRaise.join ⟨[], [.CFG_STATUS, .FAB_PORT_STATUS], []⟩)
  | .portTrainDone _ _ =>
    some (touchRaise.join ⟨[.egr], [.CFG_STATUS, .FAB_PORT_STATUS], [.EGR_CE_MARK_COUNT, .EGR_GATE_HOLD_COUNT,
      .EGR_NO_FIT_COUNT]⟩)
  | .fecFrameDrop => some ⟨[], [], [.FAB_FEC_UNCORR_COUNT]⟩
  | .pauseFrame => some ⟨[], [], [.FAB_PAUSE_RX_COUNT]⟩
  | .egressSourceResume _ _ | .frameTxDone _ _ | .gateChange _ _ | .shaperCreditZero _ _ =>
    some (touchRaise.join ⟨[.egr], [], [.EGR_CE_MARK_COUNT, .EGR_GATE_HOLD_COUNT, .EGR_NO_FIT_COUNT]⟩)
  | .hostTurn _ | .hostCancel _ | .hostControl _ | .hostReplay _ => some ⟨[.host], [], []⟩
  | .cqEntryWrite _ _ _ _ _ _ _ | .ringDisable _ => some ⟨[.host, .hostMem, .out], [.HOST_EVENT], []⟩
  | .cqStallTimeout _ => some (touchRaise.join ⟨[], [], [.HOST_CQ_STALL_COUNT]⟩)
  | .ringFailTimeout _ => some (touchRaise.join ⟨[.hostMem], [.HOST_EVENT], [.HOST_RING_FAIL_COUNT]⟩)
  | .ringEnable _ => some (touchRaise.join ⟨[.hostMem], [], []⟩)
  | .winLost _ =>
    some (touchImage.join ⟨[.irq, .mct], [.BOLL_COUNT, .CHART_DRAIN, .FERRY_STATUS], [.FERRY_LATE_COUNT,
      .FERRY_MANIFEST_FAIL_COUNT, .FERRY_READ_FAIL_COUNT, .FERRY_REJECT_COUNT, .FERRY_WRITE_FAIL_COUNT,
      .TIER_NO_SPACE_COUNT]⟩)
  | .winDrain _ =>
    some (touchStore.join ⟨[.sdir], [.HOST_CXL_WIN, .HOST_WIN, .SDIR_LOCKED, .SDIR_STATE_COUNT], [.SDIR_CRC_FAIL_COUNT,
      .SDIR_TENSION_COUNT]⟩)
  | .hostLinkEvent _ _ => some (touchRaise.join ⟨[], [.HOST_LINK_STATUS], []⟩)
  | .msixUnmask _ => some ⟨[.host, .out], [], []⟩
  | .linkBReset => some ⟨[.host], [.HOST_LINK_STATUS], []⟩
  | .resetRelease _ _ => some ⟨[.boot, .free, .mct, .sdir, .sec], [.HOST_CFG, .PKG_STRAP, .SEC_STATUS], []⟩
  | .configImageSelect => some ⟨[.boot], [.CFG_CONFIG_DIGEST, .CFG_IMAGE_INFO, .CFG_STATUS, .SEC_DEVICE_DIGEST], []⟩
  | .configSectionsRead =>
    some ⟨[.boot, .chart, .err, .host, .irq, .out, .shadow], Reg.all, [.CFG_FALLBACK_COUNT, .ERR_ESCALATE_COUNT,
      .ERR_OVERFLOW_COUNT, .ERR_RETIRE_COUNT]⟩
  | .hbmTrainDone _ _ => some (touchRaise.join ⟨[.boot, .fuses], [.CFG_STATUS], []⟩)
  | .memoryZeroDone _ =>
    some (touchStore.join ⟨[.boot, .flash, .nand], [.CFG_STATUS, .FLASH_LUN_STATUS, .FLASH_STATUS, .SDIR_FREE,
      .SDIR_STATE_COUNT, .SDIR_THRESHOLD], []⟩)
  | .packageFetchStart _ => some (touchRaise.join ⟨[.boot], [.CFG_STATUS], []⟩)
  | .packageSectionLand _ _ _ => some (touchStore.join ⟨[.boot, .text], [.CFG_PKG_FETCH, .CFG_STATUS], []⟩)
  | .packageWaitExpire _ => some (touchRaise.join ⟨[], [.CFG_STATUS], []⟩)
  | .fuseAdvance _ _ => some (touchRaise.join ⟨[.boot, .fuses], [.CFG_AP_STATUS, .CFG_LC_STATUS, .CFG_STATUS], []⟩)
  | .firstSailing _ _ _ =>
    some ⟨[.chart, .core, .egr, .err, .flash, .free, .host, .irq, .lost, .ls, .mem, .nand, .nmu, .out, .pwr, .sail,
      .sdir, .sec, .shadow, .tier], Reg.all, [.EGR_GCL_REJECT_COUNT, .ERR_ESCALATE_COUNT, .ERR_OVERFLOW_COUNT,
      .ERR_RETIRE_COUNT, .NMU_COW_COPY_COUNT, .NMU_COW_STALL_COUNT, .NMU_LINE_ECC_COUNT, .PWR_TENSION_COUNT,
      .SDIR_CRC_FAIL_COUNT, .SDIR_HIT_COUNT, .SDIR_MISS_COUNT, .SDIR_TENSION_COUNT]⟩
  | .cfgGo _ => some ⟨[.boot], [.CFG_LOCKED_ADDR, .CFG_STATUS], [.CFG_LOCKED_WRITE_COUNT, .HOST_WRITE_DENIED_COUNT]⟩
  | .recoveryImage _ | .pldmUpdate _ => some ⟨[.fuses], [], []⟩
  | .pkgFetch _ _ _ => some (touchRaise.join ⟨[], [.CFG_PKG_FETCH], [.HOST_WRITE_DENIED_COUNT]⟩)
  | .spdmGetMeasurements _ _ => some ⟨[.free, .out, .sec], [], []⟩
  | .spdmGetCertificate _ _ _ | .spdmChallenge _ => some ⟨[.out], [], []⟩
  | .spdmKeyExchange _ _ _ | .spdmEndSession _ => some ⟨[.out, .sec], [.SEC_STATUS], []⟩
  | .keyLoad _ _ _ _ _ _ => some ⟨[.out, .sec], [], [.SEC_KEY_LOAD_COUNT, .SEC_SPDM_AUTH_FAIL_COUNT]⟩
  | .keyGraceExpire _ | .drbgReseed | .mkpduReceive _ _ => some ⟨[.sec], [], []⟩
  | .secEntropyFail => some (touchRaise.join ⟨[.sec], [.SEC_STATUS], [.SEC_ENTROPY_FAIL_COUNT]⟩)
  | .entropyPass =>
    some ((touchImage.join touchBerth).join ⟨[.free, .mct, .sec], [.BOLL_COUNT, .CHART_DRAIN, .FERRY_STATUS,
      .SDIR_LOCKED, .SDIR_STATE_COUNT], [.SDIR_CRC_FAIL_COUNT]⟩)
  | .hbmScrub _ _ _ | .hbmLineError _ _ _ =>
    some (touchRaise.join ⟨[.free, .lost, .mem], [.ERR_SPARE_ROWS], [.ERR_HBM_CORRECTED_COUNT,
      .ERR_HBM_UNCORRECTABLE_COUNT, .NMU_LINE_CORRECTED_COUNT]⟩)
  | .sramScrub _ _ | .sramWordError _ _ =>
    some (touchRaise.join ⟨[.lost], [], [.ERR_SRAM_CORRECTED_COUNT, .ERR_SRAM_UNCORRECTABLE_COUNT]⟩)
  | .pcRetireDone _ | .spareLaneDone _ | .domainSettle _ _ => some ⟨[.err], [], []⟩
  | .rowRemapDone _ _ => some ⟨[.err], [], [.ERR_REMAP_COUNT]⟩
  | .hbmPcFault _ _ => some touchRaise
  | .ferryParityFault _ =>
    some ((touchTransfer.join touchStore).join ⟨[.free, .hostMem, .ls, .mct, .tier], [.CHART_DRAIN, .FERRY_STATUS,
      .TIER_MOOR_STATUS], [.TIER_NO_SPACE_COUNT]⟩)
  | .causewayLaneEvent _ _ _ _ => some (touchRaise.join ⟨[], [.ERR_CAUSEWAY], []⟩)
  | .errPop _ => some ⟨[.err], [.ERR_HEAD, .ERR_STATUS], [.HOST_WRITE_DENIED_COUNT]⟩
  | .irqClaim _ _ => some ⟨[.irq], [.IRQ_SRC], [.IRQ_MASKED_CLAIM_COUNT]⟩
  | .irqMaskWrite _ _ _ => some ⟨[], [.IRQ_SRC], [.HOST_WRITE_DENIED_COUNT]⟩
  | .irqEnd _ _ _ =>
    some (touchRaise.join ⟨[], [.IRQ_END], [.ATTN_NONFINITE_COUNT, .ATTN_STEER_RANGE_COUNT, .HOST_WRITE_DENIED_COUNT,
      .IRQ_END_UNKNOWN_COUNT]⟩)
  | .cqRecordWrite _ => some (touchStore.join ⟨[.irq], [.IRQ_CQ_STATUS], [.IRQ_CQ_FULL_COUNT]⟩)
  | .bollPost _ _ =>
    some (touchRaise.join ⟨[.irq, .sail], [.BOLL_COUNT, .BOLL_POST, .BOLL_WAIT], [.BOLL_OVERFLOW_COUNT,
      .HOST_WRITE_DENIED_COUNT]⟩)
  | .bollWaitJoin _ _ _ =>
    some ⟨[.irq, .sail], [.BOLL_COUNT, .BOLL_WAIT, .IRQ_SRC], [.BOLL_WAIT_BUSY_COUNT, .HOST_WRITE_DENIED_COUNT]⟩
  | .bollWaitCancel _ _ _ => some ⟨[.irq], [.BOLL_COUNT, .BOLL_WAIT], [.HOST_WRITE_DENIED_COUNT]⟩
  | .bollCountWrite _ _ _ => some ⟨[.irq, .sail], [.BOLL_COUNT, .BOLL_WAIT, .IRQ_SRC], [.HOST_WRITE_DENIED_COUNT]⟩
  | .watchAckDeadline _ | .watchKick _ | .watchCoreRestart _ => some ⟨[.irq], [], []⟩
  | .watchKickDeadline =>
    some (touchRaise.join ⟨[.irq], [.BOLL_COUNT, .BOLL_WAIT, .SAIL_WATCH_STATUS], [.SAIL_WATCH_MISS_COUNT,
      .SAIL_WATCH_RESET_COUNT]⟩)
  | .islandPowerOff _ _ => some ⟨[.free, .mem, .pwr], [.PWR_STATUS], [.PWR_ISLAND_OFF_COUNT]⟩
  | .islandWake _ _ | .clockGate _ _ => some ⟨[.pwr], [], []⟩
  | .islandWakeDone _ => some ⟨[.pwr], [.PWR_STATUS], [.PWR_WAKE_LATE_COUNT]⟩
  | .throttleStep _ => some ⟨[.free, .pwr], [.PWR_STATUS], [.PWR_LIMIT_STEP_COUNT]⟩
  | .limitRelease _ => some ⟨[.pwr], [.PWR_STATUS], []⟩
  | .powerTrip _ => some (touchRaise.join ⟨[.pwr], [], []⟩)
  | .hostLinkTrainDone _ _ _ _ => some ⟨[.err, .host], [.HOST_LINK_STATUS], []⟩
  | .voltageLoopAdjust _ => some ⟨[], [.PWR_STATUS], []⟩
  | .cxlMemStore _ => some ⟨[], [], [.HOST_WRITE_DENIED_COUNT]⟩
  | .debugTapInstruction _ => some ⟨[], [], []⟩
  | .coldReset | .warmReset | .registerWrite _ _ _ _ => none

/-- Every command but a reset and a register write completes on every live device, a debug access with the debug lock open apart,
and leaves alone the queue and everything outside what its entry says it can touch: every other part of the state, every other
register and every other counter. Only where it retires a domain, the retirement goes on from there (R551). -/
def Obligations.CommandsTouchOnly : Prop :=
  ∀ (c : Instr) (f : Touch) (s : State), s.Live → Claim.touches c = some f → (c = .debugTapInstruction true → s.debugOpen = false) →
    ∃ t u, exec c s = .next t ∧ s.Touched u f ∧ (t = u ∨ (u.err.todo ≠ [] ∧ t = (Act.retirements 64).run u))
end

