-- ==== Sys2Proof/Laws/State.lean ====
section
/-! SUPPORT. What each primitive update does to each part of the state: one lemma per part per update, so that no proof
unfolds a record update. -/

namespace Sys2Proof.Machine

variable (s : State)

@[simp] theorem Upd.reg_pending (r : Reg) (i : Nat) (v : BitVec 128) : (Upd.apply (.reg r i v) s).pending = s.pending := by simp only [Upd.apply]; split <;> rfl
@[simp] theorem Upd.reg_regs (r : Reg) (i : Nat) (v : BitVec 128) : (Upd.apply (.reg r i v) s).regs = if i < r.info.count then s.regs.put regDefault (regKey r i) (v &&& fieldMask r) else s.regs := by simp only [Upd.apply]; split <;> rfl
@[simp] theorem Upd.reg_shadow (r : Reg) (i : Nat) (v : BitVec 128) : (Upd.apply (.reg r i v) s).shadow = s.shadow := by simp only [Upd.apply]; split <;> rfl
@[simp] theorem Upd.reg_ctrs (r : Reg) (i : Nat) (v : BitVec 128) : (Upd.apply (.reg r i v) s).ctrs = s.ctrs := by simp only [Upd.apply]; split <;> rfl
@[simp] theorem Upd.reg_mem (r : Reg) (i : Nat) (v : BitVec 128) : (Upd.apply (.reg r i v) s).mem = s.mem := by simp only [Upd.apply]; split <;> rfl
@[simp] theorem Upd.reg_ls (r : Reg) (i : Nat) (v : BitVec 128) : (Upd.apply (.reg r i v) s).ls = s.ls := by simp only [Upd.apply]; split <;> rfl
@[simp] theorem Upd.reg_hostMem (r : Reg) (i : Nat) (v : BitVec 128) : (Upd.apply (.reg r i v) s).hostMem = s.hostMem := by simp only [Upd.apply]; split <;> rfl
@[simp] theorem Upd.reg_lost (r : Reg) (i : Nat) (v : BitVec 128) : (Upd.apply (.reg r i v) s).lost = s.lost := by simp only [Upd.apply]; split <;> rfl
@[simp] theorem Upd.reg_out (r : Reg) (i : Nat) (v : BitVec 128) : (Upd.apply (.reg r i v) s).out = s.out := by simp only [Upd.apply]; split <;> rfl
@[simp] theorem Upd.reg_free (r : Reg) (i : Nat) (v : BitVec 128) : (Upd.apply (.reg r i v) s).free = s.free := by simp only [Upd.apply]; split <;> rfl
@[simp] theorem Upd.reg_sail (r : Reg) (i : Nat) (v : BitVec 128) : (Upd.apply (.reg r i v) s).sail = s.sail := by simp only [Upd.apply]; split <;> rfl
@[simp] theorem Upd.reg_core (r : Reg) (i : Nat) (v : BitVec 128) : (Upd.apply (.reg r i v) s).core = s.core := by simp only [Upd.apply]; split <;> rfl
@[simp] theorem Upd.reg_err (r : Reg) (i : Nat) (v : BitVec 128) : (Upd.apply (.reg r i v) s).err = s.err := by simp only [Upd.apply]; split <;> rfl
@[simp] theorem Upd.reg_irq (r : Reg) (i : Nat) (v : BitVec 128) : (Upd.apply (.reg r i v) s).irq = s.irq := by simp only [Upd.apply]; split <;> rfl
@[simp] theorem Upd.reg_nmu (r : Reg) (i : Nat) (v : BitVec 128) : (Upd.apply (.reg r i v) s).nmu = s.nmu := by simp only [Upd.apply]; split <;> rfl
@[simp] theorem Upd.reg_chart (r : Reg) (i : Nat) (v : BitVec 128) : (Upd.apply (.reg r i v) s).chart = s.chart := by simp only [Upd.apply]; split <;> rfl
@[simp] theorem Upd.reg_host (r : Reg) (i : Nat) (v : BitVec 128) : (Upd.apply (.reg r i v) s).host = s.host := by simp only [Upd.apply]; split <;> rfl
@[simp] theorem Upd.reg_sdir (r : Reg) (i : Nat) (v : BitVec 128) : (Upd.apply (.reg r i v) s).sdir = s.sdir := by simp only [Upd.apply]; split <;> rfl
@[simp] theorem Upd.reg_berth (r : Reg) (i : Nat) (v : BitVec 128) : (Upd.apply (.reg r i v) s).berth = s.berth := by simp only [Upd.apply]; split <;> rfl
@[simp] theorem Upd.reg_tier (r : Reg) (i : Nat) (v : BitVec 128) : (Upd.apply (.reg r i v) s).tier = s.tier := by simp only [Upd.apply]; split <;> rfl
@[simp] theorem Upd.reg_sec (r : Reg) (i : Nat) (v : BitVec 128) : (Upd.apply (.reg r i v) s).sec = s.sec := by simp only [Upd.apply]; split <;> rfl
@[simp] theorem Upd.reg_text (r : Reg) (i : Nat) (v : BitVec 128) : (Upd.apply (.reg r i v) s).text = s.text := by simp only [Upd.apply]; split <;> rfl
@[simp] theorem Upd.reg_sealer (r : Reg) (i : Nat) (v : BitVec 128) : (Upd.apply (.reg r i v) s).sealer = s.sealer := by simp only [Upd.apply]; split <;> rfl
@[simp] theorem Upd.reg_rcl (r : Reg) (i : Nat) (v : BitVec 128) : (Upd.apply (.reg r i v) s).rcl = s.rcl := by simp only [Upd.apply]; split <;> rfl
@[simp] theorem Upd.reg_nand (r : Reg) (i : Nat) (v : BitVec 128) : (Upd.apply (.reg r i v) s).nand = s.nand := by simp only [Upd.apply]; split <;> rfl
@[simp] theorem Upd.reg_flash (r : Reg) (i : Nat) (v : BitVec 128) : (Upd.apply (.reg r i v) s).flash = s.flash := by simp only [Upd.apply]; split <;> rfl
@[simp] theorem Upd.reg_fuses (r : Reg) (i : Nat) (v : BitVec 128) : (Upd.apply (.reg r i v) s).fuses = s.fuses := by simp only [Upd.apply]; split <;> rfl
@[simp] theorem Upd.reg_boot (r : Reg) (i : Nat) (v : BitVec 128) : (Upd.apply (.reg r i v) s).boot = s.boot := by simp only [Upd.apply]; split <;> rfl
@[simp] theorem Upd.reg_mct (r : Reg) (i : Nat) (v : BitVec 128) : (Upd.apply (.reg r i v) s).mct = s.mct := by simp only [Upd.apply]; split <;> rfl
@[simp] theorem Upd.reg_egr (r : Reg) (i : Nat) (v : BitVec 128) : (Upd.apply (.reg r i v) s).egr = s.egr := by simp only [Upd.apply]; split <;> rfl
@[simp] theorem Upd.reg_pwr (r : Reg) (i : Nat) (v : BitVec 128) : (Upd.apply (.reg r i v) s).pwr = s.pwr := by simp only [Upd.apply]; split <;> rfl
@[simp] theorem Upd.reg_ckpt (r : Reg) (i : Nat) (v : BitVec 128) : (Upd.apply (.reg r i v) s).ckpt = s.ckpt := by simp only [Upd.apply]; split <;> rfl

@[simp] theorem Upd.shadow_pending (r : Reg) (i : Nat) (v : BitVec 128) : (Upd.apply (.shadow r i v) s).pending = s.pending := by simp only [Upd.apply]; split <;> rfl
@[simp] theorem Upd.shadow_regs (r : Reg) (i : Nat) (v : BitVec 128) : (Upd.apply (.shadow r i v) s).regs = s.regs := by simp only [Upd.apply]; split <;> rfl
@[simp] theorem Upd.shadow_shadow (r : Reg) (i : Nat) (v : BitVec 128) : (Upd.apply (.shadow r i v) s).shadow = if i < r.info.count then s.shadow.put regDefault (regKey r i) (v &&& fieldMask r) else s.shadow := by simp only [Upd.apply]; split <;> rfl
@[simp] theorem Upd.shadow_ctrs (r : Reg) (i : Nat) (v : BitVec 128) : (Upd.apply (.shadow r i v) s).ctrs = s.ctrs := by simp only [Upd.apply]; split <;> rfl
@[simp] theorem Upd.shadow_mem (r : Reg) (i : Nat) (v : BitVec 128) : (Upd.apply (.shadow r i v) s).mem = s.mem := by simp only [Upd.apply]; split <;> rfl
@[simp] theorem Upd.shadow_ls (r : Reg) (i : Nat) (v : BitVec 128) : (Upd.apply (.shadow r i v) s).ls = s.ls := by simp only [Upd.apply]; split <;> rfl
@[simp] theorem Upd.shadow_hostMem (r : Reg) (i : Nat) (v : BitVec 128) : (Upd.apply (.shadow r i v) s).hostMem = s.hostMem := by simp only [Upd.apply]; split <;> rfl
@[simp] theorem Upd.shadow_lost (r : Reg) (i : Nat) (v : BitVec 128) : (Upd.apply (.shadow r i v) s).lost = s.lost := by simp only [Upd.apply]; split <;> rfl
@[simp] theorem Upd.shadow_out (r : Reg) (i : Nat) (v : BitVec 128) : (Upd.apply (.shadow r i v) s).out = s.out := by simp only [Upd.apply]; split <;> rfl
@[simp] theorem Upd.shadow_free (r : Reg) (i : Nat) (v : BitVec 128) : (Upd.apply (.shadow r i v) s).free = s.free := by simp only [Upd.apply]; split <;> rfl
@[simp] theorem Upd.shadow_sail (r : Reg) (i : Nat) (v : BitVec 128) : (Upd.apply (.shadow r i v) s).sail = s.sail := by simp only [Upd.apply]; split <;> rfl
@[simp] theorem Upd.shadow_core (r : Reg) (i : Nat) (v : BitVec 128) : (Upd.apply (.shadow r i v) s).core = s.core := by simp only [Upd.apply]; split <;> rfl
@[simp] theorem Upd.shadow_err (r : Reg) (i : Nat) (v : BitVec 128) : (Upd.apply (.shadow r i v) s).err = s.err := by simp only [Upd.apply]; split <;> rfl
@[simp] theorem Upd.shadow_irq (r : Reg) (i : Nat) (v : BitVec 128) : (Upd.apply (.shadow r i v) s).irq = s.irq := by simp only [Upd.apply]; split <;> rfl
@[simp] theorem Upd.shadow_nmu (r : Reg) (i : Nat) (v : BitVec 128) : (Upd.apply (.shadow r i v) s).nmu = s.nmu := by simp only [Upd.apply]; split <;> rfl
@[simp] theorem Upd.shadow_chart (r : Reg) (i : Nat) (v : BitVec 128) : (Upd.apply (.shadow r i v) s).chart = s.chart := by simp only [Upd.apply]; split <;> rfl
@[simp] theorem Upd.shadow_host (r : Reg) (i : Nat) (v : BitVec 128) : (Upd.apply (.shadow r i v) s).host = s.host := by simp only [Upd.apply]; split <;> rfl
@[simp] theorem Upd.shadow_sdir (r : Reg) (i : Nat) (v : BitVec 128) : (Upd.apply (.shadow r i v) s).sdir = s.sdir := by simp only [Upd.apply]; split <;> rfl
@[simp] theorem Upd.shadow_berth (r : Reg) (i : Nat) (v : BitVec 128) : (Upd.apply (.shadow r i v) s).berth = s.berth := by simp only [Upd.apply]; split <;> rfl
@[simp] theorem Upd.shadow_tier (r : Reg) (i : Nat) (v : BitVec 128) : (Upd.apply (.shadow r i v) s).tier = s.tier := by simp only [Upd.apply]; split <;> rfl
@[simp] theorem Upd.shadow_sec (r : Reg) (i : Nat) (v : BitVec 128) : (Upd.apply (.shadow r i v) s).sec = s.sec := by simp only [Upd.apply]; split <;> rfl
@[simp] theorem Upd.shadow_text (r : Reg) (i : Nat) (v : BitVec 128) : (Upd.apply (.shadow r i v) s).text = s.text := by simp only [Upd.apply]; split <;> rfl
@[simp] theorem Upd.shadow_sealer (r : Reg) (i : Nat) (v : BitVec 128) : (Upd.apply (.shadow r i v) s).sealer = s.sealer := by simp only [Upd.apply]; split <;> rfl
@[simp] theorem Upd.shadow_rcl (r : Reg) (i : Nat) (v : BitVec 128) : (Upd.apply (.shadow r i v) s).rcl = s.rcl := by simp only [Upd.apply]; split <;> rfl
@[simp] theorem Upd.shadow_nand (r : Reg) (i : Nat) (v : BitVec 128) : (Upd.apply (.shadow r i v) s).nand = s.nand := by simp only [Upd.apply]; split <;> rfl
@[simp] theorem Upd.shadow_flash (r : Reg) (i : Nat) (v : BitVec 128) : (Upd.apply (.shadow r i v) s).flash = s.flash := by simp only [Upd.apply]; split <;> rfl
@[simp] theorem Upd.shadow_fuses (r : Reg) (i : Nat) (v : BitVec 128) : (Upd.apply (.shadow r i v) s).fuses = s.fuses := by simp only [Upd.apply]; split <;> rfl
@[simp] theorem Upd.shadow_boot (r : Reg) (i : Nat) (v : BitVec 128) : (Upd.apply (.shadow r i v) s).boot = s.boot := by simp only [Upd.apply]; split <;> rfl
@[simp] theorem Upd.shadow_mct (r : Reg) (i : Nat) (v : BitVec 128) : (Upd.apply (.shadow r i v) s).mct = s.mct := by simp only [Upd.apply]; split <;> rfl
@[simp] theorem Upd.shadow_egr (r : Reg) (i : Nat) (v : BitVec 128) : (Upd.apply (.shadow r i v) s).egr = s.egr := by simp only [Upd.apply]; split <;> rfl
@[simp] theorem Upd.shadow_pwr (r : Reg) (i : Nat) (v : BitVec 128) : (Upd.apply (.shadow r i v) s).pwr = s.pwr := by simp only [Upd.apply]; split <;> rfl
@[simp] theorem Upd.shadow_ckpt (r : Reg) (i : Nat) (v : BitVec 128) : (Upd.apply (.shadow r i v) s).ckpt = s.ckpt := by simp only [Upd.apply]; split <;> rfl

@[simp] theorem Upd.count_pending (c : Ctr) (n : Nat) : (Upd.apply (.count c n) s).pending = s.pending := rfl
@[simp] theorem Upd.count_regs (c : Ctr) (n : Nat) : (Upd.apply (.count c n) s).regs = s.regs := rfl
@[simp] theorem Upd.count_shadow (c : Ctr) (n : Nat) : (Upd.apply (.count c n) s).shadow = s.shadow := rfl
@[simp] theorem Upd.count_ctrs (c : Ctr) (n : Nat) : (Upd.apply (.count c n) s).ctrs = s.ctrs.put (fun _ => 0) c.code (min counterMax (s.count c + n)) := rfl
@[simp] theorem Upd.count_mem (c : Ctr) (n : Nat) : (Upd.apply (.count c n) s).mem = s.mem := rfl
@[simp] theorem Upd.count_ls (c : Ctr) (n : Nat) : (Upd.apply (.count c n) s).ls = s.ls := rfl
@[simp] theorem Upd.count_hostMem (c : Ctr) (n : Nat) : (Upd.apply (.count c n) s).hostMem = s.hostMem := rfl
@[simp] theorem Upd.count_lost (c : Ctr) (n : Nat) : (Upd.apply (.count c n) s).lost = s.lost := rfl
@[simp] theorem Upd.count_out (c : Ctr) (n : Nat) : (Upd.apply (.count c n) s).out = s.out := rfl
@[simp] theorem Upd.count_free (c : Ctr) (n : Nat) : (Upd.apply (.count c n) s).free = s.free := rfl
@[simp] theorem Upd.count_sail (c : Ctr) (n : Nat) : (Upd.apply (.count c n) s).sail = s.sail := rfl
@[simp] theorem Upd.count_core (c : Ctr) (n : Nat) : (Upd.apply (.count c n) s).core = s.core := rfl
@[simp] theorem Upd.count_err (c : Ctr) (n : Nat) : (Upd.apply (.count c n) s).err = s.err := rfl
@[simp] theorem Upd.count_irq (c : Ctr) (n : Nat) : (Upd.apply (.count c n) s).irq = s.irq := rfl
@[simp] theorem Upd.count_nmu (c : Ctr) (n : Nat) : (Upd.apply (.count c n) s).nmu = s.nmu := rfl
@[simp] theorem Upd.count_chart (c : Ctr) (n : Nat) : (Upd.apply (.count c n) s).chart = s.chart := rfl
@[simp] theorem Upd.count_host (c : Ctr) (n : Nat) : (Upd.apply (.count c n) s).host = s.host := rfl
@[simp] theorem Upd.count_sdir (c : Ctr) (n : Nat) : (Upd.apply (.count c n) s).sdir = s.sdir := rfl
@[simp] theorem Upd.count_berth (c : Ctr) (n : Nat) : (Upd.apply (.count c n) s).berth = s.berth := rfl
@[simp] theorem Upd.count_tier (c : Ctr) (n : Nat) : (Upd.apply (.count c n) s).tier = s.tier := rfl
@[simp] theorem Upd.count_sec (c : Ctr) (n : Nat) : (Upd.apply (.count c n) s).sec = s.sec := rfl
@[simp] theorem Upd.count_text (c : Ctr) (n : Nat) : (Upd.apply (.count c n) s).text = s.text := rfl
@[simp] theorem Upd.count_sealer (c : Ctr) (n : Nat) : (Upd.apply (.count c n) s).sealer = s.sealer := rfl
@[simp] theorem Upd.count_rcl (c : Ctr) (n : Nat) : (Upd.apply (.count c n) s).rcl = s.rcl := rfl
@[simp] theorem Upd.count_nand (c : Ctr) (n : Nat) : (Upd.apply (.count c n) s).nand = s.nand := rfl
@[simp] theorem Upd.count_flash (c : Ctr) (n : Nat) : (Upd.apply (.count c n) s).flash = s.flash := rfl
@[simp] theorem Upd.count_fuses (c : Ctr) (n : Nat) : (Upd.apply (.count c n) s).fuses = s.fuses := rfl
@[simp] theorem Upd.count_boot (c : Ctr) (n : Nat) : (Upd.apply (.count c n) s).boot = s.boot := rfl
@[simp] theorem Upd.count_mct (c : Ctr) (n : Nat) : (Upd.apply (.count c n) s).mct = s.mct := rfl
@[simp] theorem Upd.count_egr (c : Ctr) (n : Nat) : (Upd.apply (.count c n) s).egr = s.egr := rfl
@[simp] theorem Upd.count_pwr (c : Ctr) (n : Nat) : (Upd.apply (.count c n) s).pwr = s.pwr := rfl
@[simp] theorem Upd.count_ckpt (c : Ctr) (n : Nat) : (Upd.apply (.count c n) s).ckpt = s.ckpt := rfl

@[simp] theorem Upd.mem_pending (a : Nat) (bs : List Byte) : (Upd.apply (.mem a bs) s).pending = s.pending := rfl
@[simp] theorem Upd.mem_regs (a : Nat) (bs : List Byte) : (Upd.apply (.mem a bs) s).regs = s.regs := rfl
@[simp] theorem Upd.mem_shadow (a : Nat) (bs : List Byte) : (Upd.apply (.mem a bs) s).shadow = s.shadow := rfl
@[simp] theorem Upd.mem_ctrs (a : Nat) (bs : List Byte) : (Upd.apply (.mem a bs) s).ctrs = s.ctrs := rfl
@[simp] theorem Upd.mem_mem (a : Nat) (bs : List Byte) : (Upd.apply (.mem a bs) s).mem = SMap.putList memDefault s.mem a bs := rfl
@[simp] theorem Upd.mem_ls (a : Nat) (bs : List Byte) : (Upd.apply (.mem a bs) s).ls = s.ls := rfl
@[simp] theorem Upd.mem_hostMem (a : Nat) (bs : List Byte) : (Upd.apply (.mem a bs) s).hostMem = s.hostMem := rfl
@[simp] theorem Upd.mem_lost (a : Nat) (bs : List Byte) : (Upd.apply (.mem a bs) s).lost = s.lost := rfl
@[simp] theorem Upd.mem_out (a : Nat) (bs : List Byte) : (Upd.apply (.mem a bs) s).out = s.out := rfl
@[simp] theorem Upd.mem_free (a : Nat) (bs : List Byte) : (Upd.apply (.mem a bs) s).free = s.free := rfl
@[simp] theorem Upd.mem_sail (a : Nat) (bs : List Byte) : (Upd.apply (.mem a bs) s).sail = s.sail := rfl
@[simp] theorem Upd.mem_core (a : Nat) (bs : List Byte) : (Upd.apply (.mem a bs) s).core = s.core := rfl
@[simp] theorem Upd.mem_err (a : Nat) (bs : List Byte) : (Upd.apply (.mem a bs) s).err = s.err := rfl
@[simp] theorem Upd.mem_irq (a : Nat) (bs : List Byte) : (Upd.apply (.mem a bs) s).irq = s.irq := rfl
@[simp] theorem Upd.mem_nmu (a : Nat) (bs : List Byte) : (Upd.apply (.mem a bs) s).nmu = s.nmu := rfl
@[simp] theorem Upd.mem_chart (a : Nat) (bs : List Byte) : (Upd.apply (.mem a bs) s).chart = s.chart := rfl
@[simp] theorem Upd.mem_host (a : Nat) (bs : List Byte) : (Upd.apply (.mem a bs) s).host = s.host := rfl
@[simp] theorem Upd.mem_sdir (a : Nat) (bs : List Byte) : (Upd.apply (.mem a bs) s).sdir = s.sdir := rfl
@[simp] theorem Upd.mem_berth (a : Nat) (bs : List Byte) : (Upd.apply (.mem a bs) s).berth = s.berth := rfl
@[simp] theorem Upd.mem_tier (a : Nat) (bs : List Byte) : (Upd.apply (.mem a bs) s).tier = s.tier := rfl
@[simp] theorem Upd.mem_sec (a : Nat) (bs : List Byte) : (Upd.apply (.mem a bs) s).sec = s.sec := rfl
@[simp] theorem Upd.mem_text (a : Nat) (bs : List Byte) : (Upd.apply (.mem a bs) s).text = s.text := rfl
@[simp] theorem Upd.mem_sealer (a : Nat) (bs : List Byte) : (Upd.apply (.mem a bs) s).sealer = s.sealer := rfl
@[simp] theorem Upd.mem_rcl (a : Nat) (bs : List Byte) : (Upd.apply (.mem a bs) s).rcl = s.rcl := rfl
@[simp] theorem Upd.mem_nand (a : Nat) (bs : List Byte) : (Upd.apply (.mem a bs) s).nand = s.nand := rfl
@[simp] theorem Upd.mem_flash (a : Nat) (bs : List Byte) : (Upd.apply (.mem a bs) s).flash = s.flash := rfl
@[simp] theorem Upd.mem_fuses (a : Nat) (bs : List Byte) : (Upd.apply (.mem a bs) s).fuses = s.fuses := rfl
@[simp] theorem Upd.mem_boot (a : Nat) (bs : List Byte) : (Upd.apply (.mem a bs) s).boot = s.boot := rfl
@[simp] theorem Upd.mem_mct (a : Nat) (bs : List Byte) : (Upd.apply (.mem a bs) s).mct = s.mct := rfl
@[simp] theorem Upd.mem_egr (a : Nat) (bs : List Byte) : (Upd.apply (.mem a bs) s).egr = s.egr := rfl
@[simp] theorem Upd.mem_pwr (a : Nat) (bs : List Byte) : (Upd.apply (.mem a bs) s).pwr = s.pwr := rfl
@[simp] theorem Upd.mem_ckpt (a : Nat) (bs : List Byte) : (Upd.apply (.mem a bs) s).ckpt = s.ckpt := rfl

@[simp] theorem Upd.ls_pending (c a : Nat) (bs : List Byte) : (Upd.apply (.ls c a bs) s).pending = s.pending := rfl
@[simp] theorem Upd.ls_regs (c a : Nat) (bs : List Byte) : (Upd.apply (.ls c a bs) s).regs = s.regs := rfl
@[simp] theorem Upd.ls_shadow (c a : Nat) (bs : List Byte) : (Upd.apply (.ls c a bs) s).shadow = s.shadow := rfl
@[simp] theorem Upd.ls_ctrs (c a : Nat) (bs : List Byte) : (Upd.apply (.ls c a bs) s).ctrs = s.ctrs := rfl
@[simp] theorem Upd.ls_mem (c a : Nat) (bs : List Byte) : (Upd.apply (.ls c a bs) s).mem = s.mem := rfl
@[simp] theorem Upd.ls_ls (c a : Nat) (bs : List Byte) : (Upd.apply (.ls c a bs) s).ls = SMap.putList memDefault s.ls (lsKey c a) bs := rfl
@[simp] theorem Upd.ls_hostMem (c a : Nat) (bs : List Byte) : (Upd.apply (.ls c a bs) s).hostMem = s.hostMem := rfl
@[simp] theorem Upd.ls_lost (c a : Nat) (bs : List Byte) : (Upd.apply (.ls c a bs) s).lost = s.lost := rfl
@[simp] theorem Upd.ls_out (c a : Nat) (bs : List Byte) : (Upd.apply (.ls c a bs) s).out = s.out := rfl
@[simp] theorem Upd.ls_free (c a : Nat) (bs : List Byte) : (Upd.apply (.ls c a bs) s).free = s.free := rfl
@[simp] theorem Upd.ls_sail (c a : Nat) (bs : List Byte) : (Upd.apply (.ls c a bs) s).sail = s.sail := rfl
@[simp] theorem Upd.ls_core (c a : Nat) (bs : List Byte) : (Upd.apply (.ls c a bs) s).core = s.core := rfl
@[simp] theorem Upd.ls_err (c a : Nat) (bs : List Byte) : (Upd.apply (.ls c a bs) s).err = s.err := rfl
@[simp] theorem Upd.ls_irq (c a : Nat) (bs : List Byte) : (Upd.apply (.ls c a bs) s).irq = s.irq := rfl
@[simp] theorem Upd.ls_nmu (c a : Nat) (bs : List Byte) : (Upd.apply (.ls c a bs) s).nmu = s.nmu := rfl
@[simp] theorem Upd.ls_chart (c a : Nat) (bs : List Byte) : (Upd.apply (.ls c a bs) s).chart = s.chart := rfl
@[simp] theorem Upd.ls_host (c a : Nat) (bs : List Byte) : (Upd.apply (.ls c a bs) s).host = s.host := rfl
@[simp] theorem Upd.ls_sdir (c a : Nat) (bs : List Byte) : (Upd.apply (.ls c a bs) s).sdir = s.sdir := rfl
@[simp] theorem Upd.ls_berth (c a : Nat) (bs : List Byte) : (Upd.apply (.ls c a bs) s).berth = s.berth := rfl
@[simp] theorem Upd.ls_tier (c a : Nat) (bs : List Byte) : (Upd.apply (.ls c a bs) s).tier = s.tier := rfl
@[simp] theorem Upd.ls_sec (c a : Nat) (bs : List Byte) : (Upd.apply (.ls c a bs) s).sec = s.sec := rfl
@[simp] theorem Upd.ls_text (c a : Nat) (bs : List Byte) : (Upd.apply (.ls c a bs) s).text = s.text := rfl
@[simp] theorem Upd.ls_sealer (c a : Nat) (bs : List Byte) : (Upd.apply (.ls c a bs) s).sealer = s.sealer := rfl
@[simp] theorem Upd.ls_rcl (c a : Nat) (bs : List Byte) : (Upd.apply (.ls c a bs) s).rcl = s.rcl := rfl
@[simp] theorem Upd.ls_nand (c a : Nat) (bs : List Byte) : (Upd.apply (.ls c a bs) s).nand = s.nand := rfl
@[simp] theorem Upd.ls_flash (c a : Nat) (bs : List Byte) : (Upd.apply (.ls c a bs) s).flash = s.flash := rfl
@[simp] theorem Upd.ls_fuses (c a : Nat) (bs : List Byte) : (Upd.apply (.ls c a bs) s).fuses = s.fuses := rfl
@[simp] theorem Upd.ls_boot (c a : Nat) (bs : List Byte) : (Upd.apply (.ls c a bs) s).boot = s.boot := rfl
@[simp] theorem Upd.ls_mct (c a : Nat) (bs : List Byte) : (Upd.apply (.ls c a bs) s).mct = s.mct := rfl
@[simp] theorem Upd.ls_egr (c a : Nat) (bs : List Byte) : (Upd.apply (.ls c a bs) s).egr = s.egr := rfl
@[simp] theorem Upd.ls_pwr (c a : Nat) (bs : List Byte) : (Upd.apply (.ls c a bs) s).pwr = s.pwr := rfl
@[simp] theorem Upd.ls_ckpt (c a : Nat) (bs : List Byte) : (Upd.apply (.ls c a bs) s).ckpt = s.ckpt := rfl

@[simp] theorem Upd.hostMem_pending (a : Nat) (bs : List Byte) : (Upd.apply (.hostMem a bs) s).pending = s.pending := rfl
@[simp] theorem Upd.hostMem_regs (a : Nat) (bs : List Byte) : (Upd.apply (.hostMem a bs) s).regs = s.regs := rfl
@[simp] theorem Upd.hostMem_shadow (a : Nat) (bs : List Byte) : (Upd.apply (.hostMem a bs) s).shadow = s.shadow := rfl
@[simp] theorem Upd.hostMem_ctrs (a : Nat) (bs : List Byte) : (Upd.apply (.hostMem a bs) s).ctrs = s.ctrs := rfl
@[simp] theorem Upd.hostMem_mem (a : Nat) (bs : List Byte) : (Upd.apply (.hostMem a bs) s).mem = s.mem := rfl
@[simp] theorem Upd.hostMem_ls (a : Nat) (bs : List Byte) : (Upd.apply (.hostMem a bs) s).ls = s.ls := rfl
@[simp] theorem Upd.hostMem_hostMem (a : Nat) (bs : List Byte) : (Upd.apply (.hostMem a bs) s).hostMem = SMap.putList memDefault s.hostMem a bs := rfl
@[simp] theorem Upd.hostMem_lost (a : Nat) (bs : List Byte) : (Upd.apply (.hostMem a bs) s).lost = s.lost := rfl
@[simp] theorem Upd.hostMem_out (a : Nat) (bs : List Byte) : (Upd.apply (.hostMem a bs) s).out = s.out := rfl
@[simp] theorem Upd.hostMem_free (a : Nat) (bs : List Byte) : (Upd.apply (.hostMem a bs) s).free = s.free := rfl
@[simp] theorem Upd.hostMem_sail (a : Nat) (bs : List Byte) : (Upd.apply (.hostMem a bs) s).sail = s.sail := rfl
@[simp] theorem Upd.hostMem_core (a : Nat) (bs : List Byte) : (Upd.apply (.hostMem a bs) s).core = s.core := rfl
@[simp] theorem Upd.hostMem_err (a : Nat) (bs : List Byte) : (Upd.apply (.hostMem a bs) s).err = s.err := rfl
@[simp] theorem Upd.hostMem_irq (a : Nat) (bs : List Byte) : (Upd.apply (.hostMem a bs) s).irq = s.irq := rfl
@[simp] theorem Upd.hostMem_nmu (a : Nat) (bs : List Byte) : (Upd.apply (.hostMem a bs) s).nmu = s.nmu := rfl
@[simp] theorem Upd.hostMem_chart (a : Nat) (bs : List Byte) : (Upd.apply (.hostMem a bs) s).chart = s.chart := rfl
@[simp] theorem Upd.hostMem_host (a : Nat) (bs : List Byte) : (Upd.apply (.hostMem a bs) s).host = s.host := rfl
@[simp] theorem Upd.hostMem_sdir (a : Nat) (bs : List Byte) : (Upd.apply (.hostMem a bs) s).sdir = s.sdir := rfl
@[simp] theorem Upd.hostMem_berth (a : Nat) (bs : List Byte) : (Upd.apply (.hostMem a bs) s).berth = s.berth := rfl
@[simp] theorem Upd.hostMem_tier (a : Nat) (bs : List Byte) : (Upd.apply (.hostMem a bs) s).tier = s.tier := rfl
@[simp] theorem Upd.hostMem_sec (a : Nat) (bs : List Byte) : (Upd.apply (.hostMem a bs) s).sec = s.sec := rfl
@[simp] theorem Upd.hostMem_text (a : Nat) (bs : List Byte) : (Upd.apply (.hostMem a bs) s).text = s.text := rfl
@[simp] theorem Upd.hostMem_sealer (a : Nat) (bs : List Byte) : (Upd.apply (.hostMem a bs) s).sealer = s.sealer := rfl
@[simp] theorem Upd.hostMem_rcl (a : Nat) (bs : List Byte) : (Upd.apply (.hostMem a bs) s).rcl = s.rcl := rfl
@[simp] theorem Upd.hostMem_nand (a : Nat) (bs : List Byte) : (Upd.apply (.hostMem a bs) s).nand = s.nand := rfl
@[simp] theorem Upd.hostMem_flash (a : Nat) (bs : List Byte) : (Upd.apply (.hostMem a bs) s).flash = s.flash := rfl
@[simp] theorem Upd.hostMem_fuses (a : Nat) (bs : List Byte) : (Upd.apply (.hostMem a bs) s).fuses = s.fuses := rfl
@[simp] theorem Upd.hostMem_boot (a : Nat) (bs : List Byte) : (Upd.apply (.hostMem a bs) s).boot = s.boot := rfl
@[simp] theorem Upd.hostMem_mct (a : Nat) (bs : List Byte) : (Upd.apply (.hostMem a bs) s).mct = s.mct := rfl
@[simp] theorem Upd.hostMem_egr (a : Nat) (bs : List Byte) : (Upd.apply (.hostMem a bs) s).egr = s.egr := rfl
@[simp] theorem Upd.hostMem_pwr (a : Nat) (bs : List Byte) : (Upd.apply (.hostMem a bs) s).pwr = s.pwr := rfl
@[simp] theorem Upd.hostMem_ckpt (a : Nat) (bs : List Byte) : (Upd.apply (.hostMem a bs) s).ckpt = s.ckpt := rfl

@[simp] theorem Upd.wipe_pending (lo hi : Nat) : (Upd.apply (.wipe lo hi) s).pending = s.pending := rfl
@[simp] theorem Upd.wipe_regs (lo hi : Nat) : (Upd.apply (.wipe lo hi) s).regs = s.regs := rfl
@[simp] theorem Upd.wipe_shadow (lo hi : Nat) : (Upd.apply (.wipe lo hi) s).shadow = s.shadow := rfl
@[simp] theorem Upd.wipe_ctrs (lo hi : Nat) : (Upd.apply (.wipe lo hi) s).ctrs = s.ctrs := rfl
@[simp] theorem Upd.wipe_mem (lo hi : Nat) : (Upd.apply (.wipe lo hi) s).mem = s.mem.filter fun e => decide (e.1 < lo) || decide (hi ≤ e.1) := rfl
@[simp] theorem Upd.wipe_ls (lo hi : Nat) : (Upd.apply (.wipe lo hi) s).ls = s.ls := rfl
@[simp] theorem Upd.wipe_hostMem (lo hi : Nat) : (Upd.apply (.wipe lo hi) s).hostMem = s.hostMem := rfl
@[simp] theorem Upd.wipe_lost (lo hi : Nat) : (Upd.apply (.wipe lo hi) s).lost = s.lost := rfl
@[simp] theorem Upd.wipe_out (lo hi : Nat) : (Upd.apply (.wipe lo hi) s).out = s.out := rfl
@[simp] theorem Upd.wipe_free (lo hi : Nat) : (Upd.apply (.wipe lo hi) s).free = s.free := rfl
@[simp] theorem Upd.wipe_sail (lo hi : Nat) : (Upd.apply (.wipe lo hi) s).sail = s.sail := rfl
@[simp] theorem Upd.wipe_core (lo hi : Nat) : (Upd.apply (.wipe lo hi) s).core = s.core := rfl
@[simp] theorem Upd.wipe_err (lo hi : Nat) : (Upd.apply (.wipe lo hi) s).err = s.err := rfl
@[simp] theorem Upd.wipe_irq (lo hi : Nat) : (Upd.apply (.wipe lo hi) s).irq = s.irq := rfl
@[simp] theorem Upd.wipe_nmu (lo hi : Nat) : (Upd.apply (.wipe lo hi) s).nmu = s.nmu := rfl
@[simp] theorem Upd.wipe_chart (lo hi : Nat) : (Upd.apply (.wipe lo hi) s).chart = s.chart := rfl
@[simp] theorem Upd.wipe_host (lo hi : Nat) : (Upd.apply (.wipe lo hi) s).host = s.host := rfl
@[simp] theorem Upd.wipe_sdir (lo hi : Nat) : (Upd.apply (.wipe lo hi) s).sdir = s.sdir := rfl
@[simp] theorem Upd.wipe_berth (lo hi : Nat) : (Upd.apply (.wipe lo hi) s).berth = s.berth := rfl
@[simp] theorem Upd.wipe_tier (lo hi : Nat) : (Upd.apply (.wipe lo hi) s).tier = s.tier := rfl
@[simp] theorem Upd.wipe_sec (lo hi : Nat) : (Upd.apply (.wipe lo hi) s).sec = s.sec := rfl
@[simp] theorem Upd.wipe_text (lo hi : Nat) : (Upd.apply (.wipe lo hi) s).text = s.text := rfl
@[simp] theorem Upd.wipe_sealer (lo hi : Nat) : (Upd.apply (.wipe lo hi) s).sealer = s.sealer := rfl
@[simp] theorem Upd.wipe_rcl (lo hi : Nat) : (Upd.apply (.wipe lo hi) s).rcl = s.rcl := rfl
@[simp] theorem Upd.wipe_nand (lo hi : Nat) : (Upd.apply (.wipe lo hi) s).nand = s.nand := rfl
@[simp] theorem Upd.wipe_flash (lo hi : Nat) : (Upd.apply (.wipe lo hi) s).flash = s.flash := rfl
@[simp] theorem Upd.wipe_fuses (lo hi : Nat) : (Upd.apply (.wipe lo hi) s).fuses = s.fuses := rfl
@[simp] theorem Upd.wipe_boot (lo hi : Nat) : (Upd.apply (.wipe lo hi) s).boot = s.boot := rfl
@[simp] theorem Upd.wipe_mct (lo hi : Nat) : (Upd.apply (.wipe lo hi) s).mct = s.mct := rfl
@[simp] theorem Upd.wipe_egr (lo hi : Nat) : (Upd.apply (.wipe lo hi) s).egr = s.egr := rfl
@[simp] theorem Upd.wipe_pwr (lo hi : Nat) : (Upd.apply (.wipe lo hi) s).pwr = s.pwr := rfl
@[simp] theorem Upd.wipe_ckpt (lo hi : Nat) : (Upd.apply (.wipe lo hi) s).ckpt = s.ckpt := rfl

@[simp] theorem Upd.wipeLs_pending (c lo hi : Nat) : (Upd.apply (.wipeLs c lo hi) s).pending = s.pending := rfl
@[simp] theorem Upd.wipeLs_regs (c lo hi : Nat) : (Upd.apply (.wipeLs c lo hi) s).regs = s.regs := rfl
@[simp] theorem Upd.wipeLs_shadow (c lo hi : Nat) : (Upd.apply (.wipeLs c lo hi) s).shadow = s.shadow := rfl
@[simp] theorem Upd.wipeLs_ctrs (c lo hi : Nat) : (Upd.apply (.wipeLs c lo hi) s).ctrs = s.ctrs := rfl
@[simp] theorem Upd.wipeLs_mem (c lo hi : Nat) : (Upd.apply (.wipeLs c lo hi) s).mem = s.mem := rfl
@[simp] theorem Upd.wipeLs_ls (c lo hi : Nat) : (Upd.apply (.wipeLs c lo hi) s).ls = s.ls.filter fun e => decide (e.1 < lsKey c lo) || decide (lsKey c hi ≤ e.1) := rfl
@[simp] theorem Upd.wipeLs_hostMem (c lo hi : Nat) : (Upd.apply (.wipeLs c lo hi) s).hostMem = s.hostMem := rfl
@[simp] theorem Upd.wipeLs_lost (c lo hi : Nat) : (Upd.apply (.wipeLs c lo hi) s).lost = s.lost := rfl
@[simp] theorem Upd.wipeLs_out (c lo hi : Nat) : (Upd.apply (.wipeLs c lo hi) s).out = s.out := rfl
@[simp] theorem Upd.wipeLs_free (c lo hi : Nat) : (Upd.apply (.wipeLs c lo hi) s).free = s.free := rfl
@[simp] theorem Upd.wipeLs_sail (c lo hi : Nat) : (Upd.apply (.wipeLs c lo hi) s).sail = s.sail := rfl
@[simp] theorem Upd.wipeLs_core (c lo hi : Nat) : (Upd.apply (.wipeLs c lo hi) s).core = s.core := rfl
@[simp] theorem Upd.wipeLs_err (c lo hi : Nat) : (Upd.apply (.wipeLs c lo hi) s).err = s.err := rfl
@[simp] theorem Upd.wipeLs_irq (c lo hi : Nat) : (Upd.apply (.wipeLs c lo hi) s).irq = s.irq := rfl
@[simp] theorem Upd.wipeLs_nmu (c lo hi : Nat) : (Upd.apply (.wipeLs c lo hi) s).nmu = s.nmu := rfl
@[simp] theorem Upd.wipeLs_chart (c lo hi : Nat) : (Upd.apply (.wipeLs c lo hi) s).chart = s.chart := rfl
@[simp] theorem Upd.wipeLs_host (c lo hi : Nat) : (Upd.apply (.wipeLs c lo hi) s).host = s.host := rfl
@[simp] theorem Upd.wipeLs_sdir (c lo hi : Nat) : (Upd.apply (.wipeLs c lo hi) s).sdir = s.sdir := rfl
@[simp] theorem Upd.wipeLs_berth (c lo hi : Nat) : (Upd.apply (.wipeLs c lo hi) s).berth = s.berth := rfl
@[simp] theorem Upd.wipeLs_tier (c lo hi : Nat) : (Upd.apply (.wipeLs c lo hi) s).tier = s.tier := rfl
@[simp] theorem Upd.wipeLs_sec (c lo hi : Nat) : (Upd.apply (.wipeLs c lo hi) s).sec = s.sec := rfl
@[simp] theorem Upd.wipeLs_text (c lo hi : Nat) : (Upd.apply (.wipeLs c lo hi) s).text = s.text := rfl
@[simp] theorem Upd.wipeLs_sealer (c lo hi : Nat) : (Upd.apply (.wipeLs c lo hi) s).sealer = s.sealer := rfl
@[simp] theorem Upd.wipeLs_rcl (c lo hi : Nat) : (Upd.apply (.wipeLs c lo hi) s).rcl = s.rcl := rfl
@[simp] theorem Upd.wipeLs_nand (c lo hi : Nat) : (Upd.apply (.wipeLs c lo hi) s).nand = s.nand := rfl
@[simp] theorem Upd.wipeLs_flash (c lo hi : Nat) : (Upd.apply (.wipeLs c lo hi) s).flash = s.flash := rfl
@[simp] theorem Upd.wipeLs_fuses (c lo hi : Nat) : (Upd.apply (.wipeLs c lo hi) s).fuses = s.fuses := rfl
@[simp] theorem Upd.wipeLs_boot (c lo hi : Nat) : (Upd.apply (.wipeLs c lo hi) s).boot = s.boot := rfl
@[simp] theorem Upd.wipeLs_mct (c lo hi : Nat) : (Upd.apply (.wipeLs c lo hi) s).mct = s.mct := rfl
@[simp] theorem Upd.wipeLs_egr (c lo hi : Nat) : (Upd.apply (.wipeLs c lo hi) s).egr = s.egr := rfl
@[simp] theorem Upd.wipeLs_pwr (c lo hi : Nat) : (Upd.apply (.wipeLs c lo hi) s).pwr = s.pwr := rfl
@[simp] theorem Upd.wipeLs_ckpt (c lo hi : Nat) : (Upd.apply (.wipeLs c lo hi) s).ckpt = s.ckpt := rfl

@[simp] theorem Upd.lost_pending (a : Nat) (b : Bool) : (Upd.apply (.lost a b) s).pending = s.pending := rfl
@[simp] theorem Upd.lost_regs (a : Nat) (b : Bool) : (Upd.apply (.lost a b) s).regs = s.regs := rfl
@[simp] theorem Upd.lost_shadow (a : Nat) (b : Bool) : (Upd.apply (.lost a b) s).shadow = s.shadow := rfl
@[simp] theorem Upd.lost_ctrs (a : Nat) (b : Bool) : (Upd.apply (.lost a b) s).ctrs = s.ctrs := rfl
@[simp] theorem Upd.lost_mem (a : Nat) (b : Bool) : (Upd.apply (.lost a b) s).mem = s.mem := rfl
@[simp] theorem Upd.lost_ls (a : Nat) (b : Bool) : (Upd.apply (.lost a b) s).ls = s.ls := rfl
@[simp] theorem Upd.lost_hostMem (a : Nat) (b : Bool) : (Upd.apply (.lost a b) s).hostMem = s.hostMem := rfl
@[simp] theorem Upd.lost_lost (a : Nat) (b : Bool) : (Upd.apply (.lost a b) s).lost = s.lost.put (fun _ => false) a b := rfl
@[simp] theorem Upd.lost_out (a : Nat) (b : Bool) : (Upd.apply (.lost a b) s).out = s.out := rfl
@[simp] theorem Upd.lost_free (a : Nat) (b : Bool) : (Upd.apply (.lost a b) s).free = s.free := rfl
@[simp] theorem Upd.lost_sail (a : Nat) (b : Bool) : (Upd.apply (.lost a b) s).sail = s.sail := rfl
@[simp] theorem Upd.lost_core (a : Nat) (b : Bool) : (Upd.apply (.lost a b) s).core = s.core := rfl
@[simp] theorem Upd.lost_err (a : Nat) (b : Bool) : (Upd.apply (.lost a b) s).err = s.err := rfl
@[simp] theorem Upd.lost_irq (a : Nat) (b : Bool) : (Upd.apply (.lost a b) s).irq = s.irq := rfl
@[simp] theorem Upd.lost_nmu (a : Nat) (b : Bool) : (Upd.apply (.lost a b) s).nmu = s.nmu := rfl
@[simp] theorem Upd.lost_chart (a : Nat) (b : Bool) : (Upd.apply (.lost a b) s).chart = s.chart := rfl
@[simp] theorem Upd.lost_host (a : Nat) (b : Bool) : (Upd.apply (.lost a b) s).host = s.host := rfl
@[simp] theorem Upd.lost_sdir (a : Nat) (b : Bool) : (Upd.apply (.lost a b) s).sdir = s.sdir := rfl
@[simp] theorem Upd.lost_berth (a : Nat) (b : Bool) : (Upd.apply (.lost a b) s).berth = s.berth := rfl
@[simp] theorem Upd.lost_tier (a : Nat) (b : Bool) : (Upd.apply (.lost a b) s).tier = s.tier := rfl
@[simp] theorem Upd.lost_sec (a : Nat) (b : Bool) : (Upd.apply (.lost a b) s).sec = s.sec := rfl
@[simp] theorem Upd.lost_text (a : Nat) (b : Bool) : (Upd.apply (.lost a b) s).text = s.text := rfl
@[simp] theorem Upd.lost_sealer (a : Nat) (b : Bool) : (Upd.apply (.lost a b) s).sealer = s.sealer := rfl
@[simp] theorem Upd.lost_rcl (a : Nat) (b : Bool) : (Upd.apply (.lost a b) s).rcl = s.rcl := rfl
@[simp] theorem Upd.lost_nand (a : Nat) (b : Bool) : (Upd.apply (.lost a b) s).nand = s.nand := rfl
@[simp] theorem Upd.lost_flash (a : Nat) (b : Bool) : (Upd.apply (.lost a b) s).flash = s.flash := rfl
@[simp] theorem Upd.lost_fuses (a : Nat) (b : Bool) : (Upd.apply (.lost a b) s).fuses = s.fuses := rfl
@[simp] theorem Upd.lost_boot (a : Nat) (b : Bool) : (Upd.apply (.lost a b) s).boot = s.boot := rfl
@[simp] theorem Upd.lost_mct (a : Nat) (b : Bool) : (Upd.apply (.lost a b) s).mct = s.mct := rfl
@[simp] theorem Upd.lost_egr (a : Nat) (b : Bool) : (Upd.apply (.lost a b) s).egr = s.egr := rfl
@[simp] theorem Upd.lost_pwr (a : Nat) (b : Bool) : (Upd.apply (.lost a b) s).pwr = s.pwr := rfl
@[simp] theorem Upd.lost_ckpt (a : Nat) (b : Bool) : (Upd.apply (.lost a b) s).ckpt = s.ckpt := rfl

@[simp] theorem Upd.emit_pending (o : Output) : (Upd.apply (.emit o) s).pending = s.pending := rfl
@[simp] theorem Upd.emit_regs (o : Output) : (Upd.apply (.emit o) s).regs = s.regs := rfl
@[simp] theorem Upd.emit_shadow (o : Output) : (Upd.apply (.emit o) s).shadow = s.shadow := rfl
@[simp] theorem Upd.emit_ctrs (o : Output) : (Upd.apply (.emit o) s).ctrs = s.ctrs := rfl
@[simp] theorem Upd.emit_mem (o : Output) : (Upd.apply (.emit o) s).mem = s.mem := rfl
@[simp] theorem Upd.emit_ls (o : Output) : (Upd.apply (.emit o) s).ls = s.ls := rfl
@[simp] theorem Upd.emit_hostMem (o : Output) : (Upd.apply (.emit o) s).hostMem = s.hostMem := rfl
@[simp] theorem Upd.emit_lost (o : Output) : (Upd.apply (.emit o) s).lost = s.lost := rfl
@[simp] theorem Upd.emit_out (o : Output) : (Upd.apply (.emit o) s).out = s.out ++ [o] := rfl
@[simp] theorem Upd.emit_free (o : Output) : (Upd.apply (.emit o) s).free = s.free := rfl
@[simp] theorem Upd.emit_sail (o : Output) : (Upd.apply (.emit o) s).sail = s.sail := rfl
@[simp] theorem Upd.emit_core (o : Output) : (Upd.apply (.emit o) s).core = s.core := rfl
@[simp] theorem Upd.emit_err (o : Output) : (Upd.apply (.emit o) s).err = s.err := rfl
@[simp] theorem Upd.emit_irq (o : Output) : (Upd.apply (.emit o) s).irq = s.irq := rfl
@[simp] theorem Upd.emit_nmu (o : Output) : (Upd.apply (.emit o) s).nmu = s.nmu := rfl
@[simp] theorem Upd.emit_chart (o : Output) : (Upd.apply (.emit o) s).chart = s.chart := rfl
@[simp] theorem Upd.emit_host (o : Output) : (Upd.apply (.emit o) s).host = s.host := rfl
@[simp] theorem Upd.emit_sdir (o : Output) : (Upd.apply (.emit o) s).sdir = s.sdir := rfl
@[simp] theorem Upd.emit_berth (o : Output) : (Upd.apply (.emit o) s).berth = s.berth := rfl
@[simp] theorem Upd.emit_tier (o : Output) : (Upd.apply (.emit o) s).tier = s.tier := rfl
@[simp] theorem Upd.emit_sec (o : Output) : (Upd.apply (.emit o) s).sec = s.sec := rfl
@[simp] theorem Upd.emit_text (o : Output) : (Upd.apply (.emit o) s).text = s.text := rfl
@[simp] theorem Upd.emit_sealer (o : Output) : (Upd.apply (.emit o) s).sealer = s.sealer := rfl
@[simp] theorem Upd.emit_rcl (o : Output) : (Upd.apply (.emit o) s).rcl = s.rcl := rfl
@[simp] theorem Upd.emit_nand (o : Output) : (Upd.apply (.emit o) s).nand = s.nand := rfl
@[simp] theorem Upd.emit_flash (o : Output) : (Upd.apply (.emit o) s).flash = s.flash := rfl
@[simp] theorem Upd.emit_fuses (o : Output) : (Upd.apply (.emit o) s).fuses = s.fuses := rfl
@[simp] theorem Upd.emit_boot (o : Output) : (Upd.apply (.emit o) s).boot = s.boot := rfl
@[simp] theorem Upd.emit_mct (o : Output) : (Upd.apply (.emit o) s).mct = s.mct := rfl
@[simp] theorem Upd.emit_egr (o : Output) : (Upd.apply (.emit o) s).egr = s.egr := rfl
@[simp] theorem Upd.emit_pwr (o : Output) : (Upd.apply (.emit o) s).pwr = s.pwr := rfl
@[simp] theorem Upd.emit_ckpt (o : Output) : (Upd.apply (.emit o) s).ckpt = s.ckpt := rfl

@[simp] theorem Upd.takeFree_pending (n : Nat) : (Upd.apply (.takeFree n) s).pending = s.pending := rfl
@[simp] theorem Upd.takeFree_regs (n : Nat) : (Upd.apply (.takeFree n) s).regs = s.regs := rfl
@[simp] theorem Upd.takeFree_shadow (n : Nat) : (Upd.apply (.takeFree n) s).shadow = s.shadow := rfl
@[simp] theorem Upd.takeFree_ctrs (n : Nat) : (Upd.apply (.takeFree n) s).ctrs = s.ctrs := rfl
@[simp] theorem Upd.takeFree_mem (n : Nat) : (Upd.apply (.takeFree n) s).mem = s.mem := rfl
@[simp] theorem Upd.takeFree_ls (n : Nat) : (Upd.apply (.takeFree n) s).ls = s.ls := rfl
@[simp] theorem Upd.takeFree_hostMem (n : Nat) : (Upd.apply (.takeFree n) s).hostMem = s.hostMem := rfl
@[simp] theorem Upd.takeFree_lost (n : Nat) : (Upd.apply (.takeFree n) s).lost = s.lost := rfl
@[simp] theorem Upd.takeFree_out (n : Nat) : (Upd.apply (.takeFree n) s).out = s.out := rfl
@[simp] theorem Upd.takeFree_free (n : Nat) : (Upd.apply (.takeFree n) s).free = s.free + n := rfl
@[simp] theorem Upd.takeFree_sail (n : Nat) : (Upd.apply (.takeFree n) s).sail = s.sail := rfl
@[simp] theorem Upd.takeFree_core (n : Nat) : (Upd.apply (.takeFree n) s).core = s.core := rfl
@[simp] theorem Upd.takeFree_err (n : Nat) : (Upd.apply (.takeFree n) s).err = s.err := rfl
@[simp] theorem Upd.takeFree_irq (n : Nat) : (Upd.apply (.takeFree n) s).irq = s.irq := rfl
@[simp] theorem Upd.takeFree_nmu (n : Nat) : (Upd.apply (.takeFree n) s).nmu = s.nmu := rfl
@[simp] theorem Upd.takeFree_chart (n : Nat) : (Upd.apply (.takeFree n) s).chart = s.chart := rfl
@[simp] theorem Upd.takeFree_host (n : Nat) : (Upd.apply (.takeFree n) s).host = s.host := rfl
@[simp] theorem Upd.takeFree_sdir (n : Nat) : (Upd.apply (.takeFree n) s).sdir = s.sdir := rfl
@[simp] theorem Upd.takeFree_berth (n : Nat) : (Upd.apply (.takeFree n) s).berth = s.berth := rfl
@[simp] theorem Upd.takeFree_tier (n : Nat) : (Upd.apply (.takeFree n) s).tier = s.tier := rfl
@[simp] theorem Upd.takeFree_sec (n : Nat) : (Upd.apply (.takeFree n) s).sec = s.sec := rfl
@[simp] theorem Upd.takeFree_text (n : Nat) : (Upd.apply (.takeFree n) s).text = s.text := rfl
@[simp] theorem Upd.takeFree_sealer (n : Nat) : (Upd.apply (.takeFree n) s).sealer = s.sealer := rfl
@[simp] theorem Upd.takeFree_rcl (n : Nat) : (Upd.apply (.takeFree n) s).rcl = s.rcl := rfl
@[simp] theorem Upd.takeFree_nand (n : Nat) : (Upd.apply (.takeFree n) s).nand = s.nand := rfl
@[simp] theorem Upd.takeFree_flash (n : Nat) : (Upd.apply (.takeFree n) s).flash = s.flash := rfl
@[simp] theorem Upd.takeFree_fuses (n : Nat) : (Upd.apply (.takeFree n) s).fuses = s.fuses := rfl
@[simp] theorem Upd.takeFree_boot (n : Nat) : (Upd.apply (.takeFree n) s).boot = s.boot := rfl
@[simp] theorem Upd.takeFree_mct (n : Nat) : (Upd.apply (.takeFree n) s).mct = s.mct := rfl
@[simp] theorem Upd.takeFree_egr (n : Nat) : (Upd.apply (.takeFree n) s).egr = s.egr := rfl
@[simp] theorem Upd.takeFree_pwr (n : Nat) : (Upd.apply (.takeFree n) s).pwr = s.pwr := rfl
@[simp] theorem Upd.takeFree_ckpt (n : Nat) : (Upd.apply (.takeFree n) s).ckpt = s.ckpt := rfl

@[simp] theorem Upd.sail_pending (x : SailState) : (Upd.apply (.sail x) s).pending = s.pending := rfl
@[simp] theorem Upd.sail_regs (x : SailState) : (Upd.apply (.sail x) s).regs = s.regs := rfl
@[simp] theorem Upd.sail_shadow (x : SailState) : (Upd.apply (.sail x) s).shadow = s.shadow := rfl
@[simp] theorem Upd.sail_ctrs (x : SailState) : (Upd.apply (.sail x) s).ctrs = s.ctrs := rfl
@[simp] theorem Upd.sail_mem (x : SailState) : (Upd.apply (.sail x) s).mem = s.mem := rfl
@[simp] theorem Upd.sail_ls (x : SailState) : (Upd.apply (.sail x) s).ls = s.ls := rfl
@[simp] theorem Upd.sail_hostMem (x : SailState) : (Upd.apply (.sail x) s).hostMem = s.hostMem := rfl
@[simp] theorem Upd.sail_lost (x : SailState) : (Upd.apply (.sail x) s).lost = s.lost := rfl
@[simp] theorem Upd.sail_out (x : SailState) : (Upd.apply (.sail x) s).out = s.out := rfl
@[simp] theorem Upd.sail_free (x : SailState) : (Upd.apply (.sail x) s).free = s.free := rfl
@[simp] theorem Upd.sail_sail (x : SailState) : (Upd.apply (.sail x) s).sail = x := rfl
@[simp] theorem Upd.sail_core (x : SailState) : (Upd.apply (.sail x) s).core = s.core := rfl
@[simp] theorem Upd.sail_err (x : SailState) : (Upd.apply (.sail x) s).err = s.err := rfl
@[simp] theorem Upd.sail_irq (x : SailState) : (Upd.apply (.sail x) s).irq = s.irq := rfl
@[simp] theorem Upd.sail_nmu (x : SailState) : (Upd.apply (.sail x) s).nmu = s.nmu := rfl
@[simp] theorem Upd.sail_chart (x : SailState) : (Upd.apply (.sail x) s).chart = s.chart := rfl
@[simp] theorem Upd.sail_host (x : SailState) : (Upd.apply (.sail x) s).host = s.host := rfl
@[simp] theorem Upd.sail_sdir (x : SailState) : (Upd.apply (.sail x) s).sdir = s.sdir := rfl
@[simp] theorem Upd.sail_berth (x : SailState) : (Upd.apply (.sail x) s).berth = s.berth := rfl
@[simp] theorem Upd.sail_tier (x : SailState) : (Upd.apply (.sail x) s).tier = s.tier := rfl
@[simp] theorem Upd.sail_sec (x : SailState) : (Upd.apply (.sail x) s).sec = s.sec := rfl
@[simp] theorem Upd.sail_text (x : SailState) : (Upd.apply (.sail x) s).text = s.text := rfl
@[simp] theorem Upd.sail_sealer (x : SailState) : (Upd.apply (.sail x) s).sealer = s.sealer := rfl
@[simp] theorem Upd.sail_rcl (x : SailState) : (Upd.apply (.sail x) s).rcl = s.rcl := rfl
@[simp] theorem Upd.sail_nand (x : SailState) : (Upd.apply (.sail x) s).nand = s.nand := rfl
@[simp] theorem Upd.sail_flash (x : SailState) : (Upd.apply (.sail x) s).flash = s.flash := rfl
@[simp] theorem Upd.sail_fuses (x : SailState) : (Upd.apply (.sail x) s).fuses = s.fuses := rfl
@[simp] theorem Upd.sail_boot (x : SailState) : (Upd.apply (.sail x) s).boot = s.boot := rfl
@[simp] theorem Upd.sail_mct (x : SailState) : (Upd.apply (.sail x) s).mct = s.mct := rfl
@[simp] theorem Upd.sail_egr (x : SailState) : (Upd.apply (.sail x) s).egr = s.egr := rfl
@[simp] theorem Upd.sail_pwr (x : SailState) : (Upd.apply (.sail x) s).pwr = s.pwr := rfl
@[simp] theorem Upd.sail_ckpt (x : SailState) : (Upd.apply (.sail x) s).ckpt = s.ckpt := rfl

@[simp] theorem Upd.core_pending (x : CoreState) : (Upd.apply (.core x) s).pending = s.pending := rfl
@[simp] theorem Upd.core_regs (x : CoreState) : (Upd.apply (.core x) s).regs = s.regs := rfl
@[simp] theorem Upd.core_shadow (x : CoreState) : (Upd.apply (.core x) s).shadow = s.shadow := rfl
@[simp] theorem Upd.core_ctrs (x : CoreState) : (Upd.apply (.core x) s).ctrs = s.ctrs := rfl
@[simp] theorem Upd.core_mem (x : CoreState) : (Upd.apply (.core x) s).mem = s.mem := rfl
@[simp] theorem Upd.core_ls (x : CoreState) : (Upd.apply (.core x) s).ls = s.ls := rfl
@[simp] theorem Upd.core_hostMem (x : CoreState) : (Upd.apply (.core x) s).hostMem = s.hostMem := rfl
@[simp] theorem Upd.core_lost (x : CoreState) : (Upd.apply (.core x) s).lost = s.lost := rfl
@[simp] theorem Upd.core_out (x : CoreState) : (Upd.apply (.core x) s).out = s.out := rfl
@[simp] theorem Upd.core_free (x : CoreState) : (Upd.apply (.core x) s).free = s.free := rfl
@[simp] theorem Upd.core_sail (x : CoreState) : (Upd.apply (.core x) s).sail = s.sail := rfl
@[simp] theorem Upd.core_core (x : CoreState) : (Upd.apply (.core x) s).core = x := rfl
@[simp] theorem Upd.core_err (x : CoreState) : (Upd.apply (.core x) s).err = s.err := rfl
@[simp] theorem Upd.core_irq (x : CoreState) : (Upd.apply (.core x) s).irq = s.irq := rfl
@[simp] theorem Upd.core_nmu (x : CoreState) : (Upd.apply (.core x) s).nmu = s.nmu := rfl
@[simp] theorem Upd.core_chart (x : CoreState) : (Upd.apply (.core x) s).chart = s.chart := rfl
@[simp] theorem Upd.core_host (x : CoreState) : (Upd.apply (.core x) s).host = s.host := rfl
@[simp] theorem Upd.core_sdir (x : CoreState) : (Upd.apply (.core x) s).sdir = s.sdir := rfl
@[simp] theorem Upd.core_berth (x : CoreState) : (Upd.apply (.core x) s).berth = s.berth := rfl
@[simp] theorem Upd.core_tier (x : CoreState) : (Upd.apply (.core x) s).tier = s.tier := rfl
@[simp] theorem Upd.core_sec (x : CoreState) : (Upd.apply (.core x) s).sec = s.sec := rfl
@[simp] theorem Upd.core_text (x : CoreState) : (Upd.apply (.core x) s).text = s.text := rfl
@[simp] theorem Upd.core_sealer (x : CoreState) : (Upd.apply (.core x) s).sealer = s.sealer := rfl
@[simp] theorem Upd.core_rcl (x : CoreState) : (Upd.apply (.core x) s).rcl = s.rcl := rfl
@[simp] theorem Upd.core_nand (x : CoreState) : (Upd.apply (.core x) s).nand = s.nand := rfl
@[simp] theorem Upd.core_flash (x : CoreState) : (Upd.apply (.core x) s).flash = s.flash := rfl
@[simp] theorem Upd.core_fuses (x : CoreState) : (Upd.apply (.core x) s).fuses = s.fuses := rfl
@[simp] theorem Upd.core_boot (x : CoreState) : (Upd.apply (.core x) s).boot = s.boot := rfl
@[simp] theorem Upd.core_mct (x : CoreState) : (Upd.apply (.core x) s).mct = s.mct := rfl
@[simp] theorem Upd.core_egr (x : CoreState) : (Upd.apply (.core x) s).egr = s.egr := rfl
@[simp] theorem Upd.core_pwr (x : CoreState) : (Upd.apply (.core x) s).pwr = s.pwr := rfl
@[simp] theorem Upd.core_ckpt (x : CoreState) : (Upd.apply (.core x) s).ckpt = s.ckpt := rfl

@[simp] theorem Upd.err_pending (x : ErrState) : (Upd.apply (.err x) s).pending = s.pending := rfl
@[simp] theorem Upd.err_regs (x : ErrState) : (Upd.apply (.err x) s).regs = s.regs := rfl
@[simp] theorem Upd.err_shadow (x : ErrState) : (Upd.apply (.err x) s).shadow = s.shadow := rfl
@[simp] theorem Upd.err_ctrs (x : ErrState) : (Upd.apply (.err x) s).ctrs = s.ctrs := rfl
@[simp] theorem Upd.err_mem (x : ErrState) : (Upd.apply (.err x) s).mem = s.mem := rfl
@[simp] theorem Upd.err_ls (x : ErrState) : (Upd.apply (.err x) s).ls = s.ls := rfl
@[simp] theorem Upd.err_hostMem (x : ErrState) : (Upd.apply (.err x) s).hostMem = s.hostMem := rfl
@[simp] theorem Upd.err_lost (x : ErrState) : (Upd.apply (.err x) s).lost = s.lost := rfl
@[simp] theorem Upd.err_out (x : ErrState) : (Upd.apply (.err x) s).out = s.out := rfl
@[simp] theorem Upd.err_free (x : ErrState) : (Upd.apply (.err x) s).free = s.free := rfl
@[simp] theorem Upd.err_sail (x : ErrState) : (Upd.apply (.err x) s).sail = s.sail := rfl
@[simp] theorem Upd.err_core (x : ErrState) : (Upd.apply (.err x) s).core = s.core := rfl
@[simp] theorem Upd.err_err (x : ErrState) : (Upd.apply (.err x) s).err = x := rfl
@[simp] theorem Upd.err_irq (x : ErrState) : (Upd.apply (.err x) s).irq = s.irq := rfl
@[simp] theorem Upd.err_nmu (x : ErrState) : (Upd.apply (.err x) s).nmu = s.nmu := rfl
@[simp] theorem Upd.err_chart (x : ErrState) : (Upd.apply (.err x) s).chart = s.chart := rfl
@[simp] theorem Upd.err_host (x : ErrState) : (Upd.apply (.err x) s).host = s.host := rfl
@[simp] theorem Upd.err_sdir (x : ErrState) : (Upd.apply (.err x) s).sdir = s.sdir := rfl
@[simp] theorem Upd.err_berth (x : ErrState) : (Upd.apply (.err x) s).berth = s.berth := rfl
@[simp] theorem Upd.err_tier (x : ErrState) : (Upd.apply (.err x) s).tier = s.tier := rfl
@[simp] theorem Upd.err_sec (x : ErrState) : (Upd.apply (.err x) s).sec = s.sec := rfl
@[simp] theorem Upd.err_text (x : ErrState) : (Upd.apply (.err x) s).text = s.text := rfl
@[simp] theorem Upd.err_sealer (x : ErrState) : (Upd.apply (.err x) s).sealer = s.sealer := rfl
@[simp] theorem Upd.err_rcl (x : ErrState) : (Upd.apply (.err x) s).rcl = s.rcl := rfl
@[simp] theorem Upd.err_nand (x : ErrState) : (Upd.apply (.err x) s).nand = s.nand := rfl
@[simp] theorem Upd.err_flash (x : ErrState) : (Upd.apply (.err x) s).flash = s.flash := rfl
@[simp] theorem Upd.err_fuses (x : ErrState) : (Upd.apply (.err x) s).fuses = s.fuses := rfl
@[simp] theorem Upd.err_boot (x : ErrState) : (Upd.apply (.err x) s).boot = s.boot := rfl
@[simp] theorem Upd.err_mct (x : ErrState) : (Upd.apply (.err x) s).mct = s.mct := rfl
@[simp] theorem Upd.err_egr (x : ErrState) : (Upd.apply (.err x) s).egr = s.egr := rfl
@[simp] theorem Upd.err_pwr (x : ErrState) : (Upd.apply (.err x) s).pwr = s.pwr := rfl
@[simp] theorem Upd.err_ckpt (x : ErrState) : (Upd.apply (.err x) s).ckpt = s.ckpt := rfl

@[simp] theorem Upd.irq_pending (x : IrqState) : (Upd.apply (.irq x) s).pending = s.pending := rfl
@[simp] theorem Upd.irq_regs (x : IrqState) : (Upd.apply (.irq x) s).regs = s.regs := rfl
@[simp] theorem Upd.irq_shadow (x : IrqState) : (Upd.apply (.irq x) s).shadow = s.shadow := rfl
@[simp] theorem Upd.irq_ctrs (x : IrqState) : (Upd.apply (.irq x) s).ctrs = s.ctrs := rfl
@[simp] theorem Upd.irq_mem (x : IrqState) : (Upd.apply (.irq x) s).mem = s.mem := rfl
@[simp] theorem Upd.irq_ls (x : IrqState) : (Upd.apply (.irq x) s).ls = s.ls := rfl
@[simp] theorem Upd.irq_hostMem (x : IrqState) : (Upd.apply (.irq x) s).hostMem = s.hostMem := rfl
@[simp] theorem Upd.irq_lost (x : IrqState) : (Upd.apply (.irq x) s).lost = s.lost := rfl
@[simp] theorem Upd.irq_out (x : IrqState) : (Upd.apply (.irq x) s).out = s.out := rfl
@[simp] theorem Upd.irq_free (x : IrqState) : (Upd.apply (.irq x) s).free = s.free := rfl
@[simp] theorem Upd.irq_sail (x : IrqState) : (Upd.apply (.irq x) s).sail = s.sail := rfl
@[simp] theorem Upd.irq_core (x : IrqState) : (Upd.apply (.irq x) s).core = s.core := rfl
@[simp] theorem Upd.irq_err (x : IrqState) : (Upd.apply (.irq x) s).err = s.err := rfl
@[simp] theorem Upd.irq_irq (x : IrqState) : (Upd.apply (.irq x) s).irq = x := rfl
@[simp] theorem Upd.irq_nmu (x : IrqState) : (Upd.apply (.irq x) s).nmu = s.nmu := rfl
@[simp] theorem Upd.irq_chart (x : IrqState) : (Upd.apply (.irq x) s).chart = s.chart := rfl
@[simp] theorem Upd.irq_host (x : IrqState) : (Upd.apply (.irq x) s).host = s.host := rfl
@[simp] theorem Upd.irq_sdir (x : IrqState) : (Upd.apply (.irq x) s).sdir = s.sdir := rfl
@[simp] theorem Upd.irq_berth (x : IrqState) : (Upd.apply (.irq x) s).berth = s.berth := rfl
@[simp] theorem Upd.irq_tier (x : IrqState) : (Upd.apply (.irq x) s).tier = s.tier := rfl
@[simp] theorem Upd.irq_sec (x : IrqState) : (Upd.apply (.irq x) s).sec = s.sec := rfl
@[simp] theorem Upd.irq_text (x : IrqState) : (Upd.apply (.irq x) s).text = s.text := rfl
@[simp] theorem Upd.irq_sealer (x : IrqState) : (Upd.apply (.irq x) s).sealer = s.sealer := rfl
@[simp] theorem Upd.irq_rcl (x : IrqState) : (Upd.apply (.irq x) s).rcl = s.rcl := rfl
@[simp] theorem Upd.irq_nand (x : IrqState) : (Upd.apply (.irq x) s).nand = s.nand := rfl
@[simp] theorem Upd.irq_flash (x : IrqState) : (Upd.apply (.irq x) s).flash = s.flash := rfl
@[simp] theorem Upd.irq_fuses (x : IrqState) : (Upd.apply (.irq x) s).fuses = s.fuses := rfl
@[simp] theorem Upd.irq_boot (x : IrqState) : (Upd.apply (.irq x) s).boot = s.boot := rfl
@[simp] theorem Upd.irq_mct (x : IrqState) : (Upd.apply (.irq x) s).mct = s.mct := rfl
@[simp] theorem Upd.irq_egr (x : IrqState) : (Upd.apply (.irq x) s).egr = s.egr := rfl
@[simp] theorem Upd.irq_pwr (x : IrqState) : (Upd.apply (.irq x) s).pwr = s.pwr := rfl
@[simp] theorem Upd.irq_ckpt (x : IrqState) : (Upd.apply (.irq x) s).ckpt = s.ckpt := rfl

@[simp] theorem Upd.nmu_pending (x : NmuState) : (Upd.apply (.nmu x) s).pending = s.pending := rfl
@[simp] theorem Upd.nmu_regs (x : NmuState) : (Upd.apply (.nmu x) s).regs = s.regs := rfl
@[simp] theorem Upd.nmu_shadow (x : NmuState) : (Upd.apply (.nmu x) s).shadow = s.shadow := rfl
@[simp] theorem Upd.nmu_ctrs (x : NmuState) : (Upd.apply (.nmu x) s).ctrs = s.ctrs := rfl
@[simp] theorem Upd.nmu_mem (x : NmuState) : (Upd.apply (.nmu x) s).mem = s.mem := rfl
@[simp] theorem Upd.nmu_ls (x : NmuState) : (Upd.apply (.nmu x) s).ls = s.ls := rfl
@[simp] theorem Upd.nmu_hostMem (x : NmuState) : (Upd.apply (.nmu x) s).hostMem = s.hostMem := rfl
@[simp] theorem Upd.nmu_lost (x : NmuState) : (Upd.apply (.nmu x) s).lost = s.lost := rfl
@[simp] theorem Upd.nmu_out (x : NmuState) : (Upd.apply (.nmu x) s).out = s.out := rfl
@[simp] theorem Upd.nmu_free (x : NmuState) : (Upd.apply (.nmu x) s).free = s.free := rfl
@[simp] theorem Upd.nmu_sail (x : NmuState) : (Upd.apply (.nmu x) s).sail = s.sail := rfl
@[simp] theorem Upd.nmu_core (x : NmuState) : (Upd.apply (.nmu x) s).core = s.core := rfl
@[simp] theorem Upd.nmu_err (x : NmuState) : (Upd.apply (.nmu x) s).err = s.err := rfl
@[simp] theorem Upd.nmu_irq (x : NmuState) : (Upd.apply (.nmu x) s).irq = s.irq := rfl
@[simp] theorem Upd.nmu_nmu (x : NmuState) : (Upd.apply (.nmu x) s).nmu = x := rfl
@[simp] theorem Upd.nmu_chart (x : NmuState) : (Upd.apply (.nmu x) s).chart = s.chart := rfl
@[simp] theorem Upd.nmu_host (x : NmuState) : (Upd.apply (.nmu x) s).host = s.host := rfl
@[simp] theorem Upd.nmu_sdir (x : NmuState) : (Upd.apply (.nmu x) s).sdir = s.sdir := rfl
@[simp] theorem Upd.nmu_berth (x : NmuState) : (Upd.apply (.nmu x) s).berth = s.berth := rfl
@[simp] theorem Upd.nmu_tier (x : NmuState) : (Upd.apply (.nmu x) s).tier = s.tier := rfl
@[simp] theorem Upd.nmu_sec (x : NmuState) : (Upd.apply (.nmu x) s).sec = s.sec := rfl
@[simp] theorem Upd.nmu_text (x : NmuState) : (Upd.apply (.nmu x) s).text = s.text := rfl
@[simp] theorem Upd.nmu_sealer (x : NmuState) : (Upd.apply (.nmu x) s).sealer = s.sealer := rfl
@[simp] theorem Upd.nmu_rcl (x : NmuState) : (Upd.apply (.nmu x) s).rcl = s.rcl := rfl
@[simp] theorem Upd.nmu_nand (x : NmuState) : (Upd.apply (.nmu x) s).nand = s.nand := rfl
@[simp] theorem Upd.nmu_flash (x : NmuState) : (Upd.apply (.nmu x) s).flash = s.flash := rfl
@[simp] theorem Upd.nmu_fuses (x : NmuState) : (Upd.apply (.nmu x) s).fuses = s.fuses := rfl
@[simp] theorem Upd.nmu_boot (x : NmuState) : (Upd.apply (.nmu x) s).boot = s.boot := rfl
@[simp] theorem Upd.nmu_mct (x : NmuState) : (Upd.apply (.nmu x) s).mct = s.mct := rfl
@[simp] theorem Upd.nmu_egr (x : NmuState) : (Upd.apply (.nmu x) s).egr = s.egr := rfl
@[simp] theorem Upd.nmu_pwr (x : NmuState) : (Upd.apply (.nmu x) s).pwr = s.pwr := rfl
@[simp] theorem Upd.nmu_ckpt (x : NmuState) : (Upd.apply (.nmu x) s).ckpt = s.ckpt := rfl

@[simp] theorem Upd.chart_pending (x : ChartState) : (Upd.apply (.chart x) s).pending = s.pending := rfl
@[simp] theorem Upd.chart_regs (x : ChartState) : (Upd.apply (.chart x) s).regs = s.regs := rfl
@[simp] theorem Upd.chart_shadow (x : ChartState) : (Upd.apply (.chart x) s).shadow = s.shadow := rfl
@[simp] theorem Upd.chart_ctrs (x : ChartState) : (Upd.apply (.chart x) s).ctrs = s.ctrs := rfl
@[simp] theorem Upd.chart_mem (x : ChartState) : (Upd.apply (.chart x) s).mem = s.mem := rfl
@[simp] theorem Upd.chart_ls (x : ChartState) : (Upd.apply (.chart x) s).ls = s.ls := rfl
@[simp] theorem Upd.chart_hostMem (x : ChartState) : (Upd.apply (.chart x) s).hostMem = s.hostMem := rfl
@[simp] theorem Upd.chart_lost (x : ChartState) : (Upd.apply (.chart x) s).lost = s.lost := rfl
@[simp] theorem Upd.chart_out (x : ChartState) : (Upd.apply (.chart x) s).out = s.out := rfl
@[simp] theorem Upd.chart_free (x : ChartState) : (Upd.apply (.chart x) s).free = s.free := rfl
@[simp] theorem Upd.chart_sail (x : ChartState) : (Upd.apply (.chart x) s).sail = s.sail := rfl
@[simp] theorem Upd.chart_core (x : ChartState) : (Upd.apply (.chart x) s).core = s.core := rfl
@[simp] theorem Upd.chart_err (x : ChartState) : (Upd.apply (.chart x) s).err = s.err := rfl
@[simp] theorem Upd.chart_irq (x : ChartState) : (Upd.apply (.chart x) s).irq = s.irq := rfl
@[simp] theorem Upd.chart_nmu (x : ChartState) : (Upd.apply (.chart x) s).nmu = s.nmu := rfl
@[simp] theorem Upd.chart_chart (x : ChartState) : (Upd.apply (.chart x) s).chart = x := rfl
@[simp] theorem Upd.chart_host (x : ChartState) : (Upd.apply (.chart x) s).host = s.host := rfl
@[simp] theorem Upd.chart_sdir (x : ChartState) : (Upd.apply (.chart x) s).sdir = s.sdir := rfl
@[simp] theorem Upd.chart_berth (x : ChartState) : (Upd.apply (.chart x) s).berth = s.berth := rfl
@[simp] theorem Upd.chart_tier (x : ChartState) : (Upd.apply (.chart x) s).tier = s.tier := rfl
@[simp] theorem Upd.chart_sec (x : ChartState) : (Upd.apply (.chart x) s).sec = s.sec := rfl
@[simp] theorem Upd.chart_text (x : ChartState) : (Upd.apply (.chart x) s).text = s.text := rfl
@[simp] theorem Upd.chart_sealer (x : ChartState) : (Upd.apply (.chart x) s).sealer = s.sealer := rfl
@[simp] theorem Upd.chart_rcl (x : ChartState) : (Upd.apply (.chart x) s).rcl = s.rcl := rfl
@[simp] theorem Upd.chart_nand (x : ChartState) : (Upd.apply (.chart x) s).nand = s.nand := rfl
@[simp] theorem Upd.chart_flash (x : ChartState) : (Upd.apply (.chart x) s).flash = s.flash := rfl
@[simp] theorem Upd.chart_fuses (x : ChartState) : (Upd.apply (.chart x) s).fuses = s.fuses := rfl
@[simp] theorem Upd.chart_boot (x : ChartState) : (Upd.apply (.chart x) s).boot = s.boot := rfl
@[simp] theorem Upd.chart_mct (x : ChartState) : (Upd.apply (.chart x) s).mct = s.mct := rfl
@[simp] theorem Upd.chart_egr (x : ChartState) : (Upd.apply (.chart x) s).egr = s.egr := rfl
@[simp] theorem Upd.chart_pwr (x : ChartState) : (Upd.apply (.chart x) s).pwr = s.pwr := rfl
@[simp] theorem Upd.chart_ckpt (x : ChartState) : (Upd.apply (.chart x) s).ckpt = s.ckpt := rfl

@[simp] theorem Upd.host_pending (x : HostState) : (Upd.apply (.host x) s).pending = s.pending := rfl
@[simp] theorem Upd.host_regs (x : HostState) : (Upd.apply (.host x) s).regs = s.regs := rfl
@[simp] theorem Upd.host_shadow (x : HostState) : (Upd.apply (.host x) s).shadow = s.shadow := rfl
@[simp] theorem Upd.host_ctrs (x : HostState) : (Upd.apply (.host x) s).ctrs = s.ctrs := rfl
@[simp] theorem Upd.host_mem (x : HostState) : (Upd.apply (.host x) s).mem = s.mem := rfl
@[simp] theorem Upd.host_ls (x : HostState) : (Upd.apply (.host x) s).ls = s.ls := rfl
@[simp] theorem Upd.host_hostMem (x : HostState) : (Upd.apply (.host x) s).hostMem = s.hostMem := rfl
@[simp] theorem Upd.host_lost (x : HostState) : (Upd.apply (.host x) s).lost = s.lost := rfl
@[simp] theorem Upd.host_out (x : HostState) : (Upd.apply (.host x) s).out = s.out := rfl
@[simp] theorem Upd.host_free (x : HostState) : (Upd.apply (.host x) s).free = s.free := rfl
@[simp] theorem Upd.host_sail (x : HostState) : (Upd.apply (.host x) s).sail = s.sail := rfl
@[simp] theorem Upd.host_core (x : HostState) : (Upd.apply (.host x) s).core = s.core := rfl
@[simp] theorem Upd.host_err (x : HostState) : (Upd.apply (.host x) s).err = s.err := rfl
@[simp] theorem Upd.host_irq (x : HostState) : (Upd.apply (.host x) s).irq = s.irq := rfl
@[simp] theorem Upd.host_nmu (x : HostState) : (Upd.apply (.host x) s).nmu = s.nmu := rfl
@[simp] theorem Upd.host_chart (x : HostState) : (Upd.apply (.host x) s).chart = s.chart := rfl
@[simp] theorem Upd.host_host (x : HostState) : (Upd.apply (.host x) s).host = x := rfl
@[simp] theorem Upd.host_sdir (x : HostState) : (Upd.apply (.host x) s).sdir = s.sdir := rfl
@[simp] theorem Upd.host_berth (x : HostState) : (Upd.apply (.host x) s).berth = s.berth := rfl
@[simp] theorem Upd.host_tier (x : HostState) : (Upd.apply (.host x) s).tier = s.tier := rfl
@[simp] theorem Upd.host_sec (x : HostState) : (Upd.apply (.host x) s).sec = s.sec := rfl
@[simp] theorem Upd.host_text (x : HostState) : (Upd.apply (.host x) s).text = s.text := rfl
@[simp] theorem Upd.host_sealer (x : HostState) : (Upd.apply (.host x) s).sealer = s.sealer := rfl
@[simp] theorem Upd.host_rcl (x : HostState) : (Upd.apply (.host x) s).rcl = s.rcl := rfl
@[simp] theorem Upd.host_nand (x : HostState) : (Upd.apply (.host x) s).nand = s.nand := rfl
@[simp] theorem Upd.host_flash (x : HostState) : (Upd.apply (.host x) s).flash = s.flash := rfl
@[simp] theorem Upd.host_fuses (x : HostState) : (Upd.apply (.host x) s).fuses = s.fuses := rfl
@[simp] theorem Upd.host_boot (x : HostState) : (Upd.apply (.host x) s).boot = s.boot := rfl
@[simp] theorem Upd.host_mct (x : HostState) : (Upd.apply (.host x) s).mct = s.mct := rfl
@[simp] theorem Upd.host_egr (x : HostState) : (Upd.apply (.host x) s).egr = s.egr := rfl
@[simp] theorem Upd.host_pwr (x : HostState) : (Upd.apply (.host x) s).pwr = s.pwr := rfl
@[simp] theorem Upd.host_ckpt (x : HostState) : (Upd.apply (.host x) s).ckpt = s.ckpt := rfl

@[simp] theorem Upd.sdir_pending (x : SdirState) : (Upd.apply (.sdir x) s).pending = s.pending := rfl
@[simp] theorem Upd.sdir_regs (x : SdirState) : (Upd.apply (.sdir x) s).regs = s.regs := rfl
@[simp] theorem Upd.sdir_shadow (x : SdirState) : (Upd.apply (.sdir x) s).shadow = s.shadow := rfl
@[simp] theorem Upd.sdir_ctrs (x : SdirState) : (Upd.apply (.sdir x) s).ctrs = s.ctrs := rfl
@[simp] theorem Upd.sdir_mem (x : SdirState) : (Upd.apply (.sdir x) s).mem = s.mem := rfl
@[simp] theorem Upd.sdir_ls (x : SdirState) : (Upd.apply (.sdir x) s).ls = s.ls := rfl
@[simp] theorem Upd.sdir_hostMem (x : SdirState) : (Upd.apply (.sdir x) s).hostMem = s.hostMem := rfl
@[simp] theorem Upd.sdir_lost (x : SdirState) : (Upd.apply (.sdir x) s).lost = s.lost := rfl
@[simp] theorem Upd.sdir_out (x : SdirState) : (Upd.apply (.sdir x) s).out = s.out := rfl
@[simp] theorem Upd.sdir_free (x : SdirState) : (Upd.apply (.sdir x) s).free = s.free := rfl
@[simp] theorem Upd.sdir_sail (x : SdirState) : (Upd.apply (.sdir x) s).sail = s.sail := rfl
@[simp] theorem Upd.sdir_core (x : SdirState) : (Upd.apply (.sdir x) s).core = s.core := rfl
@[simp] theorem Upd.sdir_err (x : SdirState) : (Upd.apply (.sdir x) s).err = s.err := rfl
@[simp] theorem Upd.sdir_irq (x : SdirState) : (Upd.apply (.sdir x) s).irq = s.irq := rfl
@[simp] theorem Upd.sdir_nmu (x : SdirState) : (Upd.apply (.sdir x) s).nmu = s.nmu := rfl
@[simp] theorem Upd.sdir_chart (x : SdirState) : (Upd.apply (.sdir x) s).chart = s.chart := rfl
@[simp] theorem Upd.sdir_host (x : SdirState) : (Upd.apply (.sdir x) s).host = s.host := rfl
@[simp] theorem Upd.sdir_sdir (x : SdirState) : (Upd.apply (.sdir x) s).sdir = x := rfl
@[simp] theorem Upd.sdir_berth (x : SdirState) : (Upd.apply (.sdir x) s).berth = s.berth := rfl
@[simp] theorem Upd.sdir_tier (x : SdirState) : (Upd.apply (.sdir x) s).tier = s.tier := rfl
@[simp] theorem Upd.sdir_sec (x : SdirState) : (Upd.apply (.sdir x) s).sec = s.sec := rfl
@[simp] theorem Upd.sdir_text (x : SdirState) : (Upd.apply (.sdir x) s).text = s.text := rfl
@[simp] theorem Upd.sdir_sealer (x : SdirState) : (Upd.apply (.sdir x) s).sealer = s.sealer := rfl
@[simp] theorem Upd.sdir_rcl (x : SdirState) : (Upd.apply (.sdir x) s).rcl = s.rcl := rfl
@[simp] theorem Upd.sdir_nand (x : SdirState) : (Upd.apply (.sdir x) s).nand = s.nand := rfl
@[simp] theorem Upd.sdir_flash (x : SdirState) : (Upd.apply (.sdir x) s).flash = s.flash := rfl
@[simp] theorem Upd.sdir_fuses (x : SdirState) : (Upd.apply (.sdir x) s).fuses = s.fuses := rfl
@[simp] theorem Upd.sdir_boot (x : SdirState) : (Upd.apply (.sdir x) s).boot = s.boot := rfl
@[simp] theorem Upd.sdir_mct (x : SdirState) : (Upd.apply (.sdir x) s).mct = s.mct := rfl
@[simp] theorem Upd.sdir_egr (x : SdirState) : (Upd.apply (.sdir x) s).egr = s.egr := rfl
@[simp] theorem Upd.sdir_pwr (x : SdirState) : (Upd.apply (.sdir x) s).pwr = s.pwr := rfl
@[simp] theorem Upd.sdir_ckpt (x : SdirState) : (Upd.apply (.sdir x) s).ckpt = s.ckpt := rfl

@[simp] theorem Upd.berth_pending (x : BerthState) : (Upd.apply (.berth x) s).pending = s.pending := rfl
@[simp] theorem Upd.berth_regs (x : BerthState) : (Upd.apply (.berth x) s).regs = s.regs := rfl
@[simp] theorem Upd.berth_shadow (x : BerthState) : (Upd.apply (.berth x) s).shadow = s.shadow := rfl
@[simp] theorem Upd.berth_ctrs (x : BerthState) : (Upd.apply (.berth x) s).ctrs = s.ctrs := rfl
@[simp] theorem Upd.berth_mem (x : BerthState) : (Upd.apply (.berth x) s).mem = s.mem := rfl
@[simp] theorem Upd.berth_ls (x : BerthState) : (Upd.apply (.berth x) s).ls = s.ls := rfl
@[simp] theorem Upd.berth_hostMem (x : BerthState) : (Upd.apply (.berth x) s).hostMem = s.hostMem := rfl
@[simp] theorem Upd.berth_lost (x : BerthState) : (Upd.apply (.berth x) s).lost = s.lost := rfl
@[simp] theorem Upd.berth_out (x : BerthState) : (Upd.apply (.berth x) s).out = s.out := rfl
@[simp] theorem Upd.berth_free (x : BerthState) : (Upd.apply (.berth x) s).free = s.free := rfl
@[simp] theorem Upd.berth_sail (x : BerthState) : (Upd.apply (.berth x) s).sail = s.sail := rfl
@[simp] theorem Upd.berth_core (x : BerthState) : (Upd.apply (.berth x) s).core = s.core := rfl
@[simp] theorem Upd.berth_err (x : BerthState) : (Upd.apply (.berth x) s).err = s.err := rfl
@[simp] theorem Upd.berth_irq (x : BerthState) : (Upd.apply (.berth x) s).irq = s.irq := rfl
@[simp] theorem Upd.berth_nmu (x : BerthState) : (Upd.apply (.berth x) s).nmu = s.nmu := rfl
@[simp] theorem Upd.berth_chart (x : BerthState) : (Upd.apply (.berth x) s).chart = s.chart := rfl
@[simp] theorem Upd.berth_host (x : BerthState) : (Upd.apply (.berth x) s).host = s.host := rfl
@[simp] theorem Upd.berth_sdir (x : BerthState) : (Upd.apply (.berth x) s).sdir = s.sdir := rfl
@[simp] theorem Upd.berth_berth (x : BerthState) : (Upd.apply (.berth x) s).berth = x := rfl
@[simp] theorem Upd.berth_tier (x : BerthState) : (Upd.apply (.berth x) s).tier = s.tier := rfl
@[simp] theorem Upd.berth_sec (x : BerthState) : (Upd.apply (.berth x) s).sec = s.sec := rfl
@[simp] theorem Upd.berth_text (x : BerthState) : (Upd.apply (.berth x) s).text = s.text := rfl
@[simp] theorem Upd.berth_sealer (x : BerthState) : (Upd.apply (.berth x) s).sealer = s.sealer := rfl
@[simp] theorem Upd.berth_rcl (x : BerthState) : (Upd.apply (.berth x) s).rcl = s.rcl := rfl
@[simp] theorem Upd.berth_nand (x : BerthState) : (Upd.apply (.berth x) s).nand = s.nand := rfl
@[simp] theorem Upd.berth_flash (x : BerthState) : (Upd.apply (.berth x) s).flash = s.flash := rfl
@[simp] theorem Upd.berth_fuses (x : BerthState) : (Upd.apply (.berth x) s).fuses = s.fuses := rfl
@[simp] theorem Upd.berth_boot (x : BerthState) : (Upd.apply (.berth x) s).boot = s.boot := rfl
@[simp] theorem Upd.berth_mct (x : BerthState) : (Upd.apply (.berth x) s).mct = s.mct := rfl
@[simp] theorem Upd.berth_egr (x : BerthState) : (Upd.apply (.berth x) s).egr = s.egr := rfl
@[simp] theorem Upd.berth_pwr (x : BerthState) : (Upd.apply (.berth x) s).pwr = s.pwr := rfl
@[simp] theorem Upd.berth_ckpt (x : BerthState) : (Upd.apply (.berth x) s).ckpt = s.ckpt := rfl

@[simp] theorem Upd.tier_pending (x : TierState) : (Upd.apply (.tier x) s).pending = s.pending := rfl
@[simp] theorem Upd.tier_regs (x : TierState) : (Upd.apply (.tier x) s).regs = s.regs := rfl
@[simp] theorem Upd.tier_shadow (x : TierState) : (Upd.apply (.tier x) s).shadow = s.shadow := rfl
@[simp] theorem Upd.tier_ctrs (x : TierState) : (Upd.apply (.tier x) s).ctrs = s.ctrs := rfl
@[simp] theorem Upd.tier_mem (x : TierState) : (Upd.apply (.tier x) s).mem = s.mem := rfl
@[simp] theorem Upd.tier_ls (x : TierState) : (Upd.apply (.tier x) s).ls = s.ls := rfl
@[simp] theorem Upd.tier_hostMem (x : TierState) : (Upd.apply (.tier x) s).hostMem = s.hostMem := rfl
@[simp] theorem Upd.tier_lost (x : TierState) : (Upd.apply (.tier x) s).lost = s.lost := rfl
@[simp] theorem Upd.tier_out (x : TierState) : (Upd.apply (.tier x) s).out = s.out := rfl
@[simp] theorem Upd.tier_free (x : TierState) : (Upd.apply (.tier x) s).free = s.free := rfl
@[simp] theorem Upd.tier_sail (x : TierState) : (Upd.apply (.tier x) s).sail = s.sail := rfl
@[simp] theorem Upd.tier_core (x : TierState) : (Upd.apply (.tier x) s).core = s.core := rfl
@[simp] theorem Upd.tier_err (x : TierState) : (Upd.apply (.tier x) s).err = s.err := rfl
@[simp] theorem Upd.tier_irq (x : TierState) : (Upd.apply (.tier x) s).irq = s.irq := rfl
@[simp] theorem Upd.tier_nmu (x : TierState) : (Upd.apply (.tier x) s).nmu = s.nmu := rfl
@[simp] theorem Upd.tier_chart (x : TierState) : (Upd.apply (.tier x) s).chart = s.chart := rfl
@[simp] theorem Upd.tier_host (x : TierState) : (Upd.apply (.tier x) s).host = s.host := rfl
@[simp] theorem Upd.tier_sdir (x : TierState) : (Upd.apply (.tier x) s).sdir = s.sdir := rfl
@[simp] theorem Upd.tier_berth (x : TierState) : (Upd.apply (.tier x) s).berth = s.berth := rfl
@[simp] theorem Upd.tier_tier (x : TierState) : (Upd.apply (.tier x) s).tier = x := rfl
@[simp] theorem Upd.tier_sec (x : TierState) : (Upd.apply (.tier x) s).sec = s.sec := rfl
@[simp] theorem Upd.tier_text (x : TierState) : (Upd.apply (.tier x) s).text = s.text := rfl
@[simp] theorem Upd.tier_sealer (x : TierState) : (Upd.apply (.tier x) s).sealer = s.sealer := rfl
@[simp] theorem Upd.tier_rcl (x : TierState) : (Upd.apply (.tier x) s).rcl = s.rcl := rfl
@[simp] theorem Upd.tier_nand (x : TierState) : (Upd.apply (.tier x) s).nand = s.nand := rfl
@[simp] theorem Upd.tier_flash (x : TierState) : (Upd.apply (.tier x) s).flash = s.flash := rfl
@[simp] theorem Upd.tier_fuses (x : TierState) : (Upd.apply (.tier x) s).fuses = s.fuses := rfl
@[simp] theorem Upd.tier_boot (x : TierState) : (Upd.apply (.tier x) s).boot = s.boot := rfl
@[simp] theorem Upd.tier_mct (x : TierState) : (Upd.apply (.tier x) s).mct = s.mct := rfl
@[simp] theorem Upd.tier_egr (x : TierState) : (Upd.apply (.tier x) s).egr = s.egr := rfl
@[simp] theorem Upd.tier_pwr (x : TierState) : (Upd.apply (.tier x) s).pwr = s.pwr := rfl
@[simp] theorem Upd.tier_ckpt (x : TierState) : (Upd.apply (.tier x) s).ckpt = s.ckpt := rfl

@[simp] theorem Upd.sec_pending (x : SecState) : (Upd.apply (.sec x) s).pending = s.pending := rfl
@[simp] theorem Upd.sec_regs (x : SecState) : (Upd.apply (.sec x) s).regs = s.regs := rfl
@[simp] theorem Upd.sec_shadow (x : SecState) : (Upd.apply (.sec x) s).shadow = s.shadow := rfl
@[simp] theorem Upd.sec_ctrs (x : SecState) : (Upd.apply (.sec x) s).ctrs = s.ctrs := rfl
@[simp] theorem Upd.sec_mem (x : SecState) : (Upd.apply (.sec x) s).mem = s.mem := rfl
@[simp] theorem Upd.sec_ls (x : SecState) : (Upd.apply (.sec x) s).ls = s.ls := rfl
@[simp] theorem Upd.sec_hostMem (x : SecState) : (Upd.apply (.sec x) s).hostMem = s.hostMem := rfl
@[simp] theorem Upd.sec_lost (x : SecState) : (Upd.apply (.sec x) s).lost = s.lost := rfl
@[simp] theorem Upd.sec_out (x : SecState) : (Upd.apply (.sec x) s).out = s.out := rfl
@[simp] theorem Upd.sec_free (x : SecState) : (Upd.apply (.sec x) s).free = s.free := rfl
@[simp] theorem Upd.sec_sail (x : SecState) : (Upd.apply (.sec x) s).sail = s.sail := rfl
@[simp] theorem Upd.sec_core (x : SecState) : (Upd.apply (.sec x) s).core = s.core := rfl
@[simp] theorem Upd.sec_err (x : SecState) : (Upd.apply (.sec x) s).err = s.err := rfl
@[simp] theorem Upd.sec_irq (x : SecState) : (Upd.apply (.sec x) s).irq = s.irq := rfl
@[simp] theorem Upd.sec_nmu (x : SecState) : (Upd.apply (.sec x) s).nmu = s.nmu := rfl
@[simp] theorem Upd.sec_chart (x : SecState) : (Upd.apply (.sec x) s).chart = s.chart := rfl
@[simp] theorem Upd.sec_host (x : SecState) : (Upd.apply (.sec x) s).host = s.host := rfl
@[simp] theorem Upd.sec_sdir (x : SecState) : (Upd.apply (.sec x) s).sdir = s.sdir := rfl
@[simp] theorem Upd.sec_berth (x : SecState) : (Upd.apply (.sec x) s).berth = s.berth := rfl
@[simp] theorem Upd.sec_tier (x : SecState) : (Upd.apply (.sec x) s).tier = s.tier := rfl
@[simp] theorem Upd.sec_sec (x : SecState) : (Upd.apply (.sec x) s).sec = x := rfl
@[simp] theorem Upd.sec_text (x : SecState) : (Upd.apply (.sec x) s).text = s.text := rfl
@[simp] theorem Upd.sec_sealer (x : SecState) : (Upd.apply (.sec x) s).sealer = s.sealer := rfl
@[simp] theorem Upd.sec_rcl (x : SecState) : (Upd.apply (.sec x) s).rcl = s.rcl := rfl
@[simp] theorem Upd.sec_nand (x : SecState) : (Upd.apply (.sec x) s).nand = s.nand := rfl
@[simp] theorem Upd.sec_flash (x : SecState) : (Upd.apply (.sec x) s).flash = s.flash := rfl
@[simp] theorem Upd.sec_fuses (x : SecState) : (Upd.apply (.sec x) s).fuses = s.fuses := rfl
@[simp] theorem Upd.sec_boot (x : SecState) : (Upd.apply (.sec x) s).boot = s.boot := rfl
@[simp] theorem Upd.sec_mct (x : SecState) : (Upd.apply (.sec x) s).mct = s.mct := rfl
@[simp] theorem Upd.sec_egr (x : SecState) : (Upd.apply (.sec x) s).egr = s.egr := rfl
@[simp] theorem Upd.sec_pwr (x : SecState) : (Upd.apply (.sec x) s).pwr = s.pwr := rfl
@[simp] theorem Upd.sec_ckpt (x : SecState) : (Upd.apply (.sec x) s).ckpt = s.ckpt := rfl

@[simp] theorem Upd.text_pending (x : TextState) : (Upd.apply (.text x) s).pending = s.pending := rfl
@[simp] theorem Upd.text_regs (x : TextState) : (Upd.apply (.text x) s).regs = s.regs := rfl
@[simp] theorem Upd.text_shadow (x : TextState) : (Upd.apply (.text x) s).shadow = s.shadow := rfl
@[simp] theorem Upd.text_ctrs (x : TextState) : (Upd.apply (.text x) s).ctrs = s.ctrs := rfl
@[simp] theorem Upd.text_mem (x : TextState) : (Upd.apply (.text x) s).mem = s.mem := rfl
@[simp] theorem Upd.text_ls (x : TextState) : (Upd.apply (.text x) s).ls = s.ls := rfl
@[simp] theorem Upd.text_hostMem (x : TextState) : (Upd.apply (.text x) s).hostMem = s.hostMem := rfl
@[simp] theorem Upd.text_lost (x : TextState) : (Upd.apply (.text x) s).lost = s.lost := rfl
@[simp] theorem Upd.text_out (x : TextState) : (Upd.apply (.text x) s).out = s.out := rfl
@[simp] theorem Upd.text_free (x : TextState) : (Upd.apply (.text x) s).free = s.free := rfl
@[simp] theorem Upd.text_sail (x : TextState) : (Upd.apply (.text x) s).sail = s.sail := rfl
@[simp] theorem Upd.text_core (x : TextState) : (Upd.apply (.text x) s).core = s.core := rfl
@[simp] theorem Upd.text_err (x : TextState) : (Upd.apply (.text x) s).err = s.err := rfl
@[simp] theorem Upd.text_irq (x : TextState) : (Upd.apply (.text x) s).irq = s.irq := rfl
@[simp] theorem Upd.text_nmu (x : TextState) : (Upd.apply (.text x) s).nmu = s.nmu := rfl
@[simp] theorem Upd.text_chart (x : TextState) : (Upd.apply (.text x) s).chart = s.chart := rfl
@[simp] theorem Upd.text_host (x : TextState) : (Upd.apply (.text x) s).host = s.host := rfl
@[simp] theorem Upd.text_sdir (x : TextState) : (Upd.apply (.text x) s).sdir = s.sdir := rfl
@[simp] theorem Upd.text_berth (x : TextState) : (Upd.apply (.text x) s).berth = s.berth := rfl
@[simp] theorem Upd.text_tier (x : TextState) : (Upd.apply (.text x) s).tier = s.tier := rfl
@[simp] theorem Upd.text_sec (x : TextState) : (Upd.apply (.text x) s).sec = s.sec := rfl
@[simp] theorem Upd.text_text (x : TextState) : (Upd.apply (.text x) s).text = x := rfl
@[simp] theorem Upd.text_sealer (x : TextState) : (Upd.apply (.text x) s).sealer = s.sealer := rfl
@[simp] theorem Upd.text_rcl (x : TextState) : (Upd.apply (.text x) s).rcl = s.rcl := rfl
@[simp] theorem Upd.text_nand (x : TextState) : (Upd.apply (.text x) s).nand = s.nand := rfl
@[simp] theorem Upd.text_flash (x : TextState) : (Upd.apply (.text x) s).flash = s.flash := rfl
@[simp] theorem Upd.text_fuses (x : TextState) : (Upd.apply (.text x) s).fuses = s.fuses := rfl
@[simp] theorem Upd.text_boot (x : TextState) : (Upd.apply (.text x) s).boot = s.boot := rfl
@[simp] theorem Upd.text_mct (x : TextState) : (Upd.apply (.text x) s).mct = s.mct := rfl
@[simp] theorem Upd.text_egr (x : TextState) : (Upd.apply (.text x) s).egr = s.egr := rfl
@[simp] theorem Upd.text_pwr (x : TextState) : (Upd.apply (.text x) s).pwr = s.pwr := rfl
@[simp] theorem Upd.text_ckpt (x : TextState) : (Upd.apply (.text x) s).ckpt = s.ckpt := rfl

@[simp] theorem Upd.sealer_pending (x : SealState) : (Upd.apply (.sealer x) s).pending = s.pending := rfl
@[simp] theorem Upd.sealer_regs (x : SealState) : (Upd.apply (.sealer x) s).regs = s.regs := rfl
@[simp] theorem Upd.sealer_shadow (x : SealState) : (Upd.apply (.sealer x) s).shadow = s.shadow := rfl
@[simp] theorem Upd.sealer_ctrs (x : SealState) : (Upd.apply (.sealer x) s).ctrs = s.ctrs := rfl
@[simp] theorem Upd.sealer_mem (x : SealState) : (Upd.apply (.sealer x) s).mem = s.mem := rfl
@[simp] theorem Upd.sealer_ls (x : SealState) : (Upd.apply (.sealer x) s).ls = s.ls := rfl
@[simp] theorem Upd.sealer_hostMem (x : SealState) : (Upd.apply (.sealer x) s).hostMem = s.hostMem := rfl
@[simp] theorem Upd.sealer_lost (x : SealState) : (Upd.apply (.sealer x) s).lost = s.lost := rfl
@[simp] theorem Upd.sealer_out (x : SealState) : (Upd.apply (.sealer x) s).out = s.out := rfl
@[simp] theorem Upd.sealer_free (x : SealState) : (Upd.apply (.sealer x) s).free = s.free := rfl
@[simp] theorem Upd.sealer_sail (x : SealState) : (Upd.apply (.sealer x) s).sail = s.sail := rfl
@[simp] theorem Upd.sealer_core (x : SealState) : (Upd.apply (.sealer x) s).core = s.core := rfl
@[simp] theorem Upd.sealer_err (x : SealState) : (Upd.apply (.sealer x) s).err = s.err := rfl
@[simp] theorem Upd.sealer_irq (x : SealState) : (Upd.apply (.sealer x) s).irq = s.irq := rfl
@[simp] theorem Upd.sealer_nmu (x : SealState) : (Upd.apply (.sealer x) s).nmu = s.nmu := rfl
@[simp] theorem Upd.sealer_chart (x : SealState) : (Upd.apply (.sealer x) s).chart = s.chart := rfl
@[simp] theorem Upd.sealer_host (x : SealState) : (Upd.apply (.sealer x) s).host = s.host := rfl
@[simp] theorem Upd.sealer_sdir (x : SealState) : (Upd.apply (.sealer x) s).sdir = s.sdir := rfl
@[simp] theorem Upd.sealer_berth (x : SealState) : (Upd.apply (.sealer x) s).berth = s.berth := rfl
@[simp] theorem Upd.sealer_tier (x : SealState) : (Upd.apply (.sealer x) s).tier = s.tier := rfl
@[simp] theorem Upd.sealer_sec (x : SealState) : (Upd.apply (.sealer x) s).sec = s.sec := rfl
@[simp] theorem Upd.sealer_text (x : SealState) : (Upd.apply (.sealer x) s).text = s.text := rfl
@[simp] theorem Upd.sealer_sealer (x : SealState) : (Upd.apply (.sealer x) s).sealer = x := rfl
@[simp] theorem Upd.sealer_rcl (x : SealState) : (Upd.apply (.sealer x) s).rcl = s.rcl := rfl
@[simp] theorem Upd.sealer_nand (x : SealState) : (Upd.apply (.sealer x) s).nand = s.nand := rfl
@[simp] theorem Upd.sealer_flash (x : SealState) : (Upd.apply (.sealer x) s).flash = s.flash := rfl
@[simp] theorem Upd.sealer_fuses (x : SealState) : (Upd.apply (.sealer x) s).fuses = s.fuses := rfl
@[simp] theorem Upd.sealer_boot (x : SealState) : (Upd.apply (.sealer x) s).boot = s.boot := rfl
@[simp] theorem Upd.sealer_mct (x : SealState) : (Upd.apply (.sealer x) s).mct = s.mct := rfl
@[simp] theorem Upd.sealer_egr (x : SealState) : (Upd.apply (.sealer x) s).egr = s.egr := rfl
@[simp] theorem Upd.sealer_pwr (x : SealState) : (Upd.apply (.sealer x) s).pwr = s.pwr := rfl
@[simp] theorem Upd.sealer_ckpt (x : SealState) : (Upd.apply (.sealer x) s).ckpt = s.ckpt := rfl

@[simp] theorem Upd.rcl_pending (x : RclState) : (Upd.apply (.rcl x) s).pending = s.pending := rfl
@[simp] theorem Upd.rcl_regs (x : RclState) : (Upd.apply (.rcl x) s).regs = s.regs := rfl
@[simp] theorem Upd.rcl_shadow (x : RclState) : (Upd.apply (.rcl x) s).shadow = s.shadow := rfl
@[simp] theorem Upd.rcl_ctrs (x : RclState) : (Upd.apply (.rcl x) s).ctrs = s.ctrs := rfl
@[simp] theorem Upd.rcl_mem (x : RclState) : (Upd.apply (.rcl x) s).mem = s.mem := rfl
@[simp] theorem Upd.rcl_ls (x : RclState) : (Upd.apply (.rcl x) s).ls = s.ls := rfl
@[simp] theorem Upd.rcl_hostMem (x : RclState) : (Upd.apply (.rcl x) s).hostMem = s.hostMem := rfl
@[simp] theorem Upd.rcl_lost (x : RclState) : (Upd.apply (.rcl x) s).lost = s.lost := rfl
@[simp] theorem Upd.rcl_out (x : RclState) : (Upd.apply (.rcl x) s).out = s.out := rfl
@[simp] theorem Upd.rcl_free (x : RclState) : (Upd.apply (.rcl x) s).free = s.free := rfl
@[simp] theorem Upd.rcl_sail (x : RclState) : (Upd.apply (.rcl x) s).sail = s.sail := rfl
@[simp] theorem Upd.rcl_core (x : RclState) : (Upd.apply (.rcl x) s).core = s.core := rfl
@[simp] theorem Upd.rcl_err (x : RclState) : (Upd.apply (.rcl x) s).err = s.err := rfl
@[simp] theorem Upd.rcl_irq (x : RclState) : (Upd.apply (.rcl x) s).irq = s.irq := rfl
@[simp] theorem Upd.rcl_nmu (x : RclState) : (Upd.apply (.rcl x) s).nmu = s.nmu := rfl
@[simp] theorem Upd.rcl_chart (x : RclState) : (Upd.apply (.rcl x) s).chart = s.chart := rfl
@[simp] theorem Upd.rcl_host (x : RclState) : (Upd.apply (.rcl x) s).host = s.host := rfl
@[simp] theorem Upd.rcl_sdir (x : RclState) : (Upd.apply (.rcl x) s).sdir = s.sdir := rfl
@[simp] theorem Upd.rcl_berth (x : RclState) : (Upd.apply (.rcl x) s).berth = s.berth := rfl
@[simp] theorem Upd.rcl_tier (x : RclState) : (Upd.apply (.rcl x) s).tier = s.tier := rfl
@[simp] theorem Upd.rcl_sec (x : RclState) : (Upd.apply (.rcl x) s).sec = s.sec := rfl
@[simp] theorem Upd.rcl_text (x : RclState) : (Upd.apply (.rcl x) s).text = s.text := rfl
@[simp] theorem Upd.rcl_sealer (x : RclState) : (Upd.apply (.rcl x) s).sealer = s.sealer := rfl
@[simp] theorem Upd.rcl_rcl (x : RclState) : (Upd.apply (.rcl x) s).rcl = x := rfl
@[simp] theorem Upd.rcl_nand (x : RclState) : (Upd.apply (.rcl x) s).nand = s.nand := rfl
@[simp] theorem Upd.rcl_flash (x : RclState) : (Upd.apply (.rcl x) s).flash = s.flash := rfl
@[simp] theorem Upd.rcl_fuses (x : RclState) : (Upd.apply (.rcl x) s).fuses = s.fuses := rfl
@[simp] theorem Upd.rcl_boot (x : RclState) : (Upd.apply (.rcl x) s).boot = s.boot := rfl
@[simp] theorem Upd.rcl_mct (x : RclState) : (Upd.apply (.rcl x) s).mct = s.mct := rfl
@[simp] theorem Upd.rcl_egr (x : RclState) : (Upd.apply (.rcl x) s).egr = s.egr := rfl
@[simp] theorem Upd.rcl_pwr (x : RclState) : (Upd.apply (.rcl x) s).pwr = s.pwr := rfl
@[simp] theorem Upd.rcl_ckpt (x : RclState) : (Upd.apply (.rcl x) s).ckpt = s.ckpt := rfl

@[simp] theorem Upd.nand_pending (x : NandState) : (Upd.apply (.nand x) s).pending = s.pending := rfl
@[simp] theorem Upd.nand_regs (x : NandState) : (Upd.apply (.nand x) s).regs = s.regs := rfl
@[simp] theorem Upd.nand_shadow (x : NandState) : (Upd.apply (.nand x) s).shadow = s.shadow := rfl
@[simp] theorem Upd.nand_ctrs (x : NandState) : (Upd.apply (.nand x) s).ctrs = s.ctrs := rfl
@[simp] theorem Upd.nand_mem (x : NandState) : (Upd.apply (.nand x) s).mem = s.mem := rfl
@[simp] theorem Upd.nand_ls (x : NandState) : (Upd.apply (.nand x) s).ls = s.ls := rfl
@[simp] theorem Upd.nand_hostMem (x : NandState) : (Upd.apply (.nand x) s).hostMem = s.hostMem := rfl
@[simp] theorem Upd.nand_lost (x : NandState) : (Upd.apply (.nand x) s).lost = s.lost := rfl
@[simp] theorem Upd.nand_out (x : NandState) : (Upd.apply (.nand x) s).out = s.out := rfl
@[simp] theorem Upd.nand_free (x : NandState) : (Upd.apply (.nand x) s).free = s.free := rfl
@[simp] theorem Upd.nand_sail (x : NandState) : (Upd.apply (.nand x) s).sail = s.sail := rfl
@[simp] theorem Upd.nand_core (x : NandState) : (Upd.apply (.nand x) s).core = s.core := rfl
@[simp] theorem Upd.nand_err (x : NandState) : (Upd.apply (.nand x) s).err = s.err := rfl
@[simp] theorem Upd.nand_irq (x : NandState) : (Upd.apply (.nand x) s).irq = s.irq := rfl
@[simp] theorem Upd.nand_nmu (x : NandState) : (Upd.apply (.nand x) s).nmu = s.nmu := rfl
@[simp] theorem Upd.nand_chart (x : NandState) : (Upd.apply (.nand x) s).chart = s.chart := rfl
@[simp] theorem Upd.nand_host (x : NandState) : (Upd.apply (.nand x) s).host = s.host := rfl
@[simp] theorem Upd.nand_sdir (x : NandState) : (Upd.apply (.nand x) s).sdir = s.sdir := rfl
@[simp] theorem Upd.nand_berth (x : NandState) : (Upd.apply (.nand x) s).berth = s.berth := rfl
@[simp] theorem Upd.nand_tier (x : NandState) : (Upd.apply (.nand x) s).tier = s.tier := rfl
@[simp] theorem Upd.nand_sec (x : NandState) : (Upd.apply (.nand x) s).sec = s.sec := rfl
@[simp] theorem Upd.nand_text (x : NandState) : (Upd.apply (.nand x) s).text = s.text := rfl
@[simp] theorem Upd.nand_sealer (x : NandState) : (Upd.apply (.nand x) s).sealer = s.sealer := rfl
@[simp] theorem Upd.nand_rcl (x : NandState) : (Upd.apply (.nand x) s).rcl = s.rcl := rfl
@[simp] theorem Upd.nand_nand (x : NandState) : (Upd.apply (.nand x) s).nand = x := rfl
@[simp] theorem Upd.nand_flash (x : NandState) : (Upd.apply (.nand x) s).flash = s.flash := rfl
@[simp] theorem Upd.nand_fuses (x : NandState) : (Upd.apply (.nand x) s).fuses = s.fuses := rfl
@[simp] theorem Upd.nand_boot (x : NandState) : (Upd.apply (.nand x) s).boot = s.boot := rfl
@[simp] theorem Upd.nand_mct (x : NandState) : (Upd.apply (.nand x) s).mct = s.mct := rfl
@[simp] theorem Upd.nand_egr (x : NandState) : (Upd.apply (.nand x) s).egr = s.egr := rfl
@[simp] theorem Upd.nand_pwr (x : NandState) : (Upd.apply (.nand x) s).pwr = s.pwr := rfl
@[simp] theorem Upd.nand_ckpt (x : NandState) : (Upd.apply (.nand x) s).ckpt = s.ckpt := rfl

@[simp] theorem Upd.flash_pending (x : FlashState) : (Upd.apply (.flash x) s).pending = s.pending := rfl
@[simp] theorem Upd.flash_regs (x : FlashState) : (Upd.apply (.flash x) s).regs = s.regs := rfl
@[simp] theorem Upd.flash_shadow (x : FlashState) : (Upd.apply (.flash x) s).shadow = s.shadow := rfl
@[simp] theorem Upd.flash_ctrs (x : FlashState) : (Upd.apply (.flash x) s).ctrs = s.ctrs := rfl
@[simp] theorem Upd.flash_mem (x : FlashState) : (Upd.apply (.flash x) s).mem = s.mem := rfl
@[simp] theorem Upd.flash_ls (x : FlashState) : (Upd.apply (.flash x) s).ls = s.ls := rfl
@[simp] theorem Upd.flash_hostMem (x : FlashState) : (Upd.apply (.flash x) s).hostMem = s.hostMem := rfl
@[simp] theorem Upd.flash_lost (x : FlashState) : (Upd.apply (.flash x) s).lost = s.lost := rfl
@[simp] theorem Upd.flash_out (x : FlashState) : (Upd.apply (.flash x) s).out = s.out := rfl
@[simp] theorem Upd.flash_free (x : FlashState) : (Upd.apply (.flash x) s).free = s.free := rfl
@[simp] theorem Upd.flash_sail (x : FlashState) : (Upd.apply (.flash x) s).sail = s.sail := rfl
@[simp] theorem Upd.flash_core (x : FlashState) : (Upd.apply (.flash x) s).core = s.core := rfl
@[simp] theorem Upd.flash_err (x : FlashState) : (Upd.apply (.flash x) s).err = s.err := rfl
@[simp] theorem Upd.flash_irq (x : FlashState) : (Upd.apply (.flash x) s).irq = s.irq := rfl
@[simp] theorem Upd.flash_nmu (x : FlashState) : (Upd.apply (.flash x) s).nmu = s.nmu := rfl
@[simp] theorem Upd.flash_chart (x : FlashState) : (Upd.apply (.flash x) s).chart = s.chart := rfl
@[simp] theorem Upd.flash_host (x : FlashState) : (Upd.apply (.flash x) s).host = s.host := rfl
@[simp] theorem Upd.flash_sdir (x : FlashState) : (Upd.apply (.flash x) s).sdir = s.sdir := rfl
@[simp] theorem Upd.flash_berth (x : FlashState) : (Upd.apply (.flash x) s).berth = s.berth := rfl
@[simp] theorem Upd.flash_tier (x : FlashState) : (Upd.apply (.flash x) s).tier = s.tier := rfl
@[simp] theorem Upd.flash_sec (x : FlashState) : (Upd.apply (.flash x) s).sec = s.sec := rfl
@[simp] theorem Upd.flash_text (x : FlashState) : (Upd.apply (.flash x) s).text = s.text := rfl
@[simp] theorem Upd.flash_sealer (x : FlashState) : (Upd.apply (.flash x) s).sealer = s.sealer := rfl
@[simp] theorem Upd.flash_rcl (x : FlashState) : (Upd.apply (.flash x) s).rcl = s.rcl := rfl
@[simp] theorem Upd.flash_nand (x : FlashState) : (Upd.apply (.flash x) s).nand = s.nand := rfl
@[simp] theorem Upd.flash_flash (x : FlashState) : (Upd.apply (.flash x) s).flash = x := rfl
@[simp] theorem Upd.flash_fuses (x : FlashState) : (Upd.apply (.flash x) s).fuses = s.fuses := rfl
@[simp] theorem Upd.flash_boot (x : FlashState) : (Upd.apply (.flash x) s).boot = s.boot := rfl
@[simp] theorem Upd.flash_mct (x : FlashState) : (Upd.apply (.flash x) s).mct = s.mct := rfl
@[simp] theorem Upd.flash_egr (x : FlashState) : (Upd.apply (.flash x) s).egr = s.egr := rfl
@[simp] theorem Upd.flash_pwr (x : FlashState) : (Upd.apply (.flash x) s).pwr = s.pwr := rfl
@[simp] theorem Upd.flash_ckpt (x : FlashState) : (Upd.apply (.flash x) s).ckpt = s.ckpt := rfl

@[simp] theorem Upd.fuses_pending (x : FuseState) : (Upd.apply (.fuses x) s).pending = s.pending := rfl
@[simp] theorem Upd.fuses_regs (x : FuseState) : (Upd.apply (.fuses x) s).regs = s.regs := rfl
@[simp] theorem Upd.fuses_shadow (x : FuseState) : (Upd.apply (.fuses x) s).shadow = s.shadow := rfl
@[simp] theorem Upd.fuses_ctrs (x : FuseState) : (Upd.apply (.fuses x) s).ctrs = s.ctrs := rfl
@[simp] theorem Upd.fuses_mem (x : FuseState) : (Upd.apply (.fuses x) s).mem = s.mem := rfl
@[simp] theorem Upd.fuses_ls (x : FuseState) : (Upd.apply (.fuses x) s).ls = s.ls := rfl
@[simp] theorem Upd.fuses_hostMem (x : FuseState) : (Upd.apply (.fuses x) s).hostMem = s.hostMem := rfl
@[simp] theorem Upd.fuses_lost (x : FuseState) : (Upd.apply (.fuses x) s).lost = s.lost := rfl
@[simp] theorem Upd.fuses_out (x : FuseState) : (Upd.apply (.fuses x) s).out = s.out := rfl
@[simp] theorem Upd.fuses_free (x : FuseState) : (Upd.apply (.fuses x) s).free = s.free := rfl
@[simp] theorem Upd.fuses_sail (x : FuseState) : (Upd.apply (.fuses x) s).sail = s.sail := rfl
@[simp] theorem Upd.fuses_core (x : FuseState) : (Upd.apply (.fuses x) s).core = s.core := rfl
@[simp] theorem Upd.fuses_err (x : FuseState) : (Upd.apply (.fuses x) s).err = s.err := rfl
@[simp] theorem Upd.fuses_irq (x : FuseState) : (Upd.apply (.fuses x) s).irq = s.irq := rfl
@[simp] theorem Upd.fuses_nmu (x : FuseState) : (Upd.apply (.fuses x) s).nmu = s.nmu := rfl
@[simp] theorem Upd.fuses_chart (x : FuseState) : (Upd.apply (.fuses x) s).chart = s.chart := rfl
@[simp] theorem Upd.fuses_host (x : FuseState) : (Upd.apply (.fuses x) s).host = s.host := rfl
@[simp] theorem Upd.fuses_sdir (x : FuseState) : (Upd.apply (.fuses x) s).sdir = s.sdir := rfl
@[simp] theorem Upd.fuses_berth (x : FuseState) : (Upd.apply (.fuses x) s).berth = s.berth := rfl
@[simp] theorem Upd.fuses_tier (x : FuseState) : (Upd.apply (.fuses x) s).tier = s.tier := rfl
@[simp] theorem Upd.fuses_sec (x : FuseState) : (Upd.apply (.fuses x) s).sec = s.sec := rfl
@[simp] theorem Upd.fuses_text (x : FuseState) : (Upd.apply (.fuses x) s).text = s.text := rfl
@[simp] theorem Upd.fuses_sealer (x : FuseState) : (Upd.apply (.fuses x) s).sealer = s.sealer := rfl
@[simp] theorem Upd.fuses_rcl (x : FuseState) : (Upd.apply (.fuses x) s).rcl = s.rcl := rfl
@[simp] theorem Upd.fuses_nand (x : FuseState) : (Upd.apply (.fuses x) s).nand = s.nand := rfl
@[simp] theorem Upd.fuses_flash (x : FuseState) : (Upd.apply (.fuses x) s).flash = s.flash := rfl
@[simp] theorem Upd.fuses_fuses (x : FuseState) : (Upd.apply (.fuses x) s).fuses = x := rfl
@[simp] theorem Upd.fuses_boot (x : FuseState) : (Upd.apply (.fuses x) s).boot = s.boot := rfl
@[simp] theorem Upd.fuses_mct (x : FuseState) : (Upd.apply (.fuses x) s).mct = s.mct := rfl
@[simp] theorem Upd.fuses_egr (x : FuseState) : (Upd.apply (.fuses x) s).egr = s.egr := rfl
@[simp] theorem Upd.fuses_pwr (x : FuseState) : (Upd.apply (.fuses x) s).pwr = s.pwr := rfl
@[simp] theorem Upd.fuses_ckpt (x : FuseState) : (Upd.apply (.fuses x) s).ckpt = s.ckpt := rfl

@[simp] theorem Upd.boot_pending (x : BootState) : (Upd.apply (.boot x) s).pending = s.pending := rfl
@[simp] theorem Upd.boot_regs (x : BootState) : (Upd.apply (.boot x) s).regs = s.regs := rfl
@[simp] theorem Upd.boot_shadow (x : BootState) : (Upd.apply (.boot x) s).shadow = s.shadow := rfl
@[simp] theorem Upd.boot_ctrs (x : BootState) : (Upd.apply (.boot x) s).ctrs = s.ctrs := rfl
@[simp] theorem Upd.boot_mem (x : BootState) : (Upd.apply (.boot x) s).mem = s.mem := rfl
@[simp] theorem Upd.boot_ls (x : BootState) : (Upd.apply (.boot x) s).ls = s.ls := rfl
@[simp] theorem Upd.boot_hostMem (x : BootState) : (Upd.apply (.boot x) s).hostMem = s.hostMem := rfl
@[simp] theorem Upd.boot_lost (x : BootState) : (Upd.apply (.boot x) s).lost = s.lost := rfl
@[simp] theorem Upd.boot_out (x : BootState) : (Upd.apply (.boot x) s).out = s.out := rfl
@[simp] theorem Upd.boot_free (x : BootState) : (Upd.apply (.boot x) s).free = s.free := rfl
@[simp] theorem Upd.boot_sail (x : BootState) : (Upd.apply (.boot x) s).sail = s.sail := rfl
@[simp] theorem Upd.boot_core (x : BootState) : (Upd.apply (.boot x) s).core = s.core := rfl
@[simp] theorem Upd.boot_err (x : BootState) : (Upd.apply (.boot x) s).err = s.err := rfl
@[simp] theorem Upd.boot_irq (x : BootState) : (Upd.apply (.boot x) s).irq = s.irq := rfl
@[simp] theorem Upd.boot_nmu (x : BootState) : (Upd.apply (.boot x) s).nmu = s.nmu := rfl
@[simp] theorem Upd.boot_chart (x : BootState) : (Upd.apply (.boot x) s).chart = s.chart := rfl
@[simp] theorem Upd.boot_host (x : BootState) : (Upd.apply (.boot x) s).host = s.host := rfl
@[simp] theorem Upd.boot_sdir (x : BootState) : (Upd.apply (.boot x) s).sdir = s.sdir := rfl
@[simp] theorem Upd.boot_berth (x : BootState) : (Upd.apply (.boot x) s).berth = s.berth := rfl
@[simp] theorem Upd.boot_tier (x : BootState) : (Upd.apply (.boot x) s).tier = s.tier := rfl
@[simp] theorem Upd.boot_sec (x : BootState) : (Upd.apply (.boot x) s).sec = s.sec := rfl
@[simp] theorem Upd.boot_text (x : BootState) : (Upd.apply (.boot x) s).text = s.text := rfl
@[simp] theorem Upd.boot_sealer (x : BootState) : (Upd.apply (.boot x) s).sealer = s.sealer := rfl
@[simp] theorem Upd.boot_rcl (x : BootState) : (Upd.apply (.boot x) s).rcl = s.rcl := rfl
@[simp] theorem Upd.boot_nand (x : BootState) : (Upd.apply (.boot x) s).nand = s.nand := rfl
@[simp] theorem Upd.boot_flash (x : BootState) : (Upd.apply (.boot x) s).flash = s.flash := rfl
@[simp] theorem Upd.boot_fuses (x : BootState) : (Upd.apply (.boot x) s).fuses = s.fuses := rfl
@[simp] theorem Upd.boot_boot (x : BootState) : (Upd.apply (.boot x) s).boot = x := rfl
@[simp] theorem Upd.boot_mct (x : BootState) : (Upd.apply (.boot x) s).mct = s.mct := rfl
@[simp] theorem Upd.boot_egr (x : BootState) : (Upd.apply (.boot x) s).egr = s.egr := rfl
@[simp] theorem Upd.boot_pwr (x : BootState) : (Upd.apply (.boot x) s).pwr = s.pwr := rfl
@[simp] theorem Upd.boot_ckpt (x : BootState) : (Upd.apply (.boot x) s).ckpt = s.ckpt := rfl

@[simp] theorem Upd.mct_pending (x : MctState) : (Upd.apply (.mct x) s).pending = s.pending := rfl
@[simp] theorem Upd.mct_regs (x : MctState) : (Upd.apply (.mct x) s).regs = s.regs := rfl
@[simp] theorem Upd.mct_shadow (x : MctState) : (Upd.apply (.mct x) s).shadow = s.shadow := rfl
@[simp] theorem Upd.mct_ctrs (x : MctState) : (Upd.apply (.mct x) s).ctrs = s.ctrs := rfl
@[simp] theorem Upd.mct_mem (x : MctState) : (Upd.apply (.mct x) s).mem = s.mem := rfl
@[simp] theorem Upd.mct_ls (x : MctState) : (Upd.apply (.mct x) s).ls = s.ls := rfl
@[simp] theorem Upd.mct_hostMem (x : MctState) : (Upd.apply (.mct x) s).hostMem = s.hostMem := rfl
@[simp] theorem Upd.mct_lost (x : MctState) : (Upd.apply (.mct x) s).lost = s.lost := rfl
@[simp] theorem Upd.mct_out (x : MctState) : (Upd.apply (.mct x) s).out = s.out := rfl
@[simp] theorem Upd.mct_free (x : MctState) : (Upd.apply (.mct x) s).free = s.free := rfl
@[simp] theorem Upd.mct_sail (x : MctState) : (Upd.apply (.mct x) s).sail = s.sail := rfl
@[simp] theorem Upd.mct_core (x : MctState) : (Upd.apply (.mct x) s).core = s.core := rfl
@[simp] theorem Upd.mct_err (x : MctState) : (Upd.apply (.mct x) s).err = s.err := rfl
@[simp] theorem Upd.mct_irq (x : MctState) : (Upd.apply (.mct x) s).irq = s.irq := rfl
@[simp] theorem Upd.mct_nmu (x : MctState) : (Upd.apply (.mct x) s).nmu = s.nmu := rfl
@[simp] theorem Upd.mct_chart (x : MctState) : (Upd.apply (.mct x) s).chart = s.chart := rfl
@[simp] theorem Upd.mct_host (x : MctState) : (Upd.apply (.mct x) s).host = s.host := rfl
@[simp] theorem Upd.mct_sdir (x : MctState) : (Upd.apply (.mct x) s).sdir = s.sdir := rfl
@[simp] theorem Upd.mct_berth (x : MctState) : (Upd.apply (.mct x) s).berth = s.berth := rfl
@[simp] theorem Upd.mct_tier (x : MctState) : (Upd.apply (.mct x) s).tier = s.tier := rfl
@[simp] theorem Upd.mct_sec (x : MctState) : (Upd.apply (.mct x) s).sec = s.sec := rfl
@[simp] theorem Upd.mct_text (x : MctState) : (Upd.apply (.mct x) s).text = s.text := rfl
@[simp] theorem Upd.mct_sealer (x : MctState) : (Upd.apply (.mct x) s).sealer = s.sealer := rfl
@[simp] theorem Upd.mct_rcl (x : MctState) : (Upd.apply (.mct x) s).rcl = s.rcl := rfl
@[simp] theorem Upd.mct_nand (x : MctState) : (Upd.apply (.mct x) s).nand = s.nand := rfl
@[simp] theorem Upd.mct_flash (x : MctState) : (Upd.apply (.mct x) s).flash = s.flash := rfl
@[simp] theorem Upd.mct_fuses (x : MctState) : (Upd.apply (.mct x) s).fuses = s.fuses := rfl
@[simp] theorem Upd.mct_boot (x : MctState) : (Upd.apply (.mct x) s).boot = s.boot := rfl
@[simp] theorem Upd.mct_mct (x : MctState) : (Upd.apply (.mct x) s).mct = x := rfl
@[simp] theorem Upd.mct_egr (x : MctState) : (Upd.apply (.mct x) s).egr = s.egr := rfl
@[simp] theorem Upd.mct_pwr (x : MctState) : (Upd.apply (.mct x) s).pwr = s.pwr := rfl
@[simp] theorem Upd.mct_ckpt (x : MctState) : (Upd.apply (.mct x) s).ckpt = s.ckpt := rfl

@[simp] theorem Upd.egr_pending (x : EgrState) : (Upd.apply (.egr x) s).pending = s.pending := rfl
@[simp] theorem Upd.egr_regs (x : EgrState) : (Upd.apply (.egr x) s).regs = s.regs := rfl
@[simp] theorem Upd.egr_shadow (x : EgrState) : (Upd.apply (.egr x) s).shadow = s.shadow := rfl
@[simp] theorem Upd.egr_ctrs (x : EgrState) : (Upd.apply (.egr x) s).ctrs = s.ctrs := rfl
@[simp] theorem Upd.egr_mem (x : EgrState) : (Upd.apply (.egr x) s).mem = s.mem := rfl
@[simp] theorem Upd.egr_ls (x : EgrState) : (Upd.apply (.egr x) s).ls = s.ls := rfl
@[simp] theorem Upd.egr_hostMem (x : EgrState) : (Upd.apply (.egr x) s).hostMem = s.hostMem := rfl
@[simp] theorem Upd.egr_lost (x : EgrState) : (Upd.apply (.egr x) s).lost = s.lost := rfl
@[simp] theorem Upd.egr_out (x : EgrState) : (Upd.apply (.egr x) s).out = s.out := rfl
@[simp] theorem Upd.egr_free (x : EgrState) : (Upd.apply (.egr x) s).free = s.free := rfl
@[simp] theorem Upd.egr_sail (x : EgrState) : (Upd.apply (.egr x) s).sail = s.sail := rfl
@[simp] theorem Upd.egr_core (x : EgrState) : (Upd.apply (.egr x) s).core = s.core := rfl
@[simp] theorem Upd.egr_err (x : EgrState) : (Upd.apply (.egr x) s).err = s.err := rfl
@[simp] theorem Upd.egr_irq (x : EgrState) : (Upd.apply (.egr x) s).irq = s.irq := rfl
@[simp] theorem Upd.egr_nmu (x : EgrState) : (Upd.apply (.egr x) s).nmu = s.nmu := rfl
@[simp] theorem Upd.egr_chart (x : EgrState) : (Upd.apply (.egr x) s).chart = s.chart := rfl
@[simp] theorem Upd.egr_host (x : EgrState) : (Upd.apply (.egr x) s).host = s.host := rfl
@[simp] theorem Upd.egr_sdir (x : EgrState) : (Upd.apply (.egr x) s).sdir = s.sdir := rfl
@[simp] theorem Upd.egr_berth (x : EgrState) : (Upd.apply (.egr x) s).berth = s.berth := rfl
@[simp] theorem Upd.egr_tier (x : EgrState) : (Upd.apply (.egr x) s).tier = s.tier := rfl
@[simp] theorem Upd.egr_sec (x : EgrState) : (Upd.apply (.egr x) s).sec = s.sec := rfl
@[simp] theorem Upd.egr_text (x : EgrState) : (Upd.apply (.egr x) s).text = s.text := rfl
@[simp] theorem Upd.egr_sealer (x : EgrState) : (Upd.apply (.egr x) s).sealer = s.sealer := rfl
@[simp] theorem Upd.egr_rcl (x : EgrState) : (Upd.apply (.egr x) s).rcl = s.rcl := rfl
@[simp] theorem Upd.egr_nand (x : EgrState) : (Upd.apply (.egr x) s).nand = s.nand := rfl
@[simp] theorem Upd.egr_flash (x : EgrState) : (Upd.apply (.egr x) s).flash = s.flash := rfl
@[simp] theorem Upd.egr_fuses (x : EgrState) : (Upd.apply (.egr x) s).fuses = s.fuses := rfl
@[simp] theorem Upd.egr_boot (x : EgrState) : (Upd.apply (.egr x) s).boot = s.boot := rfl
@[simp] theorem Upd.egr_mct (x : EgrState) : (Upd.apply (.egr x) s).mct = s.mct := rfl
@[simp] theorem Upd.egr_egr (x : EgrState) : (Upd.apply (.egr x) s).egr = x := rfl
@[simp] theorem Upd.egr_pwr (x : EgrState) : (Upd.apply (.egr x) s).pwr = s.pwr := rfl
@[simp] theorem Upd.egr_ckpt (x : EgrState) : (Upd.apply (.egr x) s).ckpt = s.ckpt := rfl

@[simp] theorem Upd.pwr_pending (x : PwrState) : (Upd.apply (.pwr x) s).pending = s.pending := rfl
@[simp] theorem Upd.pwr_regs (x : PwrState) : (Upd.apply (.pwr x) s).regs = s.regs := rfl
@[simp] theorem Upd.pwr_shadow (x : PwrState) : (Upd.apply (.pwr x) s).shadow = s.shadow := rfl
@[simp] theorem Upd.pwr_ctrs (x : PwrState) : (Upd.apply (.pwr x) s).ctrs = s.ctrs := rfl
@[simp] theorem Upd.pwr_mem (x : PwrState) : (Upd.apply (.pwr x) s).mem = s.mem := rfl
@[simp] theorem Upd.pwr_ls (x : PwrState) : (Upd.apply (.pwr x) s).ls = s.ls := rfl
@[simp] theorem Upd.pwr_hostMem (x : PwrState) : (Upd.apply (.pwr x) s).hostMem = s.hostMem := rfl
@[simp] theorem Upd.pwr_lost (x : PwrState) : (Upd.apply (.pwr x) s).lost = s.lost := rfl
@[simp] theorem Upd.pwr_out (x : PwrState) : (Upd.apply (.pwr x) s).out = s.out := rfl
@[simp] theorem Upd.pwr_free (x : PwrState) : (Upd.apply (.pwr x) s).free = s.free := rfl
@[simp] theorem Upd.pwr_sail (x : PwrState) : (Upd.apply (.pwr x) s).sail = s.sail := rfl
@[simp] theorem Upd.pwr_core (x : PwrState) : (Upd.apply (.pwr x) s).core = s.core := rfl
@[simp] theorem Upd.pwr_err (x : PwrState) : (Upd.apply (.pwr x) s).err = s.err := rfl
@[simp] theorem Upd.pwr_irq (x : PwrState) : (Upd.apply (.pwr x) s).irq = s.irq := rfl
@[simp] theorem Upd.pwr_nmu (x : PwrState) : (Upd.apply (.pwr x) s).nmu = s.nmu := rfl
@[simp] theorem Upd.pwr_chart (x : PwrState) : (Upd.apply (.pwr x) s).chart = s.chart := rfl
@[simp] theorem Upd.pwr_host (x : PwrState) : (Upd.apply (.pwr x) s).host = s.host := rfl
@[simp] theorem Upd.pwr_sdir (x : PwrState) : (Upd.apply (.pwr x) s).sdir = s.sdir := rfl
@[simp] theorem Upd.pwr_berth (x : PwrState) : (Upd.apply (.pwr x) s).berth = s.berth := rfl
@[simp] theorem Upd.pwr_tier (x : PwrState) : (Upd.apply (.pwr x) s).tier = s.tier := rfl
@[simp] theorem Upd.pwr_sec (x : PwrState) : (Upd.apply (.pwr x) s).sec = s.sec := rfl
@[simp] theorem Upd.pwr_text (x : PwrState) : (Upd.apply (.pwr x) s).text = s.text := rfl
@[simp] theorem Upd.pwr_sealer (x : PwrState) : (Upd.apply (.pwr x) s).sealer = s.sealer := rfl
@[simp] theorem Upd.pwr_rcl (x : PwrState) : (Upd.apply (.pwr x) s).rcl = s.rcl := rfl
@[simp] theorem Upd.pwr_nand (x : PwrState) : (Upd.apply (.pwr x) s).nand = s.nand := rfl
@[simp] theorem Upd.pwr_flash (x : PwrState) : (Upd.apply (.pwr x) s).flash = s.flash := rfl
@[simp] theorem Upd.pwr_fuses (x : PwrState) : (Upd.apply (.pwr x) s).fuses = s.fuses := rfl
@[simp] theorem Upd.pwr_boot (x : PwrState) : (Upd.apply (.pwr x) s).boot = s.boot := rfl
@[simp] theorem Upd.pwr_mct (x : PwrState) : (Upd.apply (.pwr x) s).mct = s.mct := rfl
@[simp] theorem Upd.pwr_egr (x : PwrState) : (Upd.apply (.pwr x) s).egr = s.egr := rfl
@[simp] theorem Upd.pwr_pwr (x : PwrState) : (Upd.apply (.pwr x) s).pwr = x := rfl
@[simp] theorem Upd.pwr_ckpt (x : PwrState) : (Upd.apply (.pwr x) s).ckpt = s.ckpt := rfl

@[simp] theorem Upd.ckpt_pending (x : CkptState) : (Upd.apply (.ckpt x) s).pending = s.pending := rfl
@[simp] theorem Upd.ckpt_regs (x : CkptState) : (Upd.apply (.ckpt x) s).regs = s.regs := rfl
@[simp] theorem Upd.ckpt_shadow (x : CkptState) : (Upd.apply (.ckpt x) s).shadow = s.shadow := rfl
@[simp] theorem Upd.ckpt_ctrs (x : CkptState) : (Upd.apply (.ckpt x) s).ctrs = s.ctrs := rfl
@[simp] theorem Upd.ckpt_mem (x : CkptState) : (Upd.apply (.ckpt x) s).mem = s.mem := rfl
@[simp] theorem Upd.ckpt_ls (x : CkptState) : (Upd.apply (.ckpt x) s).ls = s.ls := rfl
@[simp] theorem Upd.ckpt_hostMem (x : CkptState) : (Upd.apply (.ckpt x) s).hostMem = s.hostMem := rfl
@[simp] theorem Upd.ckpt_lost (x : CkptState) : (Upd.apply (.ckpt x) s).lost = s.lost := rfl
@[simp] theorem Upd.ckpt_out (x : CkptState) : (Upd.apply (.ckpt x) s).out = s.out := rfl
@[simp] theorem Upd.ckpt_free (x : CkptState) : (Upd.apply (.ckpt x) s).free = s.free := rfl
@[simp] theorem Upd.ckpt_sail (x : CkptState) : (Upd.apply (.ckpt x) s).sail = s.sail := rfl
@[simp] theorem Upd.ckpt_core (x : CkptState) : (Upd.apply (.ckpt x) s).core = s.core := rfl
@[simp] theorem Upd.ckpt_err (x : CkptState) : (Upd.apply (.ckpt x) s).err = s.err := rfl
@[simp] theorem Upd.ckpt_irq (x : CkptState) : (Upd.apply (.ckpt x) s).irq = s.irq := rfl
@[simp] theorem Upd.ckpt_nmu (x : CkptState) : (Upd.apply (.ckpt x) s).nmu = s.nmu := rfl
@[simp] theorem Upd.ckpt_chart (x : CkptState) : (Upd.apply (.ckpt x) s).chart = s.chart := rfl
@[simp] theorem Upd.ckpt_host (x : CkptState) : (Upd.apply (.ckpt x) s).host = s.host := rfl
@[simp] theorem Upd.ckpt_sdir (x : CkptState) : (Upd.apply (.ckpt x) s).sdir = s.sdir := rfl
@[simp] theorem Upd.ckpt_berth (x : CkptState) : (Upd.apply (.ckpt x) s).berth = s.berth := rfl
@[simp] theorem Upd.ckpt_tier (x : CkptState) : (Upd.apply (.ckpt x) s).tier = s.tier := rfl
@[simp] theorem Upd.ckpt_sec (x : CkptState) : (Upd.apply (.ckpt x) s).sec = s.sec := rfl
@[simp] theorem Upd.ckpt_text (x : CkptState) : (Upd.apply (.ckpt x) s).text = s.text := rfl
@[simp] theorem Upd.ckpt_sealer (x : CkptState) : (Upd.apply (.ckpt x) s).sealer = s.sealer := rfl
@[simp] theorem Upd.ckpt_rcl (x : CkptState) : (Upd.apply (.ckpt x) s).rcl = s.rcl := rfl
@[simp] theorem Upd.ckpt_nand (x : CkptState) : (Upd.apply (.ckpt x) s).nand = s.nand := rfl
@[simp] theorem Upd.ckpt_flash (x : CkptState) : (Upd.apply (.ckpt x) s).flash = s.flash := rfl
@[simp] theorem Upd.ckpt_fuses (x : CkptState) : (Upd.apply (.ckpt x) s).fuses = s.fuses := rfl
@[simp] theorem Upd.ckpt_boot (x : CkptState) : (Upd.apply (.ckpt x) s).boot = s.boot := rfl
@[simp] theorem Upd.ckpt_mct (x : CkptState) : (Upd.apply (.ckpt x) s).mct = s.mct := rfl
@[simp] theorem Upd.ckpt_egr (x : CkptState) : (Upd.apply (.ckpt x) s).egr = s.egr := rfl
@[simp] theorem Upd.ckpt_pwr (x : CkptState) : (Upd.apply (.ckpt x) s).pwr = s.pwr := rfl
@[simp] theorem Upd.ckpt_ckpt (x : CkptState) : (Upd.apply (.ckpt x) s).ckpt = x := rfl

end Sys2Proof.Machine
end

