-- ==== Sys2Proof/Laws/Act.lean ====
section
/-! SUPPORT. Running actions: composition, and what every action keeps because every primitive update keeps it. -/

namespace Sys2Proof.Machine

@[simp] theorem Act.run_done (s : State) : Act.done.run s = s := rfl
@[simp] theorem Act.run_look (k : State → Act) (s : State) : (Act.look k).run s = (k s).run s := rfl
@[simp] theorem Act.run_upd (u : Upd) (k : Act) (s : State) : (Act.upd u k).run s = k.run (u.apply s) := rfl
@[simp] theorem Act.run_one (u : Upd) (s : State) : (Act.one u).run s = u.apply s := rfl

@[simp] theorem Act.run_andThen (a b : Act) (s : State) : (a.andThen b).run s = b.run (a.run s) := by
  induction a generalizing s with
  | done => rfl
  | look k ih => exact ih s s
  | upd u k ih => exact ih (u.apply s)

@[simp] theorem Act.run_all_nil (s : State) : (Act.all []).run s = s := rfl
@[simp] theorem Act.run_all_cons (a : Act) (as : List Act) (s : State) :
    (Act.all (a :: as)).run s = (Act.all as).run (a.run s) := Act.run_andThen a (Act.all as) s

@[simp] theorem Act.run_each_nil {α : Type} (f : α → Act) (s : State) : (Act.each [] f).run s = s := rfl
@[simp] theorem Act.run_each_cons {α : Type} (x : α) (xs : List α) (f : α → Act) (s : State) :
    (Act.each (x :: xs) f).run s = (Act.each xs f).run ((f x).run s) := Act.run_all_cons (f x) (xs.map f) s

@[simp] theorem Act.run_when (b : Bool) (a : Act) (s : State) : (Act.when b a).run s = if b then a.run s else s := by
  cases b <;> rfl

theorem Act.run_ite (p : Prop) [Decidable p] (a b : Act) (s : State) :
    (if p then a else b).run s = if p then a.run s else b.run s := by split <;> rfl

theorem Act.outcome_eq (a : Act) (s : State) : a.outcome s = .next (a.run s) := rfl

/-- What every primitive update keeps, every action keeps. -/
theorem Act.run_keeps {P : State → Prop} (h : ∀ (u : Upd) (s : State), P s → P (u.apply s)) (a : Act) (s : State) (hs : P s) :
    P (a.run s) := by
  induction a generalizing s with
  | done => exact hs
  | look k ih => exact ih s s hs
  | upd u k ih => exact ih _ (h u s hs)

/-- What every primitive update keeps between a first state and the present one, every action keeps. -/
theorem Act.run_relates {R : State → State → Prop} (hr : ∀ s, R s s) (ht : ∀ a b c, R a b → R b c → R a c)
    (h : ∀ (u : Upd) (s : State), R s (u.apply s)) (a : Act) (s : State) : R s (a.run s) :=
  Act.run_keeps (P := R s) (fun u s' hs' => ht _ _ _ hs' (h u s')) a s (hr s)

/-- No update touches the commands that wait. -/
theorem Upd.apply_pending (u : Upd) (s : State) : (u.apply s).pending = s.pending := by
  cases u <;> first | rfl | (simp only [Upd.apply]; split <;> rfl)

/-- No action touches the commands that wait. -/
theorem Act.run_pending (a : Act) (s : State) : (a.run s).pending = s.pending :=
  Act.run_relates (R := fun s t => t.pending = s.pending) (fun _ => rfl) (fun _ _ _ h1 h2 => h2.trans h1)
    Upd.apply_pending a s

@[simp] theorem Act.run_modSail (f : SailState → SailState) (s : State) :
    (Act.modSail f).run s = (Upd.sail (f s.sail)).apply s := rfl
@[simp] theorem Act.run_modCore (f : CoreState → CoreState) (s : State) :
    (Act.modCore f).run s = (Upd.core (f s.core)).apply s := rfl
@[simp] theorem Act.run_modErr (f : ErrState → ErrState) (s : State) :
    (Act.modErr f).run s = (Upd.err (f s.err)).apply s := rfl
@[simp] theorem Act.run_modIrq (f : IrqState → IrqState) (s : State) :
    (Act.modIrq f).run s = (Upd.irq (f s.irq)).apply s := rfl
@[simp] theorem Act.run_modNmu (f : NmuState → NmuState) (s : State) :
    (Act.modNmu f).run s = (Upd.nmu (f s.nmu)).apply s := rfl
@[simp] theorem Act.run_modChart (f : ChartState → ChartState) (s : State) :
    (Act.modChart f).run s = (Upd.chart (f s.chart)).apply s := rfl
@[simp] theorem Act.run_modHost (f : HostState → HostState) (s : State) :
    (Act.modHost f).run s = (Upd.host (f s.host)).apply s := rfl
@[simp] theorem Act.run_modSdir (f : SdirState → SdirState) (s : State) :
    (Act.modSdir f).run s = (Upd.sdir (f s.sdir)).apply s := rfl
@[simp] theorem Act.run_modBerth (f : BerthState → BerthState) (s : State) :
    (Act.modBerth f).run s = (Upd.berth (f s.berth)).apply s := rfl
@[simp] theorem Act.run_modTier (f : TierState → TierState) (s : State) :
    (Act.modTier f).run s = (Upd.tier (f s.tier)).apply s := rfl
@[simp] theorem Act.run_modSec (f : SecState → SecState) (s : State) :
    (Act.modSec f).run s = (Upd.sec (f s.sec)).apply s := rfl
@[simp] theorem Act.run_modText (f : TextState → TextState) (s : State) :
    (Act.modText f).run s = (Upd.text (f s.text)).apply s := rfl
@[simp] theorem Act.run_modSealer (f : SealState → SealState) (s : State) :
    (Act.modSealer f).run s = (Upd.sealer (f s.sealer)).apply s := rfl
@[simp] theorem Act.run_modRcl (f : RclState → RclState) (s : State) :
    (Act.modRcl f).run s = (Upd.rcl (f s.rcl)).apply s := rfl
@[simp] theorem Act.run_modNand (f : NandState → NandState) (s : State) :
    (Act.modNand f).run s = (Upd.nand (f s.nand)).apply s := rfl
@[simp] theorem Act.run_modFlash (f : FlashState → FlashState) (s : State) :
    (Act.modFlash f).run s = (Upd.flash (f s.flash)).apply s := rfl
@[simp] theorem Act.run_modFuses (f : FuseState → FuseState) (s : State) :
    (Act.modFuses f).run s = (Upd.fuses (f s.fuses)).apply s := rfl
@[simp] theorem Act.run_modBoot (f : BootState → BootState) (s : State) :
    (Act.modBoot f).run s = (Upd.boot (f s.boot)).apply s := rfl
@[simp] theorem Act.run_modMct (f : MctState → MctState) (s : State) :
    (Act.modMct f).run s = (Upd.mct (f s.mct)).apply s := rfl
@[simp] theorem Act.run_modEgr (f : EgrState → EgrState) (s : State) :
    (Act.modEgr f).run s = (Upd.egr (f s.egr)).apply s := rfl
@[simp] theorem Act.run_modPwr (f : PwrState → PwrState) (s : State) :
    (Act.modPwr f).run s = (Upd.pwr (f s.pwr)).apply s := rfl
@[simp] theorem Act.run_modCkpt (f : CkptState → CkptState) (s : State) :
    (Act.modCkpt f).run s = (Upd.ckpt (f s.ckpt)).apply s := rfl

end Sys2Proof.Machine
end

