-- ==== Sys2Proof/Laws/Bits.lean ====
section
/-! SUPPORT. Laws of bit fields: a field written is read back, and other fields are left alone. -/

namespace Sys2Proof

theorem bits_lt (w hi lo : Nat) : bits w hi lo < 2 ^ (hi + 1 - lo) := Nat.mod_lt _ (by positivity)

/-- `w` is what lies above the field, the field, and what lies below it. -/
theorem bits_split (w hi lo : Nat) :
    w = w / 2 ^ lo / 2 ^ (hi + 1 - lo) * 2 ^ (hi + 1 - lo) * 2 ^ lo + bits w hi lo * 2 ^ lo + w % 2 ^ lo := by
  have h1 := Nat.div_add_mod w (2 ^ lo)
  have h2 := Nat.div_add_mod (w / 2 ^ lo) (2 ^ (hi + 1 - lo))
  simp only [bits, Nat.shiftRight_eq_div_pow]
  rw [← Nat.add_mul, Nat.mul_comm (w / 2 ^ lo / 2 ^ (hi + 1 - lo)), h2, Nat.mul_comm (w / 2 ^ lo), h1]

theorem putBits_eq (w hi lo v : Nat) :
    putBits w hi lo v
      = w / 2 ^ lo / 2 ^ (hi + 1 - lo) * 2 ^ (hi + 1 - lo) * 2 ^ lo + v % 2 ^ (hi + 1 - lo) * 2 ^ lo + w % 2 ^ lo := by
  unfold putBits
  conv_lhs => rw [show w - bits w hi lo * 2 ^ lo
    = w / 2 ^ lo / 2 ^ (hi + 1 - lo) * 2 ^ (hi + 1 - lo) * 2 ^ lo + w % 2 ^ lo by
      have := bits_split w hi lo; omega]
  omega

theorem testBit_bits (w hi lo k : Nat) : (bits w hi lo).testBit k = (decide (k < hi + 1 - lo) && w.testBit (lo + k)) := by
  simp only [bits, Nat.testBit_mod_two_pow, Nat.testBit_shiftRight]

theorem testBit_putBits (w hi lo v k : Nat) :
    (putBits w hi lo v).testBit k = if lo ≤ k ∧ k < hi + 1 then v.testBit (k - lo) else w.testBit k := by
  have hv : v % 2 ^ (hi + 1 - lo) < 2 ^ (hi + 1 - lo) := Nat.mod_lt _ (by positivity)
  have hr : w % 2 ^ lo < 2 ^ lo := Nat.mod_lt _ (by positivity)
  rw [putBits_eq, ← Nat.add_mul, Nat.mul_comm _ (2 ^ lo), Nat.testBit_two_pow_mul_add _ hr,
    Nat.mul_comm _ (2 ^ (hi + 1 - lo)), Nat.testBit_two_pow_mul_add _ hv]
  simp only [Nat.testBit_mod_two_pow, Nat.testBit_div_two_pow]
  by_cases h1 : k < lo
  · simp [h1, show ¬ lo ≤ k by omega]
  · by_cases h2 : k < hi + 1
    · simp [h1, h2, show lo ≤ k by omega, show k - lo < hi + 1 - lo by omega]
    · by_cases h3 : k - lo < hi + 1 - lo
      · omega
      · simp only [h1, h2, h3, and_false, if_false]
        congr 1; omega

/-- A field written reads as the low bits of the value. -/
theorem bits_putBits (w hi lo v : Nat) : bits (putBits w hi lo v) hi lo = v % 2 ^ (hi + 1 - lo) := by
  apply Nat.eq_of_testBit_eq
  intro k
  simp only [testBit_bits, testBit_putBits, Nat.testBit_mod_two_pow]
  by_cases h : k < hi + 1 - lo
  · simp [h, show lo + k < hi + 1 by omega]
  · simp [h]

/-- A field that lies apart from the one written reads as before. -/
theorem bits_putBits_other (w hi lo v hi' lo' : Nat) (h : hi' < lo ∨ hi < lo') :
    bits (putBits w hi lo v) hi' lo' = bits w hi' lo' := by
  apply Nat.eq_of_testBit_eq
  intro k
  simp only [testBit_bits, testBit_putBits]
  by_cases hk : k < hi' + 1 - lo'
  · simp only [hk, decide_true, Bool.true_and]; split <;> [omega; rfl]
  · simp [hk]

theorem bits_mod_of_lt (w hi lo n : Nat) (h : hi < n) : bits (w % 2 ^ n) hi lo = bits w hi lo := by
  apply Nat.eq_of_testBit_eq
  intro k
  simp only [testBit_bits, Nat.testBit_mod_two_pow]
  by_cases hk : k < hi + 1 - lo
  · simp [hk, show lo + k < n by omega]
  · simp [hk]

/-- Masking with bits that include a field leaves the field. -/
theorem bits_and (w m hi lo : Nat) (h : bits m hi lo = 2 ^ (hi + 1 - lo) - 1) : bits (w &&& m) hi lo = bits w hi lo := by
  apply Nat.eq_of_testBit_eq
  intro k
  have hk := congrArg (fun x => x.testBit k) h
  simp only [testBit_bits, Nat.testBit_two_pow_sub_one, Nat.testBit_and] at hk ⊢
  by_cases h' : k < hi + 1 - lo
  · simp only [h', decide_true, Bool.true_and] at hk ⊢; simp [hk]
  · simp [h']

end Sys2Proof
end

