-- ==== Sys2Proof/Laws/SMap.lean ====
section
/-! SUPPORT. Laws of sparse maps: what is read after a write, and that every operation keeps the canonical form. -/

namespace Sys2Proof

variable {α : Type}

@[simp] theorem SMap.get_nil (d : Nat → α) (k : Nat) : SMap.get d [] k = d k := rfl

/-- After inserting a value its key reads as that value. -/
@[simp] theorem SMap.get_set_same (d : Nat → α) (m : SMap α) (k : Nat) (v : α) : (m.set k v).get d k = v := by
  induction m with
  | nil => simp [SMap.set, SMap.get]
  | cons e m ih =>
    obtain ⟨k', v'⟩ := e
    simp only [SMap.set]
    split
    · simp [SMap.get]
    · split
      · simp [SMap.get]
      · simp only [SMap.get, ih]
        split
        · omega
        · rfl

/-- Inserting a value leaves every other key alone. -/
theorem SMap.get_set_other (d : Nat → α) (m : SMap α) {k j : Nat} (v : α) (h : j ≠ k) :
    (m.set k v).get d j = m.get d j := by
  induction m with
  | nil => simp only [SMap.set, SMap.get]; split <;> [omega; rfl]
  | cons e m ih =>
    obtain ⟨k', v'⟩ := e
    simp only [SMap.set]
    split
    · simp only [SMap.get]; split <;> [omega; rfl]
    · split
      · subst_vars; simp only [SMap.get]; split <;> [omega; rfl]
      · simp only [SMap.get, ih]

/-- Removing a key leaves every other key alone. -/
theorem SMap.get_del_other (d : Nat → α) (m : SMap α) {k j : Nat} (h : j ≠ k) : (m.del k).get d j = m.get d j := by
  unfold SMap.del
  induction m with
  | nil => rfl
  | cons e m ih =>
    obtain ⟨k', v'⟩ := e
    rw [List.filter_cons]
    split
    · simp only [SMap.get, ih]
    · rename_i hk
      have hk : k' = k := by simpa using hk
      rw [ih, SMap.get, if_neg (by omega)]

/-- A removed key reads as the default. -/
@[simp] theorem SMap.get_del_same (d : Nat → α) (m : SMap α) (k : Nat) : (m.del k).get d k = d k := by
  unfold SMap.del
  induction m with
  | nil => rfl
  | cons e m ih =>
    obtain ⟨k', v'⟩ := e
    rw [List.filter_cons]
    split
    · rename_i hk
      have hk : k' ≠ k := by simpa using hk
      rw [SMap.get, if_neg hk, ih]
    · exact ih

theorem SMap.sortedFrom_mono {m : SMap α} {a b : Nat} (h : m.sortedFrom b = true) (hab : a ≤ b) :
    m.sortedFrom a = true := by
  cases m with
  | nil => rfl
  | cons e m => simp only [SMap.sortedFrom, Bool.and_eq_true, decide_eq_true_eq] at h ⊢; exact ⟨by omega, h.2⟩

/-- A key below all listed keys reads as the default. -/
theorem SMap.get_of_sortedFrom (d : Nat → α) {m : SMap α} {lo k : Nat} (h : m.sortedFrom lo = true) (hk : k < lo) :
    m.get d k = d k := by
  induction m generalizing lo with
  | nil => rfl
  | cons e m ih =>
    obtain ⟨k', v'⟩ := e
    simp only [SMap.sortedFrom, Bool.and_eq_true, decide_eq_true_eq] at h
    simp only [SMap.get]
    split
    · omega
    · exact ih h.2 (by omega)

theorem SMap.sortedFrom_set {m : SMap α} {lo k : Nat} (v : α) (h : m.sortedFrom lo = true) (hk : lo ≤ k) :
    (m.set k v).sortedFrom lo = true := by
  induction m generalizing lo with
  | nil => simp [SMap.set, SMap.sortedFrom, hk]
  | cons e m ih =>
    obtain ⟨k', v'⟩ := e
    simp only [SMap.sortedFrom, Bool.and_eq_true, decide_eq_true_eq] at h
    simp only [SMap.set]
    split
    · simp only [SMap.sortedFrom, Bool.and_eq_true, decide_eq_true_eq]; exact ⟨hk, by omega, h.2⟩
    · split
      · subst_vars; simp only [SMap.sortedFrom, Bool.and_eq_true, decide_eq_true_eq]; exact h
      · simp only [SMap.sortedFrom, Bool.and_eq_true, decide_eq_true_eq]; exact ⟨h.1, ih h.2 (by omega)⟩

theorem SMap.mem_set {m : SMap α} {k : Nat} {v : α} {e : Nat × α} (h : e ∈ m.set k v) : e = (k, v) ∨ e ∈ m := by
  induction m with
  | nil => simpa [SMap.set] using h
  | cons x m ih =>
    obtain ⟨k', v'⟩ := x
    simp only [SMap.set] at h
    split at h
    · simpa using h
    · split at h
      · rcases List.mem_cons.1 h with h | h <;> simp [h]
      · rcases List.mem_cons.1 h with h | h
        · simp [h]
        · rcases ih h with h | h <;> simp [h]

theorem SMap.mem_of_mem_del {m : SMap α} {k : Nat} {e : Nat × α} (h : e ∈ m.del k) : e ∈ m :=
  List.mem_of_mem_filter h

theorem SMap.sortedFrom_filter {m : SMap α} {lo : Nat} (p : Nat × α → Bool) (h : m.sortedFrom lo = true) :
    SMap.sortedFrom lo (m.filter p) = true := by
  induction m generalizing lo with
  | nil => rfl
  | cons e m ih =>
    obtain ⟨k', v'⟩ := e
    simp only [SMap.sortedFrom, Bool.and_eq_true, decide_eq_true_eq] at h
    rw [List.filter_cons]
    split
    · simp only [SMap.sortedFrom, Bool.and_eq_true, decide_eq_true_eq]; exact ⟨h.1, ih h.2⟩
    · exact SMap.sortedFrom_mono (ih h.2) (by omega)

theorem SMap.length_getList (d : Nat → α) (m : SMap α) (k n : Nat) : (SMap.getList d m k n).length = n := by
  induction n generalizing k with
  | zero => rfl
  | succ n ih => simp [SMap.getList, ih]

section
variable [DecidableEq α] (d : Nat → α)

/-- A write leaves every other key alone. -/
theorem SMap.get_put_other (m : SMap α) {k j : Nat} (v : α) (h : j ≠ k) : (m.put d k v).get d j = m.get d j := by
  unfold SMap.put
  split
  · exact SMap.get_del_other d m h
  · exact SMap.get_set_other d m v h

/-- Every value is read back, whatever the map. -/
@[simp] theorem SMap.get_put_same (m : SMap α) (k : Nat) (v : α) : (m.put d k v).get d k = v := by
  unfold SMap.put
  split
  · rename_i hv; rw [SMap.get_del_same, hv]
  · simp

/-- A write keeps the canonical form. -/
theorem SMap.wf_put {m : SMap α} (h : m.wf d = true) (k : Nat) (v : α) : (m.put d k v).wf d = true := by
  simp only [SMap.wf, Bool.and_eq_true, List.all_eq_true, decide_eq_true_eq] at h ⊢
  unfold SMap.put
  split
  · exact ⟨SMap.sortedFrom_filter _ h.1, fun e he => h.2 e (SMap.mem_of_mem_del he)⟩
  · refine ⟨SMap.sortedFrom_set v h.1 (Nat.zero_le _), fun e he => ?_⟩
    rcases SMap.mem_set he with rfl | he
    · assumption
    · exact h.2 e he

/-- Writing a list keeps the canonical form. -/
theorem SMap.wf_putList {m : SMap α} (h : m.wf d = true) (k : Nat) (vs : List α) : (SMap.putList d m k vs).wf d = true := by
  induction vs generalizing m k with
  | nil => exact h
  | cons v vs ih => exact ih (SMap.wf_put d h k v) (k + 1)

/-- Dropping entries keeps the canonical form. -/
theorem SMap.wf_filter {m : SMap α} (h : m.wf d = true) (p : Nat × α → Bool) : SMap.wf d (m.filter p) = true := by
  simp only [SMap.wf, Bool.and_eq_true, List.all_eq_true, decide_eq_true_eq] at h ⊢
  exact ⟨SMap.sortedFrom_filter p h.1, fun e he => h.2 e (List.mem_of_mem_filter he)⟩

theorem SMap.wf_nil : SMap.wf d [] = true := rfl

/-- A list written leaves every key outside it alone. -/
theorem SMap.get_putList_other (m : SMap α) {k j : Nat} (vs : List α) (h : j < k ∨ k + vs.length ≤ j) :
    (SMap.putList d m k vs).get d j = m.get d j := by
  induction vs generalizing m k with
  | nil => rfl
  | cons v vs ih =>
    simp only [List.length_cons] at h
    rw [SMap.putList, ih _ (by omega), SMap.get_put_other d m v (by omega)]

/-- What a list written reads back as. -/
theorem SMap.get_putList (m : SMap α) {k i : Nat} {vs : List α} (h : i < vs.length) :
    (SMap.putList d m k vs).get d (k + i) = vs[i] := by
  induction vs generalizing m k i with
  | nil => simp at h
  | cons v vs ih =>
    cases i with
    | zero =>
      simp only [SMap.putList, Nat.add_zero, List.getElem_cons_zero]
      rw [SMap.get_putList_other d _ vs (by omega), SMap.get_put_same]
    | succ i =>
      simp only [List.length_cons] at h
      have := ih (m.put d k v) (k := k + 1) (i := i) (by omega)
      simpa [SMap.putList, Nat.add_assoc, Nat.add_comm 1 i] using this

/-- Bytes written are the bytes read. -/
theorem SMap.getList_putList (m : SMap α) (k : Nat) (vs : List α) :
    SMap.getList d (SMap.putList d m k vs) k vs.length = vs := by
  induction vs generalizing m k with
  | nil => rfl
  | cons v vs ih =>
    simp only [List.length_cons, SMap.getList, SMap.putList]
    rw [SMap.get_putList_other d _ vs (by omega), SMap.get_put_same, ih]

/-- Bytes outside the write read as before. -/
theorem SMap.getList_putList_other (m : SMap α) {k j n : Nat} (vs : List α) (h : j + n ≤ k ∨ k + vs.length ≤ j) :
    SMap.getList d (SMap.putList d m k vs) j n = SMap.getList d m j n := by
  induction n generalizing j with
  | zero => rfl
  | succ n ih =>
    simp only [SMap.getList]
    rw [SMap.get_putList_other d m vs (by omega), ih (by omega)]

end

end Sys2Proof
end

