-- ==== Sys2Proof/Laws/Reg.lean ====
section
/-! SUPPORT. Registers and counters: what a field reads as after it or another field was set, and that no other update
changes a register. -/

namespace Sys2Proof

/-- A field lies in its register and all its bits are defined ones. -/
abbrev Field.Ok (f : Field) : Prop :=
  f.lo ≤ f.hi ∧ f.hi < 128 ∧ bits (Machine.fieldMask f.reg).toNat f.hi f.lo = 2 ^ (f.hi + 1 - f.lo) - 1

end Sys2Proof

namespace Sys2Proof.Machine

variable (s : State)

/-- The state after the device set a field of a live register. -/
def State.put (s : State) (f : Field) (x : Nat) (i : Nat := 0) : State := (Act.set f x i).run s

/-- The register file is in canonical form. -/
def State.RegsOk (s : State) : Prop := SMap.wf regDefault s.regs = true

@[simp] theorem Act.run_set (f : Field) (x i : Nat) : (Act.set f x i).run s = s.put f x i := rfl
@[simp] theorem Act.run_setFlag (f : Field) (b : Bool) (i : Nat) :
    (Act.setFlag f b i).run s = s.put f (if b then 1 else 0) i := rfl
@[simp] theorem Act.run_count (c : Ctr) : (Act.count c).run s = Upd.apply (.count c 1) s := rfl
@[simp] theorem Act.run_countN (c : Ctr) (n : Nat) : (Act.countN c n).run s = Upd.apply (.count c n) s := rfl

theorem State.put_regs (f : Field) (x i : Nat) :
    (s.put f x i).regs = if i < f.reg.info.count then
      s.regs.put regDefault (regKey f.reg i) (putField (s.reg f.reg i) f x &&& fieldMask f.reg) else s.regs :=
  Upd.reg_regs s f.reg i (putField (s.reg f.reg i) f x)

theorem State.put_keeps {α : Type} (g : State → α) (h : ∀ s : State, ∀ r, g { s with regs := r } = g s) (f : Field)
    (x i : Nat) : g (s.put f x i) = g s := by
  simp only [State.put, Act.set, Act.run_look, Act.run_one, Upd.apply]
  split
  · exact h _ _
  · rfl

@[simp] theorem State.put_pending (f : Field) (x i : Nat) : (s.put f x i).pending = s.pending :=
  s.put_keeps (·.pending) (fun _ _ => rfl) f x i
@[simp] theorem State.put_shadow (f : Field) (x i : Nat) : (s.put f x i).shadow = s.shadow :=
  s.put_keeps (·.shadow) (fun _ _ => rfl) f x i
@[simp] theorem State.put_ctrs (f : Field) (x i : Nat) : (s.put f x i).ctrs = s.ctrs :=
  s.put_keeps (·.ctrs) (fun _ _ => rfl) f x i
@[simp] theorem State.put_mem (f : Field) (x i : Nat) : (s.put f x i).mem = s.mem :=
  s.put_keeps (·.mem) (fun _ _ => rfl) f x i
@[simp] theorem State.put_ls (f : Field) (x i : Nat) : (s.put f x i).ls = s.ls :=
  s.put_keeps (·.ls) (fun _ _ => rfl) f x i
@[simp] theorem State.put_hostMem (f : Field) (x i : Nat) : (s.put f x i).hostMem = s.hostMem :=
  s.put_keeps (·.hostMem) (fun _ _ => rfl) f x i
@[simp] theorem State.put_lost (f : Field) (x i : Nat) : (s.put f x i).lost = s.lost :=
  s.put_keeps (·.lost) (fun _ _ => rfl) f x i
@[simp] theorem State.put_out (f : Field) (x i : Nat) : (s.put f x i).out = s.out :=
  s.put_keeps (·.out) (fun _ _ => rfl) f x i
@[simp] theorem State.put_free (f : Field) (x i : Nat) : (s.put f x i).free = s.free :=
  s.put_keeps (·.free) (fun _ _ => rfl) f x i
@[simp] theorem State.put_sail (f : Field) (x i : Nat) : (s.put f x i).sail = s.sail :=
  s.put_keeps (·.sail) (fun _ _ => rfl) f x i
@[simp] theorem State.put_core (f : Field) (x i : Nat) : (s.put f x i).core = s.core :=
  s.put_keeps (·.core) (fun _ _ => rfl) f x i
@[simp] theorem State.put_err (f : Field) (x i : Nat) : (s.put f x i).err = s.err :=
  s.put_keeps (·.err) (fun _ _ => rfl) f x i
@[simp] theorem State.put_irq (f : Field) (x i : Nat) : (s.put f x i).irq = s.irq :=
  s.put_keeps (·.irq) (fun _ _ => rfl) f x i
@[simp] theorem State.put_nmu (f : Field) (x i : Nat) : (s.put f x i).nmu = s.nmu :=
  s.put_keeps (·.nmu) (fun _ _ => rfl) f x i
@[simp] theorem State.put_chart (f : Field) (x i : Nat) : (s.put f x i).chart = s.chart :=
  s.put_keeps (·.chart) (fun _ _ => rfl) f x i
@[simp] theorem State.put_host (f : Field) (x i : Nat) : (s.put f x i).host = s.host :=
  s.put_keeps (·.host) (fun _ _ => rfl) f x i
@[simp] theorem State.put_sdir (f : Field) (x i : Nat) : (s.put f x i).sdir = s.sdir :=
  s.put_keeps (·.sdir) (fun _ _ => rfl) f x i
@[simp] theorem State.put_berth (f : Field) (x i : Nat) : (s.put f x i).berth = s.berth :=
  s.put_keeps (·.berth) (fun _ _ => rfl) f x i
@[simp] theorem State.put_tier (f : Field) (x i : Nat) : (s.put f x i).tier = s.tier :=
  s.put_keeps (·.tier) (fun _ _ => rfl) f x i
@[simp] theorem State.put_sec (f : Field) (x i : Nat) : (s.put f x i).sec = s.sec :=
  s.put_keeps (·.sec) (fun _ _ => rfl) f x i
@[simp] theorem State.put_text (f : Field) (x i : Nat) : (s.put f x i).text = s.text :=
  s.put_keeps (·.text) (fun _ _ => rfl) f x i
@[simp] theorem State.put_sealer (f : Field) (x i : Nat) : (s.put f x i).sealer = s.sealer :=
  s.put_keeps (·.sealer) (fun _ _ => rfl) f x i
@[simp] theorem State.put_rcl (f : Field) (x i : Nat) : (s.put f x i).rcl = s.rcl :=
  s.put_keeps (·.rcl) (fun _ _ => rfl) f x i
@[simp] theorem State.put_nand (f : Field) (x i : Nat) : (s.put f x i).nand = s.nand :=
  s.put_keeps (·.nand) (fun _ _ => rfl) f x i
@[simp] theorem State.put_flash (f : Field) (x i : Nat) : (s.put f x i).flash = s.flash :=
  s.put_keeps (·.flash) (fun _ _ => rfl) f x i
@[simp] theorem State.put_fuses (f : Field) (x i : Nat) : (s.put f x i).fuses = s.fuses :=
  s.put_keeps (·.fuses) (fun _ _ => rfl) f x i
@[simp] theorem State.put_boot (f : Field) (x i : Nat) : (s.put f x i).boot = s.boot :=
  s.put_keeps (·.boot) (fun _ _ => rfl) f x i
@[simp] theorem State.put_mct (f : Field) (x i : Nat) : (s.put f x i).mct = s.mct :=
  s.put_keeps (·.mct) (fun _ _ => rfl) f x i
@[simp] theorem State.put_egr (f : Field) (x i : Nat) : (s.put f x i).egr = s.egr :=
  s.put_keeps (·.egr) (fun _ _ => rfl) f x i
@[simp] theorem State.put_pwr (f : Field) (x i : Nat) : (s.put f x i).pwr = s.pwr :=
  s.put_keeps (·.pwr) (fun _ _ => rfl) f x i
@[simp] theorem State.put_ckpt (f : Field) (x i : Nat) : (s.put f x i).ckpt = s.ckpt :=
  s.put_keeps (·.ckpt) (fun _ _ => rfl) f x i
@[simp] theorem State.put_getShadow (f g : Field) (x i j : Nat) : (s.put f x i).getShadow g j = s.getShadow g j :=
  s.put_keeps (·.getShadow g j) (fun _ _ => rfl) f x i
@[simp] theorem State.put_count (f : Field) (x i : Nat) (c : Ctr) : (s.put f x i).count c = s.count c :=
  s.put_keeps (·.count c) (fun _ _ => rfl) f x i

@[simp] theorem Upd.count_get (c : Ctr) (n : Nat) (f : Field) (j : Nat) : (Upd.apply (.count c n) s).get f j = s.get f j := rfl
@[simp] theorem Upd.count_reg' (c : Ctr) (n : Nat) (r : Reg) (j : Nat) : (Upd.apply (.count c n) s).reg r j = s.reg r j := rfl
@[simp] theorem Upd.count_flag (c : Ctr) (n : Nat) (f : Field) (j : Nat) : (Upd.apply (.count c n) s).flag f j = s.flag f j := rfl
@[simp] theorem Upd.count_getShadow (c : Ctr) (n : Nat) (f : Field) (j : Nat) :
    (Upd.apply (.count c n) s).getShadow f j = s.getShadow f j := rfl
@[simp] theorem Upd.count_regsOk (c : Ctr) (n : Nat) : (Upd.apply (.count c n) s).RegsOk ↔ s.RegsOk := Iff.rfl
@[simp] theorem Upd.mem_get (a : Nat) (bs : List Byte) (f : Field) (j : Nat) : (Upd.apply (.mem a bs) s).get f j = s.get f j := rfl
@[simp] theorem Upd.mem_reg' (a : Nat) (bs : List Byte) (r : Reg) (j : Nat) : (Upd.apply (.mem a bs) s).reg r j = s.reg r j := rfl
@[simp] theorem Upd.mem_flag (a : Nat) (bs : List Byte) (f : Field) (j : Nat) : (Upd.apply (.mem a bs) s).flag f j = s.flag f j := rfl
@[simp] theorem Upd.mem_getShadow (a : Nat) (bs : List Byte) (f : Field) (j : Nat) :
    (Upd.apply (.mem a bs) s).getShadow f j = s.getShadow f j := rfl
@[simp] theorem Upd.mem_regsOk (a : Nat) (bs : List Byte) : (Upd.apply (.mem a bs) s).RegsOk ↔ s.RegsOk := Iff.rfl
@[simp] theorem Upd.mem_count (a : Nat) (bs : List Byte) (k : Ctr) : (Upd.apply (.mem a bs) s).count k = s.count k := rfl
@[simp] theorem Upd.ls_get (c a : Nat) (bs : List Byte) (f : Field) (j : Nat) : (Upd.apply (.ls c a bs) s).get f j = s.get f j := rfl
@[simp] theorem Upd.ls_reg' (c a : Nat) (bs : List Byte) (r : Reg) (j : Nat) : (Upd.apply (.ls c a bs) s).reg r j = s.reg r j := rfl
@[simp] theorem Upd.ls_flag (c a : Nat) (bs : List Byte) (f : Field) (j : Nat) : (Upd.apply (.ls c a bs) s).flag f j = s.flag f j := rfl
@[simp] theorem Upd.ls_getShadow (c a : Nat) (bs : List Byte) (f : Field) (j : Nat) :
    (Upd.apply (.ls c a bs) s).getShadow f j = s.getShadow f j := rfl
@[simp] theorem Upd.ls_regsOk (c a : Nat) (bs : List Byte) : (Upd.apply (.ls c a bs) s).RegsOk ↔ s.RegsOk := Iff.rfl
@[simp] theorem Upd.ls_count (c a : Nat) (bs : List Byte) (k : Ctr) : (Upd.apply (.ls c a bs) s).count k = s.count k := rfl
@[simp] theorem Upd.hostMem_get (a : Nat) (bs : List Byte) (f : Field) (j : Nat) : (Upd.apply (.hostMem a bs) s).get f j = s.get f j := rfl
@[simp] theorem Upd.hostMem_reg' (a : Nat) (bs : List Byte) (r : Reg) (j : Nat) : (Upd.apply (.hostMem a bs) s).reg r j = s.reg r j := rfl
@[simp] theorem Upd.hostMem_flag (a : Nat) (bs : List Byte) (f : Field) (j : Nat) : (Upd.apply (.hostMem a bs) s).flag f j = s.flag f j := rfl
@[simp] theorem Upd.hostMem_getShadow (a : Nat) (bs : List Byte) (f : Field) (j : Nat) :
    (Upd.apply (.hostMem a bs) s).getShadow f j = s.getShadow f j := rfl
@[simp] theorem Upd.hostMem_regsOk (a : Nat) (bs : List Byte) : (Upd.apply (.hostMem a bs) s).RegsOk ↔ s.RegsOk := Iff.rfl
@[simp] theorem Upd.hostMem_count (a : Nat) (bs : List Byte) (k : Ctr) : (Upd.apply (.hostMem a bs) s).count k = s.count k := rfl
@[simp] theorem Upd.wipe_get (lo hi : Nat) (f : Field) (j : Nat) : (Upd.apply (.wipe lo hi) s).get f j = s.get f j := rfl
@[simp] theorem Upd.wipe_reg' (lo hi : Nat) (r : Reg) (j : Nat) : (Upd.apply (.wipe lo hi) s).reg r j = s.reg r j := rfl
@[simp] theorem Upd.wipe_flag (lo hi : Nat) (f : Field) (j : Nat) : (Upd.apply (.wipe lo hi) s).flag f j = s.flag f j := rfl
@[simp] theorem Upd.wipe_getShadow (lo hi : Nat) (f : Field) (j : Nat) :
    (Upd.apply (.wipe lo hi) s).getShadow f j = s.getShadow f j := rfl
@[simp] theorem Upd.wipe_regsOk (lo hi : Nat) : (Upd.apply (.wipe lo hi) s).RegsOk ↔ s.RegsOk := Iff.rfl
@[simp] theorem Upd.wipe_count (lo hi : Nat) (k : Ctr) : (Upd.apply (.wipe lo hi) s).count k = s.count k := rfl
@[simp] theorem Upd.wipeLs_get (c lo hi : Nat) (f : Field) (j : Nat) : (Upd.apply (.wipeLs c lo hi) s).get f j = s.get f j := rfl
@[simp] theorem Upd.wipeLs_reg' (c lo hi : Nat) (r : Reg) (j : Nat) : (Upd.apply (.wipeLs c lo hi) s).reg r j = s.reg r j := rfl
@[simp] theorem Upd.wipeLs_flag (c lo hi : Nat) (f : Field) (j : Nat) : (Upd.apply (.wipeLs c lo hi) s).flag f j = s.flag f j := rfl
@[simp] theorem Upd.wipeLs_getShadow (c lo hi : Nat) (f : Field) (j : Nat) :
    (Upd.apply (.wipeLs c lo hi) s).getShadow f j = s.getShadow f j := rfl
@[simp] theorem Upd.wipeLs_regsOk (c lo hi : Nat) : (Upd.apply (.wipeLs c lo hi) s).RegsOk ↔ s.RegsOk := Iff.rfl
@[simp] theorem Upd.wipeLs_count (c lo hi : Nat) (k : Ctr) : (Upd.apply (.wipeLs c lo hi) s).count k = s.count k := rfl
@[simp] theorem Upd.lost_get (a : Nat) (b : Bool) (f : Field) (j : Nat) : (Upd.apply (.lost a b) s).get f j = s.get f j := rfl
@[simp] theorem Upd.lost_reg' (a : Nat) (b : Bool) (r : Reg) (j : Nat) : (Upd.apply (.lost a b) s).reg r j = s.reg r j := rfl
@[simp] theorem Upd.lost_flag (a : Nat) (b : Bool) (f : Field) (j : Nat) : (Upd.apply (.lost a b) s).flag f j = s.flag f j := rfl
@[simp] theorem Upd.lost_getShadow (a : Nat) (b : Bool) (f : Field) (j : Nat) :
    (Upd.apply (.lost a b) s).getShadow f j = s.getShadow f j := rfl
@[simp] theorem Upd.lost_regsOk (a : Nat) (b : Bool) : (Upd.apply (.lost a b) s).RegsOk ↔ s.RegsOk := Iff.rfl
@[simp] theorem Upd.lost_count (a : Nat) (b : Bool) (k : Ctr) : (Upd.apply (.lost a b) s).count k = s.count k := rfl
@[simp] theorem Upd.emit_get (o : Output) (f : Field) (j : Nat) : (Upd.apply (.emit o) s).get f j = s.get f j := rfl
@[simp] theorem Upd.emit_reg' (o : Output) (r : Reg) (j : Nat) : (Upd.apply (.emit o) s).reg r j = s.reg r j := rfl
@[simp] theorem Upd.emit_flag (o : Output) (f : Field) (j : Nat) : (Upd.apply (.emit o) s).flag f j = s.flag f j := rfl
@[simp] theorem Upd.emit_getShadow (o : Output) (f : Field) (j : Nat) :
    (Upd.apply (.emit o) s).getShadow f j = s.getShadow f j := rfl
@[simp] theorem Upd.emit_regsOk (o : Output) : (Upd.apply (.emit o) s).RegsOk ↔ s.RegsOk := Iff.rfl
@[simp] theorem Upd.emit_count (o : Output) (k : Ctr) : (Upd.apply (.emit o) s).count k = s.count k := rfl
@[simp] theorem Upd.takeFree_get (n : Nat) (f : Field) (j : Nat) : (Upd.apply (.takeFree n) s).get f j = s.get f j := rfl
@[simp] theorem Upd.takeFree_reg' (n : Nat) (r : Reg) (j : Nat) : (Upd.apply (.takeFree n) s).reg r j = s.reg r j := rfl
@[simp] theorem Upd.takeFree_flag (n : Nat) (f : Field) (j : Nat) : (Upd.apply (.takeFree n) s).flag f j = s.flag f j := rfl
@[simp] theorem Upd.takeFree_getShadow (n : Nat) (f : Field) (j : Nat) :
    (Upd.apply (.takeFree n) s).getShadow f j = s.getShadow f j := rfl
@[simp] theorem Upd.takeFree_regsOk (n : Nat) : (Upd.apply (.takeFree n) s).RegsOk ↔ s.RegsOk := Iff.rfl
@[simp] theorem Upd.takeFree_count (n : Nat) (k : Ctr) : (Upd.apply (.takeFree n) s).count k = s.count k := rfl
@[simp] theorem Upd.sail_get (x : SailState) (f : Field) (j : Nat) : (Upd.apply (.sail x) s).get f j = s.get f j := rfl
@[simp] theorem Upd.sail_reg' (x : SailState) (r : Reg) (j : Nat) : (Upd.apply (.sail x) s).reg r j = s.reg r j := rfl
@[simp] theorem Upd.sail_flag (x : SailState) (f : Field) (j : Nat) : (Upd.apply (.sail x) s).flag f j = s.flag f j := rfl
@[simp] theorem Upd.sail_getShadow (x : SailState) (f : Field) (j : Nat) :
    (Upd.apply (.sail x) s).getShadow f j = s.getShadow f j := rfl
@[simp] theorem Upd.sail_regsOk (x : SailState) : (Upd.apply (.sail x) s).RegsOk ↔ s.RegsOk := Iff.rfl
@[simp] theorem Upd.sail_count (x : SailState) (k : Ctr) : (Upd.apply (.sail x) s).count k = s.count k := rfl
@[simp] theorem Upd.core_get (x : CoreState) (f : Field) (j : Nat) : (Upd.apply (.core x) s).get f j = s.get f j := rfl
@[simp] theorem Upd.core_reg' (x : CoreState) (r : Reg) (j : Nat) : (Upd.apply (.core x) s).reg r j = s.reg r j := rfl
@[simp] theorem Upd.core_flag (x : CoreState) (f : Field) (j : Nat) : (Upd.apply (.core x) s).flag f j = s.flag f j := rfl
@[simp] theorem Upd.core_getShadow (x : CoreState) (f : Field) (j : Nat) :
    (Upd.apply (.core x) s).getShadow f j = s.getShadow f j := rfl
@[simp] theorem Upd.core_regsOk (x : CoreState) : (Upd.apply (.core x) s).RegsOk ↔ s.RegsOk := Iff.rfl
@[simp] theorem Upd.core_count (x : CoreState) (k : Ctr) : (Upd.apply (.core x) s).count k = s.count k := rfl
@[simp] theorem Upd.err_get (x : ErrState) (f : Field) (j : Nat) : (Upd.apply (.err x) s).get f j = s.get f j := rfl
@[simp] theorem Upd.err_reg' (x : ErrState) (r : Reg) (j : Nat) : (Upd.apply (.err x) s).reg r j = s.reg r j := rfl
@[simp] theorem Upd.err_flag (x : ErrState) (f : Field) (j : Nat) : (Upd.apply (.err x) s).flag f j = s.flag f j := rfl
@[simp] theorem Upd.err_getShadow (x : ErrState) (f : Field) (j : Nat) :
    (Upd.apply (.err x) s).getShadow f j = s.getShadow f j := rfl
@[simp] theorem Upd.err_regsOk (x : ErrState) : (Upd.apply (.err x) s).RegsOk ↔ s.RegsOk := Iff.rfl
@[simp] theorem Upd.err_count (x : ErrState) (k : Ctr) : (Upd.apply (.err x) s).count k = s.count k := rfl
@[simp] theorem Upd.irq_get (x : IrqState) (f : Field) (j : Nat) : (Upd.apply (.irq x) s).get f j = s.get f j := rfl
@[simp] theorem Upd.irq_reg' (x : IrqState) (r : Reg) (j : Nat) : (Upd.apply (.irq x) s).reg r j = s.reg r j := rfl
@[simp] theorem Upd.irq_flag (x : IrqState) (f : Field) (j : Nat) : (Upd.apply (.irq x) s).flag f j = s.flag f j := rfl
@[simp] theorem Upd.irq_getShadow (x : IrqState) (f : Field) (j : Nat) :
    (Upd.apply (.irq x) s).getShadow f j = s.getShadow f j := rfl
@[simp] theorem Upd.irq_regsOk (x : IrqState) : (Upd.apply (.irq x) s).RegsOk ↔ s.RegsOk := Iff.rfl
@[simp] theorem Upd.irq_count (x : IrqState) (k : Ctr) : (Upd.apply (.irq x) s).count k = s.count k := rfl
@[simp] theorem Upd.nmu_get (x : NmuState) (f : Field) (j : Nat) : (Upd.apply (.nmu x) s).get f j = s.get f j := rfl
@[simp] theorem Upd.nmu_reg' (x : NmuState) (r : Reg) (j : Nat) : (Upd.apply (.nmu x) s).reg r j = s.reg r j := rfl
@[simp] theorem Upd.nmu_flag (x : NmuState) (f : Field) (j : Nat) : (Upd.apply (.nmu x) s).flag f j = s.flag f j := rfl
@[simp] theorem Upd.nmu_getShadow (x : NmuState) (f : Field) (j : Nat) :
    (Upd.apply (.nmu x) s).getShadow f j = s.getShadow f j := rfl
@[simp] theorem Upd.nmu_regsOk (x : NmuState) : (Upd.apply (.nmu x) s).RegsOk ↔ s.RegsOk := Iff.rfl
@[simp] theorem Upd.nmu_count (x : NmuState) (k : Ctr) : (Upd.apply (.nmu x) s).count k = s.count k := rfl
@[simp] theorem Upd.chart_get (x : ChartState) (f : Field) (j : Nat) : (Upd.apply (.chart x) s).get f j = s.get f j := rfl
@[simp] theorem Upd.chart_reg' (x : ChartState) (r : Reg) (j : Nat) : (Upd.apply (.chart x) s).reg r j = s.reg r j := rfl
@[simp] theorem Upd.chart_flag (x : ChartState) (f : Field) (j : Nat) : (Upd.apply (.chart x) s).flag f j = s.flag f j := rfl
@[simp] theorem Upd.chart_getShadow (x : ChartState) (f : Field) (j : Nat) :
    (Upd.apply (.chart x) s).getShadow f j = s.getShadow f j := rfl
@[simp] theorem Upd.chart_regsOk (x : ChartState) : (Upd.apply (.chart x) s).RegsOk ↔ s.RegsOk := Iff.rfl
@[simp] theorem Upd.chart_count (x : ChartState) (k : Ctr) : (Upd.apply (.chart x) s).count k = s.count k := rfl
@[simp] theorem Upd.host_get (x : HostState) (f : Field) (j : Nat) : (Upd.apply (.host x) s).get f j = s.get f j := rfl
@[simp] theorem Upd.host_reg' (x : HostState) (r : Reg) (j : Nat) : (Upd.apply (.host x) s).reg r j = s.reg r j := rfl
@[simp] theorem Upd.host_flag (x : HostState) (f : Field) (j : Nat) : (Upd.apply (.host x) s).flag f j = s.flag f j := rfl
@[simp] theorem Upd.host_getShadow (x : HostState) (f : Field) (j : Nat) :
    (Upd.apply (.host x) s).getShadow f j = s.getShadow f j := rfl
@[simp] theorem Upd.host_regsOk (x : HostState) : (Upd.apply (.host x) s).RegsOk ↔ s.RegsOk := Iff.rfl
@[simp] theorem Upd.host_count (x : HostState) (k : Ctr) : (Upd.apply (.host x) s).count k = s.count k := rfl
@[simp] theorem Upd.sdir_get (x : SdirState) (f : Field) (j : Nat) : (Upd.apply (.sdir x) s).get f j = s.get f j := rfl
@[simp] theorem Upd.sdir_reg' (x : SdirState) (r : Reg) (j : Nat) : (Upd.apply (.sdir x) s).reg r j = s.reg r j := rfl
@[simp] theorem Upd.sdir_flag (x : SdirState) (f : Field) (j : Nat) : (Upd.apply (.sdir x) s).flag f j = s.flag f j := rfl
@[simp] theorem Upd.sdir_getShadow (x : SdirState) (f : Field) (j : Nat) :
    (Upd.apply (.sdir x) s).getShadow f j = s.getShadow f j := rfl
@[simp] theorem Upd.sdir_regsOk (x : SdirState) : (Upd.apply (.sdir x) s).RegsOk ↔ s.RegsOk := Iff.rfl
@[simp] theorem Upd.sdir_count (x : SdirState) (k : Ctr) : (Upd.apply (.sdir x) s).count k = s.count k := rfl
@[simp] theorem Upd.berth_get (x : BerthState) (f : Field) (j : Nat) : (Upd.apply (.berth x) s).get f j = s.get f j := rfl
@[simp] theorem Upd.berth_reg' (x : BerthState) (r : Reg) (j : Nat) : (Upd.apply (.berth x) s).reg r j = s.reg r j := rfl
@[simp] theorem Upd.berth_flag (x : BerthState) (f : Field) (j : Nat) : (Upd.apply (.berth x) s).flag f j = s.flag f j := rfl
@[simp] theorem Upd.berth_getShadow (x : BerthState) (f : Field) (j : Nat) :
    (Upd.apply (.berth x) s).getShadow f j = s.getShadow f j := rfl
@[simp] theorem Upd.berth_regsOk (x : BerthState) : (Upd.apply (.berth x) s).RegsOk ↔ s.RegsOk := Iff.rfl
@[simp] theorem Upd.berth_count (x : BerthState) (k : Ctr) : (Upd.apply (.berth x) s).count k = s.count k := rfl
@[simp] theorem Upd.tier_get (x : TierState) (f : Field) (j : Nat) : (Upd.apply (.tier x) s).get f j = s.get f j := rfl
@[simp] theorem Upd.tier_reg' (x : TierState) (r : Reg) (j : Nat) : (Upd.apply (.tier x) s).reg r j = s.reg r j := rfl
@[simp] theorem Upd.tier_flag (x : TierState) (f : Field) (j : Nat) : (Upd.apply (.tier x) s).flag f j = s.flag f j := rfl
@[simp] theorem Upd.tier_getShadow (x : TierState) (f : Field) (j : Nat) :
    (Upd.apply (.tier x) s).getShadow f j = s.getShadow f j := rfl
@[simp] theorem Upd.tier_regsOk (x : TierState) : (Upd.apply (.tier x) s).RegsOk ↔ s.RegsOk := Iff.rfl
@[simp] theorem Upd.tier_count (x : TierState) (k : Ctr) : (Upd.apply (.tier x) s).count k = s.count k := rfl
@[simp] theorem Upd.sec_get (x : SecState) (f : Field) (j : Nat) : (Upd.apply (.sec x) s).get f j = s.get f j := rfl
@[simp] theorem Upd.sec_reg' (x : SecState) (r : Reg) (j : Nat) : (Upd.apply (.sec x) s).reg r j = s.reg r j := rfl
@[simp] theorem Upd.sec_flag (x : SecState) (f : Field) (j : Nat) : (Upd.apply (.sec x) s).flag f j = s.flag f j := rfl
@[simp] theorem Upd.sec_getShadow (x : SecState) (f : Field) (j : Nat) :
    (Upd.apply (.sec x) s).getShadow f j = s.getShadow f j := rfl
@[simp] theorem Upd.sec_regsOk (x : SecState) : (Upd.apply (.sec x) s).RegsOk ↔ s.RegsOk := Iff.rfl
@[simp] theorem Upd.sec_count (x : SecState) (k : Ctr) : (Upd.apply (.sec x) s).count k = s.count k := rfl
@[simp] theorem Upd.text_get (x : TextState) (f : Field) (j : Nat) : (Upd.apply (.text x) s).get f j = s.get f j := rfl
@[simp] theorem Upd.text_reg' (x : TextState) (r : Reg) (j : Nat) : (Upd.apply (.text x) s).reg r j = s.reg r j := rfl
@[simp] theorem Upd.text_flag (x : TextState) (f : Field) (j : Nat) : (Upd.apply (.text x) s).flag f j = s.flag f j := rfl
@[simp] theorem Upd.text_getShadow (x : TextState) (f : Field) (j : Nat) :
    (Upd.apply (.text x) s).getShadow f j = s.getShadow f j := rfl
@[simp] theorem Upd.text_regsOk (x : TextState) : (Upd.apply (.text x) s).RegsOk ↔ s.RegsOk := Iff.rfl
@[simp] theorem Upd.text_count (x : TextState) (k : Ctr) : (Upd.apply (.text x) s).count k = s.count k := rfl
@[simp] theorem Upd.sealer_get (x : SealState) (f : Field) (j : Nat) : (Upd.apply (.sealer x) s).get f j = s.get f j := rfl
@[simp] theorem Upd.sealer_reg' (x : SealState) (r : Reg) (j : Nat) : (Upd.apply (.sealer x) s).reg r j = s.reg r j := rfl
@[simp] theorem Upd.sealer_flag (x : SealState) (f : Field) (j : Nat) : (Upd.apply (.sealer x) s).flag f j = s.flag f j := rfl
@[simp] theorem Upd.sealer_getShadow (x : SealState) (f : Field) (j : Nat) :
    (Upd.apply (.sealer x) s).getShadow f j = s.getShadow f j := rfl
@[simp] theorem Upd.sealer_regsOk (x : SealState) : (Upd.apply (.sealer x) s).RegsOk ↔ s.RegsOk := Iff.rfl
@[simp] theorem Upd.sealer_count (x : SealState) (k : Ctr) : (Upd.apply (.sealer x) s).count k = s.count k := rfl
@[simp] theorem Upd.rcl_get (x : RclState) (f : Field) (j : Nat) : (Upd.apply (.rcl x) s).get f j = s.get f j := rfl
@[simp] theorem Upd.rcl_reg' (x : RclState) (r : Reg) (j : Nat) : (Upd.apply (.rcl x) s).reg r j = s.reg r j := rfl
@[simp] theorem Upd.rcl_flag (x : RclState) (f : Field) (j : Nat) : (Upd.apply (.rcl x) s).flag f j = s.flag f j := rfl
@[simp] theorem Upd.rcl_getShadow (x : RclState) (f : Field) (j : Nat) :
    (Upd.apply (.rcl x) s).getShadow f j = s.getShadow f j := rfl
@[simp] theorem Upd.rcl_regsOk (x : RclState) : (Upd.apply (.rcl x) s).RegsOk ↔ s.RegsOk := Iff.rfl
@[simp] theorem Upd.rcl_count (x : RclState) (k : Ctr) : (Upd.apply (.rcl x) s).count k = s.count k := rfl
@[simp] theorem Upd.nand_get (x : NandState) (f : Field) (j : Nat) : (Upd.apply (.nand x) s).get f j = s.get f j := rfl
@[simp] theorem Upd.nand_reg' (x : NandState) (r : Reg) (j : Nat) : (Upd.apply (.nand x) s).reg r j = s.reg r j := rfl
@[simp] theorem Upd.nand_flag (x : NandState) (f : Field) (j : Nat) : (Upd.apply (.nand x) s).flag f j = s.flag f j := rfl
@[simp] theorem Upd.nand_getShadow (x : NandState) (f : Field) (j : Nat) :
    (Upd.apply (.nand x) s).getShadow f j = s.getShadow f j := rfl
@[simp] theorem Upd.nand_regsOk (x : NandState) : (Upd.apply (.nand x) s).RegsOk ↔ s.RegsOk := Iff.rfl
@[simp] theorem Upd.nand_count (x : NandState) (k : Ctr) : (Upd.apply (.nand x) s).count k = s.count k := rfl
@[simp] theorem Upd.flash_get (x : FlashState) (f : Field) (j : Nat) : (Upd.apply (.flash x) s).get f j = s.get f j := rfl
@[simp] theorem Upd.flash_reg' (x : FlashState) (r : Reg) (j : Nat) : (Upd.apply (.flash x) s).reg r j = s.reg r j := rfl
@[simp] theorem Upd.flash_flag (x : FlashState) (f : Field) (j : Nat) : (Upd.apply (.flash x) s).flag f j = s.flag f j := rfl
@[simp] theorem Upd.flash_getShadow (x : FlashState) (f : Field) (j : Nat) :
    (Upd.apply (.flash x) s).getShadow f j = s.getShadow f j := rfl
@[simp] theorem Upd.flash_regsOk (x : FlashState) : (Upd.apply (.flash x) s).RegsOk ↔ s.RegsOk := Iff.rfl
@[simp] theorem Upd.flash_count (x : FlashState) (k : Ctr) : (Upd.apply (.flash x) s).count k = s.count k := rfl
@[simp] theorem Upd.fuses_get (x : FuseState) (f : Field) (j : Nat) : (Upd.apply (.fuses x) s).get f j = s.get f j := rfl
@[simp] theorem Upd.fuses_reg' (x : FuseState) (r : Reg) (j : Nat) : (Upd.apply (.fuses x) s).reg r j = s.reg r j := rfl
@[simp] theorem Upd.fuses_flag (x : FuseState) (f : Field) (j : Nat) : (Upd.apply (.fuses x) s).flag f j = s.flag f j := rfl
@[simp] theorem Upd.fuses_getShadow (x : FuseState) (f : Field) (j : Nat) :
    (Upd.apply (.fuses x) s).getShadow f j = s.getShadow f j := rfl
@[simp] theorem Upd.fuses_regsOk (x : FuseState) : (Upd.apply (.fuses x) s).RegsOk ↔ s.RegsOk := Iff.rfl
@[simp] theorem Upd.fuses_count (x : FuseState) (k : Ctr) : (Upd.apply (.fuses x) s).count k = s.count k := rfl
@[simp] theorem Upd.boot_get (x : BootState) (f : Field) (j : Nat) : (Upd.apply (.boot x) s).get f j = s.get f j := rfl
@[simp] theorem Upd.boot_reg' (x : BootState) (r : Reg) (j : Nat) : (Upd.apply (.boot x) s).reg r j = s.reg r j := rfl
@[simp] theorem Upd.boot_flag (x : BootState) (f : Field) (j : Nat) : (Upd.apply (.boot x) s).flag f j = s.flag f j := rfl
@[simp] theorem Upd.boot_getShadow (x : BootState) (f : Field) (j : Nat) :
    (Upd.apply (.boot x) s).getShadow f j = s.getShadow f j := rfl
@[simp] theorem Upd.boot_regsOk (x : BootState) : (Upd.apply (.boot x) s).RegsOk ↔ s.RegsOk := Iff.rfl
@[simp] theorem Upd.boot_count (x : BootState) (k : Ctr) : (Upd.apply (.boot x) s).count k = s.count k := rfl
@[simp] theorem Upd.mct_get (x : MctState) (f : Field) (j : Nat) : (Upd.apply (.mct x) s).get f j = s.get f j := rfl
@[simp] theorem Upd.mct_reg' (x : MctState) (r : Reg) (j : Nat) : (Upd.apply (.mct x) s).reg r j = s.reg r j := rfl
@[simp] theorem Upd.mct_flag (x : MctState) (f : Field) (j : Nat) : (Upd.apply (.mct x) s).flag f j = s.flag f j := rfl
@[simp] theorem Upd.mct_getShadow (x : MctState) (f : Field) (j : Nat) :
    (Upd.apply (.mct x) s).getShadow f j = s.getShadow f j := rfl
@[simp] theorem Upd.mct_regsOk (x : MctState) : (Upd.apply (.mct x) s).RegsOk ↔ s.RegsOk := Iff.rfl
@[simp] theorem Upd.mct_count (x : MctState) (k : Ctr) : (Upd.apply (.mct x) s).count k = s.count k := rfl
@[simp] theorem Upd.egr_get (x : EgrState) (f : Field) (j : Nat) : (Upd.apply (.egr x) s).get f j = s.get f j := rfl
@[simp] theorem Upd.egr_reg' (x : EgrState) (r : Reg) (j : Nat) : (Upd.apply (.egr x) s).reg r j = s.reg r j := rfl
@[simp] theorem Upd.egr_flag (x : EgrState) (f : Field) (j : Nat) : (Upd.apply (.egr x) s).flag f j = s.flag f j := rfl
@[simp] theorem Upd.egr_getShadow (x : EgrState) (f : Field) (j : Nat) :
    (Upd.apply (.egr x) s).getShadow f j = s.getShadow f j := rfl
@[simp] theorem Upd.egr_regsOk (x : EgrState) : (Upd.apply (.egr x) s).RegsOk ↔ s.RegsOk := Iff.rfl
@[simp] theorem Upd.egr_count (x : EgrState) (k : Ctr) : (Upd.apply (.egr x) s).count k = s.count k := rfl
@[simp] theorem Upd.pwr_get (x : PwrState) (f : Field) (j : Nat) : (Upd.apply (.pwr x) s).get f j = s.get f j := rfl
@[simp] theorem Upd.pwr_reg' (x : PwrState) (r : Reg) (j : Nat) : (Upd.apply (.pwr x) s).reg r j = s.reg r j := rfl
@[simp] theorem Upd.pwr_flag (x : PwrState) (f : Field) (j : Nat) : (Upd.apply (.pwr x) s).flag f j = s.flag f j := rfl
@[simp] theorem Upd.pwr_getShadow (x : PwrState) (f : Field) (j : Nat) :
    (Upd.apply (.pwr x) s).getShadow f j = s.getShadow f j := rfl
@[simp] theorem Upd.pwr_regsOk (x : PwrState) : (Upd.apply (.pwr x) s).RegsOk ↔ s.RegsOk := Iff.rfl
@[simp] theorem Upd.pwr_count (x : PwrState) (k : Ctr) : (Upd.apply (.pwr x) s).count k = s.count k := rfl
@[simp] theorem Upd.ckpt_get (x : CkptState) (f : Field) (j : Nat) : (Upd.apply (.ckpt x) s).get f j = s.get f j := rfl
@[simp] theorem Upd.ckpt_reg' (x : CkptState) (r : Reg) (j : Nat) : (Upd.apply (.ckpt x) s).reg r j = s.reg r j := rfl
@[simp] theorem Upd.ckpt_flag (x : CkptState) (f : Field) (j : Nat) : (Upd.apply (.ckpt x) s).flag f j = s.flag f j := rfl
@[simp] theorem Upd.ckpt_getShadow (x : CkptState) (f : Field) (j : Nat) :
    (Upd.apply (.ckpt x) s).getShadow f j = s.getShadow f j := rfl
@[simp] theorem Upd.ckpt_regsOk (x : CkptState) : (Upd.apply (.ckpt x) s).RegsOk ↔ s.RegsOk := Iff.rfl
@[simp] theorem Upd.ckpt_count (x : CkptState) (k : Ctr) : (Upd.apply (.ckpt x) s).count k = s.count k := rfl

theorem Reg.all_code (r : Reg) : Reg.all.getD r.code .PKG_ID = r := by cases r <;> rfl

theorem Reg.code_inj {r q : Reg} (h : r.code = q.code) : r = q := by
  rw [← Reg.all_code r, ← Reg.all_code q, h]

theorem Reg.count_le (r : Reg) : r.info.count ≤ 65536 := by cases r <;> decide

theorem regKey_inj {r q : Reg} {i j : Nat} (hi : i < 65536) (hj : j < 65536) (h : regKey r i = regKey q j) :
    r = q ∧ i = j := by
  unfold regKey at h
  have hc : r.code = q.code := by omega
  exact ⟨Reg.code_inj hc, by omega⟩

/-- Setting a field keeps the register file canonical. -/
@[simp] theorem State.put_regsOk {s : State} (h : s.RegsOk) (f : Field) (x i : Nat) : (s.put f x i).RegsOk := by
  unfold State.RegsOk at *
  rw [State.put_regs]
  split
  · exact SMap.wf_put regDefault h _ _
  · exact h

/-- A register element other than the one that was set reads as before. -/
theorem State.put_reg_other {f : Field} {x i : Nat} {r : Reg} {j : Nat} (hj : j < 65536) (h : r ≠ f.reg ∨ j ≠ i) :
    (s.put f x i).reg r j = s.reg r j := by
  unfold State.reg
  rw [State.put_regs]
  split
  · rename_i hi
    apply SMap.get_put_other
    intro hk
    have := regKey_inj hj (Nat.lt_of_lt_of_le hi (Reg.count_le _)) hk
    rcases h with h | h
    · exact h this.1
    · exact h this.2
  · rfl

/-- A field of another register element reads as before. -/
theorem State.put_get_other {f g : Field} {x i j : Nat} (hj : j < 65536) (h : g.reg ≠ f.reg ∨ j ≠ i) :
    (s.put f x i).get g j = s.get g j := by
  unfold State.get
  rw [State.put_reg_other s hj h]

theorem State.put_reg_same (s : State) {f : Field} {x i : Nat} (hi : i < f.reg.info.count) :
    (s.put f x i).reg f.reg i = putField (s.reg f.reg i) f x &&& fieldMask f.reg := by
  unfold State.reg
  rw [State.put_regs, if_pos hi]
  exact SMap.get_put_same regDefault _ _ _

/-- A field that was set reads as the low bits of its value. -/
theorem State.put_get_same (s : State) {f : Field} (hf : f.Ok) {x i : Nat} (hi : i < f.reg.info.count) :
    (s.put f x i).get f i = x % 2 ^ f.width := by
  obtain ⟨h1, h2, h3⟩ := hf
  unfold State.get
  rw [State.put_reg_same s hi, BitVec.toNat_and, bits_and _ _ _ _ h3]
  simp only [putField, BitVec.toNat_ofNat]
  rw [bits_mod_of_lt _ _ _ _ h2, bits_putBits, Field.width]

/-- Another field of the same register element reads as before. -/
theorem State.put_get_apart (s : State) {f g : Field} (hg : g.Ok) {x i : Nat} (hr : g.reg = f.reg)
    (hi : i < f.reg.info.count) (h : g.hi < f.lo ∨ f.hi < g.lo) : (s.put f x i).get g i = s.get g i := by
  obtain ⟨h1, h2, h3⟩ := hg
  unfold State.get
  rw [hr] at h3 ⊢
  rw [State.put_reg_same s hi, BitVec.toNat_and, bits_and _ _ _ _ h3]
  simp only [putField, BitVec.toNat_ofNat]
  rw [bits_mod_of_lt _ _ _ _ h2, bits_putBits_other _ _ _ _ _ _ h]

theorem State.flag_iff (f : Field) (i : Nat) : s.flag f i = true ↔ s.get f i = 1 := by simp [State.flag]

/-- A counter after one or more events (R34). -/
theorem State.count_count (s : State) (c : Ctr) (n : Nat) :
    (Upd.apply (.count c n) s).count c = min counterMax (s.count c + n) := by
  simp only [State.count, Upd.count_ctrs]
  exact SMap.get_put_same _ _ _ _

end Sys2Proof.Machine
end

