-- ==== Sys2Proof/Laws/Sound.lean ====
section
/-! SUPPORT. Every primitive update keeps each part of soundness: canonical maps, reserved bits that read 0, counters within
their width. -/

namespace Sys2Proof.Machine

theorem Ctr.all_code (c : Ctr) : Ctr.all.getD c.code .SAIL_CARRY_COUNT = c := by cases c <;> rfl

theorem Ctr.code_inj {c k : Ctr} (h : c.code = k.code) : c = k := by
  rw [← Ctr.all_code c, ← Ctr.all_code k, h]

/-- What a register element reads as in an empty register file. -/
theorem regDefault_regKey (r : Reg) {i : Nat} (h : i < 65536) : regDefault (regKey r i) = r.resetValue i := by
  unfold regDefault regKey
  rw [show (r.code * 65536 + i) / 65536 = r.code by omega, show (r.code * 65536 + i) % 65536 = i by omega, Reg.all_code]

/-- Every reset value has its reserved bits 0 (R5). -/
theorem Reg.resetValue_reserved (r : Reg) {i : Nat} (h : i < r.info.count) : r.resetValue i &&& ~~~fieldMask r = 0 := by
  cases r
  case ERR_RULE =>
    simp only [Reg.resetValue]
    split
    · decide
    · split <;> decide
  case IRQ_SRC =>
    simp only [Reg.resetValue]
    split
    · have : i % 16 < 16 := Nat.mod_lt _ (by decide)
      generalize i % 16 = j at this
      interval_cases j <;> decide
    · decide
  all_goals (clear h; revert i; intro i; simp only [Reg.resetValue]; decide)

theorem Upd.apply_canonical (u : Upd) (s : State) (h : s.Canonical) : (u.apply s).Canonical := by
  obtain ⟨h1, h2, h3, h4, h5, h6, h7⟩ := h
  cases u
  case reboot =>
    exact ⟨rfl, rfl, h3, SMap.wf_put regDefault (SMap.wf_filter regDefault h4 _) _ _, rfl, rfl, rfl⟩
  all_goals
    unfold State.Canonical Memory.wf
    try simp only [Upd.reg_mem, Upd.reg_ls, Upd.reg_hostMem, Upd.reg_regs, Upd.reg_shadow, Upd.reg_ctrs, Upd.reg_lost,
      Upd.shadow_mem, Upd.shadow_ls, Upd.shadow_hostMem, Upd.shadow_regs, Upd.shadow_shadow, Upd.shadow_ctrs,
      Upd.shadow_lost]
    refine ⟨?_, ?_, ?_, ?_, ?_, ?_, ?_⟩
  all_goals first
    | exact h1 | exact h2 | exact h3 | exact h4 | exact h5 | exact h6 | exact h7
    | exact SMap.wf_putList memDefault h1 _ _
    | exact SMap.wf_putList memDefault h2 _ _
    | exact SMap.wf_putList memDefault h3 _ _
    | exact SMap.wf_filter memDefault h1 _
    | exact SMap.wf_filter memDefault h2 _
    | exact SMap.wf_put _ h6 _ _
    | exact SMap.wf_put _ h7 _ _
    | (split <;> first | exact SMap.wf_put _ h4 _ _ | exact h4)
    | (split <;> first | exact SMap.wf_put _ h5 _ _ | exact h5)

theorem keepRegs_get (m : SMap (BitVec 128)) (r : Reg) {i : Nat} (hi : i < 65536) :
    (keepRegs m).get regDefault (regKey r i) = m.get regDefault (regKey r i) ∨
      (keepRegs m).get regDefault (regKey r i) = r.resetValue i := by
  induction m with
  | nil => exact .inl rfl
  | cons e m ih =>
    obtain ⟨k, v⟩ := e
    unfold keepRegs at ih ⊢
    rw [List.filter_cons]
    by_cases hk : k = regKey r i
    · split
      · left; simp [SMap.get, hk]
      · right
        rename_i hp
        have hn : ∀ (m' : SMap (BitVec 128)),
            SMap.get regDefault (m'.filter fun e => keptRegs.any fun q => q.code == e.1 / 65536) (regKey r i)
              = regDefault (regKey r i) := by
          intro m'
          induction m' with
          | nil => rfl
          | cons e' m' ih' =>
            rw [List.filter_cons]
            split
            · rename_i he
              obtain ⟨k', v'⟩ := e'
              simp only [SMap.get]
              split
              · rename_i hkk; simp only at he; rw [hkk, ← hk] at he; exact absurd he hp
              · exact ih'
            · exact ih'
        rw [hn, regDefault_regKey r hi]
    · split
      · simpa [SMap.get, hk] using ih
      · simpa [SMap.get, hk] using ih

/-- What a device reset leaves of CFG_AP_STATUS has its reserved bits 0. -/
theorem apStatusKept_reserved (v : BitVec 128) : apStatusKept v &&& ~~~fieldMask .CFG_AP_STATUS = 0 := by
  have h1 : BitVec.ofNat 128 (maskBits 23 16) &&& ~~~fieldMask .CFG_AP_STATUS = 0 := by decide
  have h2 : Reg.CFG_AP_STATUS.resetValue 0 &&& ~~~fieldMask .CFG_AP_STATUS = 0 := by decide
  unfold apStatusKept
  rw [BitVec.and_comm, BitVec.and_or_distrib_left, BitVec.and_comm, BitVec.and_assoc, h1,
    BitVec.and_comm _ (Reg.CFG_AP_STATUS.resetValue 0 &&& _), BitVec.and_assoc, BitVec.and_comm (~~~_), ← BitVec.and_assoc, h2]
  simp

theorem Upd.apply_reserved (u : Upd) (s : State) (hc : s.Canonical) (h : s.ReservedZero) : (u.apply s).ReservedZero := by
  have hw : SMap.wf regDefault s.regs = true := hc.2.2.2.1
  intro r i hi
  have hi' := Nat.lt_of_lt_of_le hi (Reg.count_le r)
  cases u
  case reg q j v =>
    unfold State.reg
    rw [Upd.reg_regs]
    split
    · rename_i hj
      by_cases hk : regKey r i = regKey q j
      · rw [hk, SMap.get_put_same]
        obtain ⟨rfl, -⟩ := regKey_inj hi' (Nat.lt_of_lt_of_le hj (Reg.count_le q)) hk
        rw [BitVec.and_assoc]; simp
      · rw [SMap.get_put_other regDefault _ _ hk]; exact h r i hi
    · exact h r i hi
  case shadow q j v =>
    unfold State.reg
    rw [Upd.shadow_regs]
    exact h r i hi
  case reboot =>
    show State.reg s.reboot r i &&& _ = 0
    have : s.reboot.reg r i = ((keepRegs s.regs).put regDefault (regKey .CFG_AP_STATUS 0)
      (apStatusKept (s.regs.get regDefault (regKey .CFG_AP_STATUS 0)))).get regDefault (regKey r i) := rfl
    rw [this]
    by_cases hk : regKey r i = regKey .CFG_AP_STATUS 0
    · rw [hk, SMap.get_put_same]
      obtain ⟨rfl, rfl⟩ := regKey_inj hi' (by decide) hk
      exact apStatusKept_reserved _
    rw [SMap.get_put_other regDefault _ _ hk]
    rcases keepRegs_get s.regs r hi' with hk | hk <;> rw [hk]
    · exact h r i hi
    · exact Reg.resetValue_reserved r hi
  all_goals exact h r i hi

theorem Upd.apply_countersFit (u : Upd) (s : State) (h : s.CountersFit) : (u.apply s).CountersFit := by
  intro k
  cases u
  case count c n =>
    by_cases hk : k.code = c.code
    · obtain rfl := Ctr.code_inj hk
      rw [State.count_count s _ n]
      exact Nat.min_le_left _ _
    · simp only [State.count, Upd.count_ctrs]
      rw [SMap.get_put_other _ _ _ hk]; exact h k
  case reboot => exact Nat.zero_le _
  case reg => rw [show ∀ r i v, (Upd.apply (.reg r i v) s).count k = s.count k from fun r i v => by simp [State.count]]; exact h k
  case shadow => rw [show ∀ r i v, (Upd.apply (.shadow r i v) s).count k = s.count k from fun r i v => by simp [State.count]]; exact h k
  all_goals exact h k

/-- Every primitive update keeps soundness. -/
theorem Upd.apply_sound (u : Upd) (s : State) (h : s.Sound) : (u.apply s).Sound :=
  ⟨u.apply_canonical s h.canonical, u.apply_reserved s h.canonical h.reserved, u.apply_countersFit s h.counters⟩

end Sys2Proof.Machine
end

