-- ==== Sys2Proof/Laws/Exec.lean ====
section
/-! SUPPORT. What a command can do at all: it runs an action, or it is a debug access with the lock open; and what a
command's frame (`Act.command`) does around its body. -/

namespace Sys2Proof.Machine

/-- A command either runs an action or is a debug access with the debug lock open. -/
theorem exec_action (c : Instr) (s : State) :
    (∃ a : Act, exec c s = .next (a.run s)) ∨ exec c s = .fault .debugAccess := by
  cases c
  case debugTapInstruction debug =>
    show (∃ a : Act, execDebugTapInstruction debug s = .next (a.run s)) ∨ execDebugTapInstruction debug s = _
    unfold execDebugTapInstruction
    split
    · exact .inr rfl
    · exact .inl ⟨.done, rfl⟩
  all_goals exact .inl ⟨_, rfl⟩

/-- With no retirement waiting, none is carried out. -/
theorem Act.run_retirements {s : State} (h : s.err.todo = []) (n : Nat) : (Act.retirements n).run s = s := by
  cases n with
  | zero => rfl
  | succ n => simp only [Act.retirements, Act.run_look, h, Act.run_done]

/-- A FATAL device does nothing (R464, R550). -/
theorem Act.run_command_fatal {s : State} (h : s.fatal = true) (a : Act) : (Act.command a).run s = s := by
  simp [Act.command, h]

/-- A command whose body retires nothing is its body. -/
theorem Act.run_command {s : State} {a : Act} (h : s.fatal = false) (ht : (a.run s).err.todo = []) :
    (Act.command a).run s = a.run s := by
  simp only [Act.command, Act.run_look, h, Bool.false_eq_true, if_false, Act.run_andThen, Act.run_retirements ht]

end Sys2Proof.Machine
end

