-- ==== Sys2Proof/Laws/Foot.lean ====
section
/-! SUPPORT. Frames of actions. The footprint of an action is what its updates may touch: parts of the state, live registers,
counters. A footprint is read off the action's text, and it gives the frame of running the action. -/

namespace Sys2Proof.Machine

variable {s t u : State} {ps : List Part} {rs : List Reg} {cs : List Ctr}

@[simp] theorem forall_state (p : Prop) : (∀ _ : State, p) ↔ p := ⟨fun h => h .reset, fun h _ => h⟩

/-- Every update that an action can come to make satisfies `P`. -/
def Act.Uses (P : Upd → Prop) : Act → Prop
  | .done => True
  | .look k => ∀ s, (k s).Uses P
  | .upd u k => P u ∧ k.Uses P

/-- An update touches nothing but the parts, registers and counters listed (a device reset touches everything). -/
def Upd.In (ps : List Part) (rs : List Reg) (cs : List Ctr) : Upd → Prop
  | .reg r _ _ => r ∈ rs
  | .shadow _ _ _ => .shadow ∈ ps
  | .count c _ => c ∈ cs
  | .mem _ _ => .mem ∈ ps
  | .ls _ _ _ => .ls ∈ ps
  | .hostMem _ _ => .hostMem ∈ ps
  | .wipe _ _ => .mem ∈ ps
  | .wipeLs _ _ _ => .ls ∈ ps
  | .lost _ _ => .lost ∈ ps
  | .emit _ => .out ∈ ps
  | .takeFree _ => .free ∈ ps
  | .reboot => False
  | .sail _ => .sail ∈ ps
  | .core _ => .core ∈ ps
  | .err _ => .err ∈ ps
  | .irq _ => .irq ∈ ps
  | .nmu _ => .nmu ∈ ps
  | .chart _ => .chart ∈ ps
  | .host _ => .host ∈ ps
  | .sdir _ => .sdir ∈ ps
  | .berth _ => .berth ∈ ps
  | .tier _ => .tier ∈ ps
  | .sec _ => .sec ∈ ps
  | .text _ => .text ∈ ps
  | .sealer _ => .sealer ∈ ps
  | .rcl _ => .rcl ∈ ps
  | .nand _ => .nand ∈ ps
  | .flash _ => .flash ∈ ps
  | .fuses _ => .fuses ∈ ps
  | .boot _ => .boot ∈ ps
  | .mct _ => .mct ∈ ps
  | .egr _ => .egr ∈ ps
  | .pwr _ => .pwr ∈ ps
  | .ckpt _ => .ckpt ∈ ps

/-- The footprint of an action lies within the parts, registers and counters listed. -/
def Act.Foot (ps : List Part) (rs : List Reg) (cs : List Ctr) (a : Act) : Prop := a.Uses (Upd.In ps rs cs)

theorem Act.Uses.mono {P Q : Upd → Prop} (h : ∀ u, P u → Q u) {a : Act} (ha : a.Uses P) : a.Uses Q := by
  induction a with
  | done => trivial
  | look k ih => exact fun s => ih s (ha s)
  | upd u k ih => exact ⟨h u ha.1, ih ha.2⟩

theorem Act.uses_andThen {P : Upd → Prop} (a b : Act) : (a.andThen b).Uses P ↔ a.Uses P ∧ b.Uses P := by
  induction a with
  | done => simp [Act.andThen, Act.Uses]
  | look k ih =>
    simp only [Act.andThen, Act.Uses, ih]
    exact ⟨fun h => ⟨fun s => (h s).1, (h .reset).2⟩, fun h s => ⟨h.1 s, h.2⟩⟩
  | upd u k ih => simp only [Act.andThen, Act.Uses, ih, and_assoc]

/-- What every update in an action's footprint does to a relation, running the action does. -/
theorem Act.Uses.run {P : Upd → Prop} {R : State → State → Prop} (hr : ∀ s, R s s)
    (ht : ∀ a b c, R a b → R b c → R a c) (h : ∀ (u : Upd) (s : State), P u → R s (u.apply s)) {a : Act}
    (ha : a.Uses P) (s : State) : R s (a.run s) := by
  induction a generalizing s with
  | done => exact hr s
  | look k ih => exact ih s (ha s) s
  | upd u k ih => exact ht _ _ _ (h u s ha.1) (ih ha.2 _)

@[simp] theorem Act.foot_done : Act.Foot ps rs cs .done := trivial
@[simp] theorem Act.foot_look (k : State → Act) : Act.Foot ps rs cs (.look k) ↔ ∀ s, Act.Foot ps rs cs (k s) := Iff.rfl
@[simp] theorem Act.foot_andThen (a b : Act) :
    Act.Foot ps rs cs (a.andThen b) ↔ Act.Foot ps rs cs a ∧ Act.Foot ps rs cs b := Act.uses_andThen a b
@[simp] theorem Act.foot_one (u : Upd) : Act.Foot ps rs cs (.one u) ↔ u.In ps rs cs := by
  simp [Act.Foot, Act.one, Act.Uses]
@[simp] theorem Act.foot_nil : Act.Foot ps rs cs (.all []) := trivial
@[simp] theorem Act.foot_cons (a : Act) (as : List Act) :
    Act.Foot ps rs cs (.all (a :: as)) ↔ Act.Foot ps rs cs a ∧ Act.Foot ps rs cs (.all as) := Act.uses_andThen a _
theorem Act.foot_each' {α : Type} (xs : List α) (f : α → Act) :
    Act.Foot ps rs cs (.each xs f) ↔ ∀ x ∈ xs, Act.Foot ps rs cs (f x) := by
  induction xs with
  | nil => simp [Act.each]
  | cons x xs ih =>
    simp only [Act.each, List.map_cons, Act.foot_cons, List.mem_cons, forall_eq_or_imp] at ih ⊢
    rw [ih]
/-- An action for every element touches what the action for one element touches. -/
theorem Act.foot_each {α : Type} {xs : List α} {f : α → Act} (h : ∀ x, Act.Foot ps rs cs (f x)) :
    Act.Foot ps rs cs (.each xs f) := (Act.foot_each' xs f).2 fun x _ => h x
@[simp] theorem Act.foot_when (b : Bool) (a : Act) :
    Act.Foot ps rs cs (.when b a) ↔ (b = true → Act.Foot ps rs cs a) := by cases b <;> simp [Act.when]
@[simp] theorem Act.foot_ite (p : Prop) [Decidable p] (a b : Act) :
    Act.Foot ps rs cs (if p then a else b) ↔ (p → Act.Foot ps rs cs a) ∧ (¬p → Act.Foot ps rs cs b) := by
  split <;> simp_all
@[simp] theorem Act.foot_set (f : Field) (x i : Nat) : Act.Foot ps rs cs (.set f x i) ↔ f.reg ∈ rs := by
  simp [Act.set, Upd.In]
@[simp] theorem Act.foot_setFlag (f : Field) (b : Bool) (i : Nat) : Act.Foot ps rs cs (.setFlag f b i) ↔ f.reg ∈ rs :=
  Act.foot_set f _ i
@[simp] theorem Act.foot_setShadow (f : Field) (x i : Nat) : Act.Foot ps rs cs (.setShadow f x i) ↔ .shadow ∈ ps := by
  simp [Act.setShadow, Upd.In]
@[simp] theorem Act.foot_count (c : Ctr) : Act.Foot ps rs cs (.count c) ↔ c ∈ cs := by simp [Act.count, Upd.In]
@[simp] theorem Act.foot_countN (c : Ctr) (n : Nat) : Act.Foot ps rs cs (.countN c n) ↔ c ∈ cs := by
  simp [Act.countN, Upd.In]
@[simp] theorem Act.foot_modSail (f : SailState → SailState) : Act.Foot ps rs cs (.modSail f) ↔ .sail ∈ ps := by
  simp [Act.modSail, Upd.In]
@[simp] theorem Act.foot_modCore (f : CoreState → CoreState) : Act.Foot ps rs cs (.modCore f) ↔ .core ∈ ps := by
  simp [Act.modCore, Upd.In]
@[simp] theorem Act.foot_modErr (f : ErrState → ErrState) : Act.Foot ps rs cs (.modErr f) ↔ .err ∈ ps := by
  simp [Act.modErr, Upd.In]
@[simp] theorem Act.foot_modIrq (f : IrqState → IrqState) : Act.Foot ps rs cs (.modIrq f) ↔ .irq ∈ ps := by
  simp [Act.modIrq, Upd.In]
@[simp] theorem Act.foot_modNmu (f : NmuState → NmuState) : Act.Foot ps rs cs (.modNmu f) ↔ .nmu ∈ ps := by
  simp [Act.modNmu, Upd.In]
@[simp] theorem Act.foot_modChart (f : ChartState → ChartState) : Act.Foot ps rs cs (.modChart f) ↔ .chart ∈ ps := by
  simp [Act.modChart, Upd.In]
@[simp] theorem Act.foot_modHost (f : HostState → HostState) : Act.Foot ps rs cs (.modHost f) ↔ .host ∈ ps := by
  simp [Act.modHost, Upd.In]
@[simp] theorem Act.foot_modSdir (f : SdirState → SdirState) : Act.Foot ps rs cs (.modSdir f) ↔ .sdir ∈ ps := by
  simp [Act.modSdir, Upd.In]
@[simp] theorem Act.foot_modBerth (f : BerthState → BerthState) : Act.Foot ps rs cs (.modBerth f) ↔ .berth ∈ ps := by
  simp [Act.modBerth, Upd.In]
@[simp] theorem Act.foot_modTier (f : TierState → TierState) : Act.Foot ps rs cs (.modTier f) ↔ .tier ∈ ps := by
  simp [Act.modTier, Upd.In]
@[simp] theorem Act.foot_modSec (f : SecState → SecState) : Act.Foot ps rs cs (.modSec f) ↔ .sec ∈ ps := by
  simp [Act.modSec, Upd.In]
@[simp] theorem Act.foot_modText (f : TextState → TextState) : Act.Foot ps rs cs (.modText f) ↔ .text ∈ ps := by
  simp [Act.modText, Upd.In]
@[simp] theorem Act.foot_modSealer (f : SealState → SealState) : Act.Foot ps rs cs (.modSealer f) ↔ .sealer ∈ ps := by
  simp [Act.modSealer, Upd.In]
@[simp] theorem Act.foot_modRcl (f : RclState → RclState) : Act.Foot ps rs cs (.modRcl f) ↔ .rcl ∈ ps := by
  simp [Act.modRcl, Upd.In]
@[simp] theorem Act.foot_modNand (f : NandState → NandState) : Act.Foot ps rs cs (.modNand f) ↔ .nand ∈ ps := by
  simp [Act.modNand, Upd.In]
@[simp] theorem Act.foot_modFlash (f : FlashState → FlashState) : Act.Foot ps rs cs (.modFlash f) ↔ .flash ∈ ps := by
  simp [Act.modFlash, Upd.In]
@[simp] theorem Act.foot_modFuses (f : FuseState → FuseState) : Act.Foot ps rs cs (.modFuses f) ↔ .fuses ∈ ps := by
  simp [Act.modFuses, Upd.In]
@[simp] theorem Act.foot_modBoot (f : BootState → BootState) : Act.Foot ps rs cs (.modBoot f) ↔ .boot ∈ ps := by
  simp [Act.modBoot, Upd.In]
@[simp] theorem Act.foot_modMct (f : MctState → MctState) : Act.Foot ps rs cs (.modMct f) ↔ .mct ∈ ps := by
  simp [Act.modMct, Upd.In]
@[simp] theorem Act.foot_modEgr (f : EgrState → EgrState) : Act.Foot ps rs cs (.modEgr f) ↔ .egr ∈ ps := by
  simp [Act.modEgr, Upd.In]
@[simp] theorem Act.foot_modPwr (f : PwrState → PwrState) : Act.Foot ps rs cs (.modPwr f) ↔ .pwr ∈ ps := by
  simp [Act.modPwr, Upd.In]
@[simp] theorem Act.foot_modCkpt (f : CkptState → CkptState) : Act.Foot ps rs cs (.modCkpt f) ↔ .ckpt ∈ ps := by
  simp [Act.modCkpt, Upd.In]

/-- A footprint within a smaller one. -/
theorem Act.Foot.mono {ps' : List Part} {rs' : List Reg} {cs' : List Ctr} {a : Act} (h : Act.Foot ps rs cs a)
    (hp : ps ⊆ ps') (hr : rs ⊆ rs') (hc : cs ⊆ cs') : Act.Foot ps' rs' cs' a := by
  refine Act.Uses.mono (fun u hu => ?_) h
  cases u <;> simp only [Upd.In] at hu ⊢ <;> first | exact hr hu | exact hc hu | exact hp hu

theorem State.SameBut.trans (h : s.SameBut t ps) (h' : t.SameBut u ps) : s.SameBut u ps := by
  refine ⟨h'.1.trans h.1, fun p hp => ?_⟩
  have a := h.2 p hp
  have b := h'.2 p hp
  cases p <;> exact Eq.trans b a

/-- The parts that a footprint names: those listed, the live registers and the counters when any of them is listed. -/
def footParts (ps : List Part) : List Reg → List Ctr → List Part
  | [], [] => ps
  | _ :: _, [] => .regs :: ps
  | [], _ :: _ => .ctrs :: ps
  | _ :: _, _ :: _ => .regs :: .ctrs :: ps

theorem not_mem_footParts {p : Part} (h : p ∉ footParts ps rs cs) :
    p ∉ ps ∧ (p = .regs → rs = []) ∧ (p = .ctrs → cs = []) := by
  cases rs <;> cases cs <;> simp only [footParts, List.mem_cons, not_or] at h <;> simp_all

theorem mem_footParts {p : Part} (h : p ∈ footParts ps rs cs) (h1 : p ≠ .regs) (h2 : p ≠ .ctrs) : p ∈ ps := by
  cases rs <;> cases cs <;> simp_all [footParts]

/-- A list of parts may be made longer. -/
theorem State.SameBut.mono {qs : List Part} (h : s.SameBut t ps) (hs : ps ⊆ qs) : s.SameBut t qs :=
  ⟨h.1, fun p hp => h.2 p fun hq => hp (hs hq)⟩

/-- What an update within the lists leaves alone: parts. -/
theorem Upd.In.sameBut {v : Upd} (h : v.In ps rs cs) (s : State) : s.SameBut (v.apply s) (footParts ps rs cs) := by
  refine ⟨v.apply_pending s, fun p hp => ?_⟩
  obtain ⟨h1, h2, h3⟩ := not_mem_footParts hp
  cases v <;> simp only [Upd.In] at h <;> cases p <;>
    first
      | rfl
      | (exact absurd h h1)
      | (rw [h2 rfl] at h; exact absurd h List.not_mem_nil)
      | (rw [h3 rfl] at h; exact absurd h List.not_mem_nil)
      | (simp only [State.Same, Upd.apply]; split <;> rfl)

/-- What an update within the lists leaves alone: registers. -/
theorem Upd.In.sameRegs {v : Upd} (h : v.In ps rs cs) (s : State) : s.SameRegs (v.apply s) rs := by
  intro r hr i hi
  cases v
  case reg q j x =>
    simp only [Upd.In] at h
    unfold State.reg
    rw [Upd.reg_regs]
    split
    · rename_i hj
      apply SMap.get_put_other
      intro hk
      have := regKey_inj (Nat.lt_of_lt_of_le hi (Reg.count_le r)) (Nat.lt_of_lt_of_le hj (Reg.count_le q)) hk
      exact hr (this.1 ▸ h)
    · rfl
  case shadow => unfold State.reg; rw [Upd.shadow_regs]
  case reboot => exact absurd h id
  all_goals rfl

/-- What an update within the lists leaves alone: counters. -/
theorem Upd.In.sameCounts {v : Upd} (h : v.In ps rs cs) (s : State) : s.SameCounts (v.apply s) cs := by
  intro c hc
  cases v
  case count k n =>
    simp only [Upd.In] at h
    simp only [State.count, Upd.count_ctrs]
    exact SMap.get_put_other _ _ _ fun e => hc (Ctr.code_inj e ▸ h)
  case reg => simp only [State.count, Upd.reg_ctrs]
  case shadow => simp only [State.count, Upd.shadow_ctrs]
  case reboot => exact absurd h id
  all_goals rfl

/-- Running an action leaves alone every part outside its footprint. -/
theorem Act.Foot.sameBut {a : Act} (h : Act.Foot ps rs cs a) (s : State) : s.SameBut (a.run s) (footParts ps rs cs) :=
  Act.Uses.run (R := fun s t => s.SameBut t (footParts ps rs cs)) (fun _ => ⟨rfl, fun p _ => by cases p <;> rfl⟩)
    (fun _ _ _ => State.SameBut.trans) (fun _ s hu => Upd.In.sameBut hu s) h s

/-- Running an action leaves alone every register outside its footprint. -/
theorem Act.Foot.sameRegs {a : Act} (h : Act.Foot ps rs cs a) (s : State) : s.SameRegs (a.run s) rs :=
  Act.Uses.run (R := fun s t => s.SameRegs t rs) (fun _ _ _ _ _ => rfl)
    (fun _ _ _ h h' r hr i hi => (h' r hr i hi).trans (h r hr i hi)) (fun _ s hu => Upd.In.sameRegs hu s) h s

/-- Running an action leaves alone every counter outside its footprint. -/
theorem Act.Foot.sameCounts {a : Act} (h : Act.Foot ps rs cs a) (s : State) : s.SameCounts (a.run s) cs :=
  Act.Uses.run (R := fun s t => s.SameCounts t cs) (fun _ _ _ => rfl)
    (fun _ _ _ h h' c hc => (h' c hc).trans (h c hc)) (fun _ s hu => Upd.In.sameCounts hu s) h s

/-- A command whose body does not touch the error unit: it is its body. -/
theorem Act.run_command_of_foot {a : Act} (h : Act.Foot ps rs cs a) (he : Part.err ∉ ps) {s : State} (hs : s.Live) :
    (Act.command a).run s = a.run s := by
  refine Act.run_command hs.alive ?_
  rw [show (a.run s).err = s.err from (h.sameBut s).2 .err (fun hm => he (mem_footParts hm (by simp) (by simp)))]
  exact hs.settled

/-- A field of a register outside the footprint reads as before. -/
theorem Act.Foot.get {a : Act} (h : Act.Foot ps rs cs a) (s : State) {f : Field} {i : Nat} (hf : f.reg ∉ rs)
    (hi : i < f.reg.info.count) : (a.run s).get f i = s.get f i := by
  unfold State.get; rw [h.sameRegs s f.reg hf i hi]

end Sys2Proof.Machine
end

