-- ==== Sys2Proof/Laws/Ops.lean ====
section
/-! SUPPORT. What the shared operations of Machine/Ops.lean can touch, each said once. -/

namespace Sys2Proof.Machine

variable {ps : List Part} {rs : List Reg} {cs : List Ctr}

@[simp] theorem Act.foot_msix (v : Nat) (h : .host ∈ ps) (h' : .out ∈ ps) : Act.Foot ps rs cs (.msix v) := by
  simp [Act.msix, Upd.In, h, h']

@[simp] theorem Act.foot_hostEvent (f : Field) (h : .host ∈ ps) (h' : .out ∈ ps) (hr : f.reg ∈ rs) :
    Act.Foot ps rs cs (.hostEvent f) := by
  simp [Act.hostEvent, h, h', hr]

@[simp] theorem Act.foot_present (c : Nat) (h : .IRQ_SRC ∈ rs) : Act.Foot ps rs cs (.present c) := by
  simp only [Act.present, Act.foot_look]
  intro s
  split
  · simp
  · split
    · exact (Act.foot_setFlag _ _ _).2 h
    · simp

@[simp] theorem Act.foot_interrupt (src : Nat) (h : .IRQ_SRC ∈ rs) : Act.Foot ps rs cs (.interrupt src) := by
  simp only [Act.interrupt, Act.foot_andThen, Act.foot_look, Act.foot_setFlag, h, Act.foot_present, implies_true, and_true]
  exact h

/-- The registers that an error record writes. -/
def recordRegs : List Reg := [.ERR_STATUS, .ERR_HEAD, .HOST_FATAL, .IRQ_SRC]

theorem Act.foot_setErrQueue (q : List ErrRec) (h : .err ∈ ps) (hr : recordRegs ⊆ rs) :
    Act.Foot ps rs cs (.setErrQueue q) := by
  simp only [recordRegs, List.cons_subset] at hr
  simp only [Act.setErrQueue, Act.foot_cons, Act.foot_modErr, Act.foot_set, Act.foot_nil, and_true]
  exact ⟨h, hr.1, Act.foot_each fun i => (Act.foot_set _ _ _).2 hr.2.1⟩

theorem Act.foot_goFatal (code : Nat) (h : .out ∈ ps) (hr : recordRegs ⊆ rs) : Act.Foot ps rs cs (.goFatal code) := by
  simp only [recordRegs, List.cons_subset] at hr
  simp only [Act.goFatal, Act.foot_look]
  intro s
  split
  · simp
  · simp [Upd.In, h, hr.1, hr.2.2.1, F.ERR_STATUS_FATAL, F.HOST_FATAL_CODE]

theorem Act.foot_record (r : ErrRec) (he : .err ∈ ps) (ho : .out ∈ ps) (hh : .host ∈ ps) (hr : recordRegs ⊆ rs)
    (hc : .ERR_OVERFLOW_COUNT ∈ cs) : Act.Foot ps rs cs (.record r) := by
  have hr' := hr
  simp only [recordRegs, List.cons_subset] at hr'
  have h1 : F.ERR_STATUS_OVERFLOW.reg ∈ rs := hr'.1
  simp only [Act.record, Act.foot_look]
  intro s
  split <;>
    simp [Upd.In, he, ho, hh, hc, h1, hr'.2.2.2.1, Act.foot_setErrQueue, Act.foot_goFatal, hr]

/-- The parts that raising an error may change, besides registers and counters. -/
def raiseParts : List Part := [.err, .out, .host, .chart]
/-- The registers that raising an error may write. -/
def raiseRegs : List Reg := .CHART_ISLAND :: recordRegs
/-- The counters that raising an error may count. -/
def raiseCtrs : List Ctr := [.ERR_OVERFLOW_COUNT, .ERR_ESCALATE_COUNT, .ERR_RETIRE_COUNT]

theorem Act.foot_degrade (i code : Nat) (hp : raiseParts ⊆ ps) (hr : raiseRegs ⊆ rs) :
    Act.Foot ps rs cs (.degrade i code) := by
  simp only [raiseParts, raiseRegs, List.cons_subset] at hp hr
  simp [Act.degrade, Upd.In, hp, hr, F.CHART_ISLAND_DEGRADED]

theorem Act.foot_retire (t i code : Nat) (hp : raiseParts ⊆ ps) (hr : raiseRegs ⊆ rs) (hc : raiseCtrs ⊆ cs) :
    Act.Foot ps rs cs (.retire t i code) := by
  have hp' := hp
  simp only [raiseParts, raiseCtrs, List.cons_subset] at hp' hc
  simp only [Act.retire, Act.foot_look]
  intro s
  split
  · simp
  · simp only [Act.foot_cons, Act.foot_modErr, Act.foot_count, Act.foot_nil, and_true]
    refine ⟨hp'.1, hc.2.2.1, ?_⟩
    split
    · exact Act.foot_degrade _ _ hp hr
    · split
      · exact Act.foot_degrade _ _ hp hr
      · simp

theorem Act.foot_raiseAs (e : Err) (sev t a : Nat) (x : ErrInfo) (hp : raiseParts ⊆ ps) (hr : raiseRegs ⊆ rs)
    (hc : raiseCtrs ⊆ cs) : Act.Foot ps rs cs (.raiseAs e sev t a x) := by
  have hp' := hp
  have hc' := hc
  simp only [raiseParts, raiseCtrs, List.cons_subset] at hp' hc'
  have hr' : recordRegs ⊆ rs := fun r h => hr (List.mem_cons_of_mem _ h)
  simp [Act.raiseAs, hp'.1, hc'.2.1, Act.foot_record, Act.foot_retire, hp, hr, hc, hp'.2.1, hp'.2.2.1, hr', hc'.1]

/-- What raising an error can touch. -/
@[simp] theorem Act.foot_raise (e : Err) (x : ErrInfo) (p1 : .err ∈ ps) (p2 : .out ∈ ps) (p3 : .host ∈ ps)
    (p4 : .chart ∈ ps) (r1 : .CHART_ISLAND ∈ rs) (r2 : .ERR_STATUS ∈ rs) (r3 : .ERR_HEAD ∈ rs) (r4 : .HOST_FATAL ∈ rs)
    (r5 : .IRQ_SRC ∈ rs) (c1 : .ERR_OVERFLOW_COUNT ∈ cs) (c2 : .ERR_ESCALATE_COUNT ∈ cs) (c3 : .ERR_RETIRE_COUNT ∈ cs) :
    Act.Foot ps rs cs (.raise e x) :=
  Act.foot_raiseAs e _ _ _ x (by simp [raiseParts, p1, p2, p3, p4])
    (by simp [raiseRegs, recordRegs, r1, r2, r3, r4, r5]) (by simp [raiseCtrs, c1, c2, c3])

@[simp] theorem Act.foot_complete (source status index tag result : Nat) (h : .irq ∈ ps) :
    Act.Foot ps rs cs (.complete source status index tag result) := by simp [Act.complete, h]

@[simp] theorem Act.foot_completeWith (source status index tag : Nat) (l : List Nat) (h : .irq ∈ ps) :
    Act.Foot ps rs cs (.completeWith source status index tag l) := by simp [Act.completeWith, h]

@[simp] theorem Act.foot_setWaiters (b : Nat) (l : List Taker) (h : .irq ∈ ps) (hr : .BOLL_COUNT ∈ rs) :
    Act.Foot ps rs cs (.setWaiters b l) := by simp [Act.setWaiters, h, hr, F.BOLL_COUNT_WAITERS]

@[simp] theorem Act.foot_actionDone (t i : Nat) (h : .err ∈ ps) : Act.Foot ps rs cs (.actionDone t i) := by
  simp [Act.actionDone, h]

@[simp] theorem Act.foot_writeFrame (k : Nat) (bs : List Byte) (h1 : .mem ∈ ps) (h2 : .lost ∈ ps) (h3 : .nmu ∈ ps) :
    Act.Foot ps rs cs (.writeFrame k bs) := by
  simp only [Act.writeFrame, Act.foot_look, Act.foot_cons, Act.foot_nil, Act.foot_one, Act.foot_modNmu, Upd.In, and_true]
  exact fun s => ⟨h1, Act.foot_each fun e => by simpa [Upd.In] using h2, h3⟩

end Sys2Proof.Machine
end

