-- ==== Sys2Proof/Laws/Keeps.lean ====
section
/-! SUPPORT. What an action keeps: a reading of the state (a field, a part of a unit) that is the same after it. Put together
from what the parts of the action keep; the register file may be taken to be canonical. -/

namespace Sys2Proof.Machine

variable {α : Type} {g : State → α}

theorem Upd.apply_regsOk (u : Upd) (s : State) (h : s.RegsOk) : (u.apply s).RegsOk := by
  cases u
  case reg r i v =>
    unfold State.RegsOk at *
    rw [Upd.reg_regs]
    split
    · exact SMap.wf_put regDefault h _ _
    · exact h
  case shadow => unfold State.RegsOk at *; rw [Upd.shadow_regs]; exact h
  case reboot => exact SMap.wf_put regDefault (SMap.wf_filter regDefault h _) _ _
  all_goals exact h

theorem Act.run_regsOk (a : Act) {s : State} (h : s.RegsOk) : (a.run s).RegsOk := Act.run_keeps Upd.apply_regsOk a s h

theorem State.Sound.regsOk {s : State} (h : s.Sound) : s.RegsOk := h.canonical.2.2.2.1

theorem State.Live.regsOk {s : State} (h : s.Live) : s.RegsOk := h.sound.regsOk

/-- Running the action leaves the reading `g` as it was. -/
def Act.Keeps (g : State → α) (a : Act) : Prop := ∀ s : State, s.RegsOk → g (a.run s) = g s

theorem Act.Keeps.done : Act.Keeps g .done := fun _ _ => rfl
theorem Act.Keeps.look {k : State → Act} (h : ∀ s, Act.Keeps g (k s)) : Act.Keeps g (.look k) := fun s hs => h s s hs
theorem Act.Keeps.andThen {a b : Act} (ha : Act.Keeps g a) (hb : Act.Keeps g b) : Act.Keeps g (a.andThen b) :=
  fun s hs => by rw [Act.run_andThen, hb _ (a.run_regsOk hs), ha s hs]
theorem Act.Keeps.nil : Act.Keeps g (.all []) := .done
theorem Act.Keeps.cons {a : Act} {as : List Act} (ha : Act.Keeps g a) (hb : Act.Keeps g (.all as)) :
    Act.Keeps g (.all (a :: as)) := .andThen ha hb
theorem Act.Keeps.each {β : Type} {xs : List β} {f : β → Act} (h : ∀ x, Act.Keeps g (f x)) : Act.Keeps g (.each xs f) := by
  induction xs with
  | nil => exact .done
  | cons x xs ih => exact .andThen (h x) ih
theorem Act.Keeps.when {b : Bool} {a : Act} (h : Act.Keeps g a) : Act.Keeps g (.when b a) := by
  cases b
  · exact .done
  · exact h
theorem Act.Keeps.ite {p : Prop} [Decidable p] {a b : Act} (ha : Act.Keeps g a) (hb : Act.Keeps g b) :
    Act.Keeps g (if p then a else b) := by split <;> assumption
theorem Act.Keeps.one {u : Upd} (h : ∀ s, g (u.apply s) = g s) : Act.Keeps g (.one u) := fun s _ => h s

/-- What an action's footprint leaves out, it keeps: a part of the state. -/
theorem Act.Foot.keeps_part {ps : List Part} {rs : List Reg} {cs : List Ctr} {a : Act} (h : Act.Foot ps rs cs a)
    (hg : ∀ s t : State, s.SameBut t (footParts ps rs cs) → g t = g s) : Act.Keeps g a :=
  fun s _ => hg _ _ (h.sameBut s)

/-- What an action's footprint leaves out, it keeps: a field. -/
theorem Act.Foot.keeps_get {ps : List Part} {rs : List Reg} {cs : List Ctr} {a : Act} (h : Act.Foot ps rs cs a)
    {f : Field} {i : Nat} (hf : f.reg ∉ rs) (hi : i < f.reg.info.count) : Act.Keeps (fun s => s.get f i) a :=
  fun s _ => h.get s hf hi

/-- Setting a field keeps the fields beside it. -/
theorem Act.Keeps.set_apart {f h : Field} {x i j : Nat} (hh : h.Ok) (hj : j < h.reg.info.count)
    (hd : h.reg ≠ f.reg ∨ j ≠ i ∨ h.hi < f.lo ∨ f.hi < h.lo) : Act.Keeps (fun s => s.get h j) (.set f x i) := by
  intro s hs
  simp only [Act.run_set]
  by_cases he : h.reg = f.reg ∧ j = i
  · obtain ⟨h1, rfl⟩ := he
    have hd' : h.hi < f.lo ∨ f.hi < h.lo := by
      rcases hd with hd | hd | hd
      · exact absurd h1 hd
      · exact absurd rfl hd
      · exact hd
    exact State.put_get_apart _ hh h1 (h1 ▸ hj) hd'
  · refine State.put_get_other s (Nat.lt_of_lt_of_le hj (Reg.count_le _)) ?_
    by_cases h1 : h.reg = f.reg
    · exact .inr fun h2 => he ⟨h1, h2⟩
    · exact .inl h1

theorem Act.Keeps.modErr {f : ErrState → ErrState} (h : ∀ s : State, g (Upd.apply (.err (f s.err)) s) = g s) :
    Act.Keeps g (.modErr f) := fun s _ => h s

/-! ### Retirements -/

theorem Act.todo_setErrQueue (q : List ErrRec) : Act.Keeps (fun s => s.err.todo) (.setErrQueue q) := by
  refine .cons (.modErr fun s => rfl) (.cons ?_ (.cons (.each fun i => ?_) .nil)) <;> exact fun s _ => by simp

theorem Act.todo_of_foot {a : Act} {ps : List Part} {rs : List Reg} {cs : List Ctr} (h : Act.Foot ps rs cs a)
    (he : Part.err ∉ ps) : Act.Keeps (fun s => s.err.todo) a :=
  h.keeps_part fun s t hst => by rw [show t.err = s.err from hst.2 .err fun hm => he (mem_footParts hm (by simp) (by simp))]

/-- A field or flag set, an event latched, a message sent: none of them retires anything. -/
theorem Act.todo_goFatal (code : Nat) : Act.Keeps (fun s => s.err.todo) (.goFatal code) :=
  Act.todo_of_foot (ps := [.out]) (rs := recordRegs) (cs := []) (Act.foot_goFatal code (by simp) (by simp)) (by simp)

theorem Act.todo_record (r : ErrRec) : Act.Keeps (fun s => s.err.todo) (.record r) := by
  have q : ∀ l, Act.Keeps (fun s : State => s.err.todo) (Act.setErrQueue l) := Act.todo_setErrQueue
  have c : Act.Keeps (fun s : State => s.err.todo) (Act.count .ERR_OVERFLOW_COUNT) := fun s _ => by simp
  have f : ∀ f x i, Act.Keeps (fun s : State => s.err.todo) (Act.set f x i) := fun f x i s _ => by simp
  have m : ∀ v, Act.Keeps (fun s : State => s.err.todo) (Act.msix v) := fun v =>
    Act.todo_of_foot (ps := [.host, .out]) (rs := []) (cs := []) (by simp) (by simp)
  have n : ∀ v, Act.Keeps (fun s : State => s.err.todo) (Act.interrupt v) := fun v =>
    Act.todo_of_foot (ps := []) (rs := [.IRQ_SRC]) (cs := []) (by simp) (by simp)
  have e : ∀ o, Act.Keeps (fun s : State => s.err.todo) (Act.one (.emit o)) := fun o s _ => by simp
  refine .look fun s => .ite (.ite ?_ ?_) ?_
  · exact .cons c (.cons (f _ _ _) .nil)
  · exact .andThen (q _) (.cons (.modErr fun s => rfl) (.cons (e _) (.cons (.when (m _)) (.cons (n _) .nil))))
  · refine .cons (.when (.cons c (.cons (f _ _ _) .nil))) (.cons (q _) (.cons ?_ (.cons (Act.todo_goFatal _) .nil)))
    exact .cons (.modErr fun s => rfl) (.cons (e _) (.cons (.when (m _)) (.cons (n _) .nil)))

/-- An error of no domain, or a first error in its domain whose action is no retirement, retires nothing (R541). -/
theorem Act.todo_raiseAs (e : Err) (sev dtype action : Nat) (x : ErrInfo) (s : State) (hs : s.RegsOk)
    (h : dtype = 0 ∨ (s.err.domains.get domDefault (domKey dtype x.dindex)).depth = 0 ∧ action ≠ 6) :
    ((Act.raiseAs e sev dtype action x).run s).err.todo = s.err.todo := by
  have hn : ¬(dtype ≠ 0 ∧
      (if (if dtype = 0 then 1 else min 3 ((s.err.domains.get domDefault (domKey dtype x.dindex)).depth + 1)) = 1 then sev
        else if (if dtype = 0 then 1 else min 3 ((s.err.domains.get domDefault (domKey dtype x.dindex)).depth + 1)) = 2
          then min 3 (max sev ((s.err.domains.get domDefault (domKey dtype x.dindex)).severity + 1)) else max sev 2) ≥ 2
      ∧ ((if dtype = 0 then 1 else min 3 ((s.err.domains.get domDefault (domKey dtype x.dindex)).depth + 1)) ≥ 2
        ∨ action = 6)) := by
    rintro ⟨h1, -, h2⟩
    rcases h with h | ⟨h, h'⟩
    · exact h1 h
    · rw [h] at h2; simp [h1, h'] at h2
  unfold Act.raiseAs
  rw [Act.run_look]
  have key : ∀ a b c d : Act, Act.Keeps (fun s : State => s.err.todo) a → Act.Keeps (fun s : State => s.err.todo) b →
      Act.Keeps (fun s : State => s.err.todo) c → Act.Keeps (fun s : State => s.err.todo) d →
      ((Act.all [a, b, c, d]).run s).err.todo = s.err.todo := fun a b c d ha hb hc hd =>
    (Act.Keeps.cons ha (.cons hb (.cons hc (.cons hd .nil)))) s hs
  refine key _ _ _ _ (.when (.modErr fun s => rfl)) (.when fun s _ => by simp) (.when (Act.todo_record _)) ?_
  rw [decide_eq_false hn]
  exact .done

end Sys2Proof.Machine
end

