-- ==== Sys2Proof/Laws/Touch.lean ====
section
/-! SUPPORT. Footprints as data: an action within a footprint, how footprints of parts give that of the whole, and the frame
that a footprint gives. The footprints of the shared operations stand in the files that import this one. -/

namespace Sys2Proof.Machine

/-- A footprint lies within another; a register list that names every register holds every register. -/
def Touch.le (f g : Touch) : Bool :=
  f.parts.all g.parts.contains && (f.regs == g.regs || f.regs.all g.regs.contains) && f.ctrs.all g.ctrs.contains

/-- The action stays within the footprint. -/
structure Act.Within (f : Touch) (a : Act) : Prop where
  foot : a.Foot f.parts f.regs f.ctrs

variable {f g : Touch}

theorem Touch.mem_of_le (h : f.le g = true) :
    (∀ p ∈ f.parts, p ∈ g.parts) ∧ (∀ r ∈ f.regs, r ∈ g.regs) ∧ (∀ c ∈ f.ctrs, c ∈ g.ctrs) := by
  simp only [Touch.le, Bool.and_eq_true, Bool.or_eq_true, beq_iff_eq, List.all_eq_true, List.contains_iff_mem] at h
  refine ⟨h.1.1, ?_, h.2⟩
  rcases h.1.2 with e | e
  · rw [e]; exact fun _ hr => hr
  · exact e

theorem Act.Within.mono {a : Act} (h : a.Within f) (hl : f.le g = true) : a.Within g :=
  ⟨Act.Foot.mono h.foot (Touch.mem_of_le hl).1 (Touch.mem_of_le hl).2.1 (Touch.mem_of_le hl).2.2⟩

theorem Touch.le_trans {h : Touch} (a : f.le g = true) (b : g.le h = true) : f.le h = true := by
  have a := Touch.mem_of_le a
  have b := Touch.mem_of_le b
  simp only [Touch.le, Bool.and_eq_true, Bool.or_eq_true, List.all_eq_true, List.contains_iff_mem]
  exact ⟨⟨fun x hx => b.1 x (a.1 x hx), .inr fun x hx => b.2.1 x (a.2.1 x hx)⟩, fun x hx => b.2.2 x (a.2.2 x hx)⟩

/-- The list of every register holds every register. -/
@[simp] theorem Reg.all_contains (r : Reg) : Reg.all.contains r = true := by cases r <;> decide

@[simp] theorem Reg.mem_all (r : Reg) : r ∈ Reg.all := by simpa using Reg.all_contains r

/-- What a footprint says of running the action. -/
theorem Act.Within.run {a : Act} (h : a.Within f) (s : State) : s.Touched (a.run s) f where
  queue := (h.foot.sameBut s).1
  parts := fun p hp h1 h2 => (h.foot.sameBut s).2 p fun hm => hp (mem_footParts hm h1 h2)
  regs := h.foot.sameRegs s
  counts := h.foot.sameCounts s

/-- What a command with a body of this footprint does: it touches the footprint, and then carries out what it retired. -/
theorem Act.Within.command {a : Act} (h : a.Within f) {s t : State} (hl : s.Live)
    (he : (Act.command a).outcome s = .next t) :
    ∃ u, s.Touched u f ∧ (t = u ∨ (u.err.todo ≠ [] ∧ t = (Act.retirements 64).run u)) := by
  simp only [Act.outcome, Act.command, Act.run_look, hl.alive, Bool.false_eq_true, if_false, Act.run_andThen,
    Host.Outcome.next.injEq] at he
  subst he
  refine ⟨a.run s, h.run s, ?_⟩
  by_cases ht : (a.run s).err.todo = []
  · exact .inl (Act.run_retirements ht _)
  · exact .inr ⟨ht, rfl⟩

@[simp] theorem Act.within_done : Act.Within f .done := ⟨trivial⟩
@[simp] theorem Act.within_look (k : State → Act) : Act.Within f (.look k) ↔ ∀ s, (k s).Within f :=
  ⟨fun h s => ⟨h.foot s⟩, fun h => ⟨fun s => (h s).foot⟩⟩
@[simp] theorem Act.within_andThen (a b : Act) : (a.andThen b).Within f ↔ a.Within f ∧ b.Within f :=
  ⟨fun h => ⟨⟨((Act.foot_andThen a b).1 h.foot).1⟩, ⟨((Act.foot_andThen a b).1 h.foot).2⟩⟩,
    fun h => ⟨(Act.foot_andThen a b).2 ⟨h.1.foot, h.2.foot⟩⟩⟩
@[simp] theorem Act.within_nil : Act.Within f (.all []) := ⟨trivial⟩
@[simp] theorem Act.within_cons (a : Act) (as : List Act) :
    Act.Within f (.all (a :: as)) ↔ a.Within f ∧ Act.Within f (.all as) := Act.within_andThen a (.all as)
@[simp] theorem Act.within_append (as bs : List Act) :
    Act.Within f (.all (as ++ bs)) ↔ Act.Within f (.all as) ∧ Act.Within f (.all bs) := by
  induction as with
  | nil => simp
  | cons a as ih => simp only [List.cons_append, Act.within_cons, ih, and_assoc]
theorem Act.within_andThen_of {a b : Act} (ha : a.Within f) (hb : b.Within f) : (a.andThen b).Within f :=
  (Act.within_andThen a b).2 ⟨ha, hb⟩
theorem Act.within_cons_of {a : Act} {as : List Act} (ha : a.Within f) (hb : Act.Within f (.all as)) :
    Act.Within f (.all (a :: as)) := (Act.within_cons a as).2 ⟨ha, hb⟩
theorem Act.within_each {α : Type} {xs : List α} {k : α → Act} (h : ∀ x, (k x).Within f) : (Act.each xs k).Within f :=
  ⟨Act.foot_each fun x => (h x).foot⟩
theorem Act.within_map {α : Type} {xs : List α} {k : α → Act} (h : ∀ x, (k x).Within f) : (Act.all (xs.map k)).Within f :=
  ⟨Act.foot_each fun x => (h x).foot⟩
theorem Act.within_when {b : Bool} {a : Act} (h : a.Within f) : (Act.when b a).Within f := by
  cases b
  · exact Act.within_done
  · exact h
theorem Act.within_ite {p : Prop} [Decidable p] {a b : Act} (ha : a.Within f) (hb : b.Within f) :
    (if p then a else b).Within f := by split <;> assumption
@[simp] theorem Act.within_set (x : Field) (v i : Nat) (h : f.regs.contains x.reg = true) : (Act.set x v i).Within f :=
  ⟨(Act.foot_set x v i).2 (by simpa using h)⟩
@[simp] theorem Act.within_setFlag (x : Field) (b : Bool) (i : Nat) (h : f.regs.contains x.reg = true) :
    (Act.setFlag x b i).Within f := ⟨(Act.foot_setFlag x b i).2 (by simpa using h)⟩
@[simp] theorem Act.within_setShadow (x : Field) (v i : Nat) (h : f.parts.contains .shadow = true) :
    (Act.setShadow x v i).Within f := ⟨(Act.foot_setShadow x v i).2 (by simpa using h)⟩
@[simp] theorem Act.within_count (c : Ctr) (h : f.ctrs.contains c = true) : (Act.count c).Within f :=
  ⟨(Act.foot_count c).2 (by simpa using h)⟩
@[simp] theorem Act.within_countN (c : Ctr) (n : Nat) (h : f.ctrs.contains c = true) : (Act.countN c n).Within f :=
  ⟨(Act.foot_countN c n).2 (by simpa using h)⟩
@[simp] theorem Act.within_one_reg (r : Reg) (i : Nat) (v : BitVec 128) (h : f.regs.contains r = true) : (Act.one (.reg r i v)).Within f :=
  ⟨(Act.foot_one _).2 (by simpa [Upd.In] using h)⟩
@[simp] theorem Act.within_one_shadow (r : Reg) (i : Nat) (v : BitVec 128) (h : f.parts.contains .shadow = true) : (Act.one (.shadow r i v)).Within f :=
  ⟨(Act.foot_one _).2 (by simpa [Upd.In] using h)⟩
@[simp] theorem Act.within_one_count (c : Ctr) (n : Nat) (h : f.ctrs.contains c = true) : (Act.one (.count c n)).Within f :=
  ⟨(Act.foot_one _).2 (by simpa [Upd.In] using h)⟩
@[simp] theorem Act.within_one_mem (a : Nat) (b : List Byte) (h : f.parts.contains .mem = true) : (Act.one (.mem a b)).Within f :=
  ⟨(Act.foot_one _).2 (by simpa [Upd.In] using h)⟩
@[simp] theorem Act.within_one_ls (c a : Nat) (b : List Byte) (h : f.parts.contains .ls = true) : (Act.one (.ls c a b)).Within f :=
  ⟨(Act.foot_one _).2 (by simpa [Upd.In] using h)⟩
@[simp] theorem Act.within_one_hostMem (a : Nat) (b : List Byte) (h : f.parts.contains .hostMem = true) : (Act.one (.hostMem a b)).Within f :=
  ⟨(Act.foot_one _).2 (by simpa [Upd.In] using h)⟩
@[simp] theorem Act.within_one_wipe (a b : Nat) (h : f.parts.contains .mem = true) : (Act.one (.wipe a b)).Within f :=
  ⟨(Act.foot_one _).2 (by simpa [Upd.In] using h)⟩
@[simp] theorem Act.within_one_wipeLs (c a b : Nat) (h : f.parts.contains .ls = true) : (Act.one (.wipeLs c a b)).Within f :=
  ⟨(Act.foot_one _).2 (by simpa [Upd.In] using h)⟩
@[simp] theorem Act.within_one_lost (a : Nat) (b : Bool) (h : f.parts.contains .lost = true) : (Act.one (.lost a b)).Within f :=
  ⟨(Act.foot_one _).2 (by simpa [Upd.In] using h)⟩
@[simp] theorem Act.within_one_emit (o : Output) (h : f.parts.contains .out = true) : (Act.one (.emit o)).Within f :=
  ⟨(Act.foot_one _).2 (by simpa [Upd.In] using h)⟩
@[simp] theorem Act.within_one_takeFree (n : Nat) (h : f.parts.contains .free = true) : (Act.one (.takeFree n)).Within f :=
  ⟨(Act.foot_one _).2 (by simpa [Upd.In] using h)⟩
@[simp] theorem Act.within_modSail (k) (h : f.parts.contains .sail = true) : (Act.modSail k).Within f :=
  ⟨(Act.foot_modSail k).2 (by simpa using h)⟩
@[simp] theorem Act.within_modCore (k) (h : f.parts.contains .core = true) : (Act.modCore k).Within f :=
  ⟨(Act.foot_modCore k).2 (by simpa using h)⟩
@[simp] theorem Act.within_modErr (k) (h : f.parts.contains .err = true) : (Act.modErr k).Within f :=
  ⟨(Act.foot_modErr k).2 (by simpa using h)⟩
@[simp] theorem Act.within_modIrq (k) (h : f.parts.contains .irq = true) : (Act.modIrq k).Within f :=
  ⟨(Act.foot_modIrq k).2 (by simpa using h)⟩
@[simp] theorem Act.within_modNmu (k) (h : f.parts.contains .nmu = true) : (Act.modNmu k).Within f :=
  ⟨(Act.foot_modNmu k).2 (by simpa using h)⟩
@[simp] theorem Act.within_modChart (k) (h : f.parts.contains .chart = true) : (Act.modChart k).Within f :=
  ⟨(Act.foot_modChart k).2 (by simpa using h)⟩
@[simp] theorem Act.within_modHost (k) (h : f.parts.contains .host = true) : (Act.modHost k).Within f :=
  ⟨(Act.foot_modHost k).2 (by simpa using h)⟩
@[simp] theorem Act.within_modSdir (k) (h : f.parts.contains .sdir = true) : (Act.modSdir k).Within f :=
  ⟨(Act.foot_modSdir k).2 (by simpa using h)⟩
@[simp] theorem Act.within_modBerth (k) (h : f.parts.contains .berth = true) : (Act.modBerth k).Within f :=
  ⟨(Act.foot_modBerth k).2 (by simpa using h)⟩
@[simp] theorem Act.within_modTier (k) (h : f.parts.contains .tier = true) : (Act.modTier k).Within f :=
  ⟨(Act.foot_modTier k).2 (by simpa using h)⟩
@[simp] theorem Act.within_modSec (k) (h : f.parts.contains .sec = true) : (Act.modSec k).Within f :=
  ⟨(Act.foot_modSec k).2 (by simpa using h)⟩
@[simp] theorem Act.within_modText (k) (h : f.parts.contains .text = true) : (Act.modText k).Within f :=
  ⟨(Act.foot_modText k).2 (by simpa using h)⟩
@[simp] theorem Act.within_modSealer (k) (h : f.parts.contains .sealer = true) : (Act.modSealer k).Within f :=
  ⟨(Act.foot_modSealer k).2 (by simpa using h)⟩
@[simp] theorem Act.within_modRcl (k) (h : f.parts.contains .rcl = true) : (Act.modRcl k).Within f :=
  ⟨(Act.foot_modRcl k).2 (by simpa using h)⟩
@[simp] theorem Act.within_modNand (k) (h : f.parts.contains .nand = true) : (Act.modNand k).Within f :=
  ⟨(Act.foot_modNand k).2 (by simpa using h)⟩
@[simp] theorem Act.within_modFlash (k) (h : f.parts.contains .flash = true) : (Act.modFlash k).Within f :=
  ⟨(Act.foot_modFlash k).2 (by simpa using h)⟩
@[simp] theorem Act.within_modFuses (k) (h : f.parts.contains .fuses = true) : (Act.modFuses k).Within f :=
  ⟨(Act.foot_modFuses k).2 (by simpa using h)⟩
@[simp] theorem Act.within_modBoot (k) (h : f.parts.contains .boot = true) : (Act.modBoot k).Within f :=
  ⟨(Act.foot_modBoot k).2 (by simpa using h)⟩
@[simp] theorem Act.within_modMct (k) (h : f.parts.contains .mct = true) : (Act.modMct k).Within f :=
  ⟨(Act.foot_modMct k).2 (by simpa using h)⟩
@[simp] theorem Act.within_modEgr (k) (h : f.parts.contains .egr = true) : (Act.modEgr k).Within f :=
  ⟨(Act.foot_modEgr k).2 (by simpa using h)⟩
@[simp] theorem Act.within_modPwr (k) (h : f.parts.contains .pwr = true) : (Act.modPwr k).Within f :=
  ⟨(Act.foot_modPwr k).2 (by simpa using h)⟩
@[simp] theorem Act.within_modCkpt (k) (h : f.parts.contains .ckpt = true) : (Act.modCkpt k).Within f :=
  ⟨(Act.foot_modCkpt k).2 (by simpa using h)⟩

end Sys2Proof.Machine
end

