-- ==== Sys2Proof/Laws/TouchOps.lean ====
section
/-! SUPPORT. What the shared operations of Machine/Ops.lean can touch, each said once. -/

namespace Sys2Proof.Machine

@[simp] theorem Act.within_writeFrame {f : Touch} (a0 a1) (hf : (⟨[.lost, .mem, .nmu], [], []⟩ : Touch).le f = true) :
    Act.Within f (.writeFrame a0 a1) := by
  refine Act.Within.mono ?_ hf
  unfold Act.writeFrame
  repeat'
    first
      | intro _ | refine And.intro ?_ ?_ | (with_reducible refine Act.within_each fun _ => ?_)
      | (with_reducible refine Act.within_when ?_) | (with_reducible refine Act.within_ite ?_ ?_) | split | simp +decide

@[simp] theorem Act.within_msix {f : Touch} (a0) (hf : (⟨[.host, .out], [], []⟩ : Touch).le f = true) : Act.Within f
    (.msix a0) := by
  refine Act.Within.mono ?_ hf
  unfold Act.msix
  repeat'
    first
      | intro _ | refine And.intro ?_ ?_ | (with_reducible refine Act.within_each fun _ => ?_)
      | (with_reducible refine Act.within_when ?_) | (with_reducible refine Act.within_ite ?_ ?_) | split | simp +decide

@[simp] theorem Act.within_hostEvent {f : Touch} (x) (hf : (⟨[.host, .out], [x.reg], []⟩ : Touch).le f = true) :
    Act.Within f (.hostEvent x) := by
  refine Act.Within.mono ?_ hf
  unfold Act.hostEvent
  refine (Act.within_look _).2 fun s => Act.within_ite Act.within_done (Act.within_andThen_of ?_ (Act.within_msix _ rfl))
  simp

@[simp] theorem Act.within_present {f : Touch} (a0) (hf : (⟨[], [.IRQ_SRC], []⟩ : Touch).le f = true) : Act.Within f
    (.present a0) := by
  refine Act.Within.mono ?_ hf
  unfold Act.present
  repeat'
    first
      | intro _ | refine And.intro ?_ ?_ | (with_reducible refine Act.within_each fun _ => ?_)
      | (with_reducible refine Act.within_when ?_) | (with_reducible refine Act.within_ite ?_ ?_) | split | simp +decide

@[simp] theorem Act.within_interrupt {f : Touch} (a0) (hf : (⟨[], [.IRQ_SRC], []⟩ : Touch).le f = true) : Act.Within f
    (.interrupt a0) := by
  refine Act.Within.mono ?_ hf
  unfold Act.interrupt
  repeat'
    first
      | intro _ | refine And.intro ?_ ?_ | (with_reducible refine Act.within_each fun _ => ?_)
      | (with_reducible refine Act.within_when ?_) | (with_reducible refine Act.within_ite ?_ ?_) | split | simp +decide

@[simp] theorem Act.within_setErrQueue {f : Touch} (a0) (hf : (⟨[.err], [.ERR_HEAD, .ERR_STATUS], []⟩ : Touch).le f =
    true) : Act.Within f (.setErrQueue a0) := by
  refine Act.Within.mono ?_ hf
  unfold Act.setErrQueue
  repeat'
    first
      | intro _ | refine And.intro ?_ ?_ | (with_reducible refine Act.within_each fun _ => ?_)
      | (with_reducible refine Act.within_when ?_) | (with_reducible refine Act.within_ite ?_ ?_) | split | simp +decide

@[simp] theorem Act.within_goFatal {f : Touch} (a0) (hf : (⟨[.out], [.ERR_STATUS, .HOST_FATAL], []⟩ : Touch).le f =
    true) : Act.Within f (.goFatal a0) := by
  refine Act.Within.mono ?_ hf
  unfold Act.goFatal
  repeat'
    first
      | intro _ | refine And.intro ?_ ?_ | (with_reducible refine Act.within_each fun _ => ?_)
      | (with_reducible refine Act.within_when ?_) | (with_reducible refine Act.within_ite ?_ ?_) | split | simp +decide

@[simp] theorem Act.within_record {f : Touch} (a0) (hf : (⟨[.err, .host, .out], [.ERR_HEAD, .ERR_STATUS, .HOST_FATAL,
    .IRQ_SRC], [.ERR_OVERFLOW_COUNT]⟩ : Touch).le f = true) : Act.Within f (.record a0) := by
  refine Act.Within.mono ?_ hf
  unfold Act.record
  repeat'
    first
      | intro _ | refine And.intro ?_ ?_ | (with_reducible refine Act.within_each fun _ => ?_)
      | (with_reducible refine Act.within_when ?_) | (with_reducible refine Act.within_ite ?_ ?_) | split | simp +decide

@[simp] theorem Act.within_wakeIsland {f : Touch} (a0) (hf : (⟨[.pwr], [], []⟩ : Touch).le f = true) : Act.Within f
    (.wakeIsland a0) := by
  refine Act.Within.mono ?_ hf
  unfold Act.wakeIsland
  repeat'
    first
      | intro _ | refine And.intro ?_ ?_ | (with_reducible refine Act.within_each fun _ => ?_)
      | (with_reducible refine Act.within_when ?_) | (with_reducible refine Act.within_ite ?_ ?_) | split | simp +decide

@[simp] theorem Act.within_wakeGranule {f : Touch} (a0) (hf : (⟨[.pwr], [], []⟩ : Touch).le f = true) : Act.Within f
    (.wakeGranule a0) := by
  refine Act.Within.mono ?_ hf
  unfold Act.wakeGranule
  repeat'
    first
      | intro _ | refine And.intro ?_ ?_ | (with_reducible refine Act.within_each fun _ => ?_)
      | (with_reducible refine Act.within_when ?_) | (with_reducible refine Act.within_ite ?_ ?_) | split | simp +decide

@[simp] theorem Act.within_showDrain {f : Touch} (hf : (⟨[], [.CHART_DRAIN], []⟩ : Touch).le f = true) : Act.Within f
    .showDrain := by
  refine Act.Within.mono ?_ hf
  unfold Act.showDrain
  repeat'
    first
      | intro _ | refine And.intro ?_ ?_ | (with_reducible refine Act.within_each fun _ => ?_)
      | (with_reducible refine Act.within_when ?_) | (with_reducible refine Act.within_ite ?_ ?_) | split | simp +decide

@[simp] theorem Act.within_opOver {f : Touch} (hf : (⟨[], [.CHART_DRAIN], []⟩ : Touch).le f = true) : Act.Within f
    .opOver := by
  refine Act.Within.mono ?_ hf
  unfold Act.opOver
  repeat'
    first
      | intro _ | refine And.intro ?_ ?_ | (with_reducible refine Act.within_each fun _ => ?_)
      | (with_reducible refine Act.within_when ?_) | (with_reducible refine Act.within_ite ?_ ?_) | split | simp +decide

@[simp] theorem Act.within_degrade {f : Touch} (a0 a1) (hf : (⟨[.chart, .out], [.CHART_ISLAND], []⟩ : Touch).le f =
    true) : Act.Within f (.degrade a0 a1) := by
  refine Act.Within.mono ?_ hf
  unfold Act.degrade
  repeat'
    first
      | intro _ | refine And.intro ?_ ?_ | (with_reducible refine Act.within_each fun _ => ?_)
      | (with_reducible refine Act.within_when ?_) | (with_reducible refine Act.within_ite ?_ ?_) | split | simp +decide

@[simp] theorem Act.within_undegrade {f : Touch} (a0 a1) (hf : (⟨[.chart, .out], [.CHART_ISLAND], []⟩ : Touch).le f =
    true) : Act.Within f (.undegrade a0 a1) := by
  refine Act.Within.mono ?_ hf
  unfold Act.undegrade
  repeat'
    first
      | intro _ | refine And.intro ?_ ?_ | (with_reducible refine Act.within_each fun _ => ?_)
      | (with_reducible refine Act.within_when ?_) | (with_reducible refine Act.within_ite ?_ ?_) | split | simp +decide

@[simp] theorem Act.within_awaitSection {f : Touch} (a0 a1 a2) (hf : (⟨[.boot, .chart, .out], [.CHART_ISLAND], []⟩ :
    Touch).le f = true) : Act.Within f (.awaitSection a0 a1 a2) := by
  refine Act.Within.mono ?_ hf
  unfold Act.awaitSection
  repeat'
    first
      | intro _ | refine And.intro ?_ ?_ | (with_reducible refine Act.within_each fun _ => ?_)
      | (with_reducible refine Act.within_when ?_) | (with_reducible refine Act.within_ite ?_ ?_) | split | simp +decide

@[simp] theorem Act.within_sectionBack {f : Touch} (a0 a1) (hf : (⟨[.boot, .chart, .out], [.CHART_ISLAND], []⟩ :
    Touch).le f = true) : Act.Within f (.sectionBack a0 a1) := by
  refine Act.Within.mono ?_ hf
  unfold Act.sectionBack
  repeat'
    first
      | intro _ | refine And.intro ?_ ?_ | (with_reducible refine Act.within_each fun _ => ?_)
      | (with_reducible refine Act.within_when ?_) | (with_reducible refine Act.within_ite ?_ ?_) | split | simp +decide

@[simp] theorem Act.within_retire {f : Touch} (a0 a1 a2) (hf : (⟨[.chart, .err, .out], [.CHART_ISLAND],
    [.ERR_RETIRE_COUNT]⟩ : Touch).le f = true) : Act.Within f (.retire a0 a1 a2) := by
  refine Act.Within.mono ?_ hf
  unfold Act.retire
  repeat'
    first
      | intro _ | refine And.intro ?_ ?_ | (with_reducible refine Act.within_each fun _ => ?_)
      | (with_reducible refine Act.within_when ?_) | (with_reducible refine Act.within_ite ?_ ?_) | split | simp +decide

@[simp] theorem Act.within_raiseAs {f : Touch} (a0 a1 a2 a3 a4) (hf : (touchRaise : Touch).le f = true) : Act.Within f
    (.raiseAs a0 a1 a2 a3 a4) := by
  refine Act.Within.mono ?_ hf
  unfold Act.raiseAs
  repeat'
    first
      | intro _ | refine And.intro ?_ ?_ | (with_reducible refine Act.within_each fun _ => ?_)
      | (with_reducible refine Act.within_when ?_) | (with_reducible refine Act.within_ite ?_ ?_) | split | simp +decide

@[simp] theorem Act.within_raise {f : Touch} (a0 a1) (hf : (touchRaise : Touch).le f = true) : Act.Within f (.raise a0
    a1) := by
  refine Act.Within.mono ?_ hf
  unfold Act.raise
  repeat'
    first
      | intro _ | refine And.intro ?_ ?_ | (with_reducible refine Act.within_each fun _ => ?_)
      | (with_reducible refine Act.within_when ?_) | (with_reducible refine Act.within_ite ?_ ?_) | split | simp +decide

@[simp] theorem Act.within_actionDone {f : Touch} (a0 a1) (hf : (⟨[.err], [], []⟩ : Touch).le f = true) : Act.Within f
    (.actionDone a0 a1) := by
  refine Act.Within.mono ?_ hf
  unfold Act.actionDone
  repeat'
    first
      | intro _ | refine And.intro ?_ ?_ | (with_reducible refine Act.within_each fun _ => ?_)
      | (with_reducible refine Act.within_when ?_) | (with_reducible refine Act.within_ite ?_ ?_) | split | simp +decide

@[simp] theorem Act.within_note {f : Touch} (a0 a1 a2) (hf : (⟨[.err], [], []⟩ : Touch).le f = true) : Act.Within f
    (.note a0 a1 a2) := by
  refine Act.Within.mono ?_ hf
  unfold Act.note
  repeat'
    first
      | intro _ | refine And.intro ?_ ?_ | (with_reducible refine Act.within_each fun _ => ?_)
      | (with_reducible refine Act.within_when ?_) | (with_reducible refine Act.within_ite ?_ ?_) | split | simp +decide

@[simp] theorem Act.within_fault {f : Touch} (a0 a1 a2 a3) (hf : (touchRaise : Touch).le f = true) : Act.Within f
    (.fault a0 a1 a2 a3) := by
  refine Act.Within.mono ?_ hf
  unfold Act.fault
  repeat'
    first
      | intro _ | refine And.intro ?_ ?_ | (with_reducible refine Act.within_each fun _ => ?_)
      | (with_reducible refine Act.within_when ?_) | (with_reducible refine Act.within_ite ?_ ?_) | split | simp +decide

@[simp] theorem Act.within_preserve {f : Touch} (a0 a1 a2) (hf : (touchRaise.join ⟨[.lost, .mem, .nmu], [.NMU_STACK],
    [.NMU_COW_COPY_COUNT, .NMU_LINE_ECC_COUNT]⟩ : Touch).le f = true) : Act.Within f (.preserve a0 a1 a2) := by
  refine Act.Within.mono ?_ hf
  unfold Act.preserve
  repeat'
    first
      | intro _ | refine And.intro ?_ ?_ | (with_reducible refine Act.within_each fun _ => ?_)
      | (with_reducible refine Act.within_when ?_) | (with_reducible refine Act.within_ite ?_ ?_) | split | simp +decide

@[simp] theorem Act.within_holdWrite {f : Touch} (a0 a1 a2) (hf : (⟨[.nmu], [], []⟩ : Touch).le f = true) : Act.Within f
    (.holdWrite a0 a1 a2) := by
  refine Act.Within.mono ?_ hf
  unfold Act.holdWrite
  repeat'
    first
      | intro _ | refine And.intro ?_ ?_ | (with_reducible refine Act.within_each fun _ => ?_)
      | (with_reducible refine Act.within_when ?_) | (with_reducible refine Act.within_ite ?_ ?_) | split | simp +decide

@[simp] theorem Act.within_stallWrite {f : Touch} (a0 a1) (hf : (⟨[.nmu], [], [.NMU_COW_STALL_COUNT]⟩ : Touch).le f =
    true) : Act.Within f (.stallWrite a0 a1) := by
  refine Act.Within.mono ?_ hf
  unfold Act.stallWrite
  repeat'
    first
      | intro _ | refine And.intro ?_ ?_ | (with_reducible refine Act.within_each fun _ => ?_)
      | (with_reducible refine Act.within_when ?_) | (with_reducible refine Act.within_ite ?_ ?_) | split | simp +decide

@[simp] theorem Act.within_storeOpen {f : Touch} (a0 a1) (hf : (touchStore : Touch).le f = true) : Act.Within f
    (.storeOpen a0 a1) := by
  refine Act.Within.mono ?_ hf
  unfold Act.storeOpen
  repeat'
    first
      | intro _ | refine And.intro ?_ ?_ | (with_reducible refine Act.within_each fun _ => ?_)
      | (with_reducible refine Act.within_when ?_) | (with_reducible refine Act.within_ite ?_ ?_) | split | simp +decide

@[simp] theorem Act.within_recheck {f : Touch} (a0) (hf : (touchStore : Touch).le f = true) : Act.Within f (.recheck a0)
    := by
  refine Act.Within.mono ?_ hf
  unfold Act.recheck
  repeat'
    first
      | intro _ | refine And.intro ?_ ?_ | (with_reducible refine Act.within_each fun _ => ?_)
      | (with_reducible refine Act.within_when ?_) | (with_reducible refine Act.within_ite ?_ ?_) | split | simp +decide

@[simp] theorem Act.within_storeAny {f : Touch} (a0 a1) (hf : (touchStore : Touch).le f = true) : Act.Within f
    (.storeAny a0 a1) := by
  refine Act.Within.mono ?_ hf
  unfold Act.storeAny
  repeat'
    first
      | intro _ | refine And.intro ?_ ?_ | (with_reducible refine Act.within_each fun _ => ?_)
      | (with_reducible refine Act.within_when ?_) | (with_reducible refine Act.within_ite ?_ ?_) | split | simp +decide

@[simp] theorem Act.within_storeUnit {f : Touch} (a0 a1) (hf : (touchStore : Touch).le f = true) : Act.Within f
    (.storeUnit a0 a1) := by
  refine Act.Within.mono ?_ hf
  unfold Act.storeUnit
  repeat'
    first
      | intro _ | refine And.intro ?_ ?_ | (with_reducible refine Act.within_each fun _ => ?_)
      | (with_reducible refine Act.within_when ?_) | (with_reducible refine Act.within_ite ?_ ?_) | split | simp +decide

@[simp] theorem Act.within_storeRaw {f : Touch} (a0 a1) (hf : (touchStore : Touch).le f = true) : Act.Within f
    (.storeRaw a0 a1) := by
  refine Act.Within.mono ?_ hf
  unfold Act.storeRaw
  repeat'
    first
      | intro _ | refine And.intro ?_ ?_ | (with_reducible refine Act.within_each fun _ => ?_)
      | (with_reducible refine Act.within_when ?_) | (with_reducible refine Act.within_ite ?_ ?_) | split | simp +decide

@[simp] theorem Act.within_freeStore {f : Touch} (a0 a1) (hf : (touchStore.join ⟨[.free], [], []⟩ : Touch).le f = true)
    : Act.Within f (.freeStore a0 a1) := by
  refine Act.Within.mono ?_ hf
  unfold Act.freeStore
  repeat'
    first
      | intro _ | refine And.intro ?_ ?_ | (with_reducible refine Act.within_each fun _ => ?_)
      | (with_reducible refine Act.within_when ?_) | (with_reducible refine Act.within_ite ?_ ?_) | split | simp +decide

@[simp] theorem Act.within_lineLost {f : Touch} (a0 a1) (hf : (touchRaise : Touch).le f = true) : Act.Within f
    (.lineLost a0 a1) := by
  refine Act.Within.mono ?_ hf
  unfold Act.lineLost
  repeat'
    first
      | intro _ | refine And.intro ?_ ?_ | (with_reducible refine Act.within_each fun _ => ?_)
      | (with_reducible refine Act.within_when ?_) | (with_reducible refine Act.within_ite ?_ ?_) | split | simp +decide

@[simp] theorem Act.within_sramFault {f : Touch} (a0 a1 a2) (hf : (touchRaise : Touch).le f = true) : Act.Within f
    (.sramFault a0 a1 a2) := by
  refine Act.Within.mono ?_ hf
  unfold Act.sramFault
  repeat'
    first
      | intro _ | refine And.intro ?_ ?_ | (with_reducible refine Act.within_each fun _ => ?_)
      | (with_reducible refine Act.within_when ?_) | (with_reducible refine Act.within_ite ?_ ?_) | split | simp +decide

@[simp] theorem Act.within_entryLost {f : Touch} (a0 a1) (hf : (touchRaise : Touch).le f = true) : Act.Within f
    (.entryLost a0 a1) := by
  refine Act.Within.mono ?_ hf
  unfold Act.entryLost
  repeat'
    first
      | intro _ | refine And.intro ?_ ?_ | (with_reducible refine Act.within_each fun _ => ?_)
      | (with_reducible refine Act.within_when ?_) | (with_reducible refine Act.within_ite ?_ ?_) | split | simp +decide

@[simp] theorem Act.within_unmapped {f : Touch} (a0 a1) (hf : (touchRaise : Touch).le f = true) : Act.Within f
    (.unmapped a0 a1) := by
  refine Act.Within.mono ?_ hf
  unfold Act.unmapped
  repeat'
    first
      | intro _ | refine And.intro ?_ ?_ | (with_reducible refine Act.within_each fun _ => ?_)
      | (with_reducible refine Act.within_when ?_) | (with_reducible refine Act.within_ite ?_ ?_) | split | simp +decide

@[simp] theorem Act.within_store {f : Touch} (a0 a1) (hf : (touchStore : Touch).le f = true) : Act.Within f (.store a0
    a1) := by
  refine Act.Within.mono ?_ hf
  unfold Act.store
  repeat'
    first
      | intro _ | refine And.intro ?_ ?_ | (with_reducible refine Act.within_each fun _ => ?_)
      | (with_reducible refine Act.within_when ?_) | (with_reducible refine Act.within_ite ?_ ?_) | split | simp +decide

@[simp] theorem Act.within_complete {f : Touch} (a0 a1 a2 a3 a4) (hf : (⟨[.irq], [], []⟩ : Touch).le f = true) :
    Act.Within f (.complete a0 a1 a2 a3 a4) := by
  refine Act.Within.mono ?_ hf
  unfold Act.complete
  repeat'
    first
      | intro _ | refine And.intro ?_ ?_ | (with_reducible refine Act.within_each fun _ => ?_)
      | (with_reducible refine Act.within_when ?_) | (with_reducible refine Act.within_ite ?_ ?_) | split | simp +decide

@[simp] theorem Act.within_completeWith {f : Touch} (a0 a1 a2 a3 a4) (hf : (⟨[.irq], [], []⟩ : Touch).le f = true) :
    Act.Within f (.completeWith a0 a1 a2 a3 a4) := by
  refine Act.Within.mono ?_ hf
  unfold Act.completeWith
  repeat'
    first
      | intro _ | refine And.intro ?_ ?_ | (with_reducible refine Act.within_each fun _ => ?_)
      | (with_reducible refine Act.within_when ?_) | (with_reducible refine Act.within_ite ?_ ?_) | split | simp +decide

theorem Act.within_takeEntry {f : Touch} (a0 a1 a2 a3 a4 a5) (hf : (touchRaise : Touch).le f = true) (h3 : a3.Within f)
    (h4 : a4.Within f) (h5 : ∀ x0, (a5 x0).Within f) : Act.Within f (.takeEntry a0 a1 a2 a3 a4 a5) := by
  unfold Act.takeEntry; try dsimp only
  repeat'
    first
      | (with_reducible exact h3) | (with_reducible exact h4) | (with_reducible exact h5 _) | intro _ | (with_reducible refine (Act.within_look _).2 fun _ => ?_)
      | (with_reducible exact Act.within_nil) | (with_reducible refine Act.within_when ?_)
      | (with_reducible refine Act.within_andThen_of ?_ ?_) | (with_reducible refine Act.within_cons_of ?_ ?_)
      | (with_reducible refine Act.within_ite ?_ ?_) | (with_reducible refine Act.within_each fun _ => ?_) | split
      | exact Act.Within.mono (f := touchRaise) (by simp +decide) hf

@[simp] theorem Act.within_manifestFail {f : Touch} (hf : (⟨[], [], [.ERR_MANIFEST_FAIL_COUNT]⟩ : Touch).le f = true) :
    Act.Within f .manifestFail := by
  refine Act.Within.mono ?_ hf
  unfold Act.manifestFail
  repeat'
    first
      | intro _ | refine And.intro ?_ ?_ | (with_reducible refine Act.within_each fun _ => ?_)
      | (with_reducible refine Act.within_when ?_) | (with_reducible refine Act.within_ite ?_ ?_) | split | simp +decide

@[simp] theorem Act.within_writeTiles {f : Touch} (a0 a1 a2) (hf : (touchStore : Touch).le f = true) : Act.Within f
    (.writeTiles a0 a1 a2) := by
  refine Act.Within.mono ?_ hf
  unfold Act.writeTiles
  repeat'
    first
      | intro _ | refine And.intro ?_ ?_ | (with_reducible refine Act.within_each fun _ => ?_)
      | (with_reducible refine Act.within_when ?_) | (with_reducible refine Act.within_ite ?_ ?_) | split | simp +decide

@[simp] theorem Act.within_setWaiters {f : Touch} (a0 a1) (hf : (⟨[.irq], [.BOLL_COUNT], []⟩ : Touch).le f = true) :
    Act.Within f (.setWaiters a0 a1) := by
  refine Act.Within.mono ?_ hf
  unfold Act.setWaiters
  repeat'
    first
      | intro _ | refine And.intro ?_ ?_ | (with_reducible refine Act.within_each fun _ => ?_)
      | (with_reducible refine Act.within_when ?_) | (with_reducible refine Act.within_ite ?_ ?_) | split | simp +decide

@[simp] theorem Act.within_granted {f : Touch} (a0) (hf : (⟨[.irq, .sail], [.BOLL_WAIT, .IRQ_SRC], []⟩ : Touch).le f =
    true) : Act.Within f (.granted a0) := by
  refine Act.Within.mono ?_ hf
  unfold Act.granted
  repeat'
    first
      | intro _ | refine And.intro ?_ ?_ | (with_reducible refine Act.within_each fun _ => ?_)
      | (with_reducible refine Act.within_when ?_) | (with_reducible refine Act.within_ite ?_ ?_) | split | simp +decide

@[simp] theorem Act.within_grants {f : Touch} (a0 a1) (hf : (⟨[.irq, .sail], [.BOLL_COUNT, .BOLL_WAIT, .IRQ_SRC], []⟩ :
    Touch).le f = true) : Act.Within f (.grants a0 a1) := by
  refine Act.Within.mono ?_ hf
  induction a1 with
  | zero => unfold Act.grants; exact Act.within_done
  | succ n ih =>
    unfold Act.grants
    repeat'
      first
        | (with_reducible exact ih) | intro _ | refine And.intro ?_ ?_ | (with_reducible refine Act.within_each fun _ => ?_)
        | (with_reducible refine Act.within_when ?_) | (with_reducible refine Act.within_ite ?_ ?_) | split | simp +decide

@[simp] theorem Act.within_grantAll {f : Touch} (a0) (hf : (⟨[.irq, .sail], [.BOLL_COUNT, .BOLL_WAIT, .IRQ_SRC], []⟩ :
    Touch).le f = true) : Act.Within f (.grantAll a0) := by
  refine Act.Within.mono ?_ hf
  unfold Act.grantAll
  repeat'
    first
      | intro _ | refine And.intro ?_ ?_ | (with_reducible refine Act.within_each fun _ => ?_)
      | (with_reducible refine Act.within_when ?_) | (with_reducible refine Act.within_ite ?_ ?_) | split | simp +decide

@[simp] theorem Act.within_post {f : Touch} (a0 a1) (hf : (touchRaise.join ⟨[.irq, .sail], [.BOLL_COUNT, .BOLL_WAIT],
    [.BOLL_OVERFLOW_COUNT]⟩ : Touch).le f = true) : Act.Within f (.post a0 a1) := by
  refine Act.Within.mono ?_ hf
  unfold Act.post
  repeat'
    first
      | intro _ | refine And.intro ?_ ?_ | (with_reducible refine Act.within_each fun _ => ?_)
      | (with_reducible refine Act.within_when ?_) | (with_reducible refine Act.within_ite ?_ ?_) | split | simp +decide

@[simp] theorem Act.within_join {f : Touch} (a0 a1) (hf : (⟨[.irq, .sail], [.BOLL_COUNT, .BOLL_WAIT, .IRQ_SRC], []⟩ :
    Touch).le f = true) : Act.Within f (.join a0 a1) := by
  refine Act.Within.mono ?_ hf
  unfold Act.join
  repeat'
    first
      | intro _ | refine And.intro ?_ ?_ | (with_reducible refine Act.within_each fun _ => ?_)
      | (with_reducible refine Act.within_when ?_) | (with_reducible refine Act.within_ite ?_ ?_) | split | simp +decide

@[simp] theorem Act.within_leave {f : Touch} (a0) (hf : (⟨[.irq], [.BOLL_COUNT], []⟩ : Touch).le f = true) : Act.Within
    f (.leave a0) := by
  refine Act.Within.mono ?_ hf
  unfold Act.leave
  repeat'
    first
      | intro _ | refine And.intro ?_ ?_ | (with_reducible refine Act.within_each fun _ => ?_)
      | (with_reducible refine Act.within_when ?_) | (with_reducible refine Act.within_ite ?_ ?_) | split | simp +decide

end Sys2Proof.Machine
end

