-- ==== Sys2Proof/Laws/TouchQueues.lean ====
section
/-! SUPPORT. What the operations of the keys, the directory, the cores, the berths, the host port, the flash store, the
ferry and the queues can touch, each said once. -/

namespace Sys2Proof.Machine

@[simp] theorem Act.within_setFlight {f : Touch} (c p x) (hf : (⟨[.core], [.CORE_STATUS], []⟩ : Touch).le f = true) :
    Act.Within f (.setFlight c p x) := by
  refine Act.Within.mono ?_ hf
  cases p <;> exact Act.within_andThen_of (Act.within_modCore _ rfl) (Act.within_setFlag _ _ _ rfl)

@[simp] theorem Act.within_writeLs {f : Touch} (a0 a1 a2) (hf : (⟨[.lost, .ls], [], []⟩ : Touch).le f = true) :
    Act.Within f (.writeLs a0 a1 a2) := by
  refine Act.Within.mono ?_ hf
  unfold Act.writeLs
  repeat'
    first
      | intro _ | refine And.intro ?_ ?_ | (with_reducible refine Act.within_each fun _ => ?_)
      | (with_reducible refine Act.within_when ?_) | (with_reducible refine Act.within_ite ?_ ?_) | split | simp +decide

@[simp] theorem Act.within_freeLs {f : Touch} (a0 a1 a2) (hf : (⟨[.free, .lost, .ls], [], []⟩ : Touch).le f = true) :
    Act.Within f (.freeLs a0 a1 a2) := by
  refine Act.Within.mono ?_ hf
  unfold Act.freeLs
  repeat'
    first
      | intro _ | refine And.intro ?_ ?_ | (with_reducible refine Act.within_each fun _ => ?_)
      | (with_reducible refine Act.within_when ?_) | (with_reducible refine Act.within_ite ?_ ?_) | split | simp +decide

@[simp] theorem Act.within_lsWordLost {f : Touch} (a0 a1) (hf : (touchRaise : Touch).le f = true) : Act.Within f
    (.lsWordLost a0 a1) := by
  refine Act.Within.mono ?_ hf
  unfold Act.lsWordLost
  repeat'
    first
      | intro _ | refine And.intro ?_ ?_ | (with_reducible refine Act.within_each fun _ => ?_)
      | (with_reducible refine Act.within_when ?_) | (with_reducible refine Act.within_ite ?_ ?_) | split | simp +decide

@[simp] theorem Act.within_freeOutputs {f : Touch} (a0 a1 a2) (hf : (⟨[.free, .lost, .ls], [], []⟩ : Touch).le f = true)
    : Act.Within f (.freeOutputs a0 a1 a2) := by
  refine Act.Within.mono ?_ hf
  unfold Act.freeOutputs
  repeat'
    first
      | intro _ | refine And.intro ?_ ?_ | (with_reducible refine Act.within_each fun _ => ?_)
      | (with_reducible refine Act.within_when ?_) | (with_reducible refine Act.within_ite ?_ ?_) | split | simp +decide

@[simp] theorem Act.within_tileStatus {f : Touch} (a0 a1 a2 a3) (hf : (touchRaise.join ⟨[], [.CORE_STATUS],
    [.CORE_BANK_UNPOWERED_COUNT, .CORE_NONFINITE_COUNT, .CORE_REJECT_COUNT, .CORE_WINDOW_MISMATCH_COUNT]⟩ : Touch).le f
    = true) : Act.Within f (.tileStatus a0 a1 a2 a3) := by
  refine Act.Within.mono ?_ hf
  unfold Act.tileStatus
  repeat'
    first
      | intro _ | refine And.intro ?_ ?_ | (with_reducible refine Act.within_each fun _ => ?_)
      | (with_reducible refine Act.within_when ?_) | (with_reducible refine Act.within_ite ?_ ?_) | split | simp +decide

@[simp] theorem Act.within_tileEnds {f : Touch} (a0 a1 a2 a3) (hf : (touchTileEnd : Touch).le f = true) : Act.Within f
    (.tileEnds a0 a1 a2 a3) := by
  refine Act.Within.mono ?_ hf
  unfold Act.tileEnds
  repeat'
    first
      | intro _ | refine And.intro ?_ ?_ | (with_reducible refine Act.within_each fun _ => ?_)
      | (with_reducible refine Act.within_when ?_) | (with_reducible refine Act.within_ite ?_ ?_) | split | simp +decide

@[simp] theorem Act.within_endFlight {f : Touch} (a0 a1 a2 a3) (hf : (touchTileEnd.join ⟨[.core], [], []⟩ : Touch).le f
    = true) : Act.Within f (.endFlight a0 a1 a2 a3) := by
  refine Act.Within.mono ?_ hf
  unfold Act.endFlight
  repeat'
    first
      | intro _ | refine And.intro ?_ ?_ | (with_reducible refine Act.within_each fun _ => ?_)
      | (with_reducible refine Act.within_when ?_) | (with_reducible refine Act.within_ite ?_ ?_) | split | simp +decide

@[simp] theorem Act.within_faultFlight {f : Touch} (a0 a1) (hf : (touchTileEnd.join ⟨[.core, .free, .lost, .ls], [], []⟩
    : Touch).le f = true) : Act.Within f (.faultFlight a0 a1) := by
  refine Act.Within.mono ?_ hf
  unfold Act.faultFlight
  repeat'
    first
      | intro _ | refine And.intro ?_ ?_ | (with_reducible refine Act.within_each fun _ => ?_)
      | (with_reducible refine Act.within_when ?_) | (with_reducible refine Act.within_ite ?_ ?_) | split | simp +decide

@[simp] theorem Act.within_setItems {f : Touch} (a0 a1) (hf : (⟨[.sail], [], []⟩ : Touch).le f = true) : Act.Within f
    (.setItems a0 a1) := by
  refine Act.Within.mono ?_ hf
  unfold Act.setItems
  repeat'
    first
      | intro _ | refine And.intro ?_ ?_ | (with_reducible refine Act.within_each fun _ => ?_)
      | (with_reducible refine Act.within_when ?_) | (with_reducible refine Act.within_ite ?_ ?_) | split | simp +decide

@[simp] theorem Act.within_dropSlot {f : Touch} (a0 a1) (hf : (⟨[.irq], [.SAIL_STATUS], [.SAIL_DROP_COUNT]⟩ : Touch).le
    f = true) : Act.Within f (.dropSlot a0 a1) := by
  refine Act.Within.mono ?_ hf
  unfold Act.dropSlot
  repeat'
    first
      | intro _ | refine And.intro ?_ ?_ | (with_reducible refine Act.within_each fun _ => ?_)
      | (with_reducible refine Act.within_when ?_) | (with_reducible refine Act.within_ite ?_ ?_) | split | simp +decide

@[simp] theorem Act.within_coreRetire {f : Touch} (a0) (hf : (touchTileEnd.join ⟨[.core, .free, .lost, .ls], [], []⟩ :
    Touch).le f = true) : Act.Within f (.coreRetire a0) := by
  refine Act.Within.mono ?_ hf
  unfold Act.coreRetire
  repeat'
    first
      | intro _ | refine And.intro ?_ ?_ | (with_reducible refine Act.within_each fun _ => ?_)
      | (with_reducible refine Act.within_when ?_) | (with_reducible refine Act.within_ite ?_ ?_) | split | simp +decide

@[simp] theorem Act.within_coreFault {f : Touch} (a0 a1) (hf : (touchRaise : Touch).le f = true) : Act.Within f
    (.coreFault a0 a1) := by
  refine Act.Within.mono ?_ hf
  unfold Act.coreFault
  repeat'
    first
      | intro _ | refine And.intro ?_ ?_ | (with_reducible refine Act.within_each fun _ => ?_)
      | (with_reducible refine Act.within_when ?_) | (with_reducible refine Act.within_ite ?_ ?_) | split | simp +decide

@[simp] theorem Act.within_runTile {f : Touch} (a0 a1 a2 a3) (hf : (touchTile : Touch).le f = true) : Act.Within f
    (.runTile a0 a1 a2 a3) := by
  refine Act.Within.mono ?_ hf
  unfold Act.runTile
  repeat'
    first
      | intro _ | refine And.intro ?_ ?_ | (with_reducible refine Act.within_each fun _ => ?_)
      | (with_reducible refine Act.within_when ?_) | (with_reducible refine Act.within_ite ?_ ?_) | split | simp +decide

@[simp] theorem Act.within_drbgDraws {f : Touch} (a0) (hf : (⟨[.free, .sec], [], []⟩ : Touch).le f = true) : Act.Within
    f (.drbgDraws a0) := by
  refine Act.Within.mono ?_ hf
  unfold Act.drbgDraws
  repeat'
    first
      | intro _ | refine And.intro ?_ ?_ | (with_reducible refine Act.within_each fun _ => ?_)
      | (with_reducible refine Act.within_when ?_) | (with_reducible refine Act.within_ite ?_ ?_) | split | simp +decide

@[simp] theorem Act.within_slotFill {f : Touch} (a0 a1 a2) (hf : (touchStore.join ⟨[.free, .sec], [], []⟩ : Touch).le f
    = true) : Act.Within f (.slotFill a0 a1 a2) := by
  refine Act.Within.mono ?_ hf
  unfold Act.slotFill
  repeat'
    first
      | intro _ | refine And.intro ?_ ?_ | (with_reducible refine Act.within_each fun _ => ?_)
      | (with_reducible refine Act.within_when ?_) | (with_reducible refine Act.within_ite ?_ ?_) | split | simp +decide

@[simp] theorem Act.within_slotDraw {f : Touch} (a0 a1) (hf : (touchStore.join ⟨[.free, .sec], [], []⟩ : Touch).le f =
    true) : Act.Within f (.slotDraw a0 a1) := by
  refine Act.Within.mono ?_ hf
  unfold Act.slotDraw
  repeat'
    first
      | intro _ | refine And.intro ?_ ?_ | (with_reducible refine Act.within_each fun _ => ?_)
      | (with_reducible refine Act.within_when ?_) | (with_reducible refine Act.within_ite ?_ ?_) | split | simp +decide

@[simp] theorem Act.within_slotZero {f : Touch} (a0) (hf : (touchStore : Touch).le f = true) : Act.Within f (.slotZero a0)
    := by
  refine Act.Within.mono ?_ hf
  unfold Act.slotZero
  repeat'
    first
      | intro _ | refine And.intro ?_ ?_ | (with_reducible refine Act.within_when ?_)
      | simp +decide [-List.reduceReplicate]

@[simp] theorem Act.within_slotTag {f : Touch} (a0 a1) (hf : (touchRaise.join ⟨[], [], [.SEC_KEYSLOT_TAG_COUNT]⟩ :
    Touch).le f = true) : Act.Within f (.slotTag a0 a1) := by
  refine Act.Within.mono ?_ hf
  unfold Act.slotTag
  repeat'
    first
      | intro _ | refine And.intro ?_ ?_ | (with_reducible refine Act.within_each fun _ => ?_)
      | (with_reducible refine Act.within_when ?_) | (with_reducible refine Act.within_ite ?_ ?_) | split | simp +decide

@[simp] theorem Act.within_storeRec {f : Touch} (a0 a1) (hf : (touchStore : Touch).le f = true) : Act.Within f
    (.storeRec a0 a1) := by
  refine Act.Within.mono ?_ hf
  unfold Act.storeRec
  repeat'
    first
      | intro _ | refine And.intro ?_ ?_ | (with_reducible refine Act.within_each fun _ => ?_)
      | (with_reducible refine Act.within_when ?_) | (with_reducible refine Act.within_ite ?_ ?_) | split | simp +decide

@[simp] theorem Act.within_setWays {f : Touch} (a0 a1) (hf : (⟨[.sdir], [], []⟩ : Touch).le f = true) : Act.Within f
    (.setWays a0 a1) := by
  refine Act.Within.mono ?_ hf
  unfold Act.setWays
  repeat'
    first
      | intro _ | refine And.intro ?_ ?_ | (with_reducible refine Act.within_each fun _ => ?_)
      | (with_reducible refine Act.within_when ?_) | (with_reducible refine Act.within_ite ?_ ?_) | split | simp +decide

@[simp] theorem Act.within_writeRec {f : Touch} (a0 a1) (hf : (touchStore.join ⟨[.sdir], [], []⟩ : Touch).le f = true) :
    Act.Within f (.writeRec a0 a1) := by
  refine Act.Within.mono ?_ hf
  unfold Act.writeRec
  repeat'
    first
      | intro _ | refine And.intro ?_ ?_ | (with_reducible refine Act.within_each fun _ => ?_)
      | (with_reducible refine Act.within_when ?_) | (with_reducible refine Act.within_ite ?_ ?_) | split | simp +decide

@[simp] theorem Act.within_bump {f : Touch} (x i up down) (hf : (⟨[], [x.reg], []⟩ : Touch).le f = true) : Act.Within f
    (.bump x i up down) := by
  refine Act.Within.mono ?_ hf
  unfold Act.bump
  repeat'
    first
      | intro _ | refine And.intro ?_ ?_ | simp +decide

@[simp] theorem Act.within_stateCounts {f : Touch} (a0 a1) (hf : (⟨[], [.SDIR_LOCKED, .SDIR_STATE_COUNT], []⟩ :
    Touch).le f = true) : Act.Within f (.stateCounts a0 a1) := by
  refine Act.Within.mono ?_ hf
  unfold Act.stateCounts
  repeat'
    first
      | intro _ | refine And.intro ?_ ?_ | (with_reducible refine Act.within_each fun _ => ?_)
      | (with_reducible refine Act.within_when ?_) | (with_reducible refine Act.within_ite ?_ ?_) | split | simp +decide

@[simp] theorem Act.within_recordBad {f : Touch} (a0 a1) (hf : (touchStore.join ⟨[.sdir], [.SDIR_LOCKED,
    .SDIR_STATE_COUNT], [.SDIR_CRC_FAIL_COUNT]⟩ : Touch).le f = true) : Act.Within f (.recordBad a0 a1) := by
  refine Act.Within.mono ?_ hf
  unfold Act.recordBad
  repeat'
    first
      | intro _ | refine And.intro ?_ ?_ | (with_reducible refine Act.within_each fun _ => ?_)
      | (with_reducible refine Act.within_when ?_) | (with_reducible refine Act.within_ite ?_ ?_) | split | simp +decide

@[simp] theorem Act.within_modRec {f : Touch} (a0 a1) (hf : (touchStore.join ⟨[.sdir], [.SDIR_LOCKED,
    .SDIR_STATE_COUNT], [.SDIR_CRC_FAIL_COUNT]⟩ : Touch).le f = true) : Act.Within f (.modRec a0 a1) := by
  refine Act.Within.mono ?_ hf
  unfold Act.modRec
  repeat'
    first
      | intro _ | refine And.intro ?_ ?_ | (with_reducible refine Act.within_each fun _ => ?_)
      | (with_reducible refine Act.within_when ?_) | (with_reducible refine Act.within_ite ?_ ?_) | split | simp +decide

@[simp] theorem Act.within_writeBack {f : Touch} (a0) (hf : (touchStore.join ⟨[.sdir], [.SDIR_LOCKED,
    .SDIR_STATE_COUNT], [.SDIR_CRC_FAIL_COUNT]⟩ : Touch).le f = true) : Act.Within f (.writeBack a0) := by
  refine Act.Within.mono ?_ hf
  unfold Act.writeBack
  repeat'
    first
      | intro _ | refine And.intro ?_ ?_ | (with_reducible refine Act.within_each fun _ => ?_)
      | (with_reducible refine Act.within_when ?_) | (with_reducible refine Act.within_ite ?_ ?_) | split | simp +decide

@[simp] theorem Act.within_cacheIn {f : Touch} (a0) (hf : (touchStore.join ⟨[.sdir], [.SDIR_LOCKED, .SDIR_STATE_COUNT],
    [.SDIR_CRC_FAIL_COUNT]⟩ : Touch).le f = true) : Act.Within f (.cacheIn a0) := by
  refine Act.Within.mono ?_ hf
  unfold Act.cacheIn
  repeat'
    first
      | intro _ | refine And.intro ?_ ?_ | (with_reducible refine Act.within_each fun _ => ?_)
      | (with_reducible refine Act.within_when ?_) | (with_reducible refine Act.within_ite ?_ ?_) | split | simp +decide

@[simp] theorem Act.within_touch {f : Touch} (a0) (hf : (touchStore.join ⟨[.sdir], [.SDIR_LOCKED, .SDIR_STATE_COUNT],
    [.SDIR_CRC_FAIL_COUNT, .SDIR_HIT_COUNT, .SDIR_MISS_COUNT]⟩ : Touch).le f = true) : Act.Within f (.touch a0) := by
  refine Act.Within.mono ?_ hf
  unfold Act.touch
  repeat'
    first
      | intro _ | refine And.intro ?_ ?_ | (with_reducible refine Act.within_each fun _ => ?_)
      | (with_reducible refine Act.within_when ?_) | (with_reducible refine Act.within_ite ?_ ?_) | split | simp +decide

@[simp] theorem Act.within_setState {f : Touch} (a0 a1 a2) (hf : (touchStore.join ⟨[.sdir], [.SDIR_LOCKED,
    .SDIR_STATE_COUNT], [.SDIR_CRC_FAIL_COUNT]⟩ : Touch).le f = true) : Act.Within f (.setState a0 a1 a2) := by
  refine Act.Within.mono ?_ hf
  unfold Act.setState
  repeat'
    first
      | intro _ | refine And.intro ?_ ?_ | (with_reducible refine Act.within_each fun _ => ?_)
      | (with_reducible refine Act.within_when ?_) | (with_reducible refine Act.within_ite ?_ ?_) | split | simp +decide

@[simp] theorem Act.within_putMoored {f : Touch} (a0) (hf : (touchStore : Touch).le f = true) : Act.Within f (.putMoored
    a0) := by
  refine Act.Within.mono ?_ hf
  unfold Act.putMoored
  repeat'
    first
      | intro _ | refine And.intro ?_ ?_ | (with_reducible refine Act.within_each fun _ => ?_)
      | (with_reducible refine Act.within_when ?_) | (with_reducible refine Act.within_ite ?_ ?_) | split | simp +decide

@[simp] theorem Act.within_joinMoored {f : Touch} (a0) (hf : (touchStore : Touch).le f = true) : Act.Within f
    (.joinMoored a0) := by
  refine Act.Within.mono ?_ hf
  unfold Act.joinMoored
  repeat'
    first
      | intro _ | refine And.intro ?_ ?_ | (with_reducible refine Act.within_each fun _ => ?_)
      | (with_reducible refine Act.within_when ?_) | (with_reducible refine Act.within_ite ?_ ?_) | split | simp +decide

@[simp] theorem Act.within_leaveMoored {f : Touch} (a0) (hf : (touchStore : Touch).le f = true) : Act.Within f
    (.leaveMoored a0) := by
  refine Act.Within.mono ?_ hf
  unfold Act.leaveMoored
  repeat'
    first
      | intro _ | refine And.intro ?_ ?_ | (with_reducible refine Act.within_each fun _ => ?_)
      | (with_reducible refine Act.within_when ?_) | (with_reducible refine Act.within_ite ?_ ?_) | split | simp +decide

@[simp] theorem Act.within_unindex {f : Touch} (a0) (hf : (touchStore : Touch).le f = true) : Act.Within f (.unindex a0)
    := by
  refine Act.Within.mono ?_ hf
  unfold Act.unindex
  repeat'
    first
      | intro _ | refine And.intro ?_ ?_ | (with_reducible refine Act.within_each fun _ => ?_)
      | (with_reducible refine Act.within_when ?_) | (with_reducible refine Act.within_ite ?_ ?_) | split | simp +decide

@[simp] theorem Act.within_use {f : Touch} (a0 a1 a2 a3 a4) (hf : (touchStore : Touch).le f = true) : Act.Within f (.use
    a0 a1 a2 a3 a4) := by
  refine Act.Within.mono ?_ hf
  unfold Act.use
  repeat'
    first
      | intro _ | refine And.intro ?_ ?_ | (with_reducible refine Act.within_each fun _ => ?_)
      | (with_reducible refine Act.within_when ?_) | (with_reducible refine Act.within_ite ?_ ?_) | split | simp +decide

@[simp] theorem Act.within_useRecords {f : Touch} (a0 a1 a2) (hf : (touchStore : Touch).le f = true) : Act.Within f
    (.useRecords a0 a1 a2) := by
  refine Act.Within.mono ?_ hf
  unfold Act.useRecords
  repeat'
    first
      | intro _ | refine And.intro ?_ ?_ | (with_reducible refine Act.within_each fun _ => ?_)
      | (with_reducible refine Act.within_when ?_) | (with_reducible refine Act.within_ite ?_ ?_) | split | simp +decide

@[simp] theorem Act.within_useBerth {f : Touch} (a0 a1 a2 a3) (hf : (touchStore : Touch).le f = true) : Act.Within f
    (.useBerth a0 a1 a2 a3) := by
  refine Act.Within.mono ?_ hf
  unfold Act.useBerth
  repeat'
    first
      | intro _ | refine And.intro ?_ ?_ | (with_reducible refine Act.within_each fun _ => ?_)
      | (with_reducible refine Act.within_when ?_) | (with_reducible refine Act.within_ite ?_ ?_) | split | simp +decide

@[simp] theorem Act.within_useMoor {f : Touch} (a0 a1 a2) (hf : (touchStore : Touch).le f = true) : Act.Within f
    (.useMoor a0 a1 a2) := by
  refine Act.Within.mono ?_ hf
  unfold Act.useMoor
  repeat'
    first
      | intro _ | refine And.intro ?_ ?_ | (with_reducible refine Act.within_each fun _ => ?_)
      | (with_reducible refine Act.within_when ?_) | (with_reducible refine Act.within_ite ?_ ?_) | split | simp +decide

@[simp] theorem Act.within_useLayup {f : Touch} (a0 a1 a2) (hf : (touchStore : Touch).le f = true) : Act.Within f
    (.useLayup a0 a1 a2) := by
  refine Act.Within.mono ?_ hf
  unfold Act.useLayup
  repeat'
    first
      | intro _ | refine And.intro ?_ ?_ | (with_reducible refine Act.within_each fun _ => ?_)
      | (with_reducible refine Act.within_when ?_) | (with_reducible refine Act.within_ite ?_ ?_) | split | simp +decide

@[simp] theorem Act.within_showFree {f : Touch} (a0) (hf : (⟨[], [.SDIR_FREE], []⟩ : Touch).le f = true) : Act.Within f
    (.showFree a0) := by
  refine Act.Within.mono ?_ hf
  unfold Act.showFree
  repeat'
    first
      | intro _ | refine And.intro ?_ ?_ | (with_reducible refine Act.within_each fun _ => ?_)
      | (with_reducible refine Act.within_when ?_) | (with_reducible refine Act.within_ite ?_ ?_) | split | simp +decide

@[simp] theorem Act.within_dirStart {f : Touch} (hf : (⟨[], [.SDIR_FREE, .SDIR_STATE_COUNT, .SDIR_THRESHOLD], []⟩ :
    Touch).le f = true) : Act.Within f .dirStart := by
  refine Act.Within.mono ?_ hf
  unfold Act.dirStart
  repeat'
    first
      | intro _ | refine And.intro ?_ ?_ | (with_reducible refine Act.within_each fun _ => ?_)
      | (with_reducible refine Act.within_when ?_) | (with_reducible refine Act.within_ite ?_ ?_) | split | simp +decide

@[simp] theorem Act.within_takeBerth {f : Touch} (a0 a1 a2 a3) (hf : (touchStore.join ⟨[.sdir], [.SDIR_FREE], []⟩ :
    Touch).le f = true) : Act.Within f (.takeBerth a0 a1 a2 a3) := by
  refine Act.Within.mono ?_ hf
  unfold Act.takeBerth
  repeat'
    first
      | intro _ | refine And.intro ?_ ?_ | (with_reducible refine Act.within_each fun _ => ?_)
      | (with_reducible refine Act.within_when ?_) | (with_reducible refine Act.within_ite ?_ ?_) | split | simp +decide

@[simp] theorem Act.within_freeBerth {f : Touch} (a0 a1 a2) (hf : (touchStore.join ⟨[.sdir], [.SDIR_FREE], []⟩ :
    Touch).le f = true) : Act.Within f (.freeBerth a0 a1 a2) := by
  refine Act.Within.mono ?_ hf
  unfold Act.freeBerth
  repeat'
    first
      | intro _ | refine And.intro ?_ ?_ | (with_reducible refine Act.within_each fun _ => ?_)
      | (with_reducible refine Act.within_when ?_) | (with_reducible refine Act.within_ite ?_ ?_) | split | simp +decide

@[simp] theorem Act.within_takeLoc {f : Touch} (a0) (hf : (⟨[.sdir], [], []⟩ : Touch).le f = true) : Act.Within f
    (.takeLoc a0) := by
  refine Act.Within.mono ?_ hf
  unfold Act.takeLoc
  repeat'
    first
      | intro _ | refine And.intro ?_ ?_ | (with_reducible refine Act.within_each fun _ => ?_)
      | (with_reducible refine Act.within_when ?_) | (with_reducible refine Act.within_ite ?_ ?_) | split | simp +decide

@[simp] theorem Act.within_freeLoc {f : Touch} (a0 a1) (hf : (touchStore.join ⟨[.sdir], [], []⟩ : Touch).le f = true) :
    Act.Within f (.freeLoc a0 a1) := by
  refine Act.Within.mono ?_ hf
  unfold Act.freeLoc
  repeat'
    first
      | intro _ | refine And.intro ?_ ?_ | (with_reducible refine Act.within_each fun _ => ?_)
      | (with_reducible refine Act.within_when ?_) | (with_reducible refine Act.within_ite ?_ ?_) | split | simp +decide

@[simp] theorem Act.within_shareFreed {f : Touch} (a0 a1) (hf : (⟨[.sdir], [], []⟩ : Touch).le f = true) : Act.Within f
    (.shareFreed a0 a1) := by
  refine Act.Within.mono ?_ hf
  unfold Act.shareFreed
  repeat'
    first
      | intro _ | refine And.intro ?_ ?_ | (with_reducible refine Act.within_each fun _ => ?_)
      | (with_reducible refine Act.within_when ?_) | (with_reducible refine Act.within_ite ?_ ?_) | split | simp +decide

@[simp] theorem Act.within_chargeLoc {f : Touch} (a0 a1 a2) (hf : (touchStore.join ⟨[.sdir], [], []⟩ : Touch).le f =
    true) : Act.Within f (.chargeLoc a0 a1 a2) := by
  refine Act.Within.mono ?_ hf
  unfold Act.chargeLoc
  repeat'
    first
      | intro _ | refine And.intro ?_ ?_ | (with_reducible refine Act.within_each fun _ => ?_)
      | (with_reducible refine Act.within_when ?_) | (with_reducible refine Act.within_ite ?_ ?_) | split | simp +decide

@[simp] theorem Act.within_sdirDone {f : Touch} (a0 a1 a2) (hf : (⟨[.irq], [], [.SDIR_REFUSE_COUNT]⟩ : Touch).le f =
    true) : Act.Within f (.sdirDone a0 a1 a2) := by
  refine Act.Within.mono ?_ hf
  unfold Act.sdirDone
  repeat'
    first
      | intro _ | refine And.intro ?_ ?_ | (with_reducible refine Act.within_each fun _ => ?_)
      | (with_reducible refine Act.within_when ?_) | (with_reducible refine Act.within_ite ?_ ?_) | split | simp +decide

@[simp] theorem Act.within_sessionFault {f : Touch} (a0 a1) (hf : (touchStore.join ⟨[.sdir], [.SDIR_LOCKED,
    .SDIR_STATE_COUNT], [.SDIR_CRC_FAIL_COUNT]⟩ : Touch).le f = true) : Act.Within f (.sessionFault a0 a1) := by
  refine Act.Within.mono ?_ hf
  unfold Act.sessionFault
  repeat'
    first
      | intro _ | refine And.intro ?_ ?_ | (with_reducible refine Act.within_each fun _ => ?_)
      | (with_reducible refine Act.within_when ?_) | (with_reducible refine Act.within_ite ?_ ?_) | split | simp +decide

@[simp] theorem Act.within_recordCrc {f : Touch} (a0 a1) (hf : (touchStore.join ⟨[.irq, .sdir], [.SDIR_LOCKED,
    .SDIR_STATE_COUNT], [.SDIR_CRC_FAIL_COUNT, .SDIR_REFUSE_COUNT]⟩ : Touch).le f = true) : Act.Within f (.recordCrc a0
    a1) := by
  refine Act.Within.mono ?_ hf
  unfold Act.recordCrc
  repeat'
    first
      | intro _ | refine And.intro ?_ ?_ | (with_reducible refine Act.within_each fun _ => ?_)
      | (with_reducible refine Act.within_when ?_) | (with_reducible refine Act.within_ite ?_ ?_) | split | simp +decide

@[simp] theorem Act.within_showCommitted {f : Touch} (a0) (hf : (touchStore.join ⟨[.free, .sdir], [], []⟩ : Touch).le f
    = true) : Act.Within f (.showCommitted a0) := by
  refine Act.Within.mono ?_ hf
  unfold Act.showCommitted
  repeat'
    first
      | intro _ | refine And.intro ?_ ?_ | (with_reducible refine Act.within_each fun _ => ?_)
      | (with_reducible refine Act.within_when ?_) | (with_reducible refine Act.within_ite ?_ ?_) | split | simp +decide

@[simp] theorem Act.within_dropMove {f : Touch} (a0) (hf : (⟨[.sdir], [.CHART_DRAIN], []⟩ : Touch).le f = true) :
    Act.Within f (.dropMove a0) := by
  refine Act.Within.mono ?_ hf
  unfold Act.dropMove
  repeat'
    first
      | intro _ | refine And.intro ?_ ?_ | (with_reducible refine Act.within_each fun _ => ?_)
      | (with_reducible refine Act.within_when ?_) | (with_reducible refine Act.within_ite ?_ ?_) | split | simp +decide

@[simp] theorem Act.within_startMove {f : Touch} (a0) (hf : (touchStore.join ⟨[.sdir], [.SDIR_LOCKED,
    .SDIR_STATE_COUNT], [.SDIR_CRC_FAIL_COUNT]⟩ : Touch).le f = true) : Act.Within f (.startMove a0) := by
  refine Act.Within.mono ?_ hf
  unfold Act.startMove
  repeat'
    first
      | intro _ | refine And.intro ?_ ?_ | (with_reducible refine Act.within_each fun _ => ?_)
      | (with_reducible refine Act.within_when ?_) | (with_reducible refine Act.within_ite ?_ ?_) | split | simp +decide

@[simp] theorem Act.within_undoMove {f : Touch} (a0) (hf : (touchStore.join ⟨[.sdir], [.CHART_DRAIN, .SDIR_FREE,
    .SDIR_LOCKED, .SDIR_STATE_COUNT], [.SDIR_CRC_FAIL_COUNT]⟩ : Touch).le f = true) : Act.Within f (.undoMove a0) := by
  refine Act.Within.mono ?_ hf
  unfold Act.undoMove
  repeat'
    first
      | intro _ | refine And.intro ?_ ?_ | (with_reducible refine Act.within_each fun _ => ?_)
      | (with_reducible refine Act.within_when ?_) | (with_reducible refine Act.within_ite ?_ ?_) | split | simp +decide

@[simp] theorem Act.within_moveTag {f : Touch} (a0 a1) (hf : (⟨[.irq], [], [.SDIR_REFUSE_COUNT]⟩ : Touch).le f = true) :
    Act.Within f (.moveTag a0 a1) := by
  refine Act.Within.mono ?_ hf
  unfold Act.moveTag
  repeat'
    first
      | intro _ | refine And.intro ?_ ?_ | (with_reducible refine Act.within_each fun _ => ?_)
      | (with_reducible refine Act.within_when ?_) | (with_reducible refine Act.within_ite ?_ ?_) | split | simp +decide

@[simp] theorem Act.within_cancelMove {f : Touch} (a0 a1) (hf : (touchBerth.join ⟨[], [.CHART_DRAIN, .SDIR_LOCKED,
    .SDIR_STATE_COUNT], [.SDIR_CANCEL_COUNT, .SDIR_CRC_FAIL_COUNT]⟩ : Touch).le f = true) : Act.Within f (.cancelMove a0
    a1) := by
  refine Act.Within.mono ?_ hf
  unfold Act.cancelMove
  repeat'
    first
      | intro _ | refine And.intro ?_ ?_ | (with_reducible refine Act.within_each fun _ => ?_)
      | (with_reducible refine Act.within_when ?_) | (with_reducible refine Act.within_ite ?_ ?_) | split | simp +decide

@[simp] theorem Act.within_startLayup {f : Touch} (a0 a1 a2) (hf : (touchStore.join ⟨[.sdir], [.SDIR_LOCKED,
    .SDIR_STATE_COUNT], [.SDIR_CRC_FAIL_COUNT]⟩ : Touch).le f = true) : Act.Within f (.startLayup a0 a1 a2) := by
  refine Act.Within.mono ?_ hf
  unfold Act.startLayup
  repeat'
    first
      | intro _ | refine And.intro ?_ ?_ | (with_reducible refine Act.within_each fun _ => ?_)
      | (with_reducible refine Act.within_when ?_) | (with_reducible refine Act.within_ite ?_ ?_) | split | simp +decide

@[simp] theorem Act.within_startMooring {f : Touch} (a0 a1 a2) (hf : (touchStore.join ⟨[.sdir], [.SDIR_LOCKED,
    .SDIR_STATE_COUNT], [.SDIR_CRC_FAIL_COUNT]⟩ : Touch).le f = true) : Act.Within f (.startMooring a0 a1 a2) := by
  refine Act.Within.mono ?_ hf
  unfold Act.startMooring
  repeat'
    first
      | intro _ | refine And.intro ?_ ?_ | (with_reducible refine Act.within_each fun _ => ?_)
      | (with_reducible refine Act.within_when ?_) | (with_reducible refine Act.within_ite ?_ ?_) | split | simp +decide

theorem Act.within_moorOrLayup {f : Touch} (a0 a1 a2) (hf : (touchStore.join ⟨[.sdir], [.SDIR_LOCKED,
    .SDIR_STATE_COUNT], [.SDIR_CRC_FAIL_COUNT]⟩ : Touch).le f = true) (h2 : a2.Within f) : Act.Within f (.moorOrLayup a0
    a1 a2) := by
  unfold Act.moorOrLayup; try dsimp only
  repeat'
    first
      | (with_reducible exact h2) | intro _ | (with_reducible refine (Act.within_look _).2 fun _ => ?_)
      | (with_reducible exact Act.within_nil) | (with_reducible refine Act.within_when ?_)
      | (with_reducible refine Act.within_andThen_of ?_ ?_) | (with_reducible refine Act.within_cons_of ?_ ?_)
      | (with_reducible refine Act.within_ite ?_ ?_) | (with_reducible refine Act.within_each fun _ => ?_) | split
      | exact Act.Within.mono (f := (touchStore.join ⟨[.sdir], [.SDIR_LOCKED, .SDIR_STATE_COUNT], [.SDIR_CRC_FAIL_COUNT]⟩)) (by simp +decide) hf

@[simp] theorem Act.within_writeHeader {f : Touch} (a0 a1 a2) (hf : (touchStore : Touch).le f = true) : Act.Within f
    (.writeHeader a0 a1 a2) := by
  refine Act.Within.mono ?_ hf
  unfold Act.writeHeader
  repeat'
    first
      | intro _ | refine And.intro ?_ ?_ | (with_reducible refine Act.within_each fun _ => ?_)
      | (with_reducible refine Act.within_when ?_) | (with_reducible refine Act.within_ite ?_ ?_) | split | simp +decide

@[simp] theorem Act.within_chunkReports {f : Touch} (a0 a1 a2 a3) (hf : (⟨[.out], [], []⟩ : Touch).le f = true) :
    Act.Within f (.chunkReports a0 a1 a2 a3) := by
  refine Act.Within.mono ?_ hf
  unfold Act.chunkReports
  repeat'
    first
      | intro _ | refine And.intro ?_ ?_ | (with_reducible refine Act.within_each fun _ => ?_)
      | (with_reducible refine Act.within_when ?_) | (with_reducible refine Act.within_ite ?_ ?_) | split | simp +decide

@[simp] theorem Act.within_putTile {f : Touch} (a0 a1 a2 a3) (hf : (touchStore.join ⟨[.berth], [], []⟩ : Touch).le f =
    true) : Act.Within f (.putTile a0 a1 a2 a3) := by
  refine Act.Within.mono ?_ hf
  unfold Act.putTile
  repeat'
    first
      | intro _ | refine And.intro ?_ ?_ | (with_reducible refine Act.within_each fun _ => ?_)
      | (with_reducible refine Act.within_when ?_) | (with_reducible refine Act.within_ite ?_ ?_) | split | simp +decide

@[simp] theorem Act.within_patchTiles {f : Touch} (a0 a1 a2) (hf : (touchStore.join ⟨[.berth], [], []⟩ : Touch).le f =
    true) : Act.Within f (.patchTiles a0 a1 a2) := by
  refine Act.Within.mono ?_ hf
  unfold Act.patchTiles
  repeat'
    first
      | intro _ | refine And.intro ?_ ?_ | (with_reducible refine Act.within_each fun _ => ?_)
      | (with_reducible refine Act.within_when ?_) | (with_reducible refine Act.within_ite ?_ ?_) | split | simp +decide

@[simp] theorem Act.within_berthDone {f : Touch} (a0 a1) (hf : (⟨[.irq], [], [.BERTH_SPEC_REFUSE_COUNT]⟩ : Touch).le f =
    true) : Act.Within f (.berthDone a0 a1) := by
  refine Act.Within.mono ?_ hf
  unfold Act.berthDone
  repeat'
    first
      | intro _ | refine And.intro ?_ ?_ | (with_reducible refine Act.within_each fun _ => ?_)
      | (with_reducible refine Act.within_when ?_) | (with_reducible refine Act.within_ite ?_ ?_) | split | simp +decide

@[simp] theorem Act.within_shareLost {f : Touch} (a0 a1 a2) (hf : (touchRaise.join ⟨[], [], [.ERR_MANIFEST_FAIL_COUNT]⟩
    : Touch).le f = true) : Act.Within f (.shareLost a0 a1 a2) := by
  refine Act.Within.mono ?_ hf
  unfold Act.shareLost
  repeat'
    first
      | intro _ | refine And.intro ?_ ?_ | (with_reducible refine Act.within_each fun _ => ?_)
      | (with_reducible refine Act.within_when ?_) | (with_reducible refine Act.within_ite ?_ ?_) | split | simp +decide

theorem Act.within_berthTake {f : Touch} (a0 a1 a2) (hf : (touchRaise.join ⟨[.berth, .irq], [],
    [.BERTH_SPEC_REFUSE_COUNT]⟩ : Touch).le f = true) (h2 : ∀ x0, (a2 x0).Within f) : Act.Within f (.berthTake a0 a1 a2)
    := by
  unfold Act.berthTake; try dsimp only
  repeat'
    first
      | (with_reducible exact h2 _) | intro _ | (with_reducible refine (Act.within_look _).2 fun _ => ?_)
      | refine Act.within_takeEntry _ _ _ _ _ _ (Touch.le_trans (by decide) hf) ?_ ?_ (fun _ => ?_)
      | (with_reducible exact Act.within_nil) | (with_reducible refine Act.within_when ?_)
      | (with_reducible refine Act.within_andThen_of ?_ ?_) | (with_reducible refine Act.within_cons_of ?_ ?_)
      | (with_reducible refine Act.within_ite ?_ ?_) | (with_reducible refine Act.within_each fun _ => ?_) | split
      | exact Act.Within.mono (f := (touchRaise.join ⟨[.berth, .irq], [], [.BERTH_SPEC_REFUSE_COUNT]⟩)) (by simp +decide) hf

theorem Act.within_berthChecked {f : Touch} (a0 a1) (hf : (touchRaise.join ⟨[.irq], [], [.BERTH_GLOBAL_REFUSE_COUNT,
    .BERTH_SPEC_REFUSE_COUNT, .ERR_MANIFEST_FAIL_COUNT]⟩ : Touch).le f = true) (h1 : ∀ x0, (a1 x0).Within f) :
    Act.Within f (.berthChecked a0 a1) := by
  unfold Act.berthChecked; try dsimp only
  repeat'
    first
      | (with_reducible exact h1 _) | intro _ | (with_reducible refine (Act.within_look _).2 fun _ => ?_)
      | (with_reducible exact Act.within_nil) | (with_reducible refine Act.within_when ?_)
      | (with_reducible refine Act.within_andThen_of ?_ ?_) | (with_reducible refine Act.within_cons_of ?_ ?_)
      | (with_reducible refine Act.within_ite ?_ ?_) | (with_reducible refine Act.within_each fun _ => ?_) | split
      | exact Act.Within.mono (f := (touchRaise.join ⟨[.irq], [], [.BERTH_GLOBAL_REFUSE_COUNT, .BERTH_SPEC_REFUSE_COUNT, .ERR_MANIFEST_FAIL_COUNT]⟩)) (by simp +decide) hf

@[simp] theorem Act.within_clearBerth {f : Touch} (a0 a1) (hf : (touchStore.join ⟨[.berth], [], []⟩ : Touch).le f = true)
    : Act.Within f (.clearBerth a0 a1) := by
  refine Act.Within.mono ?_ hf
  unfold Act.clearBerth
  repeat'
    first
      | intro _ | refine And.intro ?_ ?_ | simp +decide [-List.reduceReplicate]

@[simp] theorem Act.within_specOrphan {f : Touch} (a0 a1) (hf : (touchStore.join ⟨[.mct], [], [.BERTH_SPEC_ORPHAN_COUNT,
    .ERR_MANIFEST_FAIL_COUNT]⟩ : Touch).le f = true) : Act.Within f (.specOrphan a0 a1) := by
  refine Act.Within.mono ?_ hf
  unfold Act.specOrphan
  repeat'
    first
      | intro _ | refine And.intro ?_ ?_ | (with_reducible refine Act.within_each fun _ => ?_)
      | (with_reducible refine Act.within_when ?_) | (with_reducible refine Act.within_ite ?_ ?_) | split | simp +decide

@[simp] theorem Act.within_withdraw {f : Touch} (a0 a1) (hf : (⟨[.berth, .out, .sdir], [.BERTH_WITHDRAWN, .SDIR_FREE],
    [.BERTH_WITHDRAW_COUNT]⟩ : Touch).le f = true) : Act.Within f (.withdraw a0 a1) := by
  refine Act.Within.mono ?_ hf
  unfold Act.withdraw
  repeat'
    first
      | intro _ | refine And.intro ?_ ?_ | (with_reducible refine Act.within_each fun _ => ?_)
      | (with_reducible refine Act.within_when ?_) | (with_reducible refine Act.within_ite ?_ ?_) | split | simp +decide

@[simp] theorem Act.within_chargeHistory {f : Touch} (a0 a1) (hf : (touchStore.join ⟨[.sdir], [], []⟩ : Touch).le f =
    true) : Act.Within f (.chargeHistory a0 a1) := by
  refine Act.Within.mono ?_ hf
  unfold Act.chargeHistory
  repeat'
    first
      | intro _ | refine And.intro ?_ ?_ | (with_reducible refine Act.within_each fun _ => ?_)
      | (with_reducible refine Act.within_when ?_) | (with_reducible refine Act.within_ite ?_ ?_) | split | simp +decide

@[simp] theorem Act.within_setEntry {f : Touch} (a0 a1 a2 a3) (hf : (⟨[.nand], [], []⟩ : Touch).le f = true) :
    Act.Within f (.setEntry a0 a1 a2 a3) := by
  refine Act.Within.mono ?_ hf
  unfold Act.setEntry
  repeat'
    first
      | intro _ | refine And.intro ?_ ?_ | (with_reducible refine Act.within_each fun _ => ?_)
      | (with_reducible refine Act.within_when ?_) | (with_reducible refine Act.within_ite ?_ ?_) | split | simp +decide

@[simp] theorem Act.within_modBlock {f : Touch} (a0 a1) (hf : (⟨[.flash], [], []⟩ : Touch).le f = true) : Act.Within f
    (.modBlock a0 a1) := by
  refine Act.Within.mono ?_ hf
  unfold Act.modBlock
  repeat'
    first
      | intro _ | refine And.intro ?_ ?_ | (with_reducible refine Act.within_each fun _ => ?_)
      | (with_reducible refine Act.within_when ?_) | (with_reducible refine Act.within_ite ?_ ?_) | split | simp +decide

@[simp] theorem Act.within_showFlash {f : Touch} (hf : (⟨[], [.FLASH_STATUS], []⟩ : Touch).le f = true) : Act.Within f
    .showFlash := by
  refine Act.Within.mono ?_ hf
  unfold Act.showFlash
  repeat'
    first
      | intro _ | refine And.intro ?_ ?_ | (with_reducible refine Act.within_each fun _ => ?_)
      | (with_reducible refine Act.within_when ?_) | (with_reducible refine Act.within_ite ?_ ?_) | split | simp +decide

@[simp] theorem Act.within_showBad {f : Touch} (a0) (hf : (⟨[], [.FLASH_LUN_STATUS], []⟩ : Touch).le f = true) :
    Act.Within f (.showBad a0) := by
  refine Act.Within.mono ?_ hf
  unfold Act.showBad
  repeat'
    first
      | intro _ | refine And.intro ?_ ?_ | (with_reducible refine Act.within_each fun _ => ?_)
      | (with_reducible refine Act.within_when ?_) | (with_reducible refine Act.within_ite ?_ ?_) | split | simp +decide

@[simp] theorem Act.within_blockBad {f : Touch} (a0 a1) (hf : (⟨[.nand], [.FLASH_LUN_STATUS], []⟩ : Touch).le f = true)
    : Act.Within f (.blockBad a0 a1) := by
  refine Act.Within.mono ?_ hf
  unfold Act.blockBad
  repeat'
    first
      | intro _ | refine And.intro ?_ ?_ | (with_reducible refine Act.within_each fun _ => ?_)
      | (with_reducible refine Act.within_when ?_) | (with_reducible refine Act.within_ite ?_ ?_) | split | simp +decide

@[simp] theorem Act.within_sweepBlocks {f : Touch} (hf : (⟨[.flash, .nand], [.FLASH_LUN_STATUS, .FLASH_STATUS], []⟩ :
    Touch).le f = true) : Act.Within f .sweepBlocks := by
  refine Act.Within.mono ?_ hf
  unfold Act.sweepBlocks
  repeat'
    first
      | intro _ | refine And.intro ?_ ?_ | (with_reducible refine Act.within_each fun _ => ?_)
      | (with_reducible refine Act.within_when ?_) | (with_reducible refine Act.within_ite ?_ ?_) | split | simp +decide

@[simp] theorem Act.within_onfi {f : Touch} (a0 a1) (hf : (⟨[.out], [], []⟩ : Touch).le f = true) : Act.Within f (.onfi
    a0 a1) := by
  refine Act.Within.mono ?_ hf
  unfold Act.onfi
  repeat'
    first
      | intro _ | refine And.intro ?_ ?_ | (with_reducible refine Act.within_each fun _ => ?_)
      | (with_reducible refine Act.within_when ?_) | (with_reducible refine Act.within_ite ?_ ?_) | split | simp +decide

@[simp] theorem Act.within_lunOp {f : Touch} (a0 a1 a2 a3 a4) (hf : (⟨[.flash], [], []⟩ : Touch).le f = true) :
    Act.Within f (.lunOp a0 a1 a2 a3 a4) := by
  refine Act.Within.mono ?_ hf
  unfold Act.lunOp
  repeat'
    first
      | intro _ | refine And.intro ?_ ?_ | (with_reducible refine Act.within_each fun _ => ?_)
      | (with_reducible refine Act.within_when ?_) | (with_reducible refine Act.within_ite ?_ ?_) | split | simp +decide

@[simp] theorem Act.within_lunNext {f : Touch} (a0) (hf : (⟨[.flash, .out], [], []⟩ : Touch).le f = true) : Act.Within f
    (.lunNext a0) := by
  refine Act.Within.mono ?_ hf
  unfold Act.lunNext
  repeat'
    first
      | intro _ | refine And.intro ?_ ?_ | (with_reducible refine Act.within_each fun _ => ?_)
      | (with_reducible refine Act.within_when ?_) | (with_reducible refine Act.within_ite ?_ ?_) | split | simp +decide

@[simp] theorem Act.within_lunsNext {f : Touch} (hf : (⟨[.flash, .out], [], []⟩ : Touch).le f = true) : Act.Within f
    .lunsNext := by
  refine Act.Within.mono ?_ hf
  unfold Act.lunsNext
  repeat'
    first
      | intro _ | refine And.intro ?_ ?_ | (with_reducible refine Act.within_each fun _ => ?_)
      | (with_reducible refine Act.within_when ?_) | (with_reducible refine Act.within_ite ?_ ?_) | split | simp +decide

@[simp] theorem Act.within_openIn {f : Touch} (a0 a1 a2 a3) (hf : (⟨[.flash, .nand], [], []⟩ : Touch).le f = true) :
    Act.Within f (.openIn a0 a1 a2 a3) := by
  refine Act.Within.mono ?_ hf
  unfold Act.openIn
  repeat'
    first
      | intro _ | refine And.intro ?_ ?_ | (with_reducible refine Act.within_each fun _ => ?_)
      | (with_reducible refine Act.within_when ?_) | (with_reducible refine Act.within_ite ?_ ?_) | split | simp +decide

@[simp] theorem Act.within_setFill {f : Touch} (a0 a1 a2) (hf : (⟨[.flash], [], []⟩ : Touch).le f = true) : Act.Within f
    (.setFill a0 a1 a2) := by
  refine Act.Within.mono ?_ hf
  unfold Act.setFill
  repeat'
    first
      | intro _ | refine And.intro ?_ ?_ | (with_reducible refine Act.within_each fun _ => ?_)
      | (with_reducible refine Act.within_when ?_) | (with_reducible refine Act.within_ite ?_ ?_) | split | simp +decide

@[simp] theorem Act.within_openStripe {f : Touch} (a0 a1 a2) (hf : (⟨[.flash, .nand], [], []⟩ : Touch).le f = true) :
    Act.Within f (.openStripe a0 a1 a2) := by
  refine Act.Within.mono ?_ hf
  unfold Act.openStripe
  repeat'
    first
      | intro _ | refine And.intro ?_ ?_ | (with_reducible refine Act.within_each fun _ => ?_)
      | (with_reducible refine Act.within_when ?_) | (with_reducible refine Act.within_ite ?_ ?_) | split | simp +decide

@[simp] theorem Act.within_placePage {f : Touch} (a0 a1 a2 a3) (hf : (⟨[.flash, .nand], [], []⟩ : Touch).le f = true) :
    Act.Within f (.placePage a0 a1 a2 a3) := by
  refine Act.Within.mono ?_ hf
  unfold Act.placePage
  repeat'
    first
      | intro _ | refine And.intro ?_ ?_ | (with_reducible refine Act.within_each fun _ => ?_)
      | (with_reducible refine Act.within_when ?_) | (with_reducible refine Act.within_ite ?_ ?_) | split | simp +decide

@[simp] theorem Act.within_closeStripe {f : Touch} (a0 a1 a2) (hf : (⟨[.flash, .nand], [], []⟩ : Touch).le f = true) :
    Act.Within f (.closeStripe a0 a1 a2) := by
  refine Act.Within.mono ?_ hf
  unfold Act.closeStripe
  repeat'
    first
      | intro _ | refine And.intro ?_ ?_ | (with_reducible refine Act.within_each fun _ => ?_)
      | (with_reducible refine Act.within_when ?_) | (with_reducible refine Act.within_ite ?_ ?_) | split | simp +decide [-List.reduceReplicate]

@[simp] theorem Act.within_fillStripes {f : Touch} (a0 a1) (hf : (⟨[.flash, .nand], [], []⟩ : Touch).le f = true) :
    Act.Within f (.fillStripes a0 a1) := by
  refine Act.Within.mono ?_ hf
  induction a1 with
  | zero => unfold Act.fillStripes; exact Act.within_done
  | succ n ih =>
    unfold Act.fillStripes
    repeat'
      first
        | (with_reducible exact ih) | intro _ | refine And.intro ?_ ?_ | (with_reducible refine Act.within_each fun _ => ?_)
        | (with_reducible refine Act.within_when ?_) | (with_reducible refine Act.within_ite ?_ ?_) | split | simp +decide

@[simp] theorem Act.within_flashGo {f : Touch} (hf : (⟨[.flash, .nand, .out], [.FLASH_STATUS], []⟩ : Touch).le f = true)
    : Act.Within f .flashGo := by
  refine Act.Within.mono ?_ hf
  unfold Act.flashGo
  repeat'
    first
      | intro _ | refine And.intro ?_ ?_ | (with_reducible refine Act.within_each fun _ => ?_)
      | (with_reducible refine Act.within_when ?_) | (with_reducible refine Act.within_ite ?_ ?_) | split | simp +decide

@[simp] theorem Act.within_stage {f : Touch} (a0 a1 a2) (hf : (⟨[.flash], [], []⟩ : Touch).le f = true) : Act.Within f
    (.stage a0 a1 a2) := by
  refine Act.Within.mono ?_ hf
  unfold Act.stage
  repeat'
    first
      | intro _ | refine And.intro ?_ ?_ | (with_reducible refine Act.within_each fun _ => ?_)
      | (with_reducible refine Act.within_when ?_) | (with_reducible refine Act.within_ite ?_ ?_) | split | simp +decide [-List.reduceReplicate]

@[simp] theorem Act.within_stageVersions {f : Touch} (a0 a1) (hf : (⟨[.flash], [], []⟩ : Touch).le f = true) :
    Act.Within f (.stageVersions a0 a1) := by
  refine Act.Within.mono ?_ hf
  unfold Act.stageVersions
  repeat'
    first
      | intro _ | refine And.intro ?_ ?_ | (with_reducible refine Act.within_each fun _ => ?_)
      | (with_reducible refine Act.within_when ?_) | (with_reducible refine Act.within_ite ?_ ?_) | split | simp +decide

@[simp] theorem Act.within_stagePage {f : Touch} (a0 a1 a2 a3) (hf : (⟨[.flash], [], []⟩ : Touch).le f = true) :
    Act.Within f (.stagePage a0 a1 a2 a3) := by
  refine Act.Within.mono ?_ hf
  unfold Act.stagePage
  repeat'
    first
      | intro _ | refine And.intro ?_ ?_ | (with_reducible refine Act.within_each fun _ => ?_)
      | (with_reducible refine Act.within_when ?_) | (with_reducible refine Act.within_ite ?_ ?_) | split | simp +decide

@[simp] theorem Act.within_restage {f : Touch} (a0 a1) (hf : (⟨[.flash], [], []⟩ : Touch).le f = true) : Act.Within f
    (.restage a0 a1) := by
  refine Act.Within.mono ?_ hf
  unfold Act.restage
  repeat'
    first
      | intro _ | refine And.intro ?_ ?_ | (with_reducible refine Act.within_each fun _ => ?_)
      | (with_reducible refine Act.within_when ?_) | (with_reducible refine Act.within_ite ?_ ?_) | split | simp +decide

@[simp] theorem Act.within_unplaced {f : Touch} (a0 a1) (hf : (⟨[.flash], [], []⟩ : Touch).le f = true) : Act.Within f
    (.unplaced a0 a1) := by
  refine Act.Within.mono ?_ hf
  unfold Act.unplaced
  repeat'
    first
      | intro _ | refine And.intro ?_ ?_ | (with_reducible refine Act.within_each fun _ => ?_)
      | (with_reducible refine Act.within_when ?_) | (with_reducible refine Act.within_ite ?_ ?_) | split | simp +decide

@[simp] theorem Act.within_stripeWritten {f : Touch} (a0) (hf : (touchStore.join ⟨[.flash], [], []⟩ : Touch).le f =
    true) : Act.Within f (.stripeWritten a0) := by
  refine Act.Within.mono ?_ hf
  unfold Act.stripeWritten
  repeat'
    first
      | intro _ | refine And.intro ?_ ?_ | (with_reducible refine Act.within_each fun _ => ?_)
      | (with_reducible refine Act.within_when ?_) | (with_reducible refine Act.within_ite ?_ ?_) | split | simp +decide

@[simp] theorem Act.within_closeGroup {f : Touch} (a0 a1 a2) (hf : (⟨[.flash], [], []⟩ : Touch).le f = true) :
    Act.Within f (.closeGroup a0 a1 a2) := by
  refine Act.Within.mono ?_ hf
  unfold Act.closeGroup
  repeat'
    first
      | intro _ | refine And.intro ?_ ?_ | (with_reducible refine Act.within_each fun _ => ?_)
      | (with_reducible refine Act.within_when ?_) | (with_reducible refine Act.within_ite ?_ ?_) | split | simp +decide

@[simp] theorem Act.within_flashWrite {f : Touch} (a0 a1 a2) (hf : (⟨[.flash, .nand, .out], [.FLASH_STATUS], []⟩ :
    Touch).le f = true) : Act.Within f (.flashWrite a0 a1 a2) := by
  refine Act.Within.mono ?_ hf
  unfold Act.flashWrite
  repeat'
    first
      | intro _ | refine And.intro ?_ ?_ | (with_reducible refine Act.within_each fun _ => ?_)
      | (with_reducible refine Act.within_when ?_) | (with_reducible refine Act.within_ite ?_ ?_) | split | simp +decide

@[simp] theorem Act.within_flashDrop {f : Touch} (a0) (hf : (touchStore.join ⟨[.flash, .nand], [.FLASH_LUN_STATUS,
    .FLASH_STATUS], []⟩ : Touch).le f = true) : Act.Within f (.flashDrop a0) := by
  refine Act.Within.mono ?_ hf
  unfold Act.flashDrop
  repeat'
    first
      | intro _ | refine And.intro ?_ ?_ | (with_reducible refine Act.within_each fun _ => ?_)
      | (with_reducible refine Act.within_when ?_) | (with_reducible refine Act.within_ite ?_ ?_) | split | simp +decide

@[simp] theorem Act.within_reconReads {f : Touch} (a0 a1 a2) (hf : (⟨[.flash], [], []⟩ : Touch).le f = true) :
    Act.Within f (.reconReads a0 a1 a2) := by
  refine Act.Within.mono ?_ hf
  unfold Act.reconReads
  repeat'
    first
      | intro _ | refine And.intro ?_ ?_ | (with_reducible refine Act.within_each fun _ => ?_)
      | (with_reducible refine Act.within_when ?_) | (with_reducible refine Act.within_ite ?_ ?_) | split | simp +decide

@[simp] theorem Act.within_readPage {f : Touch} (a0 a1) (hf : (⟨[.flash], [], []⟩ : Touch).le f = true) : Act.Within f
    (.readPage a0 a1) := by
  refine Act.Within.mono ?_ hf
  unfold Act.readPage
  repeat'
    first
      | intro _ | refine And.intro ?_ ?_ | (with_reducible refine Act.within_each fun _ => ?_)
      | (with_reducible refine Act.within_when ?_) | (with_reducible refine Act.within_ite ?_ ?_) | split | simp +decide

@[simp] theorem Act.within_flashRead {f : Touch} (a0) (hf : (⟨[.flash, .out], [], []⟩ : Touch).le f = true) : Act.Within
    f (.flashRead a0) := by
  refine Act.Within.mono ?_ hf
  unfold Act.flashRead
  repeat'
    first
      | intro _ | refine And.intro ?_ ?_ | (with_reducible refine Act.within_each fun _ => ?_)
      | (with_reducible refine Act.within_when ?_) | (with_reducible refine Act.within_ite ?_ ?_) | split | simp +decide

@[simp] theorem Act.within_relocate {f : Touch} (a0 a1) (hf : (⟨[.flash, .out], [], []⟩ : Touch).le f = true) :
    Act.Within f (.relocate a0 a1) := by
  refine Act.Within.mono ?_ hf
  unfold Act.relocate
  repeat'
    first
      | intro _ | refine And.intro ?_ ?_ | (with_reducible refine Act.within_each fun _ => ?_)
      | (with_reducible refine Act.within_when ?_) | (with_reducible refine Act.within_ite ?_ ?_) | split | simp +decide

@[simp] theorem Act.within_due {f : Touch} (a0) (hf : (⟨[.flash, .out], [], [.FLASH_REFRESH_COUNT]⟩ : Touch).le f =
    true) : Act.Within f (.due a0) := by
  refine Act.Within.mono ?_ hf
  unfold Act.due
  repeat'
    first
      | intro _ | refine And.intro ?_ ?_ | (with_reducible refine Act.within_each fun _ => ?_)
      | (with_reducible refine Act.within_when ?_) | (with_reducible refine Act.within_ite ?_ ?_) | split | simp +decide

@[simp] theorem Act.within_readServes {f : Touch} (a0 a1 a2 a3) (hf : (touchRaise.join ⟨[.flash, .nand],
    [.FLASH_LUN_STATUS, .FLASH_STATUS], [.FLASH_UNCORRECTABLE_COUNT]⟩ : Touch).le f = true) : Act.Within f (.readServes
    a0 a1 a2 a3) := by
  refine Act.Within.mono ?_ hf
  unfold Act.readServes
  repeat'
    first
      | intro _ | refine And.intro ?_ ?_ | (with_reducible refine Act.within_each fun _ => ?_)
      | (with_reducible refine Act.within_when ?_) | (with_reducible refine Act.within_ite ?_ ?_) | split | simp +decide

@[simp] theorem Act.within_stripesLost {f : Touch} (a0) (hf : (touchRaise.join ⟨[.flash], [],
    [.FLASH_STRIPE_LOST_COUNT]⟩ : Touch).le f = true) : Act.Within f (.stripesLost a0) := by
  refine Act.Within.mono ?_ hf
  unfold Act.stripesLost
  repeat'
    first
      | intro _ | refine And.intro ?_ ?_ | (with_reducible refine Act.within_each fun _ => ?_)
      | (with_reducible refine Act.within_when ?_) | (with_reducible refine Act.within_ite ?_ ?_) | split | simp +decide

@[simp] theorem Act.within_lunLeaves {f : Touch} (a0) (hf : (⟨[.flash], [.FLASH_LUN_STATUS], []⟩ : Touch).le f = true) :
    Act.Within f (.lunLeaves a0) := by
  refine Act.Within.mono ?_ hf
  unfold Act.lunLeaves
  repeat'
    first
      | intro _ | refine And.intro ?_ ?_ | (with_reducible refine Act.within_each fun _ => ?_)
      | (with_reducible refine Act.within_when ?_) | (with_reducible refine Act.within_ite ?_ ?_) | split | simp +decide

@[simp] theorem Act.within_lunFault {f : Touch} (a0) (hf : (touchRaise.join ⟨[.flash, .nand], [.FLASH_LUN_STATUS,
    .FLASH_STATUS], [.FLASH_STRIPE_LOST_COUNT]⟩ : Touch).le f = true) : Act.Within f (.lunFault a0) := by
  refine Act.Within.mono ?_ hf
  unfold Act.lunFault
  repeat'
    first
      | intro _ | refine And.intro ?_ ?_ | (with_reducible refine Act.within_each fun _ => ?_)
      | (with_reducible refine Act.within_when ?_) | (with_reducible refine Act.within_ite ?_ ?_) | split | simp +decide

@[simp] theorem Act.within_rebuildCheck {f : Touch} (hf : (⟨[.err, .flash, .nand, .out], [.FLASH_LUN_STATUS,
    .FLASH_STATUS], []⟩ : Touch).le f = true) : Act.Within f .rebuildCheck := by
  refine Act.Within.mono ?_ hf
  unfold Act.rebuildCheck
  repeat'
    first
      | intro _ | refine And.intro ?_ ?_ | (with_reducible refine Act.within_each fun _ => ?_)
      | (with_reducible refine Act.within_when ?_) | (with_reducible refine Act.within_ite ?_ ?_) | split | simp +decide

@[simp] theorem Act.within_writeHost {f : Touch} (a0 a1) (hf : (⟨[.hostMem], [], []⟩ : Touch).le f = true) : Act.Within
    f (.writeHost a0 a1) := by
  refine Act.Within.mono ?_ hf
  unfold Act.writeHost
  repeat'
    first
      | intro _ | refine And.intro ?_ ?_ | (with_reducible refine Act.within_each fun _ => ?_)
      | (with_reducible refine Act.within_when ?_) | (with_reducible refine Act.within_ite ?_ ?_) | split | simp +decide

@[simp] theorem Act.within_modRing {f : Touch} (a0 a1) (hf : (⟨[.host], [], []⟩ : Touch).le f = true) : Act.Within f
    (.modRing a0 a1) := by
  refine Act.Within.mono ?_ hf
  unfold Act.modRing
  repeat'
    first
      | intro _ | refine And.intro ?_ ?_ | (with_reducible refine Act.within_each fun _ => ?_)
      | (with_reducible refine Act.within_when ?_) | (with_reducible refine Act.within_ite ?_ ?_) | split | simp +decide

@[simp] theorem Act.within_ringState {f : Touch} (a0 a1) (hf : (⟨[.host, .hostMem], [], []⟩ : Touch).le f = true) :
    Act.Within f (.ringState a0 a1) := by
  refine Act.Within.mono ?_ hf
  unfold Act.ringState
  repeat'
    first
      | intro _ | refine And.intro ?_ ?_ | (with_reducible refine Act.within_each fun _ => ?_)
      | (with_reducible refine Act.within_when ?_) | (with_reducible refine Act.within_ite ?_ ?_) | split | simp +decide

@[simp] theorem Act.within_hostEntry {f : Touch} (a0) (hf : (⟨[.host], [], []⟩ : Touch).le f = true) : Act.Within f
    (.hostEntry a0) := by
  refine Act.Within.mono ?_ hf
  unfold Act.hostEntry
  repeat'
    first
      | intro _ | refine And.intro ?_ ?_ | (with_reducible refine Act.within_each fun _ => ?_)
      | (with_reducible refine Act.within_when ?_) | (with_reducible refine Act.within_ite ?_ ?_) | split | simp +decide

@[simp] theorem Act.within_endRequest {f : Touch} (a0 a1 a2) (hf : (⟨[.host], [], []⟩ : Touch).le f = true) : Act.Within
    f (.endRequest a0 a1 a2) := by
  refine Act.Within.mono ?_ hf
  unfold Act.endRequest
  repeat'
    first
      | intro _ | refine And.intro ?_ ?_ | (with_reducible refine Act.within_each fun _ => ?_)
      | (with_reducible refine Act.within_when ?_) | (with_reducible refine Act.within_ite ?_ ?_) | split | simp +decide

@[simp] theorem Act.within_showEmpty {f : Touch} (a0 a1) (hf : (⟨[.host, .out], [.HOST_CXL_WIN, .HOST_EVENT, .HOST_WIN],
    []⟩ : Touch).le f = true) : Act.Within f (.showEmpty a0 a1) := by
  refine Act.Within.mono ?_ hf
  unfold Act.showEmpty
  repeat'
    first
      | intro _ | refine And.intro ?_ ?_ | (with_reducible refine Act.within_each fun _ => ?_)
      | (with_reducible refine Act.within_when ?_) | (with_reducible refine Act.within_ite ?_ ?_) | split | simp +decide

theorem Act.within_writeRecord {f : Touch} (a0 a1) (hf : (⟨[.host, .hostMem], [], []⟩ : Touch).le f = true) (h1 : ∀ x0,
    (a1 x0).Within f) : Act.Within f (.writeRecord a0 a1) := by
  unfold Act.writeRecord; try dsimp only
  repeat'
    first
      | (with_reducible exact h1 _) | intro _ | (with_reducible refine (Act.within_look _).2 fun _ => ?_)
      | (with_reducible exact Act.within_nil) | (with_reducible refine Act.within_when ?_)
      | (with_reducible refine Act.within_andThen_of ?_ ?_) | (with_reducible refine Act.within_cons_of ?_ ?_)
      | (with_reducible refine Act.within_ite ?_ ?_) | (with_reducible refine Act.within_each fun _ => ?_) | split
      | exact Act.Within.mono (f := (⟨[.host, .hostMem], [], []⟩)) (by simp +decide) hf

@[simp] theorem Act.within_quiesce {f : Touch} (a0) (hf : (⟨[.host, .hostMem, .out], [.HOST_EVENT], []⟩ : Touch).le f =
    true) : Act.Within f (.quiesce a0) := by
  refine Act.Within.mono ?_ hf
  unfold Act.quiesce
  repeat'
    first
      | intro _ | refine And.intro ?_ ?_ | (with_reducible refine Act.within_each fun _ => ?_)
      | (with_reducible refine Act.within_when ?_) | (with_reducible refine Act.within_ite ?_ ?_) | split | simp +decide

@[simp] theorem Act.within_takeRequest {f : Touch} (a0 a1) (hf : (⟨[.host], [], []⟩ : Touch).le f = true) : Act.Within f
    (.takeRequest a0 a1) := by
  refine Act.Within.mono ?_ hf
  unfold Act.takeRequest
  repeat'
    first
      | intro _ | refine And.intro ?_ ?_ | (with_reducible refine Act.within_each fun _ => ?_)
      | (with_reducible refine Act.within_when ?_) | (with_reducible refine Act.within_ite ?_ ?_) | split | simp +decide

theorem Act.within_pollEntries {f : Touch} (a0 a1 a2) (hf : (⟨[.host], [], [.HOST_ENTRY_CRC_COUNT]⟩ : Touch).le f =
    true) (h1 : a1.Within f) : Act.Within f (.pollEntries a0 a1 a2) := by
  induction a2 with
  | zero => unfold Act.pollEntries; exact Act.within_done
  | succ n ih =>
    unfold Act.pollEntries; try dsimp only
    repeat'
      first
        | (with_reducible exact ih) | (with_reducible exact h1) | intro _ | (with_reducible refine (Act.within_look _).2 fun _ => ?_)
        | (with_reducible exact Act.within_nil) | (with_reducible refine Act.within_when ?_)
        | (with_reducible refine Act.within_andThen_of ?_ ?_) | (with_reducible refine Act.within_cons_of ?_ ?_)
        | (with_reducible refine Act.within_ite ?_ ?_) | (with_reducible refine Act.within_each fun _ => ?_) | split
        | exact Act.Within.mono (f := (⟨[.host], [], [.HOST_ENTRY_CRC_COUNT]⟩)) (by simp +decide) hf

@[simp] theorem Act.within_showPoll {f : Touch} (a0) (hf : (⟨[.hostMem], [], []⟩ : Touch).le f = true) : Act.Within f
    (.showPoll a0) := by
  refine Act.Within.mono ?_ hf
  unfold Act.showPoll
  repeat'
    first
      | intro _ | refine And.intro ?_ ?_ | (with_reducible refine Act.within_each fun _ => ?_)
      | (with_reducible refine Act.within_when ?_) | (with_reducible refine Act.within_ite ?_ ?_) | split | simp +decide

@[simp] theorem Act.within_placeEntry {f : Touch} (a0) (hf : (⟨[.host, .hostMem], [], []⟩ : Touch).le f = true) :
    Act.Within f (.placeEntry a0) := by
  refine Act.Within.mono ?_ hf
  unfold Act.placeEntry
  repeat'
    first
      | intro _ | refine And.intro ?_ ?_ | (with_reducible refine Act.within_each fun _ => ?_)
      | (with_reducible refine Act.within_when ?_) | (with_reducible refine Act.within_ite ?_ ?_) | split | simp +decide

@[simp] theorem Act.within_writeEntry {f : Touch} (a0) (hf : (⟨[.host, .hostMem, .out], [.HOST_EVENT], []⟩ : Touch).le f
    = true) : Act.Within f (.writeEntry a0) := by
  refine Act.Within.mono ?_ hf
  unfold Act.writeEntry
  repeat'
    first
      | intro _ | refine And.intro ?_ ?_ | (with_reducible refine Act.within_each fun _ => ?_)
      | refine Act.within_writeRecord _ _ (by decide) (fun _ => ?_)
      | (with_reducible refine Act.within_when ?_) | (with_reducible refine Act.within_ite ?_ ?_) | split | simp +decide

@[simp] theorem Act.within_showFerry {f : Touch} (a0) (hf : (⟨[], [.FERRY_STATUS], []⟩ : Touch).le f = true) :
    Act.Within f (.showFerry a0) := by
  refine Act.Within.mono ?_ hf
  unfold Act.showFerry
  repeat'
    first
      | intro _ | refine And.intro ?_ ?_ | (with_reducible refine Act.within_each fun _ => ?_)
      | (with_reducible refine Act.within_when ?_) | (with_reducible refine Act.within_ite ?_ ?_) | split | simp +decide

@[simp] theorem Act.within_setXfer {f : Touch} (a0) (hf : (⟨[.tier], [], []⟩ : Touch).le f = true) : Act.Within f
    (.setXfer a0) := by
  refine Act.Within.mono ?_ hf
  unfold Act.setXfer
  repeat'
    first
      | intro _ | refine And.intro ?_ ?_ | (with_reducible refine Act.within_each fun _ => ?_)
      | (with_reducible refine Act.within_when ?_) | (with_reducible refine Act.within_ite ?_ ?_) | split | simp +decide

@[simp] theorem Act.within_modGrants {f : Touch} (a0 a1) (hf : (⟨[.tier], [], []⟩ : Touch).le f = true) : Act.Within f
    (.modGrants a0 a1) := by
  refine Act.Within.mono ?_ hf
  unfold Act.modGrants
  repeat'
    first
      | intro _ | refine And.intro ?_ ?_ | (with_reducible refine Act.within_each fun _ => ?_)
      | (with_reducible refine Act.within_when ?_) | (with_reducible refine Act.within_ite ?_ ?_) | split | simp +decide

@[simp] theorem Act.within_dropXfer {f : Touch} (a0) (hf : (⟨[.irq, .mct, .tier], [.BOLL_COUNT, .FERRY_STATUS], []⟩ :
    Touch).le f = true) : Act.Within f (.dropXfer a0) := by
  refine Act.Within.mono ?_ hf
  unfold Act.dropXfer
  repeat'
    first
      | intro _ | refine And.intro ?_ ?_ | (with_reducible refine Act.within_each fun _ => ?_)
      | (with_reducible refine Act.within_when ?_) | (with_reducible refine Act.within_ite ?_ ?_) | split | simp +decide

@[simp] theorem Act.within_ferryStatus {f : Touch} (a0 a1 a2) (hf : (touchRaise.join ⟨[], [], [.FERRY_LATE_COUNT,
    .FERRY_MANIFEST_FAIL_COUNT, .FERRY_READ_FAIL_COUNT, .FERRY_REJECT_COUNT, .FERRY_WRITE_FAIL_COUNT]⟩ : Touch).le f =
    true) : Act.Within f (.ferryStatus a0 a1 a2) := by
  refine Act.Within.mono ?_ hf
  unfold Act.ferryStatus
  repeat'
    first
      | intro _ | refine And.intro ?_ ?_ | (with_reducible refine Act.within_each fun _ => ?_)
      | (with_reducible refine Act.within_when ?_) | (with_reducible refine Act.within_ite ?_ ?_) | split | simp +decide

@[simp] theorem Act.within_freeHost {f : Touch} (a0 a1) (hf : (⟨[.free, .hostMem], [], []⟩ : Touch).le f = true) :
    Act.Within f (.freeHost a0 a1) := by
  refine Act.Within.mono ?_ hf
  unfold Act.freeHost
  repeat'
    first
      | intro _ | refine And.intro ?_ ?_ | (with_reducible refine Act.within_each fun _ => ?_)
      | (with_reducible refine Act.within_when ?_) | (with_reducible refine Act.within_ite ?_ ?_) | split | simp +decide

@[simp] theorem Act.within_freeDest {f : Touch} (a0) (hf : (touchStore.join ⟨[.free, .hostMem, .ls], [], []⟩ : Touch).le
    f = true) : Act.Within f (.freeDest a0) := by
  refine Act.Within.mono ?_ hf
  unfold Act.freeDest
  repeat'
    first
      | intro _ | refine And.intro ?_ ?_ | (with_reducible refine Act.within_each fun _ => ?_)
      | (with_reducible refine Act.within_when ?_) | (with_reducible refine Act.within_ite ?_ ?_) | split | simp +decide

@[simp] theorem Act.within_ferryEnds {f : Touch} (a0 a1 a2) (hf : (touchTransfer : Touch).le f = true) : Act.Within f
    (.ferryEnds a0 a1 a2) := by
  refine Act.Within.mono ?_ hf
  unfold Act.ferryEnds
  repeat'
    first
      | intro _ | refine And.intro ?_ ?_ | (with_reducible refine Act.within_each fun _ => ?_)
      | (with_reducible refine Act.within_when ?_) | (with_reducible refine Act.within_ite ?_ ?_) | split | simp +decide

@[simp] theorem Act.within_xferFails {f : Touch} (a0 a1) (hf : ((touchTransfer.join touchStore).join ⟨[.free, .hostMem,
    .ls, .mct, .tier], [.FERRY_STATUS], [.ERR_MANIFEST_FAIL_COUNT]⟩ : Touch).le f = true) : Act.Within f (.xferFails a0
    a1) := by
  refine Act.Within.mono ?_ hf
  unfold Act.xferFails
  repeat'
    first
      | intro _ | refine And.intro ?_ ?_ | (with_reducible refine Act.within_each fun _ => ?_)
      | (with_reducible refine Act.within_when ?_) | (with_reducible refine Act.within_ite ?_ ?_) | split | simp +decide

@[simp] theorem Act.within_ferryLost {f : Touch} (a0 a1 a2) (hf : (touchRaise : Touch).le f = true) : Act.Within f
    (.ferryLost a0 a1 a2) := by
  refine Act.Within.mono ?_ hf
  unfold Act.ferryLost
  repeat'
    first
      | intro _ | refine And.intro ?_ ?_ | (with_reducible refine Act.within_each fun _ => ?_)
      | (with_reducible refine Act.within_when ?_) | (with_reducible refine Act.within_ite ?_ ?_) | split | simp +decide

@[simp] theorem Act.within_ferryWrite {f : Touch} (a0 a1 a2) (hf : (touchStore.join ⟨[.berth, .hostMem, .ls], [], []⟩ :
    Touch).le f = true) : Act.Within f (.ferryWrite a0 a1 a2) := by
  refine Act.Within.mono ?_ hf
  unfold Act.ferryWrite
  repeat'
    first
      | intro _ | refine And.intro ?_ ?_ | (with_reducible refine Act.within_each fun _ => ?_)
      | (with_reducible refine Act.within_when ?_) | (with_reducible refine Act.within_ite ?_ ?_) | split | simp +decide

@[simp] theorem Act.within_showMoor {f : Touch} (hf : (⟨[.tier], [.TIER_MOOR_STATUS], []⟩ : Touch).le f = true) :
    Act.Within f .showMoor := by
  refine Act.Within.mono ?_ hf
  unfold Act.showMoor
  repeat'
    first
      | intro _ | refine And.intro ?_ ?_ | (with_reducible refine Act.within_each fun _ => ?_)
      | (with_reducible refine Act.within_when ?_) | (with_reducible refine Act.within_ite ?_ ?_) | split | simp +decide

@[simp] theorem Act.within_mapImage {f : Touch} (a0 a1) (hf : (⟨[.tier], [], []⟩ : Touch).le f = true) : Act.Within f
    (.mapImage a0 a1) := by
  refine Act.Within.mono ?_ hf
  unfold Act.mapImage
  repeat'
    first
      | intro _ | refine And.intro ?_ ?_ | (with_reducible refine Act.within_each fun _ => ?_)
      | (with_reducible refine Act.within_when ?_) | (with_reducible refine Act.within_ite ?_ ?_) | split | simp +decide

@[simp] theorem Act.within_putImage {f : Touch} (a0 a1 a2 a3) (hf : (⟨[.flash, .host, .hostMem, .nand, .out, .tier],
    [.FLASH_STATUS, .HOST_CXL_WIN, .HOST_EVENT, .HOST_WIN, .TIER_MOOR_STATUS], []⟩ : Touch).le f = true) : Act.Within f
    (.putImage a0 a1 a2 a3) := by
  refine Act.Within.mono ?_ hf
  unfold Act.putImage
  repeat'
    first
      | intro _ | refine And.intro ?_ ?_ | (with_reducible refine Act.within_each fun _ => ?_)
      | (with_reducible refine Act.within_when ?_) | (with_reducible refine Act.within_ite ?_ ?_) | split | simp +decide

@[simp] theorem Act.within_dropImage {f : Touch} (a0) (hf : (touchImage : Touch).le f = true) : Act.Within f (.dropImage
    a0) := by
  refine Act.Within.mono ?_ hf
  unfold Act.dropImage
  repeat'
    first
      | intro _ | refine And.intro ?_ ?_ | (with_reducible refine Act.within_each fun _ => ?_)
      | (with_reducible refine Act.within_when ?_) | (with_reducible refine Act.within_ite ?_ ?_) | split | simp +decide

@[simp] theorem Act.within_storeHistory {f : Touch} (a0 a1 a2) (hf : (⟨[.flash, .nand, .out, .tier], [.FLASH_STATUS],
    []⟩ : Touch).le f = true) : Act.Within f (.storeHistory a0 a1 a2) := by
  refine Act.Within.mono ?_ hf
  unfold Act.storeHistory
  repeat'
    first
      | intro _ | refine And.intro ?_ ?_ | (with_reducible refine Act.within_each fun _ => ?_)
      | (with_reducible refine Act.within_when ?_) | (with_reducible refine Act.within_ite ?_ ?_) | split | simp +decide

@[simp] theorem Act.within_dropHistory {f : Touch} (a0) (hf : (touchStore.join ⟨[.flash, .nand, .tier],
    [.FLASH_LUN_STATUS, .FLASH_STATUS], []⟩ : Touch).le f = true) : Act.Within f (.dropHistory a0) := by
  refine Act.Within.mono ?_ hf
  unfold Act.dropHistory
  repeat'
    first
      | intro _ | refine And.intro ?_ ?_ | (with_reducible refine Act.within_each fun _ => ?_)
      | (with_reducible refine Act.within_when ?_) | (with_reducible refine Act.within_ite ?_ ?_) | split | simp +decide

@[simp] theorem Act.within_setShare {f : Touch} (a0) (hf : (⟨[.tier], [], []⟩ : Touch).le f = true) : Act.Within f
    (.setShare a0) := by
  refine Act.Within.mono ?_ hf
  unfold Act.setShare
  repeat'
    first
      | intro _ | refine And.intro ?_ ?_ | (with_reducible refine Act.within_each fun _ => ?_)
      | (with_reducible refine Act.within_when ?_) | (with_reducible refine Act.within_ite ?_ ?_) | split | simp +decide

@[simp] theorem Act.within_shareCancel {f : Touch} (a0) (hf : (⟨[.irq, .mct, .tier], [.BOLL_COUNT, .CHART_DRAIN,
    .FERRY_STATUS, .TIER_MOOR_STATUS], []⟩ : Touch).le f = true) : Act.Within f (.shareCancel a0) := by
  refine Act.Within.mono ?_ hf
  unfold Act.shareCancel
  repeat'
    first
      | intro _ | refine And.intro ?_ ?_ | (with_reducible refine Act.within_each fun _ => ?_)
      | (with_reducible refine Act.within_when ?_) | (with_reducible refine Act.within_ite ?_ ?_) | split | simp +decide

@[simp] theorem Act.within_shareEnds {f : Touch} (a0 a1 a2 a3 a4 a5) (hf : (⟨[.irq, .mct, .out, .tier], [.BOLL_COUNT,
    .CHART_DRAIN, .FERRY_STATUS, .TIER_MOOR_STATUS], [.TIER_NO_SPACE_COUNT]⟩ : Touch).le f = true) : Act.Within f
    (.shareEnds a0 a1 a2 a3 a4 a5) := by
  refine Act.Within.mono ?_ hf
  unfold Act.shareEnds
  repeat'
    first
      | intro _ | refine And.intro ?_ ?_ | (with_reducible refine Act.within_each fun _ => ?_)
      | (with_reducible refine Act.within_when ?_) | (with_reducible refine Act.within_ite ?_ ?_) | split | simp +decide

@[simp] theorem Act.within_ferryRetire {f : Touch} (a0) (hf : ((touchTransfer.join touchStore).join ⟨[.free, .hostMem,
    .ls, .mct, .tier], [.CHART_DRAIN, .FERRY_STATUS, .TIER_MOOR_STATUS], [.TIER_NO_SPACE_COUNT]⟩ : Touch).le f = true) :
    Act.Within f (.ferryRetire a0) := by
  refine Act.Within.mono ?_ hf
  unfold Act.ferryRetire
  repeat'
    first
      | intro _ | refine And.intro ?_ ?_ | (with_reducible refine Act.within_each fun _ => ?_)
      | (with_reducible refine Act.within_when ?_) | (with_reducible refine Act.within_ite ?_ ?_) | split | simp +decide

@[simp] theorem Act.within_codecNote {f : Touch} (a0 a1 a2 a3) (hf : (⟨[.tier], [], [.TIER_CODEC_TENSION_COUNT,
    .TIER_STORED_COUNT]⟩ : Touch).le f = true) : Act.Within f (.codecNote a0 a1 a2 a3) := by
  refine Act.Within.mono ?_ hf
  unfold Act.codecNote
  repeat'
    first
      | intro _ | refine And.intro ?_ ?_ | (with_reducible refine Act.within_each fun _ => ?_)
      | (with_reducible refine Act.within_when ?_) | (with_reducible refine Act.within_ite ?_ ?_) | split | simp +decide

@[simp] theorem Act.within_grantFor {f : Touch} (a0 a1 a2) (hf : (⟨[.tier], [], []⟩ : Touch).le f = true) : Act.Within f
    (.grantFor a0 a1 a2) := by
  refine Act.Within.mono ?_ hf
  induction a2 with
  | zero => unfold Act.grantFor; exact Act.within_done
  | succ n ih =>
    unfold Act.grantFor
    repeat'
      first
        | (with_reducible exact ih) | intro _ | refine And.intro ?_ ?_ | (with_reducible refine Act.within_each fun _ => ?_)
        | (with_reducible refine Act.within_when ?_) | (with_reducible refine Act.within_ite ?_ ?_) | split | simp +decide

@[simp] theorem Act.within_tileMoved {f : Touch} (a0 a1) (hf : (⟨[.irq, .mct, .tier], [.BOLL_COUNT, .FERRY_STATUS], []⟩
    : Touch).le f = true) : Act.Within f (.tileMoved a0 a1) := by
  refine Act.Within.mono ?_ hf
  unfold Act.tileMoved
  repeat'
    first
      | intro _ | refine And.intro ?_ ?_ | (with_reducible refine Act.within_each fun _ => ?_)
      | (with_reducible refine Act.within_when ?_) | (with_reducible refine Act.within_ite ?_ ?_) | split | simp +decide

@[simp] theorem Act.within_queueFull {f : Touch} (c e) (hf : (touchRaise.join ⟨[], [], [c]⟩ : Touch).le f = true) :
    Act.Within f (.queueFull c e) := by
  refine Act.Within.mono ?_ hf
  exact Act.within_andThen_of (Act.within_count _ (by simp [Touch.join])) (Act.within_raise _ _ rfl)

@[simp] theorem Act.within_submitSdir {f : Touch} (a0) (hf : (touchRaise.join ⟨[.sdir], [], [.SDIR_QUEUE_FULL_COUNT]⟩ :
    Touch).le f = true) : Act.Within f (.submitSdir a0) := by
  refine Act.Within.mono ?_ hf
  unfold Act.submitSdir
  repeat'
    first
      | intro _ | refine And.intro ?_ ?_ | (with_reducible refine Act.within_each fun _ => ?_)
      | (with_reducible refine Act.within_when ?_) | (with_reducible refine Act.within_ite ?_ ?_) | split | simp +decide

@[simp] theorem Act.within_submitBerth {f : Touch} (a0) (hf : (touchRaise.join ⟨[.berth], [], [.BERTH_QUEUE_FULL_COUNT]⟩
    : Touch).le f = true) : Act.Within f (.submitBerth a0) := by
  refine Act.Within.mono ?_ hf
  unfold Act.submitBerth
  repeat'
    first
      | intro _ | refine And.intro ?_ ?_ | (with_reducible refine Act.within_each fun _ => ?_)
      | (with_reducible refine Act.within_when ?_) | (with_reducible refine Act.within_ite ?_ ?_) | split | simp +decide

@[simp] theorem Act.within_submitNmu {f : Touch} (a0) (hf : (touchRaise.join ⟨[.nmu], [.NMU_STATUS],
    [.NMU_QUEUE_FULL_COUNT]⟩ : Touch).le f = true) : Act.Within f (.submitNmu a0) := by
  refine Act.Within.mono ?_ hf
  unfold Act.submitNmu
  repeat'
    first
      | intro _ | refine And.intro ?_ ?_ | (with_reducible refine Act.within_each fun _ => ?_)
      | (with_reducible refine Act.within_when ?_) | (with_reducible refine Act.within_ite ?_ ?_) | split | simp +decide

@[simp] theorem Act.within_submitText {f : Touch} (a0) (hf : (touchRaise.join ⟨[.text], [.TEXT_STATUS],
    [.TEXT_QUEUE_FULL_COUNT]⟩ : Touch).le f = true) : Act.Within f (.submitText a0) := by
  refine Act.Within.mono ?_ hf
  unfold Act.submitText
  repeat'
    first
      | intro _ | refine And.intro ?_ ?_ | (with_reducible refine Act.within_each fun _ => ?_)
      | (with_reducible refine Act.within_when ?_) | (with_reducible refine Act.within_ite ?_ ?_) | split | simp +decide

@[simp] theorem Act.within_submitSamp {f : Touch} (a0) (hf : (touchRaise.join ⟨[.sealer], [.SAMP_STATUS],
    [.SAMP_QUEUE_FULL_COUNT]⟩ : Touch).le f = true) : Act.Within f (.submitSamp a0) := by
  refine Act.Within.mono ?_ hf
  unfold Act.submitSamp
  repeat'
    first
      | intro _ | refine And.intro ?_ ?_ | (with_reducible refine Act.within_each fun _ => ?_)
      | (with_reducible refine Act.within_when ?_) | (with_reducible refine Act.within_ite ?_ ?_) | split | simp +decide

@[simp] theorem Act.within_submitSeal {f : Touch} (a0) (hf : (touchRaise.join ⟨[.sealer], [], [.SEAL_QUEUE_FULL_COUNT]⟩
    : Touch).le f = true) : Act.Within f (.submitSeal a0) := by
  refine Act.Within.mono ?_ hf
  unfold Act.submitSeal
  repeat'
    first
      | intro _ | refine And.intro ?_ ?_ | (with_reducible refine Act.within_each fun _ => ?_)
      | (with_reducible refine Act.within_when ?_) | (with_reducible refine Act.within_ite ?_ ?_) | split | simp +decide

@[simp] theorem Act.within_submitRcl {f : Touch} (a0) (hf : (touchRaise.join ⟨[.rcl], [.RCL_STATUS],
    [.RCL_QUEUE_FULL_COUNT]⟩ : Touch).le f = true) : Act.Within f (.submitRcl a0) := by
  refine Act.Within.mono ?_ hf
  unfold Act.submitRcl
  repeat'
    first
      | intro _ | refine And.intro ?_ ?_ | (with_reducible refine Act.within_each fun _ => ?_)
      | (with_reducible refine Act.within_when ?_) | (with_reducible refine Act.within_ite ?_ ?_) | split | simp +decide

@[simp] theorem Act.within_ferryRefuse {f : Touch} (a0 a1 a2) (hf : (touchTransfer.join ⟨[], [.FERRY_STATUS], []⟩ :
    Touch).le f = true) : Act.Within f (.ferryRefuse a0 a1 a2) := by
  refine Act.Within.mono ?_ hf
  unfold Act.ferryRefuse
  repeat'
    first
      | intro _ | refine And.intro ?_ ?_ | (with_reducible refine Act.within_each fun _ => ?_)
      | (with_reducible refine Act.within_when ?_) | (with_reducible refine Act.within_ite ?_ ?_) | split | simp +decide

@[simp] theorem Act.within_submitFerry {f : Touch} (a0 a1) (hf : (touchTransfer.join ⟨[.tier], [.FERRY_STATUS],
    [.FERRY_QUEUE_FULL_COUNT]⟩ : Touch).le f = true) : Act.Within f (.submitFerry a0 a1) := by
  refine Act.Within.mono ?_ hf
  unfold Act.submitFerry
  repeat'
    first
      | intro _ | refine And.intro ?_ ?_ | (with_reducible refine Act.within_each fun _ => ?_)
      | (with_reducible refine Act.within_when ?_) | (with_reducible refine Act.within_ite ?_ ?_) | split | simp +decide

@[simp] theorem Act.within_submitNow {f : Touch} (a0 a1 a2) (hf : (touchTransfer.join ⟨[.berth, .nmu, .rcl, .sdir,
    .sealer, .text, .tier], [.FERRY_STATUS, .NMU_STATUS, .RCL_STATUS, .SAMP_STATUS, .TEXT_STATUS],
    [.BERTH_QUEUE_FULL_COUNT, .FERRY_QUEUE_FULL_COUNT, .NMU_QUEUE_FULL_COUNT, .RCL_QUEUE_FULL_COUNT,
    .SAMP_QUEUE_FULL_COUNT, .SDIR_QUEUE_FULL_COUNT, .SEAL_QUEUE_FULL_COUNT, .TEXT_QUEUE_FULL_COUNT]⟩ : Touch).le f =
    true) : Act.Within f (.submitNow a0 a1 a2) := by
  refine Act.Within.mono ?_ hf
  unfold Act.submitNow
  repeat'
    first
      | intro _ | refine And.intro ?_ ?_ | (with_reducible refine Act.within_each fun _ => ?_)
      | (with_reducible refine Act.within_when ?_) | (with_reducible refine Act.within_ite ?_ ?_) | split | simp +decide

@[simp] theorem Act.within_submit {f : Touch} (a0 a1 a2) (hf : (touchSubmit : Touch).le f = true) : Act.Within f
    (.submit a0 a1 a2) := by
  refine Act.Within.mono ?_ hf
  unfold Act.submit
  repeat'
    first
      | intro _ | refine And.intro ?_ ?_ | (with_reducible refine Act.within_each fun _ => ?_)
      | (with_reducible refine Act.within_when ?_) | (with_reducible refine Act.within_ite ?_ ?_) | split | simp +decide

@[simp] theorem Act.within_releaseSubmits {f : Touch} (hf : (touchSubmit : Touch).le f = true) : Act.Within f
    .releaseSubmits := by
  refine Act.Within.mono ?_ hf
  unfold Act.releaseSubmits
  repeat'
    first
      | intro _ | refine And.intro ?_ ?_ | (with_reducible refine Act.within_each fun _ => ?_)
      | (with_reducible refine Act.within_when ?_) | (with_reducible refine Act.within_ite ?_ ?_) | split | simp +decide

end Sys2Proof.Machine
end

