-- ==== Sys2Proof/Laws/TouchUnits.lean ====
section
/-! SUPPORT. What the operations of checkpoints, the fabric, retirement, egress, sailings, the transport, text, seals,
recall, charts and start-up can touch, each said once. -/

namespace Sys2Proof.Machine

@[simp] theorem Act.within_frontier {f : Touch} (a0 a1) (hf : (⟨[], [.NMU_COW], []⟩ : Touch).le f = true) : Act.Within f
    (.frontier a0 a1) := by
  refine Act.Within.mono ?_ hf
  unfold Act.frontier
  repeat'
    first
      | intro _ | refine And.intro ?_ ?_ | (with_reducible refine Act.within_each fun _ => ?_)
      | (with_reducible refine Act.within_when ?_) | (with_reducible refine Act.within_ite ?_ ?_) | split | simp +decide

@[simp] theorem Act.within_poolWhole {f : Touch} (a0) (hf : (⟨[], [.NMU_STACK], []⟩ : Touch).le f = true) : Act.Within f
    (.poolWhole a0) := by
  refine Act.Within.mono ?_ hf
  unfold Act.poolWhole
  repeat'
    first
      | intro _ | refine And.intro ?_ ?_ | (with_reducible refine Act.within_each fun _ => ?_)
      | (with_reducible refine Act.within_when ?_) | (with_reducible refine Act.within_ite ?_ ?_) | split | simp +decide

@[simp] theorem Act.within_arm {f : Touch} (hf : (⟨[.nmu], [.NMU_COW, .NMU_STACK], []⟩ : Touch).le f = true) :
    Act.Within f .arm := by
  refine Act.Within.mono ?_ hf
  unfold Act.arm
  repeat'
    first
      | intro _ | refine And.intro ?_ ?_ | (with_reducible refine Act.within_each fun _ => ?_)
      | (with_reducible refine Act.within_when ?_) | (with_reducible refine Act.within_ite ?_ ?_) | split | simp +decide

@[simp] theorem Act.within_releaseWrites {f : Touch} (hf : (⟨[.lost, .mem, .nmu], [], []⟩ : Touch).le f = true) :
    Act.Within f .releaseWrites := by
  refine Act.Within.mono ?_ hf
  unfold Act.releaseWrites
  repeat'
    first
      | intro _ | refine And.intro ?_ ?_ | (with_reducible refine Act.within_each fun _ => ?_)
      | (with_reducible refine Act.within_when ?_) | (with_reducible refine Act.within_ite ?_ ?_) | split | simp +decide

@[simp] theorem Act.within_disarm {f : Touch} (hf : (⟨[.lost, .mem, .nmu], [.NMU_COW, .NMU_STACK], []⟩ : Touch).le f =
    true) : Act.Within f .disarm := by
  refine Act.Within.mono ?_ hf
  unfold Act.disarm
  repeat'
    first
      | intro _ | refine And.intro ?_ ?_ | (with_reducible refine Act.within_each fun _ => ?_)
      | (with_reducible refine Act.within_when ?_) | (with_reducible refine Act.within_ite ?_ ?_) | split | simp +decide

@[simp] theorem Act.within_releaseFrame {f : Touch} (a0 a1) (hf : (touchStore : Touch).le f = true) : Act.Within f
    (.releaseFrame a0 a1) := by
  refine Act.Within.mono ?_ hf
  unfold Act.releaseFrame
  repeat'
    first
      | intro _ | refine And.intro ?_ ?_ | (with_reducible refine Act.within_each fun _ => ?_)
      | (with_reducible refine Act.within_when ?_) | (with_reducible refine Act.within_ite ?_ ?_) | split | simp +decide

@[simp] theorem Act.within_freePreserved {f : Touch} (a0 a1) (hf : (⟨[.nmu], [.NMU_STACK], []⟩ : Touch).le f = true) :
    Act.Within f (.freePreserved a0 a1) := by
  refine Act.Within.mono ?_ hf
  unfold Act.freePreserved
  repeat'
    first
      | intro _ | refine And.intro ?_ ?_ | (with_reducible refine Act.within_each fun _ => ?_)
      | (with_reducible refine Act.within_when ?_) | (with_reducible refine Act.within_ite ?_ ?_) | split | simp +decide

@[simp] theorem Act.within_writeImage {f : Touch} (hf : (⟨[.ckpt, .free, .mem, .out], [], []⟩ : Touch).le f = true) :
    Act.Within f .writeImage := by
  refine Act.Within.mono ?_ hf
  unfold Act.writeImage
  repeat'
    first
      | intro _ | refine And.intro ?_ ?_ | (with_reducible refine Act.within_each fun _ => ?_)
      | (with_reducible refine Act.within_when ?_) | (with_reducible refine Act.within_ite ?_ ?_) | split | simp +decide

@[simp] theorem Act.within_sendFrame {f : Touch} (a0 a1) (hf : (⟨[.ckpt, .out], [], []⟩ : Touch).le f = true) :
    Act.Within f (.sendFrame a0 a1) := by
  refine Act.Within.mono ?_ hf
  unfold Act.sendFrame
  repeat'
    first
      | intro _ | refine And.intro ?_ ?_ | (with_reducible refine Act.within_each fun _ => ?_)
      | (with_reducible refine Act.within_when ?_) | (with_reducible refine Act.within_ite ?_ ?_) | split | simp +decide

@[simp] theorem Act.within_sendCommit {f : Touch} (hf : (⟨[.ckpt, .out], [], []⟩ : Touch).le f = true) : Act.Within f
    .sendCommit := by
  refine Act.Within.mono ?_ hf
  unfold Act.sendCommit
  repeat'
    first
      | intro _ | refine And.intro ?_ ?_ | (with_reducible refine Act.within_each fun _ => ?_)
      | (with_reducible refine Act.within_when ?_) | (with_reducible refine Act.within_ite ?_ ?_) | split | simp +decide

@[simp] theorem Act.within_ckptEnds {f : Touch} (a0) (hf : (touchSubmit.join ⟨[], [.CKPT_CONTROL, .CKPT_STATUS], []⟩ :
    Touch).le f = true) : Act.Within f (.ckptEnds a0) := by
  refine Act.Within.mono ?_ hf
  unfold Act.ckptEnds
  repeat'
    first
      | intro _ | refine And.intro ?_ ?_ | (with_reducible refine Act.within_each fun _ => ?_)
      | (with_reducible refine Act.within_when ?_) | (with_reducible refine Act.within_ite ?_ ?_) | split | simp +decide

@[simp] theorem Act.within_ckptAbandon {f : Touch} (a0) (hf : (touchAbandon : Touch).le f = true) : Act.Within f
    (.ckptAbandon a0) := by
  refine Act.Within.mono ?_ hf
  unfold Act.ckptAbandon
  repeat'
    first
      | intro _ | refine And.intro ?_ ?_ | (with_reducible refine Act.within_each fun _ => ?_)
      | (with_reducible refine Act.within_when ?_) | (with_reducible refine Act.within_ite ?_ ?_) | split | simp +decide

@[simp] theorem Act.within_keepVersions {f : Touch} (hf : (⟨[.flash], [], []⟩ : Touch).le f = true) : Act.Within f
    .keepVersions := by
  refine Act.Within.mono ?_ hf
  unfold Act.keepVersions
  repeat'
    first
      | intro _ | refine And.intro ?_ ?_ | (with_reducible refine Act.within_each fun _ => ?_)
      | (with_reducible refine Act.within_when ?_) | (with_reducible refine Act.within_ite ?_ ?_) | split | simp +decide

@[simp] theorem Act.within_stageDrain {f : Touch} (a0) (hf : (⟨[.flash, .nand, .out], [.FLASH_STATUS], []⟩ : Touch).le f
    = true) : Act.Within f (.stageDrain a0) := by
  refine Act.Within.mono ?_ hf
  unfold Act.stageDrain
  repeat'
    first
      | intro _ | refine And.intro ?_ ?_ | (with_reducible refine Act.within_each fun _ => ?_)
      | (with_reducible refine Act.within_when ?_) | (with_reducible refine Act.within_ite ?_ ?_) | split | simp +decide

@[simp] theorem Act.within_padDrain {f : Touch} (hf : (⟨[.flash, .nand, .out], [.FLASH_STATUS], []⟩ : Touch).le f =
    true) : Act.Within f .padDrain := by
  refine Act.Within.mono ?_ hf
  unfold Act.padDrain
  repeat'
    first
      | intro _ | refine And.intro ?_ ?_ | (with_reducible refine Act.within_each fun _ => ?_)
      | (with_reducible refine Act.within_when ?_) | (with_reducible refine Act.within_ite ?_ ?_) | split | simp +decide [-List.reduceReplicate]

@[simp] theorem Act.within_commitWritten {f : Touch} (hf : (⟨[.ckpt, .flash, .nand, .out], [.FLASH_LUN_STATUS,
    .FLASH_STATUS], []⟩ : Touch).le f = true) : Act.Within f .commitWritten := by
  refine Act.Within.mono ?_ hf
  unfold Act.commitWritten
  repeat'
    first
      | intro _ | refine And.intro ?_ ?_ | (with_reducible refine Act.within_each fun _ => ?_)
      | (with_reducible refine Act.within_when ?_) | (with_reducible refine Act.within_ite ?_ ?_) | split | simp +decide

@[simp] theorem Act.within_countTrims {f : Touch} (hf : (⟨[], [], [.CKPT_TRIM_FALLBACK_COUNT, .CKPT_TRIM_GROUP_COUNT]⟩ :
    Touch).le f = true) : Act.Within f .countTrims := by
  refine Act.Within.mono ?_ hf
  unfold Act.countTrims
  repeat'
    first
      | intro _ | refine And.intro ?_ ?_ | (with_reducible refine Act.within_each fun _ => ?_)
      | (with_reducible refine Act.within_when ?_) | (with_reducible refine Act.within_ite ?_ ?_) | split | simp +decide

@[simp] theorem Act.within_laneRetire {f : Touch} (a0) (hf : (⟨[.err], [.FAB_PORT_STATUS], []⟩ : Touch).le f = true) :
    Act.Within f (.laneRetire a0) := by
  refine Act.Within.mono ?_ hf
  unfold Act.laneRetire
  repeat'
    first
      | intro _ | refine And.intro ?_ ?_ | (with_reducible refine Act.within_each fun _ => ?_)
      | (with_reducible refine Act.within_when ?_) | (with_reducible refine Act.within_ite ?_ ?_) | split | simp +decide

@[simp] theorem Act.within_pcRetire {f : Touch} (a0) (hf : (touchAbandon.join ⟨[.free], [.BERTH_WITHDRAWN, .SDIR_FREE],
    [.BERTH_WITHDRAW_COUNT]⟩ : Touch).le f = true) : Act.Within f (.pcRetire a0) := by
  refine Act.Within.mono ?_ hf
  unfold Act.pcRetire
  repeat'
    first
      | intro _ | refine And.intro ?_ ?_ | (with_reducible refine Act.within_each fun _ => ?_)
      | (with_reducible refine Act.within_when ?_) | (with_reducible refine Act.within_ite ?_ ?_) | split | simp +decide

@[simp] theorem Act.within_ringFail {f : Touch} (a0) (hf : (touchRaise.join ⟨[.hostMem], [.HOST_EVENT],
    [.HOST_RING_FAIL_COUNT]⟩ : Touch).le f = true) : Act.Within f (.ringFail a0) := by
  refine Act.Within.mono ?_ hf
  unfold Act.ringFail
  repeat'
    first
      | intro _ | refine And.intro ?_ ?_ | (with_reducible refine Act.within_each fun _ => ?_)
      | (with_reducible refine Act.within_when ?_) | (with_reducible refine Act.within_ite ?_ ?_) | split | simp +decide

@[simp] theorem Act.within_windowLost {f : Touch} (a0) (hf : (touchImage.join ⟨[.irq, .mct], [.BOLL_COUNT, .CHART_DRAIN,
    .FERRY_STATUS], [.FERRY_LATE_COUNT, .FERRY_MANIFEST_FAIL_COUNT, .FERRY_READ_FAIL_COUNT, .FERRY_REJECT_COUNT,
    .FERRY_WRITE_FAIL_COUNT, .TIER_NO_SPACE_COUNT]⟩ : Touch).le f = true) : Act.Within f (.windowLost a0) := by
  refine Act.Within.mono ?_ hf
  unfold Act.windowLost
  repeat'
    first
      | intro _ | refine And.intro ?_ ?_ | (with_reducible refine Act.within_each fun _ => ?_)
      | (with_reducible refine Act.within_when ?_) | (with_reducible refine Act.within_ite ?_ ?_) | split | simp +decide

@[simp] theorem Act.within_linkRetire {f : Touch} (a0) (hf : (touchImage.join ⟨[.hostMem, .irq, .mct], [.BOLL_COUNT,
    .CHART_DRAIN, .FERRY_STATUS], [.FERRY_LATE_COUNT, .FERRY_MANIFEST_FAIL_COUNT, .FERRY_READ_FAIL_COUNT,
    .FERRY_REJECT_COUNT, .FERRY_WRITE_FAIL_COUNT, .HOST_RING_FAIL_COUNT, .TIER_NO_SPACE_COUNT]⟩ : Touch).le f = true) :
    Act.Within f (.linkRetire a0) := by
  refine Act.Within.mono ?_ hf
  unfold Act.linkRetire
  repeat'
    first
      | intro _ | refine And.intro ?_ ?_ | (with_reducible refine Act.within_each fun _ => ?_)
      | (with_reducible refine Act.within_when ?_) | (with_reducible refine Act.within_ite ?_ ?_) | split | simp +decide

@[simp] theorem Act.within_groupRetire {f : Touch} (a0) (hf : (touchRaise.join ⟨[], [.ERR_CAUSEWAY], []⟩ : Touch).le f =
    true) : Act.Within f (.groupRetire a0) := by
  refine Act.Within.mono ?_ hf
  unfold Act.groupRetire
  repeat'
    first
      | intro _ | refine And.intro ?_ ?_ | (with_reducible refine Act.within_each fun _ => ?_)
      | (with_reducible refine Act.within_when ?_) | (with_reducible refine Act.within_ite ?_ ?_) | split | simp +decide

@[simp] theorem Act.within_bankRetire {f : Touch} (a0) (hf : (⟨[.err, .ls], [], []⟩ : Touch).le f = true) : Act.Within f
    (.bankRetire a0) := by
  refine Act.Within.mono ?_ hf
  unfold Act.bankRetire
  repeat'
    first
      | intro _ | refine And.intro ?_ ?_ | (with_reducible refine Act.within_each fun _ => ?_)
      | (with_reducible refine Act.within_when ?_) | (with_reducible refine Act.within_ite ?_ ?_) | split | simp +decide

@[simp] theorem Act.within_retireNow {f : Touch} (a0) (hf : (((touchAbandon.join touchImage).join touchTileEnd).join
    ⟨[.core, .free, .hostMem, .ls, .mct], [.BERTH_WITHDRAWN, .CHART_DRAIN, .ERR_CAUSEWAY, .FAB_PORT_STATUS, .SDIR_FREE],
    [.BERTH_WITHDRAW_COUNT, .FLASH_STRIPE_LOST_COUNT, .HOST_RING_FAIL_COUNT, .TIER_NO_SPACE_COUNT]⟩ : Touch).le f =
    true) : Act.Within f (.retireNow a0) := by
  refine Act.Within.mono ?_ hf
  unfold Act.retireNow
  repeat'
    first
      | intro _ | refine And.intro ?_ ?_ | (with_reducible refine Act.within_each fun _ => ?_)
      | (with_reducible refine Act.within_when ?_) | (with_reducible refine Act.within_ite ?_ ?_) | split | simp +decide

@[simp] theorem Act.within_modQueue {f : Touch} (a0 a1) (hf : (⟨[.egr], [], []⟩ : Touch).le f = true) : Act.Within f
    (.modQueue a0 a1) := by
  refine Act.Within.mono ?_ hf
  unfold Act.modQueue
  repeat'
    first
      | intro _ | refine And.intro ?_ ?_ | (with_reducible refine Act.within_each fun _ => ?_)
      | (with_reducible refine Act.within_when ?_) | (with_reducible refine Act.within_ite ?_ ?_) | split | simp +decide

@[simp] theorem Act.within_creditTo {f : Touch} (a0 a1) (hf : (⟨[.egr], [], []⟩ : Touch).le f = true) : Act.Within f
    (.creditTo a0 a1) := by
  refine Act.Within.mono ?_ hf
  unfold Act.creditTo
  repeat'
    first
      | intro _ | refine And.intro ?_ ?_ | (with_reducible refine Act.within_each fun _ => ?_)
      | (with_reducible refine Act.within_when ?_) | (with_reducible refine Act.within_ite ?_ ?_) | split | simp +decide

@[simp] theorem Act.within_enqueue {f : Touch} (a0 a1 a2) (hf : (⟨[.egr], [], []⟩ : Touch).le f = true) : Act.Within f
    (.enqueue a0 a1 a2) := by
  refine Act.Within.mono ?_ hf
  unfold Act.enqueue
  repeat'
    first
      | intro _ | refine And.intro ?_ ?_ | (with_reducible refine Act.within_each fun _ => ?_)
      | (with_reducible refine Act.within_when ?_) | (with_reducible refine Act.within_ite ?_ ?_) | split | simp +decide

@[simp] theorem Act.within_arrive {f : Touch} (a0 a1 a2) (hf : (⟨[.egr], [], [.EGR_FULL_COUNT]⟩ : Touch).le f = true) :
    Act.Within f (.arrive a0 a1 a2) := by
  refine Act.Within.mono ?_ hf
  unfold Act.arrive
  repeat'
    first
      | intro _ | refine And.intro ?_ ?_ | (with_reducible refine Act.within_each fun _ => ?_)
      | (with_reducible refine Act.within_when ?_) | (with_reducible refine Act.within_ite ?_ ?_) | split | simp +decide

@[simp] theorem Act.within_dropHead {f : Touch} (a0) (hf : (⟨[.egr], [], []⟩ : Touch).le f = true) : Act.Within f
    (.dropHead a0) := by
  refine Act.Within.mono ?_ hf
  unfold Act.dropHead
  repeat'
    first
      | intro _ | refine And.intro ?_ ?_ | (with_reducible refine Act.within_each fun _ => ?_)
      | (with_reducible refine Act.within_when ?_) | (with_reducible refine Act.within_ite ?_ ?_) | split | simp +decide

@[simp] theorem Act.within_wfqEmpty {f : Touch} (a0) (hf : (⟨[.egr], [], []⟩ : Touch).le f = true) : Act.Within f
    (.wfqEmpty a0) := by
  refine Act.Within.mono ?_ hf
  unfold Act.wfqEmpty
  repeat'
    first
      | intro _ | refine And.intro ?_ ?_ | (with_reducible refine Act.within_each fun _ => ?_)
      | (with_reducible refine Act.within_when ?_) | (with_reducible refine Act.within_ite ?_ ?_) | split | simp +decide

@[simp] theorem Act.within_noFit {f : Touch} (a0 a1) (hf : (touchRaise.join ⟨[.egr], [], [.EGR_NO_FIT_COUNT]⟩ :
    Touch).le f = true) : Act.Within f (.noFit a0 a1) := by
  refine Act.Within.mono ?_ hf
  induction a1 with
  | zero => unfold Act.noFit; exact Act.within_done
  | succ n ih =>
    unfold Act.noFit
    repeat'
      first
        | (with_reducible exact ih) | intro _ | refine And.intro ?_ ?_ | (with_reducible refine Act.within_each fun _ => ?_)
        | (with_reducible refine Act.within_when ?_) | (with_reducible refine Act.within_ite ?_ ?_) | split | simp +decide

@[simp] theorem Act.within_startFrame {f : Touch} (a0 a1 a2) (hf : (⟨[.egr, .out], [], [.EGR_CE_MARK_COUNT]⟩ : Touch).le
    f = true) : Act.Within f (.startFrame a0 a1 a2) := by
  refine Act.Within.mono ?_ hf
  unfold Act.startFrame
  repeat'
    first
      | intro _ | refine And.intro ?_ ?_ | (with_reducible refine Act.within_each fun _ => ?_)
      | (with_reducible refine Act.within_when ?_) | (with_reducible refine Act.within_ite ?_ ?_) | split | simp +decide

@[simp] theorem Act.within_gateHolds {f : Touch} (a0 a1) (hf : (⟨[.egr], [], [.EGR_GATE_HOLD_COUNT]⟩ : Touch).le f =
    true) : Act.Within f (.gateHolds a0 a1) := by
  refine Act.Within.mono ?_ hf
  unfold Act.gateHolds
  repeat'
    first
      | intro _ | refine And.intro ?_ ?_ | (with_reducible refine Act.within_each fun _ => ?_)
      | (with_reducible refine Act.within_when ?_) | (with_reducible refine Act.within_ite ?_ ?_) | split | simp +decide

@[simp] theorem Act.within_schedule {f : Touch} (a0 a1) (hf : (touchRaise.join ⟨[.egr], [], [.EGR_CE_MARK_COUNT,
    .EGR_GATE_HOLD_COUNT, .EGR_NO_FIT_COUNT]⟩ : Touch).le f = true) : Act.Within f (.schedule a0 a1) := by
  refine Act.Within.mono ?_ hf
  unfold Act.schedule
  repeat'
    first
      | intro _ | refine And.intro ?_ ?_ | (with_reducible refine Act.within_each fun _ => ?_)
      | (with_reducible refine Act.within_when ?_) | (with_reducible refine Act.within_ite ?_ ?_) | split | simp +decide

@[simp] theorem Act.within_creditsToBoundary {f : Touch} (hf : (⟨[.egr], [], []⟩ : Touch).le f = true) : Act.Within f
    .creditsToBoundary := by
  refine Act.Within.mono ?_ hf
  unfold Act.creditsToBoundary
  repeat'
    first
      | intro _ | refine And.intro ?_ ?_ | (with_reducible refine Act.within_each fun _ => ?_)
      | (with_reducible refine Act.within_when ?_) | (with_reducible refine Act.within_ite ?_ ?_) | split | simp +decide

@[simp] theorem Act.within_latchStats {f : Touch} (hf : (⟨[.egr], [.EGR_QSTAT], []⟩ : Touch).le f = true) : Act.Within f
    .latchStats := by
  refine Act.Within.mono ?_ hf
  unfold Act.latchStats
  repeat'
    first
      | intro _ | refine And.intro ?_ ?_ | (with_reducible refine Act.within_each fun _ => ?_)
      | (with_reducible refine Act.within_when ?_) | (with_reducible refine Act.within_ite ?_ ?_) | split | simp +decide

@[simp] theorem Act.within_switchGates {f : Touch} (hf : (touchRaise.join ⟨[.shadow], [.EGR_GCL_CTRL],
    [.EGR_GCL_REJECT_COUNT]⟩ : Touch).le f = true) : Act.Within f .switchGates := by
  refine Act.Within.mono ?_ hf
  unfold Act.switchGates
  repeat'
    first
      | intro _ | refine And.intro ?_ ?_ | (with_reducible refine Act.within_each fun _ => ?_)
      | (with_reducible refine Act.within_when ?_) | (with_reducible refine Act.within_ite ?_ ?_) | split | simp +decide

@[simp] theorem Act.within_showPending {f : Touch} (hf : (⟨[], [.SAIL_STATUS], []⟩ : Touch).le f = true) : Act.Within f
    .showPending := by
  refine Act.Within.mono ?_ hf
  unfold Act.showPending
  repeat'
    first
      | intro _ | refine And.intro ?_ ?_ | (with_reducible refine Act.within_each fun _ => ?_)
      | (with_reducible refine Act.within_when ?_) | (with_reducible refine Act.within_ite ?_ ?_) | split | simp +decide

@[simp] theorem Act.within_zeroBank {f : Touch} (a0 a1) (hf : (⟨[.lost, .ls], [], []⟩ : Touch).le f = true) : Act.Within
    f (.zeroBank a0 a1) := by
  refine Act.Within.mono ?_ hf
  unfold Act.zeroBank
  repeat'
    first
      | intro _ | refine And.intro ?_ ?_ | (with_reducible refine Act.within_each fun _ => ?_)
      | (with_reducible refine Act.within_when ?_) | (with_reducible refine Act.within_ite ?_ ?_) | split | simp +decide

@[simp] theorem Act.within_bankMode {f : Touch} (a0 a1 a2) (hf : (⟨[.core, .lost, .ls], [.CORE_LS_PWR], []⟩ : Touch).le
    f = true) : Act.Within f (.bankMode a0 a1 a2) := by
  refine Act.Within.mono ?_ hf
  unfold Act.bankMode
  repeat'
    first
      | intro _ | refine And.intro ?_ ?_ | (with_reducible refine Act.within_each fun _ => ?_)
      | (with_reducible refine Act.within_when ?_) | (with_reducible refine Act.within_ite ?_ ?_) | split | simp +decide

@[simp] theorem Act.within_bankModes {f : Touch} (a0 a1) (hf : (⟨[.core, .lost, .ls], [.CORE_LS_PWR], []⟩ : Touch).le f
    = true) : Act.Within f (.bankModes a0 a1) := by
  refine Act.Within.mono ?_ hf
  unfold Act.bankModes
  repeat'
    first
      | intro _ | refine And.intro ?_ ?_ | (with_reducible refine Act.within_each fun _ => ?_)
      | (with_reducible refine Act.within_when ?_) | (with_reducible refine Act.within_ite ?_ ?_) | split | simp +decide

@[simp] theorem Act.within_banksSettle {f : Touch} (hf : (⟨[.core, .lost, .ls], [.CORE_LS_PWR], []⟩ : Touch).le f =
    true) : Act.Within f .banksSettle := by
  refine Act.Within.mono ?_ hf
  unfold Act.banksSettle
  repeat'
    first
      | intro _ | refine And.intro ?_ ?_ | (with_reducible refine Act.within_each fun _ => ?_)
      | (with_reducible refine Act.within_when ?_) | (with_reducible refine Act.within_ite ?_ ?_) | split | simp +decide

@[simp] theorem Act.within_burstRises {f : Touch} (a0 a1) (hf : (⟨[.egr], [], []⟩ : Touch).le f = true) : Act.Within f
    (.burstRises a0 a1) := by
  refine Act.Within.mono ?_ hf
  unfold Act.burstRises
  repeat'
    first
      | intro _ | refine And.intro ?_ ?_ | (with_reducible refine Act.within_each fun _ => ?_)
      | (with_reducible refine Act.within_when ?_) | (with_reducible refine Act.within_ite ?_ ?_) | split | simp +decide

@[simp] theorem Act.within_setLive {f : Touch} (a0 a1 a2 a3) (hf : (⟨[.core, .egr, .lost, .ls], Reg.all, []⟩ : Touch).le
    f = true) : Act.Within f (.setLive a0 a1 a2 a3) := by
  refine Act.Within.mono ?_ hf
  unfold Act.setLive
  repeat'
    first
      | intro _ | refine And.intro ?_ ?_ | (with_reducible refine Act.within_each fun _ => ?_)
      | (with_reducible refine Act.within_when ?_) | (with_reducible refine Act.within_ite ?_ ?_) | split | simp +decide

@[simp] theorem Act.within_latchKey {f : Touch} (a0) (hf : (⟨[.core, .egr, .lost, .ls], Reg.all, []⟩ : Touch).le f =
    true) : Act.Within f (.latchKey a0) := by
  refine Act.Within.mono ?_ hf
  unfold Act.latchKey
  repeat'
    first
      | intro _ | refine And.intro ?_ ?_ | (with_reducible refine Act.within_each fun _ => ?_)
      | (with_reducible refine Act.within_when ?_) | (with_reducible refine Act.within_ite ?_ ?_) | split | simp +decide

@[simp] theorem Act.within_latchShadows {f : Touch} (hf : (⟨[.core, .egr, .lost, .ls], Reg.all, []⟩ : Touch).le f =
    true) : Act.Within f .latchShadows := by
  refine Act.Within.mono ?_ hf
  unfold Act.latchShadows
  repeat'
    first
      | intro _ | refine And.intro ?_ ?_ | (with_reducible refine Act.within_each fun _ => ?_)
      | (with_reducible refine Act.within_when ?_) | (with_reducible refine Act.within_ite ?_ ?_) | split | simp +decide

@[simp] theorem Act.within_ttVerdict {f : Touch} (a0) (hf : (touchRaise.join ⟨[.sail], [.SAIL_STATUS],
    [.SAIL_TT_REJECT_COUNT]⟩ : Touch).le f = true) : Act.Within f (.ttVerdict a0) := by
  refine Act.Within.mono ?_ hf
  unfold Act.ttVerdict
  repeat'
    first
      | intro _ | refine And.intro ?_ ?_ | (with_reducible refine Act.within_each fun _ => ?_)
      | (with_reducible refine Act.within_when ?_) | (with_reducible refine Act.within_ite ?_ ?_) | split | simp +decide

@[simp] theorem Act.within_ttCheck {f : Touch} (a0 a1) (hf : (touchRaise.join ⟨[.sail], [.SAIL_STATUS],
    [.SAIL_TT_REJECT_COUNT]⟩ : Touch).le f = true) : Act.Within f (.ttCheck a0 a1) := by
  refine Act.Within.mono ?_ hf
  unfold Act.ttCheck
  repeat'
    first
      | intro _ | refine And.intro ?_ ?_ | (with_reducible refine Act.within_each fun _ => ?_)
      | (with_reducible refine Act.within_when ?_) | (with_reducible refine Act.within_ite ?_ ?_) | split | simp +decide

@[simp] theorem Act.within_loadSlots {f : Touch} (a0) (hf : (touchRaise.join ⟨[.sail], [.SAIL_CORE_CARRY], []⟩ :
    Touch).le f = true) : Act.Within f (.loadSlots a0) := by
  refine Act.Within.mono ?_ hf
  unfold Act.loadSlots
  repeat'
    first
      | intro _ | refine And.intro ?_ ?_ | (with_reducible refine Act.within_each fun _ => ?_)
      | (with_reducible refine Act.within_when ?_) | (with_reducible refine Act.within_ite ?_ ?_) | split | simp +decide

@[simp] theorem Act.within_clockStep {f : Touch} (a0) (hf : (⟨[.free], [.PWR_STATUS], []⟩ : Touch).le f = true) :
    Act.Within f (.clockStep a0) := by
  refine Act.Within.mono ?_ hf
  unfold Act.clockStep
  repeat'
    first
      | intro _ | refine And.intro ?_ ?_ | (with_reducible refine Act.within_each fun _ => ?_)
      | (with_reducible refine Act.within_when ?_) | (with_reducible refine Act.within_ite ?_ ?_) | split | simp +decide

@[simp] theorem Act.within_governs {f : Touch} (a0 a1) (hf : (⟨[.free, .pwr], [.PWR_STATUS], [.PWR_TENSION_COUNT]⟩ :
    Touch).le f = true) : Act.Within f (.governs a0 a1) := by
  refine Act.Within.mono ?_ hf
  unfold Act.governs
  repeat'
    first
      | intro _ | refine And.intro ?_ ?_ | (with_reducible refine Act.within_each fun _ => ?_)
      | (with_reducible refine Act.within_when ?_) | (with_reducible refine Act.within_ite ?_ ?_) | split | simp +decide

theorem Act.within_residentClass {f : Touch} (a0 a1 a2) (hf : (touchStore.join ⟨[.sdir], [.SDIR_LOCKED,
    .SDIR_STATE_COUNT, .SDIR_THRESHOLD], [.SDIR_CRC_FAIL_COUNT, .SDIR_TENSION_COUNT]⟩ : Touch).le f = true) (h2 : ∀ x0,
    (a2 x0).Within f) : Act.Within f (.residentClass a0 a1 a2) := by
  unfold Act.residentClass; try dsimp only
  repeat'
    first
      | (with_reducible exact h2 _) | intro _ | (with_reducible refine (Act.within_look _).2 fun _ => ?_)
      | refine Act.within_moorOrLayup _ _ _ (Touch.le_trans (by decide) hf) ?_
      | (with_reducible exact Act.within_nil) | (with_reducible refine Act.within_when ?_)
      | (with_reducible refine Act.within_andThen_of ?_ ?_) | (with_reducible refine Act.within_cons_of ?_ ?_)
      | (with_reducible refine Act.within_ite ?_ ?_) | (with_reducible refine Act.within_each fun _ => ?_) | split
      | exact Act.Within.mono (f := (touchStore.join ⟨[.sdir], [.SDIR_LOCKED, .SDIR_STATE_COUNT, .SDIR_THRESHOLD], [.SDIR_CRC_FAIL_COUNT, .SDIR_TENSION_COUNT]⟩)) (by simp +decide) hf

@[simp] theorem Act.within_layups {f : Touch} (a0 a1) (hf : (touchStore.join ⟨[.sdir], [.SDIR_LOCKED,
    .SDIR_STATE_COUNT], [.SDIR_CRC_FAIL_COUNT, .SDIR_HIT_COUNT, .SDIR_MISS_COUNT, .SDIR_TENSION_COUNT]⟩ : Touch).le f =
    true) : Act.Within f (.layups a0 a1) := by
  refine Act.Within.mono ?_ hf
  induction a0 generalizing a1 with
  | nil => unfold Act.layups; exact Act.within_done
  | cons x xs ih =>
    unfold Act.layups
    repeat'
      first
        | (with_reducible exact ih _) | intro _ | refine And.intro ?_ ?_ | (with_reducible refine Act.within_each fun _ => ?_)
        | (with_reducible refine Act.within_when ?_) | (with_reducible refine Act.within_ite ?_ ?_) | split | simp +decide

@[simp] theorem Act.within_residency {f : Touch} (hf : (touchStore.join ⟨[.sdir], [.SDIR_LOCKED, .SDIR_STATE_COUNT,
    .SDIR_THRESHOLD], [.SDIR_CRC_FAIL_COUNT, .SDIR_HIT_COUNT, .SDIR_MISS_COUNT, .SDIR_TENSION_COUNT]⟩ : Touch).le f =
    true) : Act.Within f .residency := by
  refine Act.Within.mono ?_ hf
  unfold Act.residency
  repeat'
    first
      | intro _ | refine And.intro ?_ ?_ | (with_reducible refine Act.within_each fun _ => ?_)
      | refine Act.within_residentClass _ _ _ (by decide) (fun _ => ?_)
      | (with_reducible refine Act.within_when ?_) | (with_reducible refine Act.within_ite ?_ ?_) | split | simp +decide

@[simp] theorem Act.within_drainWindow {f : Touch} (a0) (hf : (touchStore.join ⟨[.sdir], [.SDIR_LOCKED,
    .SDIR_STATE_COUNT], [.SDIR_CRC_FAIL_COUNT, .SDIR_TENSION_COUNT]⟩ : Touch).le f = true) : Act.Within f (.drainWindow
    a0) := by
  refine Act.Within.mono ?_ hf
  unfold Act.drainWindow
  repeat'
    first
      | intro _ | refine And.intro ?_ ?_ | (with_reducible refine Act.within_each fun _ => ?_)
      | (with_reducible refine Act.within_when ?_) | (with_reducible refine Act.within_ite ?_ ?_) | split | simp +decide

@[simp] theorem Act.within_keyTakes {f : Touch} (a0) (hf : (⟨[.sec], [], []⟩ : Touch).le f = true) : Act.Within f
    (.keyTakes a0) := by
  refine Act.Within.mono ?_ hf
  unfold Act.keyTakes
  repeat'
    first
      | intro _ | refine And.intro ?_ ?_ | (with_reducible refine Act.within_each fun _ => ?_)
      | (with_reducible refine Act.within_when ?_) | (with_reducible refine Act.within_ite ?_ ?_) | split | simp +decide

@[simp] theorem Act.within_keysTake {f : Touch} (hf : (⟨[.sec], [], []⟩ : Touch).le f = true) : Act.Within f .keysTake
    := by
  refine Act.Within.mono ?_ hf
  unfold Act.keysTake
  repeat'
    first
      | intro _ | refine And.intro ?_ ?_ | (with_reducible refine Act.within_each fun _ => ?_)
      | (with_reducible refine Act.within_when ?_) | (with_reducible refine Act.within_ite ?_ ?_) | split | simp +decide

@[simp] theorem Act.within_watchTurn {f : Touch} (hf : (⟨[.irq], [.SAIL_WATCH_STATUS], []⟩ : Touch).le f = true) :
    Act.Within f .watchTurn := by
  refine Act.Within.mono ?_ hf
  unfold Act.watchTurn
  repeat'
    first
      | intro _ | refine And.intro ?_ ?_ | (with_reducible refine Act.within_each fun _ => ?_)
      | (with_reducible refine Act.within_when ?_) | (with_reducible refine Act.within_ite ?_ ?_) | split | simp +decide

@[simp] theorem Act.within_levelsFit {f : Touch} (hf : (⟨[.nand], [], []⟩ : Touch).le f = true) : Act.Within f
    .levelsFit := by
  refine Act.Within.mono ?_ hf
  unfold Act.levelsFit
  repeat'
    first
      | intro _ | refine And.intro ?_ ?_ | (with_reducible refine Act.within_each fun _ => ?_)
      | (with_reducible refine Act.within_when ?_) | (with_reducible refine Act.within_ite ?_ ?_) | split | simp +decide

@[simp] theorem Act.within_latch {f : Touch} (a0 a1 a2 a3) (hf : (⟨[.chart, .core, .egr, .err, .free, .host, .irq,
    .lost, .ls, .mem, .nand, .nmu, .out, .pwr, .sail, .sdir, .sec, .shadow, .tier], Reg.all, [.EGR_GCL_REJECT_COUNT,
    .ERR_ESCALATE_COUNT, .ERR_OVERFLOW_COUNT, .ERR_RETIRE_COUNT, .NMU_COW_COPY_COUNT, .NMU_COW_STALL_COUNT,
    .NMU_LINE_ECC_COUNT, .PWR_TENSION_COUNT, .SDIR_CRC_FAIL_COUNT, .SDIR_HIT_COUNT, .SDIR_MISS_COUNT,
    .SDIR_TENSION_COUNT]⟩ : Touch).le f = true) : Act.Within f (.latch a0 a1 a2 a3) := by
  refine Act.Within.mono ?_ hf
  unfold Act.latch
  repeat'
    first
      | intro _ | refine And.intro ?_ ?_ | (with_reducible refine Act.within_each fun _ => ?_)
      | (with_reducible refine Act.within_when ?_) | (with_reducible refine Act.within_ite ?_ ?_) | split | simp +decide

@[simp] theorem Act.within_modTx {f : Touch} (a0 a1 a2) (hf : (⟨[.mct], [], []⟩ : Touch).le f = true) : Act.Within f
    (.modTx a0 a1 a2) := by
  refine Act.Within.mono ?_ hf
  unfold Act.modTx
  repeat'
    first
      | intro _ | refine And.intro ?_ ?_ | (with_reducible refine Act.within_each fun _ => ?_)
      | (with_reducible refine Act.within_when ?_) | (with_reducible refine Act.within_ite ?_ ?_) | split | simp +decide

@[simp] theorem Act.within_modRx {f : Touch} (a0 a1 a2) (hf : (⟨[.mct], [], []⟩ : Touch).le f = true) : Act.Within f
    (.modRx a0 a1 a2) := by
  refine Act.Within.mono ?_ hf
  unfold Act.modRx
  repeat'
    first
      | intro _ | refine And.intro ?_ ?_ | (with_reducible refine Act.within_each fun _ => ?_)
      | (with_reducible refine Act.within_when ?_) | (with_reducible refine Act.within_ite ?_ ?_) | split | simp +decide

@[simp] theorem Act.within_transmit {f : Touch} (a0 a1 a2 a3) (hf : (touchRaise.join ⟨[.egr, .mct], [],
    [.EGR_CE_MARK_COUNT, .EGR_FULL_COUNT, .EGR_GATE_HOLD_COUNT, .EGR_NO_FIT_COUNT]⟩ : Touch).le f = true) : Act.Within f
    (.transmit a0 a1 a2 a3) := by
  refine Act.Within.mono ?_ hf
  unfold Act.transmit
  repeat'
    first
      | intro _ | refine And.intro ?_ ?_ | (with_reducible refine Act.within_each fun _ => ?_)
      | (with_reducible refine Act.within_when ?_) | (with_reducible refine Act.within_ite ?_ ?_) | split | simp +decide

@[simp] theorem Act.within_pump {f : Touch} (a0 a1 a2 a3) (hf : (touchRaise.join ⟨[.egr, .mct], [], [.EGR_CE_MARK_COUNT,
    .EGR_FULL_COUNT, .EGR_GATE_HOLD_COUNT, .EGR_NO_FIT_COUNT]⟩ : Touch).le f = true) : Act.Within f (.pump a0 a1 a2 a3)
    := by
  refine Act.Within.mono ?_ hf
  induction a3 with
  | zero => unfold Act.pump; exact Act.within_done
  | succ n ih =>
    unfold Act.pump
    repeat'
      first
        | (with_reducible exact ih) | intro _ | refine And.intro ?_ ?_ | (with_reducible refine Act.within_each fun _ => ?_)
        | (with_reducible refine Act.within_when ?_) | (with_reducible refine Act.within_ite ?_ ?_) | split | simp +decide

@[simp] theorem Act.within_sendAck {f : Touch} (a0 a1 a2) (hf : (touchRaise.join ⟨[.egr, .mct], [], [.EGR_CE_MARK_COUNT,
    .EGR_FULL_COUNT, .EGR_GATE_HOLD_COUNT, .EGR_NO_FIT_COUNT]⟩ : Touch).le f = true) : Act.Within f (.sendAck a0 a1 a2)
    := by
  refine Act.Within.mono ?_ hf
  unfold Act.sendAck
  repeat'
    first
      | intro _ | refine And.intro ?_ ?_ | (with_reducible refine Act.within_each fun _ => ?_)
      | (with_reducible refine Act.within_when ?_) | (with_reducible refine Act.within_ite ?_ ?_) | split | simp +decide

@[simp] theorem Act.within_openOp {f : Touch} (a0) (hf : (⟨[.mct], [.CHART_DRAIN], []⟩ : Touch).le f = true) :
    Act.Within f (.openOp a0) := by
  refine Act.Within.mono ?_ hf
  unfold Act.openOp
  repeat'
    first
      | intro _ | refine And.intro ?_ ?_ | (with_reducible refine Act.within_each fun _ => ?_)
      | (with_reducible refine Act.within_when ?_) | (with_reducible refine Act.within_ite ?_ ?_) | split | simp +decide

@[simp] theorem Act.within_closeOp {f : Touch} (a0) (hf : (⟨[.mct], [.CHART_DRAIN], []⟩ : Touch).le f = true) :
    Act.Within f (.closeOp a0) := by
  refine Act.Within.mono ?_ hf
  unfold Act.closeOp
  repeat'
    first
      | intro _ | refine And.intro ?_ ?_ | (with_reducible refine Act.within_each fun _ => ?_)
      | (with_reducible refine Act.within_when ?_) | (with_reducible refine Act.within_ite ?_ ?_) | split | simp +decide

@[simp] theorem Act.within_crossingEnds {f : Touch} (a0) (hf : (⟨[.irq, .mct, .out, .tier], [.BOLL_COUNT, .CHART_DRAIN,
    .FERRY_STATUS, .TIER_MOOR_STATUS], [.MCT_CROSS_ABORT_COUNT]⟩ : Touch).le f = true) : Act.Within f (.crossingEnds a0)
    := by
  refine Act.Within.mono ?_ hf
  unfold Act.crossingEnds
  repeat'
    first
      | intro _ | refine And.intro ?_ ?_ | (with_reducible refine Act.within_each fun _ => ?_)
      | (with_reducible refine Act.within_when ?_) | (with_reducible refine Act.within_ite ?_ ?_) | split | simp +decide

@[simp] theorem Act.within_opEnds {f : Touch} (a0 a1) (hf : (⟨[.irq, .mct, .out, .tier], [.BOLL_COUNT, .CHART_DRAIN,
    .FERRY_STATUS, .TIER_MOOR_STATUS], [.MCT_CROSS_ABORT_COUNT]⟩ : Touch).le f = true) : Act.Within f (.opEnds a0 a1) :=
    by
  refine Act.Within.mono ?_ hf
  unfold Act.opEnds
  repeat'
    first
      | intro _ | refine And.intro ?_ ?_ | (with_reducible refine Act.within_each fun _ => ?_)
      | (with_reducible refine Act.within_when ?_) | (with_reducible refine Act.within_ite ?_ ?_) | split | simp +decide

@[simp] theorem Act.within_opMoved {f : Touch} (a0) (hf : (touchRaise.join ⟨[.irq, .mct, .tier], [.BOLL_COUNT,
    .CHART_DRAIN, .FERRY_STATUS, .TIER_MOOR_STATUS], [.MCT_CROSS_ABORT_COUNT]⟩ : Touch).le f = true) : Act.Within f
    (.opMoved a0) := by
  refine Act.Within.mono ?_ hf
  unfold Act.opMoved
  repeat'
    first
      | intro _ | refine And.intro ?_ ?_ | (with_reducible refine Act.within_each fun _ => ?_)
      | (with_reducible refine Act.within_when ?_) | (with_reducible refine Act.within_ite ?_ ?_) | split | simp +decide

@[simp] theorem Act.within_mctSend {f : Touch} (a0 a1 a2 a3) (hf : (touchSend : Touch).le f = true) : Act.Within f
    (.mctSend a0 a1 a2 a3) := by
  refine Act.Within.mono ?_ hf
  unfold Act.mctSend
  repeat'
    first
      | intro _ | refine And.intro ?_ ?_ | (with_reducible refine Act.within_each fun _ => ?_)
      | (with_reducible refine Act.within_when ?_) | (with_reducible refine Act.within_ite ?_ ?_) | split | simp +decide

@[simp] theorem Act.within_xfersLost {f : Touch} (a0 a1) (hf : ((touchTransfer.join touchStore).join ⟨[.core, .free,
    .hostMem, .ls, .mct, .tier], [.CORE_LS_PWR, .FERRY_STATUS], [.ERR_MANIFEST_FAIL_COUNT]⟩ : Touch).le f = true) :
    Act.Within f (.xfersLost a0 a1) := by
  refine Act.Within.mono ?_ hf
  unfold Act.xfersLost
  repeat'
    first
      | intro _ | refine And.intro ?_ ?_ | (with_reducible refine Act.within_each fun _ => ?_)
      | (with_reducible refine Act.within_when ?_) | (with_reducible refine Act.within_ite ?_ ?_) | split | simp +decide

@[simp] theorem Act.within_askOutcomes {f : Touch} (a0 a1) (hf : (touchSend : Touch).le f = true) : Act.Within f
    (.askOutcomes a0 a1) := by
  refine Act.Within.mono ?_ hf
  unfold Act.askOutcomes
  repeat'
    first
      | intro _ | refine And.intro ?_ ?_ | (with_reducible refine Act.within_each fun _ => ?_)
      | (with_reducible refine Act.within_when ?_) | (with_reducible refine Act.within_ite ?_ ?_) | split | simp +decide

@[simp] theorem Act.within_peerLost {f : Touch} (a0 a1 a2) (hf : ((touchAbandon.join touchSend).join ⟨[.core, .free,
    .hostMem, .ls], [.CORE_LS_PWR], [.ERR_MANIFEST_FAIL_COUNT, .MCT_PEER_LOST_COUNT, .NMU_COW_COPY_COUNT,
    .NMU_COW_STALL_COUNT, .NMU_LINE_ECC_COUNT]⟩ : Touch).le f = true) : Act.Within f (.peerLost a0 a1 a2) := by
  refine Act.Within.mono ?_ hf
  unfold Act.peerLost
  repeat'
    first
      | intro _ | refine And.intro ?_ ?_ | (with_reducible refine Act.within_each fun _ => ?_)
      | (with_reducible refine Act.within_when ?_) | (with_reducible refine Act.within_ite ?_ ?_) | split | simp +decide

@[simp] theorem Act.within_newIncarnation {f : Touch} (a0 a1 a2) (hf : (((touchSend.join touchTransfer).join
    touchStore).join ⟨[.core, .free, .hostMem, .ls], [.CORE_LS_PWR], [.ERR_MANIFEST_FAIL_COUNT]⟩ : Touch).le f = true) :
    Act.Within f (.newIncarnation a0 a1 a2) := by
  refine Act.Within.mono ?_ hf
  unfold Act.newIncarnation
  repeat'
    first
      | intro _ | refine And.intro ?_ ?_ | (with_reducible refine Act.within_each fun _ => ?_)
      | (with_reducible refine Act.within_when ?_) | (with_reducible refine Act.within_ite ?_ ?_) | split | simp +decide

@[simp] theorem Act.within_tilesAcked {f : Touch} (a0) (hf : (touchTransfer.join ⟨[.mct, .tier], [.FERRY_STATUS], []⟩ :
    Touch).le f = true) : Act.Within f (.tilesAcked a0) := by
  refine Act.Within.mono ?_ hf
  unfold Act.tilesAcked
  repeat'
    first
      | intro _ | refine And.intro ?_ ?_ | (with_reducible refine Act.within_each fun _ => ?_)
      | (with_reducible refine Act.within_when ?_) | (with_reducible refine Act.within_ite ?_ ?_) | split | simp +decide

@[simp] theorem Act.within_peerAcked {f : Touch} (a0 a1) (hf : (touchTransfer.join ⟨[.core, .lost, .ls, .mct, .tier],
    [.CORE_LS_PWR, .FERRY_STATUS], []⟩ : Touch).le f = true) : Act.Within f (.peerAcked a0 a1) := by
  refine Act.Within.mono ?_ hf
  unfold Act.peerAcked
  repeat'
    first
      | intro _ | refine And.intro ?_ ?_ | (with_reducible refine Act.within_each fun _ => ?_)
      | (with_reducible refine Act.within_when ?_) | (with_reducible refine Act.within_ite ?_ ?_) | split | simp +decide

@[simp] theorem Act.within_retransmit {f : Touch} (a0 a1 a2 a3) (hf : (touchRaise.join ⟨[.egr, .mct], [],
    [.EGR_CE_MARK_COUNT, .EGR_FULL_COUNT, .EGR_GATE_HOLD_COUNT, .EGR_NO_FIT_COUNT, .MCT_RETX_COUNT]⟩ : Touch).le f =
    true) : Act.Within f (.retransmit a0 a1 a2 a3) := by
  refine Act.Within.mono ?_ hf
  unfold Act.retransmit
  repeat'
    first
      | intro _ | refine And.intro ?_ ?_ | (with_reducible refine Act.within_each fun _ => ?_)
      | (with_reducible refine Act.within_when ?_) | (with_reducible refine Act.within_ite ?_ ?_) | split | simp +decide

@[simp] theorem Act.within_takeAck {f : Touch} (a0 a1 a2) (hf : (touchTransfer.join ⟨[.core, .egr, .lost, .ls, .mct,
    .tier], [.CORE_LS_PWR, .FERRY_STATUS], [.EGR_CE_MARK_COUNT, .EGR_FULL_COUNT, .EGR_GATE_HOLD_COUNT,
    .EGR_NO_FIT_COUNT, .MCT_RETX_COUNT]⟩ : Touch).le f = true) : Act.Within f (.takeAck a0 a1 a2) := by
  refine Act.Within.mono ?_ hf
  unfold Act.takeAck
  repeat'
    first
      | intro _ | refine And.intro ?_ ?_ | (with_reducible refine Act.within_each fun _ => ?_)
      | (with_reducible refine Act.within_when ?_) | (with_reducible refine Act.within_ite ?_ ?_) | split | simp +decide

@[simp] theorem Act.within_showText {f : Touch} (hf : (⟨[], [.TEXT_STATUS], []⟩ : Touch).le f = true) : Act.Within f
    .showText := by
  refine Act.Within.mono ?_ hf
  unfold Act.showText
  repeat'
    first
      | intro _ | refine And.intro ?_ ?_ | (with_reducible refine Act.within_each fun _ => ?_)
      | (with_reducible refine Act.within_when ?_) | (with_reducible refine Act.within_ite ?_ ?_) | split | simp +decide

@[simp] theorem Act.within_textDone {f : Touch} (a0 a1 a2) (hf : (⟨[.irq], [], []⟩ : Touch).le f = true) : Act.Within f
    (.textDone a0 a1 a2) := by
  refine Act.Within.mono ?_ hf
  unfold Act.textDone
  repeat'
    first
      | intro _ | refine And.intro ?_ ?_ | (with_reducible refine Act.within_each fun _ => ?_)
      | (with_reducible refine Act.within_when ?_) | (with_reducible refine Act.within_ite ?_ ?_) | split | simp +decide

@[simp] theorem Act.within_setStream {f : Touch} (a0 a1) (hf : (⟨[.text], [.TEXT_STATUS], []⟩ : Touch).le f = true) :
    Act.Within f (.setStream a0 a1) := by
  refine Act.Within.mono ?_ hf
  unfold Act.setStream
  repeat'
    first
      | intro _ | refine And.intro ?_ ?_ | (with_reducible refine Act.within_each fun _ => ?_)
      | (with_reducible refine Act.within_when ?_) | (with_reducible refine Act.within_ite ?_ ?_) | split | simp +decide

theorem Act.within_textTake {f : Touch} (a0 a1 a2) (hf : (touchRaise.join ⟨[.irq, .text], [.TEXT_STATUS], []⟩ :
    Touch).le f = true) (h2 : ∀ x0, (a2 x0).Within f) : Act.Within f (.textTake a0 a1 a2) := by
  unfold Act.textTake; try dsimp only
  repeat'
    first
      | (with_reducible exact h2 _) | intro _ | (with_reducible refine (Act.within_look _).2 fun _ => ?_)
      | refine Act.within_takeEntry _ _ _ _ _ _ (Touch.le_trans (by decide) hf) ?_ ?_ (fun _ => ?_)
      | (with_reducible exact Act.within_nil) | (with_reducible refine Act.within_when ?_)
      | (with_reducible refine Act.within_andThen_of ?_ ?_) | (with_reducible refine Act.within_cons_of ?_ ?_)
      | (with_reducible refine Act.within_ite ?_ ?_) | (with_reducible refine Act.within_each fun _ => ?_) | split
      | exact Act.Within.mono (f := (touchRaise.join ⟨[.irq, .text], [.TEXT_STATUS], []⟩)) (by simp +decide) hf

@[simp] theorem Act.within_textLost {f : Touch} (a0 a1) (hf : (touchRaise.join ⟨[.irq], [], []⟩ : Touch).le f = true) :
    Act.Within f (.textLost a0 a1) := by
  refine Act.Within.mono ?_ hf
  unfold Act.textLost
  repeat'
    first
      | intro _ | refine And.intro ?_ ?_ | (with_reducible refine Act.within_each fun _ => ?_)
      | (with_reducible refine Act.within_when ?_) | (with_reducible refine Act.within_ite ?_ ?_) | split | simp +decide

theorem Act.within_textChecked {f : Touch} (a0 a1) (hf : (⟨[.irq], [], []⟩ : Touch).le f = true) (h1 : a1.Within f) :
    Act.Within f (.textChecked a0 a1) := by
  unfold Act.textChecked; try dsimp only
  repeat'
    first
      | (with_reducible exact h1) | intro _ | (with_reducible refine (Act.within_look _).2 fun _ => ?_)
      | (with_reducible exact Act.within_nil) | (with_reducible refine Act.within_when ?_)
      | (with_reducible refine Act.within_andThen_of ?_ ?_) | (with_reducible refine Act.within_cons_of ?_ ?_)
      | (with_reducible refine Act.within_ite ?_ ?_) | (with_reducible refine Act.within_each fun _ => ?_) | split
      | exact Act.Within.mono (f := (⟨[.irq], [], []⟩)) (by simp +decide) hf

@[simp] theorem Act.within_gramLost {f : Touch} (a0) (hf : (touchRaise.join ⟨[.boot, .irq], [],
    [.ERR_MANIFEST_FAIL_COUNT]⟩ : Touch).le f = true) : Act.Within f (.gramLost a0) := by
  refine Act.Within.mono ?_ hf
  unfold Act.gramLost
  repeat'
    first
      | intro _ | refine And.intro ?_ ?_ | (with_reducible refine Act.within_each fun _ => ?_)
      | (with_reducible refine Act.within_when ?_) | (with_reducible refine Act.within_ite ?_ ?_) | split | simp +decide

@[simp] theorem Act.within_touchMask {f : Touch} (a0) (hf : (⟨[.text], [], [.TEXT_MASK_HIT_COUNT,
    .TEXT_MASK_MISS_COUNT]⟩ : Touch).le f = true) : Act.Within f (.touchMask a0) := by
  refine Act.Within.mono ?_ hf
  unfold Act.touchMask
  repeat'
    first
      | intro _ | refine And.intro ?_ ?_ | (with_reducible refine Act.within_each fun _ => ?_)
      | (with_reducible refine Act.within_when ?_) | (with_reducible refine Act.within_ite ?_ ?_) | split | simp +decide

@[simp] theorem Act.within_sampDone {f : Touch} (a0 a1 a2) (hf : (⟨[.irq], [], []⟩ : Touch).le f = true) : Act.Within f
    (.sampDone a0 a1 a2) := by
  refine Act.Within.mono ?_ hf
  unfold Act.sampDone
  repeat'
    first
      | intro _ | refine And.intro ?_ ?_ | (with_reducible refine Act.within_each fun _ => ?_)
      | (with_reducible refine Act.within_when ?_) | (with_reducible refine Act.within_ite ?_ ?_) | split | simp +decide

@[simp] theorem Act.within_sampReject {f : Touch} (a0 a1) (hf : (⟨[.irq], [.SAMP_STATUS], []⟩ : Touch).le f = true) :
    Act.Within f (.sampReject a0 a1) := by
  refine Act.Within.mono ?_ hf
  unfold Act.sampReject
  repeat'
    first
      | intro _ | refine And.intro ?_ ?_ | (with_reducible refine Act.within_each fun _ => ?_)
      | (with_reducible refine Act.within_when ?_) | (with_reducible refine Act.within_ite ?_ ?_) | split | simp +decide

theorem Act.within_sampTake {f : Touch} (a0 a1 a2) (hf : (touchRaise.join ⟨[.irq, .sealer], [.SAMP_STATUS], []⟩ :
    Touch).le f = true) (h2 : ∀ x0, (a2 x0).Within f) : Act.Within f (.sampTake a0 a1 a2) := by
  unfold Act.sampTake; try dsimp only
  repeat'
    first
      | (with_reducible exact h2 _) | intro _ | (with_reducible refine (Act.within_look _).2 fun _ => ?_)
      | refine Act.within_takeEntry _ _ _ _ _ _ (Touch.le_trans (by decide) hf) ?_ ?_ (fun _ => ?_)
      | (with_reducible exact Act.within_nil) | (with_reducible refine Act.within_when ?_)
      | (with_reducible refine Act.within_andThen_of ?_ ?_) | (with_reducible refine Act.within_cons_of ?_ ?_)
      | (with_reducible refine Act.within_ite ?_ ?_) | (with_reducible refine Act.within_each fun _ => ?_) | split
      | exact Act.Within.mono (f := (touchRaise.join ⟨[.irq, .sealer], [.SAMP_STATUS], []⟩)) (by simp +decide) hf

@[simp] theorem Act.within_sealDone {f : Touch} (a0 a1 a2) (hf : (⟨[.irq], [], []⟩ : Touch).le f = true) : Act.Within f
    (.sealDone a0 a1 a2) := by
  refine Act.Within.mono ?_ hf
  unfold Act.sealDone
  repeat'
    first
      | intro _ | refine And.intro ?_ ?_ | (with_reducible refine Act.within_each fun _ => ?_)
      | (with_reducible refine Act.within_when ?_) | (with_reducible refine Act.within_ite ?_ ?_) | split | simp +decide

theorem Act.within_sealTake {f : Touch} (a0 a1 a2) (hf : (touchRaise.join ⟨[.irq, .sealer], [], []⟩ : Touch).le f =
    true) (h2 : ∀ x0, (a2 x0).Within f) : Act.Within f (.sealTake a0 a1 a2) := by
  unfold Act.sealTake; try dsimp only
  repeat'
    first
      | (with_reducible exact h2 _) | intro _ | (with_reducible refine (Act.within_look _).2 fun _ => ?_)
      | refine Act.within_takeEntry _ _ _ _ _ _ (Touch.le_trans (by decide) hf) ?_ ?_ (fun _ => ?_)
      | (with_reducible exact Act.within_nil) | (with_reducible refine Act.within_when ?_)
      | (with_reducible refine Act.within_andThen_of ?_ ?_) | (with_reducible refine Act.within_cons_of ?_ ?_)
      | (with_reducible refine Act.within_ite ?_ ?_) | (with_reducible refine Act.within_each fun _ => ?_) | split
      | exact Act.Within.mono (f := (touchRaise.join ⟨[.irq, .sealer], [], []⟩)) (by simp +decide) hf

@[simp] theorem Act.within_logAppend {f : Touch} (a0 a1 a2) (hf : (touchStore.join ⟨[.free, .nand, .sdir], [], []⟩ :
    Touch).le f = true) : Act.Within f (.logAppend a0 a1 a2) := by
  refine Act.Within.mono ?_ hf
  unfold Act.logAppend
  repeat'
    first
      | intro _ | refine And.intro ?_ ?_ | (with_reducible refine Act.within_each fun _ => ?_)
      | (with_reducible refine Act.within_when ?_) | (with_reducible refine Act.within_ite ?_ ?_) | split | simp +decide

@[simp] theorem Act.within_placeInSet {f : Touch} (a0 a1) (hf : (⟨[.irq, .sealer], [], [.SEAL_DEFER_COUNT]⟩ : Touch).le
    f = true) : Act.Within f (.placeInSet a0 a1) := by
  refine Act.Within.mono ?_ hf
  unfold Act.placeInSet
  repeat'
    first
      | intro _ | refine And.intro ?_ ?_ | (with_reducible refine Act.within_each fun _ => ?_)
      | (with_reducible refine Act.within_when ?_) | (with_reducible refine Act.within_ite ?_ ?_) | split | simp +decide

@[simp] theorem Act.within_tenantTicket {f : Touch} (a0 a1) (hf : (⟨[.sealer], [], []⟩ : Touch).le f = true) :
    Act.Within f (.tenantTicket a0 a1) := by
  refine Act.Within.mono ?_ hf
  unfold Act.tenantTicket
  repeat'
    first
      | intro _ | refine And.intro ?_ ?_ | (with_reducible refine Act.within_each fun _ => ?_)
      | (with_reducible refine Act.within_when ?_) | (with_reducible refine Act.within_ite ?_ ?_) | split | simp +decide

@[simp] theorem Act.within_ringWrite {f : Touch} (a0) (hf : (touchStore.join ⟨[.sealer], [], []⟩ : Touch).le f = true) :
    Act.Within f (.ringWrite a0) := by
  refine Act.Within.mono ?_ hf
  unfold Act.ringWrite
  repeat'
    first
      | intro _ | refine And.intro ?_ ?_ | (with_reducible refine Act.within_each fun _ => ?_)
      | (with_reducible refine Act.within_when ?_) | (with_reducible refine Act.within_ite ?_ ?_) | split | simp +decide

@[simp] theorem Act.within_rclDone {f : Touch} (a0 a1) (hf : (⟨[.irq], [], [.RCL_DENIED_COUNT, .RCL_QUERY_COUNT,
    .RCL_SHORT_COUNT]⟩ : Touch).le f = true) : Act.Within f (.rclDone a0 a1) := by
  refine Act.Within.mono ?_ hf
  unfold Act.rclDone
  repeat'
    first
      | intro _ | refine And.intro ?_ ?_ | (with_reducible refine Act.within_each fun _ => ?_)
      | (with_reducible refine Act.within_when ?_) | (with_reducible refine Act.within_ite ?_ ?_) | split | simp +decide

@[simp] theorem Act.within_rclReject {f : Touch} (a0 a1) (hf : (⟨[.irq], [.RCL_STATUS], [.RCL_DENIED_COUNT,
    .RCL_QUERY_COUNT, .RCL_SHORT_COUNT]⟩ : Touch).le f = true) : Act.Within f (.rclReject a0 a1) := by
  refine Act.Within.mono ?_ hf
  unfold Act.rclReject
  repeat'
    first
      | intro _ | refine And.intro ?_ ?_ | (with_reducible refine Act.within_each fun _ => ?_)
      | (with_reducible refine Act.within_when ?_) | (with_reducible refine Act.within_ite ?_ ?_) | split | simp +decide

@[simp] theorem Act.within_showRcl {f : Touch} (hf : (⟨[], [.RCL_PIPE_STATUS, .RCL_STATUS], []⟩ : Touch).le f = true) :
    Act.Within f .showRcl := by
  refine Act.Within.mono ?_ hf
  unfold Act.showRcl
  repeat'
    first
      | intro _ | refine And.intro ?_ ?_ | (with_reducible refine Act.within_each fun _ => ?_)
      | (with_reducible refine Act.within_when ?_) | (with_reducible refine Act.within_ite ?_ ?_) | split | simp +decide

@[simp] theorem Act.within_rclPop {f : Touch} (a0) (hf : (⟨[.rcl], [.RCL_PIPE_STATUS, .RCL_STATUS], []⟩ : Touch).le f =
    true) : Act.Within f (.rclPop a0) := by
  refine Act.Within.mono ?_ hf
  unfold Act.rclPop
  repeat'
    first
      | intro _ | refine And.intro ?_ ?_ | (with_reducible refine Act.within_each fun _ => ?_)
      | (with_reducible refine Act.within_when ?_) | (with_reducible refine Act.within_ite ?_ ?_) | split | simp +decide

theorem Act.within_rclTake {f : Touch} (a0 a1 a2) (hf : (touchRaise.join ⟨[.irq, .rcl], [.RCL_PIPE_STATUS, .RCL_STATUS],
    []⟩ : Touch).le f = true) (h2 : ∀ x0, (a2 x0).Within f) : Act.Within f (.rclTake a0 a1 a2) := by
  unfold Act.rclTake; try dsimp only
  repeat'
    first
      | (with_reducible exact h2 _) | intro _ | (with_reducible refine (Act.within_look _).2 fun _ => ?_)
      | refine Act.within_takeEntry _ _ _ _ _ _ (Touch.le_trans (by decide) hf) ?_ ?_ (fun _ => ?_)
      | (with_reducible exact Act.within_nil) | (with_reducible refine Act.within_when ?_)
      | (with_reducible refine Act.within_andThen_of ?_ ?_) | (with_reducible refine Act.within_cons_of ?_ ?_)
      | (with_reducible refine Act.within_ite ?_ ?_) | (with_reducible refine Act.within_each fun _ => ?_) | split
      | exact Act.Within.mono (f := (touchRaise.join ⟨[.irq, .rcl], [.RCL_PIPE_STATUS, .RCL_STATUS], []⟩)) (by simp +decide) hf

@[simp] theorem Act.within_writeIdx {f : Touch} (a0 a1) (hf : (touchStore : Touch).le f = true) : Act.Within f
    (.writeIdx a0 a1) := by
  refine Act.Within.mono ?_ hf
  unfold Act.writeIdx
  repeat'
    first
      | intro _ | refine And.intro ?_ ?_ | (with_reducible refine Act.within_each fun _ => ?_)
      | (with_reducible refine Act.within_when ?_) | (with_reducible refine Act.within_ite ?_ ?_) | split | simp +decide

@[simp] theorem Act.within_nodeCrc {f : Touch} (a0 a1) (hf : (touchStore.join ⟨[], [], [.RCL_NODE_CRC_COUNT]⟩ :
    Touch).le f = true) : Act.Within f (.nodeCrc a0 a1) := by
  refine Act.Within.mono ?_ hf
  unfold Act.nodeCrc
  repeat'
    first
      | intro _ | refine And.intro ?_ ?_ | (with_reducible refine Act.within_each fun _ => ?_)
      | (with_reducible refine Act.within_when ?_) | (with_reducible refine Act.within_ite ?_ ?_) | split | simp +decide

@[simp] theorem Act.within_rclLost {f : Touch} (a0 a1 a2) (hf : (touchStore.join ⟨[.irq], [], [.RCL_DENIED_COUNT,
    .RCL_NODE_CRC_COUNT, .RCL_QUERY_COUNT, .RCL_SHORT_COUNT]⟩ : Touch).le f = true) : Act.Within f (.rclLost a0 a1 a2)
    := by
  refine Act.Within.mono ?_ hf
  unfold Act.rclLost
  repeat'
    first
      | intro _ | refine And.intro ?_ ?_ | (with_reducible refine Act.within_each fun _ => ?_)
      | (with_reducible refine Act.within_when ?_) | (with_reducible refine Act.within_ite ?_ ?_) | split | simp +decide

@[simp] theorem Act.within_rclInputLost {f : Touch} (a0 a1) (hf : (touchRaise.join ⟨[.irq], [], [.RCL_DENIED_COUNT,
    .RCL_QUERY_COUNT, .RCL_SHORT_COUNT]⟩ : Touch).le f = true) : Act.Within f (.rclInputLost a0 a1) := by
  refine Act.Within.mono ?_ hf
  unfold Act.rclInputLost
  repeat'
    first
      | intro _ | refine And.intro ?_ ?_ | (with_reducible refine Act.within_each fun _ => ?_)
      | (with_reducible refine Act.within_when ?_) | (with_reducible refine Act.within_ite ?_ ?_) | split | simp +decide

@[simp] theorem Act.within_rclAreas {f : Touch} (a0 a1 a2 a3 a4 a5) (hf : (touchStore.join ⟨[.free], [], []⟩ : Touch).le
    f = true) : Act.Within f (.rclAreas a0 a1 a2 a3 a4 a5) := by
  refine Act.Within.mono ?_ hf
  unfold Act.rclAreas
  repeat'
    first
      | intro _ | refine And.intro ?_ ?_ | (with_reducible refine Act.within_each fun _ => ?_)
      | (with_reducible refine Act.within_when ?_) | (with_reducible refine Act.within_ite ?_ ?_) | split | simp +decide

@[simp] theorem Act.within_rclStart {f : Touch} (a0 a1) (hf : (touchStore.join ⟨[.free, .rcl], [.RCL_PIPE_STATUS,
    .RCL_STATUS], [.RCL_NODE_CRC_COUNT]⟩ : Touch).le f = true) : Act.Within f (.rclStart a0 a1) := by
  refine Act.Within.mono ?_ hf
  unfold Act.rclStart
  repeat'
    first
      | intro _ | refine And.intro ?_ ?_ | (with_reducible refine Act.within_each fun _ => ?_)
      | (with_reducible refine Act.within_when ?_) | (with_reducible refine Act.within_ite ?_ ?_) | split | simp +decide

@[simp] theorem Act.within_setStaged {f : Touch} (a0) (hf : (⟨[.chart], [.CHART_EFFECTIVE, .CHART_STATUS], []⟩ :
    Touch).le f = true) : Act.Within f (.setStaged a0) := by
  refine Act.Within.mono ?_ hf
  unfold Act.setStaged
  repeat'
    first
      | intro _ | refine And.intro ?_ ?_ | (with_reducible refine Act.within_each fun _ => ?_)
      | (with_reducible refine Act.within_when ?_) | (with_reducible refine Act.within_ite ?_ ?_) | split | simp +decide

@[simp] theorem Act.within_mapWindows {f : Touch} (hf : (⟨[.chart], [], []⟩ : Touch).le f = true) : Act.Within f
    .mapWindows := by
  refine Act.Within.mono ?_ hf
  unfold Act.mapWindows
  repeat'
    first
      | intro _ | refine And.intro ?_ ?_ | (with_reducible refine Act.within_each fun _ => ?_)
      | (with_reducible refine Act.within_when ?_) | (with_reducible refine Act.within_ite ?_ ?_) | split | simp +decide

@[simp] theorem Act.within_loseGranule {f : Touch} (a0) (hf : (⟨[.free, .mem], [], []⟩ : Touch).le f = true) :
    Act.Within f (.loseGranule a0) := by
  refine Act.Within.mono ?_ hf
  unfold Act.loseGranule
  repeat'
    first
      | intro _ | refine And.intro ?_ ?_ | (with_reducible refine Act.within_each fun _ => ?_)
      | (with_reducible refine Act.within_when ?_) | (with_reducible refine Act.within_ite ?_ ?_) | split | simp +decide

@[simp] theorem Act.within_darkenGranule {f : Touch} (a0) (hf : (⟨[.chart, .ls, .mem], [], []⟩ : Touch).le f = true) :
    Act.Within f (.darkenGranule a0) := by
  refine Act.Within.mono ?_ hf
  unfold Act.darkenGranule
  repeat'
    first
      | intro _ | refine And.intro ?_ ?_ | (with_reducible refine Act.within_each fun _ => ?_)
      | (with_reducible refine Act.within_when ?_) | (with_reducible refine Act.within_ite ?_ ?_) | split | simp +decide

@[simp] theorem Act.within_releaseGranules {f : Touch} (a0) (hf : (⟨[.chart, .free, .ls, .mem], [], []⟩ : Touch).le f =
    true) : Act.Within f (.releaseGranules a0) := by
  refine Act.Within.mono ?_ hf
  unfold Act.releaseGranules
  repeat'
    first
      | intro _ | refine And.intro ?_ ?_ | (with_reducible refine Act.within_each fun _ => ?_)
      | (with_reducible refine Act.within_when ?_) | (with_reducible refine Act.within_ite ?_ ?_) | split | simp +decide

@[simp] theorem Act.within_islandLeaves {f : Touch} (a0 a1) (hf : (⟨[.chart, .free, .ls, .mct, .mem], [.CHART_ISLAND],
    []⟩ : Touch).le f = true) : Act.Within f (.islandLeaves a0 a1) := by
  refine Act.Within.mono ?_ hf
  unfold Act.islandLeaves
  repeat'
    first
      | intro _ | refine And.intro ?_ ?_ | (with_reducible refine Act.within_each fun _ => ?_)
      | (with_reducible refine Act.within_when ?_) | (with_reducible refine Act.within_ite ?_ ?_) | split | simp +decide

@[simp] theorem Act.within_showIsland {f : Touch} (a0 a1 a2) (hf : (⟨[], [.CHART_ISLAND], []⟩ : Touch).le f = true) :
    Act.Within f (.showIsland a0 a1 a2) := by
  refine Act.Within.mono ?_ hf
  unfold Act.showIsland
  repeat'
    first
      | intro _ | refine And.intro ?_ ?_ | (with_reducible refine Act.within_each fun _ => ?_)
      | (with_reducible refine Act.within_when ?_) | (with_reducible refine Act.within_ite ?_ ?_) | split | simp +decide

@[simp] theorem Act.within_changeIsland {f : Touch} (a0 a1 a2) (hf : (⟨[.chart, .out], [.CHART_ISLAND], []⟩ : Touch).le
    f = true) : Act.Within f (.changeIsland a0 a1 a2) := by
  refine Act.Within.mono ?_ hf
  unfold Act.changeIsland
  repeat'
    first
      | intro _ | refine And.intro ?_ ?_ | (with_reducible refine Act.within_each fun _ => ?_)
      | (with_reducible refine Act.within_when ?_) | (with_reducible refine Act.within_ite ?_ ?_) | split | simp +decide

@[simp] theorem Act.within_applyChart {f : Touch} (a0 a1) (hf : (⟨[.chart, .free, .ls, .mct, .mem, .out], [.CHART_DRAIN,
    .CHART_EFFECTIVE, .CHART_ISLAND, .CHART_STATUS, .IRQ_SRC], [.CHART_APPLY_COUNT]⟩ : Touch).le f = true) : Act.Within
    f (.applyChart a0 a1) := by
  refine Act.Within.mono ?_ hf
  unfold Act.applyChart
  repeat'
    first
      | intro _ | refine And.intro ?_ ?_ | (with_reducible refine Act.within_each fun _ => ?_)
      | (with_reducible refine Act.within_when ?_) | (with_reducible refine Act.within_ite ?_ ?_) | split | simp +decide

@[simp] theorem Act.within_firstChart {f : Touch} (a0) (hf : (⟨[.chart], [.CHART_ISLAND, .CHART_STATUS, .IRQ_SRC],
    [.CHART_APPLY_COUNT]⟩ : Touch).le f = true) : Act.Within f (.firstChart a0) := by
  refine Act.Within.mono ?_ hf
  unfold Act.firstChart
  repeat'
    first
      | intro _ | refine And.intro ?_ ?_ | (with_reducible refine Act.within_each fun _ => ?_)
      | (with_reducible refine Act.within_when ?_) | (with_reducible refine Act.within_ite ?_ ?_) | split | simp +decide

@[simp] theorem Act.within_stageChart {f : Touch} (a0) (hf : (touchRaise.join ⟨[], [.CHART_EFFECTIVE, .CHART_STATUS],
    [.CHART_APPLY_COUNT, .CHART_REJECT_COUNT]⟩ : Touch).le f = true) : Act.Within f (.stageChart a0) := by
  refine Act.Within.mono ?_ hf
  unfold Act.stageChart
  repeat'
    first
      | intro _ | refine And.intro ?_ ?_ | (with_reducible refine Act.within_each fun _ => ?_)
      | (with_reducible refine Act.within_when ?_) | (with_reducible refine Act.within_ite ?_ ?_) | split | simp +decide

@[simp] theorem Act.within_closeAllBerths {f : Touch} (hf : (touchStore.join ⟨[.berth], [.BERTH_IN_USE], []⟩ : Touch).le
    f = true) : Act.Within f .closeAllBerths := by
  refine Act.Within.mono ?_ hf
  unfold Act.closeAllBerths
  repeat'
    first
      | intro _ | refine And.intro ?_ ?_ | (with_reducible refine Act.within_each fun _ => ?_)
      | (with_reducible refine Act.within_when ?_) | simp +decide [-List.reduceReplicate]

@[simp] theorem Act.within_queryMoved {f : Touch} (a0) (hf : (touchRaise.join ⟨[.irq, .rcl], [.RCL_PIPE_STATUS,
    .RCL_STATUS], []⟩ : Touch).le f = true) : Act.Within f (.queryMoved a0) := by
  refine Act.Within.mono ?_ hf
  unfold Act.queryMoved
  repeat'
    first
      | intro _ | refine And.intro ?_ ?_ | (with_reducible refine Act.within_each fun _ => ?_)
      | (with_reducible refine Act.within_when ?_) | (with_reducible refine Act.within_ite ?_ ?_) | split | simp +decide

@[simp] theorem Act.within_forceLeave {f : Touch} (a0 a1) (hf : (((touchTileEnd.join touchTransfer).join
    touchStore).join ⟨[.berth, .core, .free, .hostMem, .ls, .mct, .rcl, .tier], [.BERTH_IN_USE, .CHART_DRAIN,
    .FERRY_STATUS, .RCL_PIPE_STATUS, .RCL_STATUS, .TIER_MOOR_STATUS], [.BERTH_SPEC_REFUSE_COUNT,
    .CHART_LEAVE_TIMEOUT_COUNT, .MCT_CROSS_ABORT_COUNT]⟩ : Touch).le f = true) : Act.Within f (.forceLeave a0 a1) := by
  refine Act.Within.mono ?_ hf
  unfold Act.forceLeave
  repeat'
    first
      | intro _ | refine And.intro ?_ ?_ | (with_reducible refine Act.within_each fun _ => ?_)
      | (with_reducible refine Act.within_when ?_) | (with_reducible refine Act.within_ite ?_ ?_) | split | simp +decide

@[simp] theorem Act.within_stopStart {f : Touch} (a0 a1) (hf : (touchRaise.join ⟨[], [.CFG_STATUS], []⟩ : Touch).le f =
    true) : Act.Within f (.stopStart a0 a1) := by
  refine Act.Within.mono ?_ hf
  unfold Act.stopStart
  repeat'
    first
      | intro _ | refine And.intro ?_ ?_ | (with_reducible refine Act.within_each fun _ => ?_)
      | (with_reducible refine Act.within_when ?_) | (with_reducible refine Act.within_ite ?_ ?_) | split | simp +decide

@[simp] theorem Act.within_advanceStage {f : Touch} (hf : (⟨[], [.CFG_STATUS], []⟩ : Touch).le f = true) : Act.Within f
    .advanceStage := by
  refine Act.Within.mono ?_ hf
  unfold Act.advanceStage
  repeat'
    first
      | intro _ | refine And.intro ?_ ?_ | (with_reducible refine Act.within_each fun _ => ?_)
      | (with_reducible refine Act.within_when ?_) | (with_reducible refine Act.within_ite ?_ ?_) | split | simp +decide

@[simp] theorem Act.within_lockedWrite {f : Touch} (a0) (hf : (⟨[], [.CFG_LOCKED_ADDR, .CFG_STATUS],
    [.CFG_LOCKED_WRITE_COUNT]⟩ : Touch).le f = true) : Act.Within f (.lockedWrite a0) := by
  refine Act.Within.mono ?_ hf
  unfold Act.lockedWrite
  repeat'
    first
      | intro _ | refine And.intro ?_ ?_ | (with_reducible refine Act.within_each fun _ => ?_)
      | (with_reducible refine Act.within_when ?_) | (with_reducible refine Act.within_ite ?_ ?_) | split | simp +decide

end Sys2Proof.Machine
end

