-- ==== Sys2Proof/Laws/TouchSessions.lean ====
section
/-! SUPPORT. What the operations of sailing, directory, berth, ferry, flash and near-memory commands can touch, each said
once. -/

namespace Sys2Proof.Machine

@[simp] theorem Act.within_endWaiting {f : Touch} (a0 a1 a2 a3 a4) (hf : (⟨[.berth, .irq], [],
    [.BERTH_SPEC_REFUSE_COUNT]⟩ : Touch).le f = true) : Act.Within f (.endWaiting a0 a1 a2 a3 a4) := by
  refine Act.Within.mono ?_ hf
  unfold Act.endWaiting
  repeat'
    first
      | intro _ | refine And.intro ?_ ?_ | (with_reducible refine Act.within_each fun _ => ?_)
      | (with_reducible refine Act.within_when ?_) | (with_reducible refine Act.within_ite ?_ ?_) | split | simp +decide

@[simp] theorem Act.within_endQueued {f : Touch} (a0 a1) (hf : (⟨[.berth, .irq], [], [.BERTH_SPEC_REFUSE_COUNT]⟩ :
    Touch).le f = true) : Act.Within f (.endQueued a0 a1) := by
  refine Act.Within.mono ?_ hf
  unfold Act.endQueued
  repeat'
    first
      | intro _ | refine And.intro ?_ ?_ | (with_reducible refine Act.within_each fun _ => ?_)
      | (with_reducible refine Act.within_when ?_) | (with_reducible refine Act.within_ite ?_ ?_) | split | simp +decide

@[simp] theorem Act.within_berthLost {f : Touch} (a0) (hf : (touchRaise.join ⟨[.irq], [], [.BERTH_SPEC_REFUSE_COUNT,
    .ERR_MANIFEST_FAIL_COUNT]⟩ : Touch).le f = true) : Act.Within f (.berthLost a0) := by
  refine Act.Within.mono ?_ hf
  unfold Act.berthLost
  repeat'
    first
      | intro _ | refine And.intro ?_ ?_ | (with_reducible refine Act.within_each fun _ => ?_)
      | (with_reducible refine Act.within_when ?_) | (with_reducible refine Act.within_ite ?_ ?_) | split | simp +decide

@[simp] theorem Act.within_advance {f : Touch} (a0 a1 a2) (hf : (touchStore : Touch).le f = true) : Act.Within f
    (.advance a0 a1 a2) := by
  refine Act.Within.mono ?_ hf
  unfold Act.advance
  repeat'
    first
      | intro _ | refine And.intro ?_ ?_ | (with_reducible refine Act.within_each fun _ => ?_)
      | (with_reducible refine Act.within_when ?_) | (with_reducible refine Act.within_ite ?_ ?_) | split | simp +decide

@[simp] theorem Act.within_appendNow {f : Touch} (a0) (hf : (touchStore.join ⟨[.berth, .irq], [],
    [.BERTH_SPEC_REFUSE_COUNT, .ERR_MANIFEST_FAIL_COUNT]⟩ : Touch).le f = true) : Act.Within f (.appendNow a0) := by
  refine Act.Within.mono ?_ hf
  unfold Act.appendNow
  repeat'
    first
      | intro _ | refine And.intro ?_ ?_ | (with_reducible refine Act.within_each fun _ => ?_)
      | (with_reducible refine Act.within_when ?_) | (with_reducible refine Act.within_ite ?_ ?_) | split | simp +decide

@[simp] theorem Act.within_lapWait {f : Touch} (a0 a1) (hf : (⟨[.berth], [], [.BERTH_LAP_STALL_COUNT]⟩ : Touch).le f =
    true) : Act.Within f (.lapWait a0 a1) := by
  refine Act.Within.mono ?_ hf
  unfold Act.lapWait
  repeat'
    first
      | intro _ | refine And.intro ?_ ?_ | (with_reducible refine Act.within_each fun _ => ?_)
      | (with_reducible refine Act.within_when ?_) | (with_reducible refine Act.within_ite ?_ ?_) | split | simp +decide

theorem Act.within_appendTry {f : Touch} (a0 a1 a2) (hf : (touchStore.join ⟨[.berth, .irq], [],
    [.BERTH_SPEC_REFUSE_COUNT, .ERR_MANIFEST_FAIL_COUNT]⟩ : Touch).le f = true) (h1 : a1.Within f) : Act.Within f
    (.appendTry a0 a1 a2) := by
  unfold Act.appendTry; try dsimp only
  repeat'
    first
      | (with_reducible exact h1) | intro _ | (with_reducible refine (Act.within_look _).2 fun _ => ?_)
      | (with_reducible exact Act.within_nil) | (with_reducible refine Act.within_when ?_)
      | (with_reducible refine Act.within_andThen_of ?_ ?_) | (with_reducible refine Act.within_cons_of ?_ ?_)
      | (with_reducible refine Act.within_ite ?_ ?_) | (with_reducible refine Act.within_each fun _ => ?_) | split
      | exact Act.Within.mono (f := (touchStore.join ⟨[.berth, .irq], [], [.BERTH_SPEC_REFUSE_COUNT, .ERR_MANIFEST_FAIL_COUNT]⟩)) (by simp +decide) hf

@[simp] theorem Act.within_zeroSpec {f : Touch} (a0 a1 a2) (hf : (touchStore.join ⟨[.berth], [], []⟩ : Touch).le f = true)
    : Act.Within f (.zeroSpec a0 a1 a2) := by
  refine Act.Within.mono ?_ hf
  unfold Act.zeroSpec
  repeat'
    first
      | intro _ | refine And.intro ?_ ?_ | (with_reducible refine Act.within_each fun _ => ?_)
      | simp +decide [-List.reduceReplicate]

@[simp] theorem Act.within_resolveNow {f : Touch} (a0) (hf : (touchStore.join ⟨[.berth, .irq], [],
    [.BERTH_SPEC_CANCEL_COUNT, .BERTH_SPEC_COMMIT_COUNT, .BERTH_SPEC_REFUSE_COUNT, .ERR_MANIFEST_FAIL_COUNT]⟩ :
    Touch).le f = true) : Act.Within f (.resolveNow a0) := by
  refine Act.Within.mono ?_ hf
  unfold Act.resolveNow
  repeat'
    first
      | intro _ | refine And.intro ?_ ?_ | (with_reducible refine Act.within_each fun _ => ?_)
      | (with_reducible refine Act.within_when ?_) | (with_reducible refine Act.within_ite ?_ ?_) | split | simp +decide

theorem Act.within_resolveTry {f : Touch} (a0 a1 a2) (hf : (touchStore.join ⟨[.berth, .irq], [],
    [.BERTH_SPEC_CANCEL_COUNT, .BERTH_SPEC_COMMIT_COUNT, .BERTH_SPEC_REFUSE_COUNT, .ERR_MANIFEST_FAIL_COUNT]⟩ :
    Touch).le f = true) (h1 : a1.Within f) : Act.Within f (.resolveTry a0 a1 a2) := by
  unfold Act.resolveTry; try dsimp only
  repeat'
    first
      | (with_reducible exact h1) | intro _ | (with_reducible refine (Act.within_look _).2 fun _ => ?_)
      | (with_reducible exact Act.within_nil) | (with_reducible refine Act.within_when ?_)
      | (with_reducible refine Act.within_andThen_of ?_ ?_) | (with_reducible refine Act.within_cons_of ?_ ?_)
      | (with_reducible refine Act.within_ite ?_ ?_) | (with_reducible refine Act.within_each fun _ => ?_) | split
      | exact Act.Within.mono (f := (touchStore.join ⟨[.berth, .irq], [], [.BERTH_SPEC_CANCEL_COUNT, .BERTH_SPEC_COMMIT_COUNT, .BERTH_SPEC_REFUSE_COUNT, .ERR_MANIFEST_FAIL_COUNT]⟩)) (by simp +decide) hf

@[simp] theorem Act.within_otherSaves {f : Touch} (a0 a1 a2) (hf : (⟨[.berth, .irq], [], [.BERTH_SPEC_REFUSE_COUNT]⟩ :
    Touch).le f = true) : Act.Within f (.otherSaves a0 a1 a2) := by
  refine Act.Within.mono ?_ hf
  unfold Act.otherSaves
  repeat'
    first
      | intro _ | refine And.intro ?_ ?_ | (with_reducible refine Act.within_each fun _ => ?_)
      | (with_reducible refine Act.within_when ?_) | (with_reducible refine Act.within_ite ?_ ?_) | split | simp +decide

@[simp] theorem Act.within_saveFails {f : Touch} (a0) (hf : (⟨[.berth, .irq], [], [.BERTH_HISTORY_FAIL_COUNT,
    .BERTH_SPEC_REFUSE_COUNT]⟩ : Touch).le f = true) : Act.Within f (.saveFails a0) := by
  refine Act.Within.mono ?_ hf
  unfold Act.saveFails
  repeat'
    first
      | intro _ | refine And.intro ?_ ?_ | (with_reducible refine Act.within_each fun _ => ?_)
      | (with_reducible refine Act.within_when ?_) | (with_reducible refine Act.within_ite ?_ ?_) | split | simp +decide

@[simp] theorem Act.within_keepHistory {f : Touch} (a0 a1 a2) (hf : (touchStore.join ⟨[.flash, .nand, .sdir, .tier],
    [.FLASH_STATUS], []⟩ : Touch).le f = true) : Act.Within f (.keepHistory a0 a1 a2) := by
  refine Act.Within.mono ?_ hf
  unfold Act.keepHistory
  repeat'
    first
      | intro _ | refine And.intro ?_ ?_ | (with_reducible refine Act.within_each fun _ => ?_)
      | (with_reducible refine Act.within_when ?_) | (with_reducible refine Act.within_ite ?_ ?_) | split | simp +decide

@[simp] theorem Act.within_historyNote {f : Touch} (a0 a1 a2) (hf : (⟨[.tier], [], [.TIER_CODEC_TENSION_COUNT,
    .TIER_STORED_COUNT]⟩ : Touch).le f = true) : Act.Within f (.historyNote a0 a1 a2) := by
  refine Act.Within.mono ?_ hf
  unfold Act.historyNote
  repeat'
    first
      | intro _ | refine And.intro ?_ ?_ | (with_reducible refine Act.within_each fun _ => ?_)
      | (with_reducible refine Act.within_when ?_) | (with_reducible refine Act.within_ite ?_ ?_) | split | simp +decide

@[simp] theorem Act.within_loadRefused {f : Touch} (a0 a1) (hf : (⟨[.irq], [], [.BERTH_GLOBAL_REFUSE_COUNT,
    .BERTH_SPEC_REFUSE_COUNT]⟩ : Touch).le f = true) : Act.Within f (.loadRefused a0 a1) := by
  refine Act.Within.mono ?_ hf
  unfold Act.loadRefused
  repeat'
    first
      | intro _ | refine And.intro ?_ ?_ | (with_reducible refine Act.within_each fun _ => ?_)
      | (with_reducible refine Act.within_when ?_) | (with_reducible refine Act.within_ite ?_ ?_) | split | simp +decide

@[simp] theorem Act.within_askPeer {f : Touch} (a0 a1 a2) (hf : (((touchSend.join touchTransfer).join touchStore).join
    ⟨[.free, .hostMem, .ls], [], [.ERR_MANIFEST_FAIL_COUNT]⟩ : Touch).le f = true) : Act.Within f (.askPeer a0 a1 a2) :=
    by
  refine Act.Within.mono ?_ hf
  unfold Act.askPeer
  repeat'
    first
      | intro _ | refine And.intro ?_ ?_ | (with_reducible refine Act.within_each fun _ => ?_)
      | (with_reducible refine Act.within_when ?_) | (with_reducible refine Act.within_ite ?_ ?_) | split | simp +decide

@[simp] theorem Act.within_sendPeer {f : Touch} (a0 a1 a2 a3) (hf : (((touchSend.join touchTransfer).join
    touchStore).join ⟨[.free, .hostMem, .ls], [], [.ERR_MANIFEST_FAIL_COUNT]⟩ : Touch).le f = true) : Act.Within f
    (.sendPeer a0 a1 a2 a3) := by
  refine Act.Within.mono ?_ hf
  unfold Act.sendPeer
  refine (Act.within_look _).2 fun s => ?_
  split
  · exact Act.within_xferFails _ _ (by decide)
  · dsimp only
    exact Act.within_cons_of (Act.within_modGrants _ _ (by decide)) (Act.within_cons_of (Act.within_setXfer _ (by decide))
      (Act.within_cons_of (Act.within_each fun _ => Act.within_mctSend _ _ _ _ (by decide)) Act.within_nil))

@[simp] theorem Act.within_beginXfer {f : Touch} (a0 a1) (hf : (((touchSend.join touchTransfer).join touchStore).join
    ⟨[.free, .hostMem, .ls], [], [.ERR_MANIFEST_FAIL_COUNT]⟩ : Touch).le f = true) : Act.Within f (.beginXfer a0 a1) :=
    by
  refine Act.Within.mono ?_ hf
  unfold Act.beginXfer
  repeat'
    first
      | intro _ | refine And.intro ?_ ?_ | (with_reducible refine Act.within_each fun _ => ?_)
      | (with_reducible refine Act.within_when ?_) | (with_reducible refine Act.within_ite ?_ ?_) | split | simp +decide

@[simp] theorem Act.within_sharePut {f : Touch} (a0 a1 a2 a3 a4 a5) (hf : (touchStore.join ⟨[.berth, .tier], [],
    [.TIER_CODEC_TENSION_COUNT, .TIER_STORED_COUNT]⟩ : Touch).le f = true) : Act.Within f (.sharePut a0 a1 a2 a3 a4 a5)
    := by
  refine Act.Within.mono ?_ hf
  unfold Act.sharePut
  repeat'
    first
      | intro _ | refine And.intro ?_ ?_ | (with_reducible refine Act.within_each fun _ => ?_)
      | (with_reducible refine Act.within_when ?_) | (with_reducible refine Act.within_ite ?_ ?_) | split | simp +decide

@[simp] theorem Act.within_shareDone {f : Touch} (a0) (hf : (touchStore.join ⟨[.flash, .hostMem, .irq, .mct, .nand,
    .tier], [.BERTH_IN_USE, .BOLL_COUNT, .CHART_DRAIN, .FERRY_STATUS, .FLASH_STATUS, .HOST_CXL_WIN, .HOST_EVENT,
    .HOST_WIN, .TIER_MOOR_STATUS], [.TIER_NO_SPACE_COUNT]⟩ : Touch).le f = true) : Act.Within f (.shareDone a0) := by
  refine Act.Within.mono ?_ hf
  unfold Act.shareDone
  repeat'
    first
      | intro _ | refine And.intro ?_ ?_ | (with_reducible refine Act.within_each fun _ => ?_)
      | (with_reducible refine Act.within_when ?_) | (with_reducible refine Act.within_ite ?_ ?_) | split | simp +decide

@[simp] theorem Act.within_shareTile {f : Touch} (a0 a1 a2 a3 a4 a5) (hf : (touchStore.join ⟨[.berth, .flash, .hostMem,
    .irq, .mct, .nand, .tier], [.BERTH_IN_USE, .BOLL_COUNT, .CHART_DRAIN, .FERRY_STATUS, .FLASH_STATUS, .HOST_CXL_WIN,
    .HOST_EVENT, .HOST_WIN, .TIER_MOOR_STATUS], [.ERR_MANIFEST_FAIL_COUNT, .FERRY_LATE_COUNT,
    .FERRY_MANIFEST_FAIL_COUNT, .FERRY_READ_FAIL_COUNT, .FERRY_REJECT_COUNT, .FERRY_WRITE_FAIL_COUNT,
    .TIER_CODEC_TENSION_COUNT, .TIER_NO_SPACE_COUNT, .TIER_STORED_COUNT]⟩ : Touch).le f = true) : Act.Within f
    (.shareTile a0 a1 a2 a3 a4 a5) := by
  refine Act.Within.mono ?_ hf
  unfold Act.shareTile
  repeat'
    first
      | intro _ | refine And.intro ?_ ?_ | (with_reducible refine Act.within_each fun _ => ?_)
      | (with_reducible refine Act.within_when ?_) | (with_reducible refine Act.within_ite ?_ ?_) | split | simp +decide

@[simp] theorem Act.within_sourceLost {f : Touch} (a0 a1) (hf : (touchRaise.join ⟨[], [], [.ERR_MANIFEST_FAIL_COUNT]⟩ :
    Touch).le f = true) : Act.Within f (.sourceLost a0 a1) := by
  refine Act.Within.mono ?_ hf
  unfold Act.sourceLost
  repeat'
    first
      | intro _ | refine And.intro ?_ ?_ | (with_reducible refine Act.within_each fun _ => ?_)
      | (with_reducible refine Act.within_when ?_) | (with_reducible refine Act.within_ite ?_ ?_) | split | simp +decide

@[simp] theorem Act.within_sectionFails {f : Touch} (a0 a1) (hf : (⟨[.boot, .chart, .out], [.CHART_ISLAND], []⟩ :
    Touch).le f = true) : Act.Within f (.sectionFails a0 a1) := by
  refine Act.Within.mono ?_ hf
  unfold Act.sectionFails
  repeat'
    first
      | intro _ | refine And.intro ?_ ?_ | (with_reducible refine Act.within_each fun _ => ?_)
      | (with_reducible refine Act.within_when ?_) | (with_reducible refine Act.within_ite ?_ ?_) | split | simp +decide

@[simp] theorem Act.within_firmwareTile {f : Touch} (a0 a1 a2 a3) (hf : (((touchSend.join touchTransfer).join
    touchStore).join ⟨[.berth, .boot, .free, .hostMem, .ls], [], [.ERR_MANIFEST_FAIL_COUNT]⟩ : Touch).le f = true) :
    Act.Within f (.firmwareTile a0 a1 a2 a3) := by
  refine Act.Within.mono ?_ hf
  unfold Act.firmwareTile
  repeat'
    first
      | intro _ | refine And.intro ?_ ?_ | (with_reducible refine Act.within_each fun _ => ?_)
      | (with_reducible refine Act.within_when ?_) | (with_reducible refine Act.within_ite ?_ ?_) | split | simp +decide

@[simp] theorem Act.within_spreadShare {f : Touch} (a0) (hf : (touchStore.join ⟨[.flash, .hostMem, .irq, .mct, .nand,
    .tier], [.BERTH_IN_USE, .BOLL_COUNT, .CHART_DRAIN, .FERRY_STATUS, .FLASH_STATUS, .HOST_CXL_WIN, .HOST_EVENT,
    .HOST_WIN, .TIER_MOOR_STATUS], [.TIER_NO_SPACE_COUNT]⟩ : Touch).le f = true) : Act.Within f (.spreadShare a0) := by
  refine Act.Within.mono ?_ hf
  unfold Act.spreadShare
  repeat'
    first
      | intro _ | refine And.intro ?_ ?_ | (with_reducible refine Act.within_each fun _ => ?_)
      | (with_reducible refine Act.within_when ?_) | (with_reducible refine Act.within_ite ?_ ?_) | split | simp +decide

@[simp] theorem Act.within_takeHistory {f : Touch} (a0) (hf : (⟨[.flash, .nand, .out, .tier], [.FLASH_STATUS], []⟩ :
    Touch).le f = true) : Act.Within f (.takeHistory a0) := by
  refine Act.Within.mono ?_ hf
  unfold Act.takeHistory
  repeat'
    first
      | intro _ | refine And.intro ?_ ?_ | (with_reducible refine Act.within_each fun _ => ?_)
      | (with_reducible refine Act.within_when ?_) | (with_reducible refine Act.within_ite ?_ ?_) | split | simp +decide

@[simp] theorem Act.within_runShare {f : Touch} (a0 a1 a2 a3 a4 a5) (hf : (touchStore.join ⟨[.berth, .flash, .hostMem,
    .irq, .mct, .nand, .tier], [.BERTH_IN_USE, .BOLL_COUNT, .CHART_DRAIN, .FERRY_STATUS, .FLASH_STATUS, .HOST_CXL_WIN,
    .HOST_EVENT, .HOST_WIN, .TIER_MOOR_STATUS], [.TIER_NO_SPACE_COUNT]⟩ : Touch).le f = true) : Act.Within f (.runShare
    a0 a1 a2 a3 a4 a5) := by
  refine Act.Within.mono ?_ hf
  unfold Act.runShare
  repeat'
    first
      | intro _ | refine And.intro ?_ ?_ | (with_reducible refine Act.within_each fun _ => ?_)
      | (with_reducible refine Act.within_when ?_) | (with_reducible refine Act.within_ite ?_ ?_) | split | simp +decide

@[simp] theorem Act.within_startShare {f : Touch} (a0) (hf : (touchStore.join ⟨[.berth, .flash, .hostMem, .irq, .mct,
    .nand, .tier], [.BERTH_IN_USE, .BOLL_COUNT, .CHART_DRAIN, .FERRY_STATUS, .FLASH_STATUS, .HOST_CXL_WIN, .HOST_EVENT,
    .HOST_WIN, .TIER_MOOR_STATUS], [.BERTH_SPEC_ORPHAN_COUNT, .ERR_MANIFEST_FAIL_COUNT, .TIER_NO_SPACE_COUNT]⟩ :
    Touch).le f = true) : Act.Within f (.startShare a0) := by
  refine Act.Within.mono ?_ hf
  unfold Act.startShare
  repeat'
    first
      | intro _ | refine And.intro ?_ ?_ | (with_reducible refine Act.within_each fun _ => ?_)
      | (with_reducible refine Act.within_when ?_) | (with_reducible refine Act.within_ite ?_ ?_) | split | simp +decide

theorem Act.within_dieEvent {f : Touch} (a0 a1 a2) (hf : (touchRaise.join ⟨[.flash], [], []⟩ : Touch).le f = true) (h1 :
    a1.Within f) (h2 : a2.Within f) : Act.Within f (.dieEvent a0 a1 a2) := by
  unfold Act.dieEvent; try dsimp only
  repeat'
    first
      | (with_reducible exact h1) | (with_reducible exact h2) | intro _ | (with_reducible refine (Act.within_look _).2 fun _ => ?_)
      | (with_reducible exact Act.within_nil) | (with_reducible refine Act.within_when ?_)
      | (with_reducible refine Act.within_andThen_of ?_ ?_) | (with_reducible refine Act.within_cons_of ?_ ?_)
      | (with_reducible refine Act.within_ite ?_ ?_) | (with_reducible refine Act.within_each fun _ => ?_) | split
      | exact Act.Within.mono (f := (touchRaise.join ⟨[.flash], [], []⟩)) (by simp +decide) hf

@[simp] theorem Act.within_lunIdle {f : Touch} (a0) (hf : (⟨[.flash], [], []⟩ : Touch).le f = true) : Act.Within f
    (.lunIdle a0) := by
  refine Act.Within.mono ?_ hf
  unfold Act.lunIdle
  repeat'
    first
      | intro _ | refine And.intro ?_ ?_ | (with_reducible refine Act.within_each fun _ => ?_)
      | (with_reducible refine Act.within_when ?_) | (with_reducible refine Act.within_ite ?_ ?_) | split | simp +decide

@[simp] theorem Act.within_dieTransient {f : Touch} (a0) (hf : (⟨[], [], [.FLASH_DIE_TRANSIENT_COUNT]⟩ : Touch).le f =
    true) : Act.Within f (.dieTransient a0) := by
  refine Act.Within.mono ?_ hf
  unfold Act.dieTransient
  repeat'
    first
      | intro _ | refine And.intro ?_ ?_ | (with_reducible refine Act.within_each fun _ => ?_)
      | (with_reducible refine Act.within_when ?_) | (with_reducible refine Act.within_ite ?_ ?_) | split | simp +decide

@[simp] theorem Act.within_startLevel {f : Touch} (a0 a1) (hf : (⟨[.flash, .nand], [], [.FLASH_RT_TENSION_COUNT]⟩ :
    Touch).le f = true) : Act.Within f (.startLevel a0 a1) := by
  refine Act.Within.mono ?_ hf
  unfold Act.startLevel
  repeat'
    first
      | intro _ | refine And.intro ?_ ?_ | (with_reducible refine Act.within_each fun _ => ?_)
      | (with_reducible refine Act.within_when ?_) | (with_reducible refine Act.within_ite ?_ ?_) | split | simp +decide

@[simp] theorem Act.within_reconEnds {f : Touch} (a0 a1) (hf : (touchRaise.join ⟨[.flash, .nand], [.FLASH_LUN_STATUS,
    .FLASH_STATUS], [.FLASH_RECON_COUNT, .FLASH_REFRESH_COUNT, .FLASH_UNCORRECTABLE_COUNT]⟩ : Touch).le f = true) :
    Act.Within f (.reconEnds a0 a1) := by
  refine Act.Within.mono ?_ hf
  unfold Act.reconEnds
  repeat'
    first
      | intro _ | refine And.intro ?_ ?_ | (with_reducible refine Act.within_each fun _ => ?_)
      | refine Act.within_dieEvent _ _ _ (by decide) ?_ ?_
      | (with_reducible refine Act.within_when ?_) | (with_reducible refine Act.within_ite ?_ ?_) | split | simp +decide

@[simp] theorem Act.within_readEnds {f : Touch} (a0 a1 a2 a3) (hf : (touchRaise.join ⟨[.flash, .nand],
    [.FLASH_LUN_STATUS, .FLASH_STATUS], [.FLASH_DIE_TRANSIENT_COUNT, .FLASH_RECON_COUNT, .FLASH_REFRESH_COUNT,
    .FLASH_RETRY_COUNT, .FLASH_RT_TENSION_COUNT, .FLASH_SOFT_COUNT, .FLASH_UNCORRECTABLE_COUNT]⟩ : Touch).le f = true) :
    Act.Within f (.readEnds a0 a1 a2 a3) := by
  refine Act.Within.mono ?_ hf
  unfold Act.readEnds
  repeat'
    first
      | intro _ | refine And.intro ?_ ?_ | (with_reducible refine Act.within_each fun _ => ?_)
      | (with_reducible refine Act.within_when ?_) | (with_reducible refine Act.within_ite ?_ ?_) | split | simp +decide

@[simp] theorem Act.within_closeBlock {f : Touch} (a0) (hf : (⟨[.flash, .out], [], [.FLASH_REFRESH_COUNT]⟩ : Touch).le f
    = true) : Act.Within f (.closeBlock a0) := by
  refine Act.Within.mono ?_ hf
  unfold Act.closeBlock
  repeat'
    first
      | intro _ | refine And.intro ?_ ?_ | (with_reducible refine Act.within_each fun _ => ?_)
      | (with_reducible refine Act.within_when ?_) | (with_reducible refine Act.within_ite ?_ ?_) | split | simp +decide

@[simp] theorem Act.within_dropPrograms {f : Touch} (a0) (hf : (⟨[.flash], [], []⟩ : Touch).le f = true) : Act.Within f
    (.dropPrograms a0) := by
  refine Act.Within.mono ?_ hf
  unfold Act.dropPrograms
  repeat'
    first
      | intro _ | refine And.intro ?_ ?_ | (with_reducible refine Act.within_each fun _ => ?_)
      | (with_reducible refine Act.within_when ?_) | (with_reducible refine Act.within_ite ?_ ?_) | split | simp +decide

@[simp] theorem Act.within_programEnds {f : Touch} (a0 a1) (hf : (touchStore.join ⟨[.flash, .nand], [.FLASH_LUN_STATUS,
    .FLASH_STATUS], [.FLASH_DIE_TRANSIENT_COUNT, .FLASH_PROGRAM_FAIL_COUNT, .FLASH_REFRESH_COUNT]⟩ : Touch).le f = true)
    : Act.Within f (.programEnds a0 a1) := by
  refine Act.Within.mono ?_ hf
  unfold Act.programEnds
  repeat'
    first
      | intro _ | refine And.intro ?_ ?_ | (with_reducible refine Act.within_each fun _ => ?_)
      | (with_reducible refine Act.within_when ?_) | (with_reducible refine Act.within_ite ?_ ?_) | split | simp +decide

@[simp] theorem Act.within_movePlaced {f : Touch} (a0 a1) (hf : (⟨[.flash, .nand], [], []⟩ : Touch).le f = true) :
    Act.Within f (.movePlaced a0 a1) := by
  refine Act.Within.mono ?_ hf
  unfold Act.movePlaced
  repeat'
    first
      | intro _ | refine And.intro ?_ ?_ | (with_reducible refine Act.within_each fun _ => ?_)
      | (with_reducible refine Act.within_when ?_) | (with_reducible refine Act.within_ite ?_ ?_) | split | simp +decide

@[simp] theorem Act.within_eraseEnds {f : Touch} (a0 a1) (hf : (touchRaise.join ⟨[.flash, .nand], [.FLASH_LUN_STATUS],
    [.FLASH_DIE_TRANSIENT_COUNT, .FLASH_ERASE_FAIL_COUNT]⟩ : Touch).le f = true) : Act.Within f (.eraseEnds a0 a1) := by
  refine Act.Within.mono ?_ hf
  unfold Act.eraseEnds
  repeat'
    first
      | intro _ | refine And.intro ?_ ?_ | (with_reducible refine Act.within_each fun _ => ?_)
      | (with_reducible refine Act.within_when ?_) | (with_reducible refine Act.within_ite ?_ ?_) | split | simp +decide

@[simp] theorem Act.within_sdirPop {f : Touch} (a0) (hf : (⟨[.sdir], [], []⟩ : Touch).le f = true) : Act.Within f
    (.sdirPop a0) := by
  refine Act.Within.mono ?_ hf
  unfold Act.sdirPop
  repeat'
    first
      | intro _ | refine And.intro ?_ ?_ | (with_reducible refine Act.within_each fun _ => ?_)
      | (with_reducible refine Act.within_when ?_) | (with_reducible refine Act.within_ite ?_ ?_) | split | simp +decide

@[simp] theorem Act.within_sdirEnd {f : Touch} (a0 a1 a2) (hf : (⟨[.irq, .sdir], [], [.SDIR_REFUSE_COUNT]⟩ : Touch).le f
    = true) : Act.Within f (.sdirEnd a0 a1 a2) := by
  refine Act.Within.mono ?_ hf
  unfold Act.sdirEnd
  repeat'
    first
      | intro _ | refine And.intro ?_ ?_ | (with_reducible refine Act.within_each fun _ => ?_)
      | (with_reducible refine Act.within_when ?_) | (with_reducible refine Act.within_ite ?_ ?_) | split | simp +decide

theorem Act.within_sdirTake {f : Touch} (a0 a1 a2) (hf : (touchRaise.join ⟨[.irq, .sdir], [], [.SDIR_REFUSE_COUNT]⟩ :
    Touch).le f = true) (h2 : ∀ x0, (a2 x0).Within f) : Act.Within f (.sdirTake a0 a1 a2) := by
  unfold Act.sdirTake; try dsimp only
  repeat'
    first
      | (with_reducible exact h2 _) | intro _ | (with_reducible refine (Act.within_look _).2 fun _ => ?_)
      | refine Act.within_takeEntry _ _ _ _ _ _ (Touch.le_trans (by decide) hf) ?_ ?_ (fun _ => ?_)
      | (with_reducible exact Act.within_nil) | (with_reducible refine Act.within_when ?_)
      | (with_reducible refine Act.within_andThen_of ?_ ?_) | (with_reducible refine Act.within_cons_of ?_ ?_)
      | (with_reducible refine Act.within_ite ?_ ?_) | (with_reducible refine Act.within_each fun _ => ?_) | split
      | exact Act.Within.mono (f := (touchRaise.join ⟨[.irq, .sdir], [], [.SDIR_REFUSE_COUNT]⟩)) (by simp +decide) hf

theorem Act.within_sdirRecord {f : Touch} (a0 a1 a2 a3) (hf : (touchRecord : Touch).le f = true) (h2 : a2.Within f) (h3
    : ∀ x0 x1, (a3 x0 x1).Within f) : Act.Within f (.sdirRecord a0 a1 a2 a3) := by
  unfold Act.sdirRecord; try dsimp only
  repeat'
    first
      | (with_reducible exact h2) | (with_reducible exact h3 _ _) | intro _ | (with_reducible refine (Act.within_look _).2 fun _ => ?_)
      | (with_reducible exact Act.within_nil) | (with_reducible refine Act.within_when ?_)
      | (with_reducible refine Act.within_andThen_of ?_ ?_) | (with_reducible refine Act.within_cons_of ?_ ?_)
      | (with_reducible refine Act.within_ite ?_ ?_) | (with_reducible refine Act.within_each fun _ => ?_) | split
      | exact Act.Within.mono (f := touchRecord) (by simp +decide) hf

theorem Act.within_sdirSession {f : Touch} (a0 a1 a2) (hf : (touchRecord : Touch).le f = true) (h2 : ∀ x0 x1 x2, (a2 x0
    x1 x2).Within f) : Act.Within f (.sdirSession a0 a1 a2) := by
  unfold Act.sdirSession; try dsimp only
  repeat'
    first
      | (with_reducible exact h2 _ _ _) | intro _ | (with_reducible refine (Act.within_look _).2 fun _ => ?_)
      | refine Act.within_sdirTake _ _ _ (Touch.le_trans (by decide) hf) (fun _ => ?_)
      | refine Act.within_sdirRecord _ _ _ _ (Touch.le_trans (by decide) hf) ?_ (fun _ _ => ?_)
      | (with_reducible exact Act.within_nil) | (with_reducible refine Act.within_when ?_)
      | (with_reducible refine Act.within_andThen_of ?_ ?_) | (with_reducible refine Act.within_cons_of ?_ ?_)
      | (with_reducible refine Act.within_ite ?_ ?_) | (with_reducible refine Act.within_each fun _ => ?_) | split
      | exact Act.Within.mono (f := touchRecord) (by simp +decide) hf

theorem Act.within_sdirRun {f : Touch} (a0 a1 a2) (hf : (touchStore.join ⟨[.sdir], [.SDIR_LOCKED, .SDIR_STATE_COUNT],
    [.SDIR_CRC_FAIL_COUNT, .SDIR_HIT_COUNT, .SDIR_MISS_COUNT]⟩ : Touch).le f = true) (h2 : a2.Within f) : Act.Within f
    (.sdirRun a0 a1 a2) := by
  unfold Act.sdirRun; try dsimp only
  repeat'
    first
      | (with_reducible exact h2) | intro _ | (with_reducible refine (Act.within_look _).2 fun _ => ?_)
      | (with_reducible exact Act.within_nil) | (with_reducible refine Act.within_when ?_)
      | (with_reducible refine Act.within_andThen_of ?_ ?_) | (with_reducible refine Act.within_cons_of ?_ ?_)
      | (with_reducible refine Act.within_ite ?_ ?_) | (with_reducible refine Act.within_each fun _ => ?_) | split
      | exact Act.Within.mono (f := (touchStore.join ⟨[.sdir], [.SDIR_LOCKED, .SDIR_STATE_COUNT], [.SDIR_CRC_FAIL_COUNT, .SDIR_HIT_COUNT, .SDIR_MISS_COUNT]⟩)) (by simp +decide) hf

@[simp] theorem Act.within_mergedEnd {f : Touch} (a0 a1) (hf : (⟨[.irq, .sdir], [], [.SDIR_REFUSE_COUNT]⟩ : Touch).le f
    = true) : Act.Within f (.mergedEnd a0 a1) := by
  refine Act.Within.mono ?_ hf
  unfold Act.mergedEnd
  repeat'
    first
      | intro _ | refine And.intro ?_ ?_ | (with_reducible refine Act.within_each fun _ => ?_)
      | (with_reducible refine Act.within_when ?_) | (with_reducible refine Act.within_ite ?_ ?_) | split | simp +decide

@[simp] theorem Act.within_moveEnds {f : Touch} (a0 a1) (hf : (⟨[.irq, .sdir], [], [.SDIR_REFUSE_COUNT]⟩ : Touch).le f =
    true) : Act.Within f (.moveEnds a0 a1) := by
  refine Act.Within.mono ?_ hf
  unfold Act.moveEnds
  repeat'
    first
      | intro _ | refine And.intro ?_ ?_ | (with_reducible refine Act.within_each fun _ => ?_)
      | (with_reducible refine Act.within_when ?_) | (with_reducible refine Act.within_ite ?_ ?_) | split | simp +decide

@[simp] theorem Act.within_stopMove {f : Touch} (a0 a1) (hf : (touchBerth.join ⟨[.mct, .tier], [.BOLL_COUNT,
    .CHART_DRAIN, .FERRY_STATUS, .SDIR_LOCKED, .SDIR_STATE_COUNT, .TIER_MOOR_STATUS], [.SDIR_CANCEL_COUNT,
    .SDIR_CRC_FAIL_COUNT]⟩ : Touch).le f = true) : Act.Within f (.stopMove a0 a1) := by
  refine Act.Within.mono ?_ hf
  unfold Act.stopMove
  repeat'
    first
      | intro _ | refine And.intro ?_ ?_ | (with_reducible refine Act.within_each fun _ => ?_)
      | (with_reducible refine Act.within_when ?_) | (with_reducible refine Act.within_ite ?_ ?_) | split | simp +decide

@[simp] theorem Act.within_cancelIfMoving {f : Touch} (a0) (hf : (touchBerth.join ⟨[.mct, .tier], [.BOLL_COUNT,
    .CHART_DRAIN, .FERRY_STATUS, .SDIR_LOCKED, .SDIR_STATE_COUNT, .TIER_MOOR_STATUS], [.SDIR_CANCEL_COUNT,
    .SDIR_CRC_FAIL_COUNT]⟩ : Touch).le f = true) : Act.Within f (.cancelIfMoving a0) := by
  refine Act.Within.mono ?_ hf
  unfold Act.cancelIfMoving
  repeat'
    first
      | intro _ | refine And.intro ?_ ?_ | (with_reducible refine Act.within_each fun _ => ?_)
      | (with_reducible refine Act.within_when ?_) | (with_reducible refine Act.within_ite ?_ ?_) | split | simp +decide

@[simp] theorem Act.within_freeImage {f : Touch} (a0 a1) (hf : (touchImage.join ⟨[.sdir], [], []⟩ : Touch).le f = true)
    : Act.Within f (.freeImage a0 a1) := by
  refine Act.Within.mono ?_ hf
  unfold Act.freeImage
  repeat'
    first
      | intro _ | refine And.intro ?_ ?_ | (with_reducible refine Act.within_each fun _ => ?_)
      | (with_reducible refine Act.within_when ?_) | (with_reducible refine Act.within_ite ?_ ?_) | split | simp +decide

@[simp] theorem Act.within_freeBerthsOf {f : Touch} (a0 a1) (hf : (touchStore.join ⟨[.sdir], [.SDIR_FREE], []⟩ :
    Touch).le f = true) : Act.Within f (.freeBerthsOf a0 a1) := by
  refine Act.Within.mono ?_ hf
  unfold Act.freeBerthsOf
  repeat'
    first
      | intro _ | refine And.intro ?_ ?_ | (with_reducible refine Act.within_each fun _ => ?_)
      | (with_reducible refine Act.within_when ?_) | (with_reducible refine Act.within_ite ?_ ?_) | split | simp +decide

@[simp] theorem Act.within_freeHistory {f : Touch} (a0) (hf : (touchStore.join ⟨[.flash, .nand, .sdir, .tier],
    [.FLASH_LUN_STATUS, .FLASH_STATUS], []⟩ : Touch).le f = true) : Act.Within f (.freeHistory a0) := by
  refine Act.Within.mono ?_ hf
  unfold Act.freeHistory
  repeat'
    first
      | intro _ | refine And.intro ?_ ?_ | (with_reducible refine Act.within_each fun _ => ?_)
      | (with_reducible refine Act.within_when ?_) | (with_reducible refine Act.within_ite ?_ ?_) | split | simp +decide

@[simp] theorem Act.within_freeRecord {f : Touch} (a0) (hf : (touchImage.join ⟨[.sdir], [.SDIR_FREE, .SDIR_LOCKED,
    .SDIR_STATE_COUNT], []⟩ : Touch).le f = true) : Act.Within f (.freeRecord a0) := by
  refine Act.Within.mono ?_ hf
  unfold Act.freeRecord
  repeat'
    first
      | intro _ | refine And.intro ?_ ?_ | (with_reducible refine Act.within_each fun _ => ?_)
      | (with_reducible refine Act.within_when ?_) | (with_reducible refine Act.within_ite ?_ ?_) | split | simp +decide

@[simp] theorem Act.within_settle {f : Touch} (a0 a1 a2) (hf : (touchStore.join ⟨[.sdir], [], []⟩ : Touch).le f = true)
    : Act.Within f (.settle a0 a1 a2) := by
  refine Act.Within.mono ?_ hf
  unfold Act.settle
  repeat'
    first
      | intro _ | refine And.intro ?_ ?_ | (with_reducible refine Act.within_each fun _ => ?_)
      | (with_reducible refine Act.within_when ?_) | (with_reducible refine Act.within_ite ?_ ?_) | split | simp +decide

@[simp] theorem Act.within_moveDone {f : Touch} (a0) (hf : (touchStore.join ⟨[.irq, .sdir], [.CHART_DRAIN, .SDIR_LOCKED,
    .SDIR_STATE_COUNT], [.SDIR_CRC_FAIL_COUNT, .SDIR_REFUSE_COUNT]⟩ : Touch).le f = true) : Act.Within f (.moveDone a0)
    := by
  refine Act.Within.mono ?_ hf
  unfold Act.moveDone
  repeat'
    first
      | intro _ | refine And.intro ?_ ?_ | (with_reducible refine Act.within_each fun _ => ?_)
      | (with_reducible refine Act.within_when ?_) | (with_reducible refine Act.within_ite ?_ ?_) | split | simp +decide

@[simp] theorem Act.within_loweredDone {f : Touch} (a0) (hf : ((touchImage.join touchBerth).join ⟨[], [.CHART_DRAIN,
    .SDIR_LOCKED, .SDIR_STATE_COUNT], [.SDIR_CRC_FAIL_COUNT, .SDIR_LAYUP_COUNT, .SDIR_MOOR_COUNT]⟩ : Touch).le f = true)
    : Act.Within f (.loweredDone a0) := by
  refine Act.Within.mono ?_ hf
  unfold Act.loweredDone
  repeat'
    first
      | intro _ | refine And.intro ?_ ?_ | (with_reducible refine Act.within_each fun _ => ?_)
      | (with_reducible refine Act.within_when ?_) | (with_reducible refine Act.within_ite ?_ ?_) | split | simp +decide

@[simp] theorem Act.within_moveFaults {f : Touch} (a0 a1) (hf : (touchBerth.join ⟨[.mct, .tier], [.BOLL_COUNT,
    .CHART_DRAIN, .FERRY_STATUS, .SDIR_LOCKED, .SDIR_STATE_COUNT, .TIER_MOOR_STATUS], [.SDIR_CRC_FAIL_COUNT]⟩ :
    Touch).le f = true) : Act.Within f (.moveFaults a0 a1) := by
  refine Act.Within.mono ?_ hf
  unfold Act.moveFaults
  repeat'
    first
      | intro _ | refine And.intro ?_ ?_ | (with_reducible refine Act.within_each fun _ => ?_)
      | (with_reducible refine Act.within_when ?_) | (with_reducible refine Act.within_ite ?_ ?_) | split | simp +decide

@[simp] theorem Act.within_revivedDone {f : Touch} (a0) (hf : ((touchImage.join touchBerth).join ⟨[.mct], [.BOLL_COUNT,
    .CHART_DRAIN, .FERRY_STATUS, .SDIR_LOCKED, .SDIR_STATE_COUNT], [.SDIR_CRC_FAIL_COUNT, .SDIR_REVIVE_COUNT]⟩ :
    Touch).le f = true) : Act.Within f (.revivedDone a0) := by
  refine Act.Within.mono ?_ hf
  unfold Act.revivedDone
  repeat'
    first
      | intro _ | refine And.intro ?_ ?_ | (with_reducible refine Act.within_each fun _ => ?_)
      | (with_reducible refine Act.within_when ?_) | (with_reducible refine Act.within_ite ?_ ?_) | split | simp +decide

@[simp] theorem Act.within_reberthedDone {f : Touch} (a0) (hf : (touchBerth.join ⟨[], [.CHART_DRAIN, .SDIR_LOCKED,
    .SDIR_STATE_COUNT], [.SDIR_CRC_FAIL_COUNT]⟩ : Touch).le f = true) : Act.Within f (.reberthedDone a0) := by
  refine Act.Within.mono ?_ hf
  unfold Act.reberthedDone
  repeat'
    first
      | intro _ | refine And.intro ?_ ?_ | (with_reducible refine Act.within_each fun _ => ?_)
      | (with_reducible refine Act.within_when ?_) | (with_reducible refine Act.within_ite ?_ ?_) | split | simp +decide

@[simp] theorem Act.within_restoredDone {f : Touch} (a0) (hf : ((touchImage.join touchBerth).join ⟨[.mct], [.BOLL_COUNT,
    .CHART_DRAIN, .FERRY_STATUS, .SDIR_LOCKED, .SDIR_STATE_COUNT], [.SDIR_CRC_FAIL_COUNT]⟩ : Touch).le f = true) :
    Act.Within f (.restoredDone a0) := by
  refine Act.Within.mono ?_ hf
  unfold Act.restoredDone
  repeat'
    first
      | intro _ | refine And.intro ?_ ?_ | (with_reducible refine Act.within_each fun _ => ?_)
      | (with_reducible refine Act.within_when ?_) | (with_reducible refine Act.within_ite ?_ ?_) | split | simp +decide

@[simp] theorem Act.within_moveBad {f : Touch} (a0) (hf : (touchBerth.join ⟨[.mct, .tier], [.BOLL_COUNT, .CHART_DRAIN,
    .FERRY_STATUS, .SDIR_LOCKED, .SDIR_STATE_COUNT, .TIER_MOOR_STATUS], [.SDIR_CRC_FAIL_COUNT]⟩ : Touch).le f = true) :
    Act.Within f (.moveBad a0) := by
  refine Act.Within.mono ?_ hf
  unfold Act.moveBad
  repeat'
    first
      | intro _ | refine And.intro ?_ ?_ | (with_reducible refine Act.within_each fun _ => ?_)
      | (with_reducible refine Act.within_when ?_) | (with_reducible refine Act.within_ite ?_ ?_) | split | simp +decide

@[simp] theorem Act.within_bundleRefused {f : Touch} (a0 a1 a2) (hf : (touchRaise.join ⟨[], [.SEC_STATUS],
    [.SEC_BUNDLE_REJECT_COUNT]⟩ : Touch).le f = true) : Act.Within f (.bundleRefused a0 a1 a2) := by
  refine Act.Within.mono ?_ hf
  unfold Act.bundleRefused
  repeat'
    first
      | intro _ | refine And.intro ?_ ?_ | (with_reducible refine Act.within_each fun _ => ?_)
      | (with_reducible refine Act.within_when ?_) | (with_reducible refine Act.within_ite ?_ ?_) | split | simp +decide

@[simp] theorem Act.within_sealedDone {f : Touch} (a0) (hf : ((touchImage.join touchBerth).join ⟨[.free, .sec],
    [.CHART_DRAIN, .SDIR_LOCKED, .SDIR_STATE_COUNT], [.SDIR_CRC_FAIL_COUNT]⟩ : Touch).le f = true) : Act.Within f
    (.sealedDone a0) := by
  refine Act.Within.mono ?_ hf
  unfold Act.sealedDone
  repeat'
    first
      | intro _ | refine And.intro ?_ ?_ | (with_reducible refine Act.within_each fun _ => ?_)
      | (with_reducible refine Act.within_when ?_) | (with_reducible refine Act.within_ite ?_ ?_) | split | simp +decide

@[simp] theorem Act.within_setCrossing {f : Touch} (a0) (hf : (⟨[.mct], [], []⟩ : Touch).le f = true) : Act.Within f
    (.setCrossing a0) := by
  refine Act.Within.mono ?_ hf
  unfold Act.setCrossing
  repeat'
    first
      | intro _ | refine And.intro ?_ ?_ | (with_reducible refine Act.within_each fun _ => ?_)
      | (with_reducible refine Act.within_when ?_) | (with_reducible refine Act.within_ite ?_ ?_) | split | simp +decide

@[simp] theorem Act.within_crossSend {f : Touch} (a0 a1 a2 a3 a4 a5) (hf : (touchSend : Touch).le f = true) : Act.Within
    f (.crossSend a0 a1 a2 a3 a4 a5) := by
  refine Act.Within.mono ?_ hf
  unfold Act.crossSend
  repeat'
    first
      | intro _ | refine And.intro ?_ ?_ | (with_reducible refine Act.within_each fun _ => ?_)
      | (with_reducible refine Act.within_when ?_) | (with_reducible refine Act.within_ite ?_ ?_) | split | simp +decide

@[simp] theorem Act.within_sendBegin {f : Touch} (a0 a1 a2) (hf : (touchSend.join ⟨[.free, .sealer, .sec], [], []⟩ :
    Touch).le f = true) : Act.Within f (.sendBegin a0 a1 a2) := by
  refine Act.Within.mono ?_ hf
  unfold Act.sendBegin
  repeat'
    first
      | intro _ | refine And.intro ?_ ?_ | (with_reducible refine Act.within_each fun _ => ?_)
      | (with_reducible refine Act.within_when ?_) | (with_reducible refine Act.within_ite ?_ ?_) | split | simp +decide

@[simp] theorem Act.within_abortCrossing {f : Touch} (a0 a1 a2) (hf : (touchSend : Touch).le f = true) : Act.Within f
    (.abortCrossing a0 a1 a2) := by
  refine Act.Within.mono ?_ hf
  unfold Act.abortCrossing
  repeat'
    first
      | intro _ | refine And.intro ?_ ?_ | (with_reducible refine Act.within_each fun _ => ?_)
      | (with_reducible refine Act.within_when ?_) | (with_reducible refine Act.within_ite ?_ ?_) | split | simp +decide

@[simp] theorem Act.within_endCrossing {f : Touch} (a0) (hf : (⟨[.mct], [.CHART_DRAIN], []⟩ : Touch).le f = true) :
    Act.Within f (.endCrossing a0) := by
  refine Act.Within.mono ?_ hf
  unfold Act.endCrossing
  repeat'
    first
      | intro _ | refine And.intro ?_ ?_ | (with_reducible refine Act.within_each fun _ => ?_)
      | (with_reducible refine Act.within_when ?_) | (with_reducible refine Act.within_ite ?_ ?_) | split | simp +decide

@[simp] theorem Act.within_crossReport {f : Touch} (a0 a1 a2) (hf : (touchSend.join ⟨[.free, .sealer, .sec], [], []⟩ :
    Touch).le f = true) : Act.Within f (.crossReport a0 a1 a2) := by
  refine Act.Within.mono ?_ hf
  unfold Act.crossReport
  repeat'
    first
      | intro _ | refine And.intro ?_ ?_ | (with_reducible refine Act.within_each fun _ => ?_)
      | (with_reducible refine Act.within_when ?_) | (with_reducible refine Act.within_ite ?_ ?_) | split | simp +decide

@[simp] theorem Act.within_newRecord {f : Touch} (a0 a1 a2) (hf : (touchStore.join ⟨[.sdir], [.SDIR_LOCKED,
    .SDIR_STATE_COUNT], [.SDIR_CRC_FAIL_COUNT, .SDIR_HIT_COUNT, .SDIR_MISS_COUNT]⟩ : Touch).le f = true) : Act.Within f
    (.newRecord a0 a1 a2) := by
  refine Act.Within.mono ?_ hf
  unfold Act.newRecord
  repeat'
    first
      | intro _ | refine And.intro ?_ ?_ | (with_reducible refine Act.within_each fun _ => ?_)
      | (with_reducible refine Act.within_when ?_) | (with_reducible refine Act.within_ite ?_ ?_) | split | simp +decide

theorem Act.within_tryAdmit {f : Touch} (a0 a1) (hf : (touchRecord.join ⟨[.free, .sec], [.SDIR_FREE],
    [.SDIR_ADMIT_COUNT]⟩ : Touch).le f = true) (h1 : a1.Within f) : Act.Within f (.tryAdmit a0 a1) := by
  unfold Act.tryAdmit; try dsimp only
  repeat'
    first
      | (with_reducible exact h1) | intro _ | (with_reducible refine (Act.within_look _).2 fun _ => ?_)
      | (with_reducible exact Act.within_nil) | (with_reducible refine Act.within_when ?_)
      | (with_reducible refine Act.within_andThen_of ?_ ?_) | (with_reducible refine Act.within_cons_of ?_ ?_)
      | (with_reducible refine Act.within_ite ?_ ?_) | (with_reducible refine Act.within_each fun _ => ?_) | split
      | exact Act.Within.mono (f := (touchRecord.join ⟨[.free, .sec], [.SDIR_FREE], [.SDIR_ADMIT_COUNT]⟩)) (by simp +decide) hf

theorem Act.within_tryReberth {f : Touch} (a0 a1) (hf : (touchBerth.join ⟨[], [.SDIR_LOCKED, .SDIR_STATE_COUNT],
    [.SDIR_CRC_FAIL_COUNT]⟩ : Touch).le f = true) (h1 : a1.Within f) : Act.Within f (.tryReberth a0 a1) := by
  unfold Act.tryReberth; try dsimp only
  repeat'
    first
      | (with_reducible exact h1) | intro _ | (with_reducible refine (Act.within_look _).2 fun _ => ?_)
      | (with_reducible exact Act.within_nil) | (with_reducible refine Act.within_when ?_)
      | (with_reducible refine Act.within_andThen_of ?_ ?_) | (with_reducible refine Act.within_cons_of ?_ ?_)
      | (with_reducible refine Act.within_ite ?_ ?_) | (with_reducible refine Act.within_each fun _ => ?_) | split
      | exact Act.Within.mono (f := (touchBerth.join ⟨[], [.SDIR_LOCKED, .SDIR_STATE_COUNT], [.SDIR_CRC_FAIL_COUNT]⟩)) (by simp +decide) hf

theorem Act.within_tryRestore {f : Touch} (a0 a1 a2) (hf : (touchBerth.join ⟨[], [.SDIR_LOCKED, .SDIR_STATE_COUNT],
    [.SDIR_CRC_FAIL_COUNT]⟩ : Touch).le f = true) (h2 : a2.Within f) : Act.Within f (.tryRestore a0 a1 a2) := by
  unfold Act.tryRestore; try dsimp only
  repeat'
    first
      | (with_reducible exact h2) | intro _ | (with_reducible refine (Act.within_look _).2 fun _ => ?_)
      | (with_reducible exact Act.within_nil) | (with_reducible refine Act.within_when ?_)
      | (with_reducible refine Act.within_andThen_of ?_ ?_) | (with_reducible refine Act.within_cons_of ?_ ?_)
      | (with_reducible refine Act.within_ite ?_ ?_) | (with_reducible refine Act.within_each fun _ => ?_) | split
      | exact Act.Within.mono (f := (touchBerth.join ⟨[], [.SDIR_LOCKED, .SDIR_STATE_COUNT], [.SDIR_CRC_FAIL_COUNT]⟩)) (by simp +decide) hf

@[simp] theorem Act.within_crossInEnds {f : Touch} (a0 a1 a2 a3 a4) (hf : (touchSend.join ⟨[], [], [.SDIR_REFUSE_COUNT]⟩
    : Touch).le f = true) : Act.Within f (.crossInEnds a0 a1 a2 a3 a4) := by
  refine Act.Within.mono ?_ hf
  unfold Act.crossInEnds
  repeat'
    first
      | intro _ | refine And.intro ?_ ?_ | (with_reducible refine Act.within_each fun _ => ?_)
      | (with_reducible refine Act.within_when ?_) | (with_reducible refine Act.within_ite ?_ ?_) | split | simp +decide

@[simp] theorem Act.within_crossTake {f : Touch} (a0 a1 a2 a3 a4 a5) (hf : ((touchRecord.join touchSend).join ⟨[.free,
    .sec], [.SDIR_FREE], []⟩ : Touch).le f = true) : Act.Within f (.crossTake a0 a1 a2 a3 a4 a5) := by
  refine Act.Within.mono ?_ hf
  unfold Act.crossTake
  repeat'
    first
      | intro _ | refine And.intro ?_ ?_ | (with_reducible refine Act.within_each fun _ => ?_)
      | (with_reducible refine Act.within_when ?_) | (with_reducible refine Act.within_ite ?_ ?_) | split | simp +decide

theorem Act.within_tryCrossIn {f : Touch} (a0 a1 a2) (hf : ((touchRecord.join touchSend).join ⟨[.free, .sec],
    [.SDIR_FREE, .SEC_STATUS], [.SEC_BUNDLE_REJECT_COUNT]⟩ : Touch).le f = true) (h2 : a2.Within f) : Act.Within f
    (.tryCrossIn a0 a1 a2) := by
  unfold Act.tryCrossIn; try dsimp only
  repeat'
    first
      | (with_reducible exact h2) | intro _ | (with_reducible refine (Act.within_look _).2 fun _ => ?_)
      | (with_reducible exact Act.within_nil) | (with_reducible refine Act.within_when ?_)
      | (with_reducible refine Act.within_andThen_of ?_ ?_) | (with_reducible refine Act.within_cons_of ?_ ?_)
      | (with_reducible refine Act.within_ite ?_ ?_) | (with_reducible refine Act.within_each fun _ => ?_) | split
      | exact Act.Within.mono (f := ((touchRecord.join touchSend).join ⟨[.free, .sec], [.SDIR_FREE, .SEC_STATUS], [.SEC_BUNDLE_REJECT_COUNT]⟩)) (by simp +decide) hf

theorem Act.within_tryWaiter {f : Touch} (a0 a1 a2) (hf : (touchWaiter : Touch).le f = true) (h2 : a2.Within f) :
    Act.Within f (.tryWaiter a0 a1 a2) := by
  unfold Act.tryWaiter; try dsimp only
  repeat'
    first
      | (with_reducible exact h2) | intro _ | (with_reducible refine (Act.within_look _).2 fun _ => ?_)
      | refine Act.within_tryAdmit _ _ (Touch.le_trans (by decide) hf) ?_
      | refine Act.within_tryReberth _ _ (Touch.le_trans (by decide) hf) ?_
      | refine Act.within_tryCrossIn _ _ _ (Touch.le_trans (by decide) hf) ?_
      | refine Act.within_tryRestore _ _ _ (Touch.le_trans (by decide) hf) ?_
      | (with_reducible exact Act.within_nil) | (with_reducible refine Act.within_when ?_)
      | (with_reducible refine Act.within_andThen_of ?_ ?_) | (with_reducible refine Act.within_cons_of ?_ ?_)
      | (with_reducible refine Act.within_ite ?_ ?_) | (with_reducible refine Act.within_each fun _ => ?_) | split
      | exact Act.Within.mono (f := touchWaiter) (by simp +decide) hf

@[simp] theorem Act.within_joinWaits {f : Touch} (a0) (hf : (⟨[.sdir], [], []⟩ : Touch).le f = true) : Act.Within f
    (.joinWaits a0) := by
  refine Act.Within.mono ?_ hf
  unfold Act.joinWaits
  repeat'
    first
      | intro _ | refine And.intro ?_ ?_ | (with_reducible refine Act.within_each fun _ => ?_)
      | (with_reducible refine Act.within_when ?_) | (with_reducible refine Act.within_ite ?_ ?_) | split | simp +decide

@[simp] theorem Act.within_runWaiter {f : Touch} (a0 a1 a2 a3) (hf : (touchWaiter : Touch).le f = true) : Act.Within f
    (.runWaiter a0 a1 a2 a3) := by
  refine Act.Within.mono ?_ hf
  unfold Act.runWaiter
  repeat'
    first
      | intro _ | refine And.intro ?_ ?_ | (with_reducible refine Act.within_each fun _ => ?_)
      | refine Act.within_tryWaiter _ _ _ (by decide) ?_
      | (with_reducible refine Act.within_when ?_) | (with_reducible refine Act.within_ite ?_ ?_) | split | simp +decide

@[simp] theorem Act.within_layupOver {f : Touch} (a0) (hf : (⟨[.free, .irq], [], [.SDIR_REFUSE_COUNT,
    .SDIR_TENSION_COUNT]⟩ : Touch).le f = true) : Act.Within f (.layupOver a0) := by
  refine Act.Within.mono ?_ hf
  unfold Act.layupOver
  repeat'
    first
      | intro _ | refine And.intro ?_ ?_ | (with_reducible refine Act.within_each fun _ => ?_)
      | (with_reducible refine Act.within_when ?_) | (with_reducible refine Act.within_ite ?_ ?_) | split | simp +decide

@[simp] theorem Act.within_mergeRevival {f : Touch} (a0 a1 a2) (hf : (⟨[.sdir], [], []⟩ : Touch).le f = true) :
    Act.Within f (.mergeRevival a0 a1 a2) := by
  refine Act.Within.mono ?_ hf
  unfold Act.mergeRevival
  repeat'
    first
      | intro _ | refine And.intro ?_ ?_ | (with_reducible refine Act.within_each fun _ => ?_)
      | (with_reducible refine Act.within_when ?_) | (with_reducible refine Act.within_ite ?_ ?_) | split | simp +decide

@[simp] theorem Act.within_queueRevival {f : Touch} (a0 a1 a2 a3) (hf : (⟨[.sdir], [], []⟩ : Touch).le f = true) :
    Act.Within f (.queueRevival a0 a1 a2 a3) := by
  refine Act.Within.mono ?_ hf
  unfold Act.queueRevival
  repeat'
    first
      | intro _ | refine And.intro ?_ ?_ | (with_reducible refine Act.within_each fun _ => ?_)
      | (with_reducible refine Act.within_when ?_) | (with_reducible refine Act.within_ite ?_ ?_) | split | simp +decide

theorem Act.within_importBundle {f : Touch} (a0 a1 a2 a3) (hf : (touchStore.join ⟨[.free, .nand, .sdir, .sec], [], []⟩ :
    Touch).le f = true) (h3 : ∀ x0, (a3 x0).Within f) : Act.Within f (.importBundle a0 a1 a2 a3) := by
  unfold Act.importBundle; try dsimp only
  repeat'
    first
      | (with_reducible exact h3 _) | intro _ | (with_reducible refine (Act.within_look _).2 fun _ => ?_)
      | (with_reducible exact Act.within_nil) | (with_reducible refine Act.within_when ?_)
      | (with_reducible refine Act.within_andThen_of ?_ ?_) | (with_reducible refine Act.within_cons_of ?_ ?_)
      | (with_reducible refine Act.within_ite ?_ ?_) | (with_reducible refine Act.within_each fun _ => ?_) | split
      | exact Act.Within.mono (f := (touchStore.join ⟨[.free, .nand, .sdir, .sec], [], []⟩)) (by simp +decide) hf

@[simp] theorem Act.within_backToPrior {f : Touch} (a0) (hf : (touchStore.join ⟨[.sdir], [.SDIR_LOCKED,
    .SDIR_STATE_COUNT], [.SDIR_CRC_FAIL_COUNT]⟩ : Touch).le f = true) : Act.Within f (.backToPrior a0) := by
  refine Act.Within.mono ?_ hf
  unfold Act.backToPrior
  repeat'
    first
      | intro _ | refine And.intro ?_ ?_ | (with_reducible refine Act.within_each fun _ => ?_)
      | (with_reducible refine Act.within_when ?_) | (with_reducible refine Act.within_ite ?_ ?_) | split | simp +decide

@[simp] theorem Act.within_crossArrived {f : Touch} (a0 a1 a2) (hf : (touchStore.join ⟨[.nand, .sdir], [.SDIR_LOCKED,
    .SDIR_STATE_COUNT], [.SDIR_CRC_FAIL_COUNT]⟩ : Touch).le f = true) : Act.Within f (.crossArrived a0 a1 a2) := by
  refine Act.Within.mono ?_ hf
  unfold Act.crossArrived
  repeat'
    first
      | intro _ | refine And.intro ?_ ?_ | (with_reducible refine Act.within_each fun _ => ?_)
      | (with_reducible refine Act.within_when ?_) | (with_reducible refine Act.within_ite ?_ ?_) | split | simp +decide

@[simp] theorem Act.within_cancelTurn {f : Touch} (a0) (hf : (⟨[.host], [], []⟩ : Touch).le f = true) : Act.Within f
    (.cancelTurn a0) := by
  refine Act.Within.mono ?_ hf
  unfold Act.cancelTurn
  repeat'
    first
      | intro _ | refine And.intro ?_ ?_ | (with_reducible refine Act.within_each fun _ => ?_)
      | (with_reducible refine Act.within_when ?_) | (with_reducible refine Act.within_ite ?_ ?_) | split | simp +decide

@[simp] theorem Act.within_dropRevival {f : Touch} (a0) (hf : (⟨[.sdir], [], []⟩ : Touch).le f = true) : Act.Within f
    (.dropRevival a0) := by
  refine Act.Within.mono ?_ hf
  unfold Act.dropRevival
  repeat'
    first
      | intro _ | refine And.intro ?_ ?_ | (with_reducible refine Act.within_each fun _ => ?_)
      | (with_reducible refine Act.within_when ?_) | (with_reducible refine Act.within_ite ?_ ?_) | split | simp +decide

@[simp] theorem Act.within_startRevivals {f : Touch} (a0) (hf : (touchRecord.join ⟨[], [.SDIR_FREE], []⟩ : Touch).le f =
    true) : Act.Within f (.startRevivals a0) := by
  refine Act.Within.mono ?_ hf
  induction a0 with
  | nil => unfold Act.startRevivals; exact Act.within_done
  | cons x xs ih =>
    unfold Act.startRevivals
    repeat'
      first
        | (with_reducible exact ih) | intro _ | refine And.intro ?_ ?_ | (with_reducible refine Act.within_each fun _ => ?_)
        | (with_reducible refine Act.within_when ?_) | (with_reducible refine Act.within_ite ?_ ?_) | split | simp +decide

@[simp] theorem Act.within_moveFails {f : Touch} (a0 a1) (hf : (touchBerth.join ⟨[.mct, .tier], [.BOLL_COUNT,
    .CHART_DRAIN, .FERRY_STATUS, .SDIR_LOCKED, .SDIR_STATE_COUNT, .TIER_MOOR_STATUS], [.SDIR_CRC_FAIL_COUNT]⟩ :
    Touch).le f = true) : Act.Within f (.moveFails a0 a1) := by
  refine Act.Within.mono ?_ hf
  unfold Act.moveFails
  repeat'
    first
      | intro _ | refine And.intro ?_ ?_ | (with_reducible refine Act.within_each fun _ => ?_)
      | (with_reducible refine Act.within_when ?_) | (with_reducible refine Act.within_ite ?_ ?_) | split | simp +decide

@[simp] theorem Act.within_moveTrouble {f : Touch} (a0 a1) (hf : (touchBerth.join ⟨[.mct, .tier], [.BOLL_COUNT,
    .CHART_DRAIN, .FERRY_STATUS, .SDIR_LOCKED, .SDIR_STATE_COUNT, .TIER_MOOR_STATUS], [.SDIR_CANCEL_COUNT,
    .SDIR_CRC_FAIL_COUNT, .SDIR_TENSION_COUNT, .TIER_DIVERT_COUNT]⟩ : Touch).le f = true) : Act.Within f (.moveTrouble
    a0 a1) := by
  refine Act.Within.mono ?_ hf
  unfold Act.moveTrouble
  repeat'
    first
      | intro _ | refine And.intro ?_ ?_ | (with_reducible refine Act.within_each fun _ => ?_)
      | (with_reducible refine Act.within_when ?_) | (with_reducible refine Act.within_ite ?_ ?_) | split | simp +decide

@[simp] theorem Act.within_moveComplete {f : Touch} (a0) (hf : ((touchImage.join touchBerth).join ⟨[.free, .mct, .sec],
    [.BOLL_COUNT, .CHART_DRAIN, .FERRY_STATUS, .SDIR_LOCKED, .SDIR_STATE_COUNT], [.SDIR_CRC_FAIL_COUNT,
    .SDIR_LAYUP_COUNT, .SDIR_MOOR_COUNT, .SDIR_REVIVE_COUNT]⟩ : Touch).le f = true) : Act.Within f (.moveComplete a0) :=
    by
  refine Act.Within.mono ?_ hf
  unfold Act.moveComplete
  repeat'
    first
      | intro _ | refine And.intro ?_ ?_ | (with_reducible refine Act.within_each fun _ => ?_)
      | (with_reducible refine Act.within_when ?_) | (with_reducible refine Act.within_ite ?_ ?_) | split | simp +decide

@[simp] theorem Act.within_moveReport {f : Touch} (a0 a1) (hf : ((touchImage.join touchBerth).join ⟨[.free, .mct, .sec],
    [.BOLL_COUNT, .CHART_DRAIN, .FERRY_STATUS, .SDIR_LOCKED, .SDIR_STATE_COUNT], [.SDIR_CANCEL_COUNT,
    .SDIR_CRC_FAIL_COUNT, .SDIR_LAYUP_COUNT, .SDIR_MOOR_COUNT, .SDIR_REVIVE_COUNT, .SDIR_TENSION_COUNT,
    .TIER_DIVERT_COUNT]⟩ : Touch).le f = true) : Act.Within f (.moveReport a0 a1) := by
  refine Act.Within.mono ?_ hf
  unfold Act.moveReport
  repeat'
    first
      | intro _ | refine And.intro ?_ ?_ | (with_reducible refine Act.within_each fun _ => ?_)
      | (with_reducible refine Act.within_when ?_) | (with_reducible refine Act.within_ite ?_ ?_) | split | simp +decide

@[simp] theorem Act.within_openBerthReport {f : Touch} (a0 a1 a2 a3) (hf : (touchBerth.join ⟨[.mct, .tier],
    [.BOLL_COUNT, .CHART_DRAIN, .FERRY_STATUS, .SDIR_LOCKED, .SDIR_STATE_COUNT, .TIER_MOOR_STATUS], [.SDIR_CANCEL_COUNT,
    .SDIR_CRC_FAIL_COUNT]⟩ : Touch).le f = true) : Act.Within f (.openBerthReport a0 a1 a2 a3) := by
  refine Act.Within.mono ?_ hf
  unfold Act.openBerthReport
  repeat'
    first
      | intro _ | refine And.intro ?_ ?_ | (with_reducible refine Act.within_each fun _ => ?_)
      | (with_reducible refine Act.within_when ?_) | (with_reducible refine Act.within_ite ?_ ?_) | split | simp +decide

@[simp] theorem Act.within_nmuPop {f : Touch} (a0) (hf : (⟨[.nmu], [.NMU_STATUS], []⟩ : Touch).le f = true) : Act.Within
    f (.nmuPop a0) := by
  refine Act.Within.mono ?_ hf
  unfold Act.nmuPop
  repeat'
    first
      | intro _ | refine And.intro ?_ ?_ | (with_reducible refine Act.within_each fun _ => ?_)
      | (with_reducible refine Act.within_when ?_) | (with_reducible refine Act.within_ite ?_ ?_) | split | simp +decide

@[simp] theorem Act.within_nmuStatus {f : Touch} (a0 a1 a2) (hf : (touchRaise.join ⟨[], [], [.ERR_MANIFEST_FAIL_COUNT,
    .NMU_DIGEST_FAIL_COUNT, .NMU_LINE_ECC_COUNT, .NMU_MANIFEST_FAIL_COUNT, .NMU_REJECT_COUNT]⟩ : Touch).le f = true) :
    Act.Within f (.nmuStatus a0 a1 a2) := by
  refine Act.Within.mono ?_ hf
  unfold Act.nmuStatus
  repeat'
    first
      | intro _ | refine And.intro ?_ ?_ | (with_reducible refine Act.within_each fun _ => ?_)
      | (with_reducible refine Act.within_when ?_) | (with_reducible refine Act.within_ite ?_ ?_) | split | simp +decide

@[simp] theorem Act.within_nmuStart {f : Touch} (a0 a1) (hf : (touchNmu : Touch).le f = true) : Act.Within f (.nmuStart
    a0 a1) := by
  refine Act.Within.mono ?_ hf
  unfold Act.nmuStart
  repeat'
    first
      | intro _ | refine And.intro ?_ ?_ | (with_reducible refine Act.within_each fun _ => ?_)
      | (with_reducible refine Act.within_when ?_) | (with_reducible refine Act.within_ite ?_ ?_) | split | simp +decide

@[simp] theorem Act.within_nmuReserved {f : Touch} (hf : (touchStore.join ⟨[.irq], [.NMU_STATUS],
    [.ERR_MANIFEST_FAIL_COUNT, .NMU_DIGEST_FAIL_COUNT, .NMU_MANIFEST_FAIL_COUNT, .NMU_REJECT_COUNT]⟩ : Touch).le f =
    true) : Act.Within f .nmuReserved := by
  refine Act.Within.mono ?_ hf
  unfold Act.nmuReserved
  repeat'
    first
      | intro _ | refine And.intro ?_ ?_ | (with_reducible refine Act.within_each fun _ => ?_)
      | (with_reducible refine Act.within_when ?_) | (with_reducible refine Act.within_ite ?_ ?_) | split | simp +decide

@[simp] theorem Act.within_modNmuCmd {f : Touch} (a0 a1) (hf : (⟨[.nmu], [], []⟩ : Touch).le f = true) : Act.Within f
    (.modNmuCmd a0 a1) := by
  refine Act.Within.mono ?_ hf
  unfold Act.modNmuCmd
  repeat'
    first
      | intro _ | refine And.intro ?_ ?_ | (with_reducible refine Act.within_each fun _ => ?_)
      | (with_reducible refine Act.within_when ?_) | (with_reducible refine Act.within_ite ?_ ?_) | split | simp +decide

@[simp] theorem Act.within_showPieces {f : Touch} (a0) (hf : (⟨[], [.NMU_STACK], []⟩ : Touch).le f = true) : Act.Within
    f (.showPieces a0) := by
  refine Act.Within.mono ?_ hf
  unfold Act.showPieces
  repeat'
    first
      | intro _ | refine And.intro ?_ ?_ | (with_reducible refine Act.within_each fun _ => ?_)
      | (with_reducible refine Act.within_when ?_) | (with_reducible refine Act.within_ite ?_ ?_) | split | simp +decide

@[simp] theorem Act.within_nmuStop {f : Touch} (a0 a1) (hf : (⟨[.nmu], [.NMU_STACK, .NMU_STATUS], []⟩ : Touch).le f =
    true) : Act.Within f (.nmuStop a0 a1) := by
  refine Act.Within.mono ?_ hf
  unfold Act.nmuStop
  repeat'
    first
      | intro _ | refine And.intro ?_ ?_ | (with_reducible refine Act.within_each fun _ => ?_)
      | (with_reducible refine Act.within_when ?_) | (with_reducible refine Act.within_ite ?_ ?_) | split | simp +decide

@[simp] theorem Act.within_pieceWrite {f : Touch} (a0 a1 a2) (hf : (touchStore.join ⟨[.free], [], []⟩ : Touch).le f =
    true) : Act.Within f (.pieceWrite a0 a1 a2) := by
  refine Act.Within.mono ?_ hf
  unfold Act.pieceWrite
  repeat'
    first
      | intro _ | refine And.intro ?_ ?_ | (with_reducible refine Act.within_each fun _ => ?_)
      | (with_reducible refine Act.within_when ?_) | (with_reducible refine Act.within_ite ?_ ?_) | split | simp +decide

@[simp] theorem Act.within_nmuPiece {f : Touch} (a0) (hf : (touchStore.join ⟨[.free], [.NMU_STATUS],
    [.ERR_MANIFEST_FAIL_COUNT, .NMU_DIGEST_FAIL_COUNT, .NMU_MANIFEST_FAIL_COUNT, .NMU_REJECT_COUNT]⟩ : Touch).le f =
    true) : Act.Within f (.nmuPiece a0) := by
  refine Act.Within.mono ?_ hf
  unfold Act.nmuPiece
  repeat'
    first
      | intro _ | refine And.intro ?_ ?_ | (with_reducible refine Act.within_each fun _ => ?_)
      | (with_reducible refine Act.within_when ?_) | (with_reducible refine Act.within_ite ?_ ?_) | split | simp +decide

@[simp] theorem Act.within_nmuMakeRoom {f : Touch} (a0) (hf : (touchStore.join ⟨[.free], [.NMU_STATUS],
    [.ERR_MANIFEST_FAIL_COUNT, .NMU_DIGEST_FAIL_COUNT, .NMU_MANIFEST_FAIL_COUNT, .NMU_REJECT_COUNT]⟩ : Touch).le f =
    true) : Act.Within f (.nmuMakeRoom a0) := by
  refine Act.Within.mono ?_ hf
  unfold Act.nmuMakeRoom
  repeat'
    first
      | intro _ | refine And.intro ?_ ?_ | (with_reducible refine Act.within_each fun _ => ?_)
      | (with_reducible refine Act.within_when ?_) | (with_reducible refine Act.within_ite ?_ ?_) | split | simp +decide

@[simp] theorem Act.within_nmuDispatch {f : Touch} (a0) (hf : (⟨[.nmu], [.NMU_STACK, .NMU_STATUS], [.NMU_BRIDGE_COUNT]⟩
    : Touch).le f = true) : Act.Within f (.nmuDispatch a0) := by
  refine Act.Within.mono ?_ hf
  unfold Act.nmuDispatch
  repeat'
    first
      | intro _ | refine And.intro ?_ ?_ | (with_reducible refine Act.within_each fun _ => ?_)
      | (with_reducible refine Act.within_when ?_) | (with_reducible refine Act.within_ite ?_ ?_) | split | simp +decide

@[simp] theorem Act.within_nmuManifests {f : Touch} (a0) (hf : (touchStore : Touch).le f = true) : Act.Within f
    (.nmuManifests a0) := by
  refine Act.Within.mono ?_ hf
  unfold Act.nmuManifests
  repeat'
    first
      | intro _ | refine And.intro ?_ ?_ | (with_reducible refine Act.within_each fun _ => ?_)
      | (with_reducible refine Act.within_when ?_) | (with_reducible refine Act.within_ite ?_ ?_) | split | simp +decide

@[simp] theorem Act.within_nmuUndefined {f : Touch} (a0) (hf : (touchStore.join ⟨[.free], [], []⟩ : Touch).le f = true)
    : Act.Within f (.nmuUndefined a0) := by
  refine Act.Within.mono ?_ hf
  unfold Act.nmuUndefined
  repeat'
    first
      | intro _ | refine And.intro ?_ ?_ | (with_reducible refine Act.within_each fun _ => ?_)
      | (with_reducible refine Act.within_when ?_) | (with_reducible refine Act.within_ite ?_ ?_) | split | simp +decide

@[simp] theorem Act.within_nmuFinish {f : Touch} (a0) (hf : (touchStore.join ⟨[.free], [], [.ERR_MANIFEST_FAIL_COUNT,
    .NMU_DIGEST_FAIL_COUNT, .NMU_MANIFEST_FAIL_COUNT, .NMU_REJECT_COUNT]⟩ : Touch).le f = true) : Act.Within f
    (.nmuFinish a0) := by
  refine Act.Within.mono ?_ hf
  unfold Act.nmuFinish
  repeat'
    first
      | intro _ | refine And.intro ?_ ?_ | (with_reducible refine Act.within_each fun _ => ?_)
      | (with_reducible refine Act.within_when ?_) | (with_reducible refine Act.within_ite ?_ ?_) | split | simp +decide

@[simp] theorem Act.within_nmuWord {f : Touch} (a0) (hf : (touchStore : Touch).le f = true) : Act.Within f (.nmuWord a0)
    := by
  refine Act.Within.mono ?_ hf
  unfold Act.nmuWord
  repeat'
    first
      | intro _ | refine And.intro ?_ ?_ | (with_reducible refine Act.within_each fun _ => ?_)
      | (with_reducible refine Act.within_when ?_) | (with_reducible refine Act.within_ite ?_ ?_) | split | simp +decide

@[simp] theorem Act.within_nmuPost {f : Touch} (a0) (hf : (touchRaise.join ⟨[.irq, .nmu, .sail], [.BOLL_COUNT,
    .BOLL_WAIT], [.BOLL_OVERFLOW_COUNT, .NMU_DIFF_COUNT]⟩ : Touch).le f = true) : Act.Within f (.nmuPost a0) := by
  refine Act.Within.mono ?_ hf
  unfold Act.nmuPost
  repeat'
    first
      | intro _ | refine And.intro ?_ ?_ | (with_reducible refine Act.within_each fun _ => ?_)
      | (with_reducible refine Act.within_when ?_) | (with_reducible refine Act.within_ite ?_ ?_) | split | simp +decide

@[simp] theorem Act.within_nmuEnd {f : Touch} (a0 a1) (hf : (touchStore.join ⟨[.free, .irq, .sail], [.BOLL_COUNT,
    .BOLL_WAIT], [.BOLL_OVERFLOW_COUNT, .ERR_MANIFEST_FAIL_COUNT, .NMU_DIFF_COUNT, .NMU_DIGEST_FAIL_COUNT,
    .NMU_MANIFEST_FAIL_COUNT, .NMU_REJECT_COUNT]⟩ : Touch).le f = true) : Act.Within f (.nmuEnd a0 a1) := by
  refine Act.Within.mono ?_ hf
  induction a1 with
  | zero => unfold Act.nmuEnd; exact Act.within_done
  | succ n ih =>
    unfold Act.nmuEnd
    repeat'
      first
        | (with_reducible exact ih) | intro _ | refine And.intro ?_ ?_ | (with_reducible refine Act.within_each fun _ => ?_)
        | (with_reducible refine Act.within_when ?_) | (with_reducible refine Act.within_ite ?_ ?_) | split | simp +decide

@[simp] theorem Act.within_nmuDone {f : Touch} (a0) (hf : (touchStore.join ⟨[.free, .irq, .sail], [.BOLL_COUNT,
    .BOLL_WAIT, .NMU_STATUS], [.BOLL_OVERFLOW_COUNT, .ERR_MANIFEST_FAIL_COUNT, .NMU_DIFF_COUNT, .NMU_DIGEST_FAIL_COUNT,
    .NMU_MANIFEST_FAIL_COUNT, .NMU_REJECT_COUNT]⟩ : Touch).le f = true) : Act.Within f (.nmuDone a0) := by
  refine Act.Within.mono ?_ hf
  unfold Act.nmuDone
  repeat'
    first
      | intro _ | refine And.intro ?_ ?_ | (with_reducible refine Act.within_each fun _ => ?_)
      | (with_reducible refine Act.within_when ?_) | (with_reducible refine Act.within_ite ?_ ?_) | split | simp +decide

@[simp] theorem Act.within_pollRing {f : Touch} (a0) (hf : (touchRaise.join ⟨[.hostMem], [.HOST_EVENT],
    [.HOST_ENTRY_CRC_COUNT, .HOST_RING_FAIL_COUNT]⟩ : Touch).le f = true) : Act.Within f (.pollRing a0) := by
  refine Act.Within.mono ?_ hf
  unfold Act.pollRing
  repeat'
    first
      | intro _ | refine And.intro ?_ ?_ | (with_reducible refine Act.within_each fun _ => ?_)
      | refine Act.within_pollEntries _ _ _ (by decide) ?_
      | (with_reducible refine Act.within_when ?_) | (with_reducible refine Act.within_ite ?_ ?_) | split | simp +decide

@[simp] theorem Act.within_shiftItem {f : Touch} (a0) (hf : (⟨[.sail], [], []⟩ : Touch).le f = true) : Act.Within f
    (.shiftItem a0) := by
  refine Act.Within.mono ?_ hf
  unfold Act.shiftItem
  repeat'
    first
      | intro _ | refine And.intro ?_ ?_ | (with_reducible refine Act.within_each fun _ => ?_)
      | (with_reducible refine Act.within_when ?_) | (with_reducible refine Act.within_ite ?_ ?_) | split | simp +decide

@[simp] theorem Act.within_modItem {f : Touch} (a0 a1) (hf : (⟨[.sail], [], []⟩ : Touch).le f = true) : Act.Within f
    (.modItem a0 a1) := by
  refine Act.Within.mono ?_ hf
  unfold Act.modItem
  repeat'
    first
      | intro _ | refine And.intro ?_ ?_ | (with_reducible refine Act.within_each fun _ => ?_)
      | (with_reducible refine Act.within_when ?_) | (with_reducible refine Act.within_ite ?_ ?_) | split | simp +decide

theorem Act.within_slotCount {f : Touch} (a0 a1 a2) (hf : (⟨[.irq, .sail], [.BOLL_COUNT, .BOLL_WAIT, .IRQ_SRC], []⟩ :
    Touch).le f = true) (h2 : a2.Within f) : Act.Within f (.slotCount a0 a1 a2) := by
  unfold Act.slotCount; try dsimp only
  repeat'
    first
      | (with_reducible exact h2) | intro _ | (with_reducible refine (Act.within_look _).2 fun _ => ?_)
      | (with_reducible exact Act.within_nil) | (with_reducible refine Act.within_when ?_)
      | (with_reducible refine Act.within_andThen_of ?_ ?_) | (with_reducible refine Act.within_cons_of ?_ ?_)
      | (with_reducible refine Act.within_ite ?_ ?_) | (with_reducible refine Act.within_each fun _ => ?_) | split
      | exact Act.Within.mono (f := (⟨[.irq, .sail], [.BOLL_COUNT, .BOLL_WAIT, .IRQ_SRC], []⟩)) (by simp +decide) hf

@[simp] theorem Act.within_startTile {f : Touch} (a0 a1 a2 a3) (hf : (⟨[.core, .sail], [.CORE_STATUS], []⟩ : Touch).le f
    = true) : Act.Within f (.startTile a0 a1 a2 a3) := by
  refine Act.Within.mono ?_ hf
  unfold Act.startTile
  repeat'
    first
      | intro _ | refine And.intro ?_ ?_ | (with_reducible refine Act.within_each fun _ => ?_)
      | (with_reducible refine Act.within_when ?_) | (with_reducible refine Act.within_ite ?_ ?_) | split | simp +decide

@[simp] theorem Act.within_badDesc {f : Touch} (a0 a1) (hf : (touchTileEnd : Touch).le f = true) : Act.Within f
    (.badDesc a0 a1) := by
  refine Act.Within.mono ?_ hf
  unfold Act.badDesc
  repeat'
    first
      | intro _ | refine And.intro ?_ ?_ | (with_reducible refine Act.within_each fun _ => ?_)
      | (with_reducible refine Act.within_when ?_) | (with_reducible refine Act.within_ite ?_ ?_) | split | simp +decide

@[simp] theorem Act.within_tryTile {f : Touch} (a0 a1 a2 a3) (hf : (⟨[.core, .sail], [.CORE_STATUS],
    [.CORE_HAZARD_STALL_COUNT]⟩ : Touch).le f = true) : Act.Within f (.tryTile a0 a1 a2 a3) := by
  refine Act.Within.mono ?_ hf
  unfold Act.tryTile
  repeat'
    first
      | intro _ | refine And.intro ?_ ?_ | (with_reducible refine Act.within_each fun _ => ?_)
      | (with_reducible refine Act.within_when ?_) | (with_reducible refine Act.within_ite ?_ ?_) | split | simp +decide

@[simp] theorem Act.within_runSlot {f : Touch} (a0 a1) (hf : (touchTileEnd.join ⟨[.core], [],
    [.CORE_HAZARD_STALL_COUNT]⟩ : Touch).le f = true) : Act.Within f (.runSlot a0 a1) := by
  refine Act.Within.mono ?_ hf
  unfold Act.runSlot
  repeat'
    first
      | intro _ | refine And.intro ?_ ?_ | (with_reducible refine Act.within_each fun _ => ?_)
      | (with_reducible refine Act.within_when ?_) | (with_reducible refine Act.within_ite ?_ ?_) | split | simp +decide

@[simp] theorem Act.within_issueSlot {f : Touch} (a0 a1) (hf : (touchTileEnd.join ⟨[.core], [.SAIL_STATUS],
    [.CORE_HAZARD_STALL_COUNT, .SAIL_DROP_COUNT]⟩ : Touch).le f = true) : Act.Within f (.issueSlot a0 a1) := by
  refine Act.Within.mono ?_ hf
  unfold Act.issueSlot
  repeat'
    first
      | intro _ | refine And.intro ?_ ?_ | (with_reducible refine Act.within_each fun _ => ?_)
      | refine Act.within_slotCount _ _ _ (by decide) ?_
      | (with_reducible refine Act.within_when ?_) | (with_reducible refine Act.within_ite ?_ ?_) | split | simp +decide

@[simp] theorem Act.within_carrySlot {f : Touch} (a0 a1) (hf : (⟨[.irq, .sail], [.SAIL_STATUS], [.SAIL_CARRY_COUNT,
    .SAIL_CARRY_FULL_COUNT, .SAIL_DROP_COUNT]⟩ : Touch).le f = true) : Act.Within f (.carrySlot a0 a1) := by
  refine Act.Within.mono ?_ hf
  unfold Act.carrySlot
  repeat'
    first
      | intro _ | refine And.intro ?_ ?_ | (with_reducible refine Act.within_each fun _ => ?_)
      | (with_reducible refine Act.within_when ?_) | (with_reducible refine Act.within_ite ?_ ?_) | split | simp +decide

@[simp] theorem Act.within_strictSlot {f : Touch} (a0 a1) (hf : (touchRaise.join ⟨[.irq], [.SAIL_STATUS],
    [.SAIL_STRICT_MISS_COUNT]⟩ : Touch).le f = true) : Act.Within f (.strictSlot a0 a1) := by
  refine Act.Within.mono ?_ hf
  unfold Act.strictSlot
  repeat'
    first
      | intro _ | refine And.intro ?_ ?_ | (with_reducible refine Act.within_each fun _ => ?_)
      | (with_reducible refine Act.within_when ?_) | (with_reducible refine Act.within_ite ?_ ?_) | split | simp +decide

@[simp] theorem Act.within_unissued {f : Touch} (a0 a1) (hf : (touchRaise.join ⟨[.irq, .sail], [.SAIL_STATUS],
    [.SAIL_CARRY_COUNT, .SAIL_CARRY_FULL_COUNT, .SAIL_DROP_COUNT, .SAIL_STRICT_MISS_COUNT]⟩ : Touch).le f = true) :
    Act.Within f (.unissued a0 a1) := by
  refine Act.Within.mono ?_ hf
  unfold Act.unissued
  repeat'
    first
      | intro _ | refine And.intro ?_ ?_ | (with_reducible refine Act.within_each fun _ => ?_)
      | (with_reducible refine Act.within_when ?_) | (with_reducible refine Act.within_ite ?_ ?_) | split | simp +decide

@[simp] theorem Act.within_closeCore {f : Touch} (a0 a1) (hf : (touchRaise.join ⟨[.irq, .sail], [.BOLL_COUNT,
    .SAIL_STATUS], [.SAIL_CARRY_COUNT, .SAIL_CARRY_FULL_COUNT, .SAIL_DROP_COUNT, .SAIL_STRICT_MISS_COUNT]⟩ : Touch).le f
    = true) : Act.Within f (.closeCore a0 a1) := by
  refine Act.Within.mono ?_ hf
  unfold Act.closeCore
  repeat'
    first
      | intro _ | refine And.intro ?_ ?_ | (with_reducible refine Act.within_each fun _ => ?_)
      | (with_reducible refine Act.within_when ?_) | (with_reducible refine Act.within_ite ?_ ?_) | split | simp +decide

@[simp] theorem Act.within_commitDeadline {f : Touch} (hf : (touchRaise.join ⟨[.sail], [.SAIL_STATUS],
    [.SAIL_TT_REJECT_COUNT]⟩ : Touch).le f = true) : Act.Within f .commitDeadline := by
  refine Act.Within.mono ?_ hf
  unfold Act.commitDeadline
  repeat'
    first
      | intro _ | refine And.intro ?_ ?_ | (with_reducible refine Act.within_each fun _ => ?_)
      | (with_reducible refine Act.within_when ?_) | (with_reducible refine Act.within_ite ?_ ?_) | split | simp +decide

@[simp] theorem Act.within_ringVector {f : Touch} (a0) (hf : (⟨[.host, .out], [], []⟩ : Touch).le f = true) : Act.Within
    f (.ringVector a0) := by
  refine Act.Within.mono ?_ hf
  unfold Act.ringVector
  repeat'
    first
      | intro _ | refine And.intro ?_ ?_ | (with_reducible refine Act.within_each fun _ => ?_)
      | (with_reducible refine Act.within_when ?_) | (with_reducible refine Act.within_ite ?_ ?_) | split | simp +decide

@[simp] theorem Act.within_ttCommit {f : Touch} (a0) (hf : (⟨[.sail], [.SAIL_TT_COMMIT], []⟩ : Touch).le f = true) :
    Act.Within f (.ttCommit a0) := by
  refine Act.Within.mono ?_ hf
  unfold Act.ttCommit
  repeat'
    first
      | intro _ | refine And.intro ?_ ?_ | (with_reducible refine Act.within_each fun _ => ?_)
      | (with_reducible refine Act.within_when ?_) | (with_reducible refine Act.within_ite ?_ ?_) | split | simp +decide

@[simp] theorem Act.within_toTime {f : Touch} (a0) (hf : (touchRaise.join ⟨[.sail], [.CFG_STATUS, .SAIL_STATUS],
    [.SAIL_UNLOCK_COUNT]⟩ : Touch).le f = true) : Act.Within f (.toTime a0) := by
  refine Act.Within.mono ?_ hf
  unfold Act.toTime
  repeat'
    first
      | intro _ | refine And.intro ?_ ?_ | (with_reducible refine Act.within_each fun _ => ?_)
      | (with_reducible refine Act.within_when ?_) | (with_reducible refine Act.within_ite ?_ ?_) | split | simp +decide

@[simp] theorem Act.within_measured {f : Touch} (a0 a1) (hf : (⟨[.sail], [.SAIL_TIME_OFFSET], []⟩ : Touch).le f = true)
    : Act.Within f (.measured a0 a1) := by
  refine Act.Within.mono ?_ hf
  unfold Act.measured
  repeat'
    first
      | intro _ | refine And.intro ?_ ?_ | (with_reducible refine Act.within_each fun _ => ?_)
      | (with_reducible refine Act.within_when ?_) | (with_reducible refine Act.within_ite ?_ ?_) | split | simp +decide

@[simp] theorem Act.within_taiSeconds {f : Touch} (a0) (hf : (⟨[.sail], [.SAIL_TAI_SECONDS], []⟩ : Touch).le f = true) :
    Act.Within f (.taiSeconds a0) := by
  refine Act.Within.mono ?_ hf
  unfold Act.taiSeconds
  repeat'
    first
      | intro _ | refine And.intro ?_ ?_ | (with_reducible refine Act.within_each fun _ => ?_)
      | (with_reducible refine Act.within_when ?_) | (with_reducible refine Act.within_ite ?_ ?_) | split | simp +decide

theorem Act.within_sealSession {f : Touch} (a0 a1) (hf : (touchStore.join ⟨[.irq, .sdir], [.SDIR_LOCKED,
    .SDIR_STATE_COUNT], [.SDIR_CRC_FAIL_COUNT]⟩ : Touch).le f = true) (h1 : ∀ x0 x1, (a1 x0 x1).Within f) : Act.Within f
    (.sealSession a0 a1) := by
  unfold Act.sealSession; try dsimp only
  repeat'
    first
      | (with_reducible exact h1 _ _) | intro _ | (with_reducible refine (Act.within_look _).2 fun _ => ?_)
      | (with_reducible exact Act.within_nil) | (with_reducible refine Act.within_when ?_)
      | (with_reducible refine Act.within_andThen_of ?_ ?_) | (with_reducible refine Act.within_cons_of ?_ ?_)
      | (with_reducible refine Act.within_ite ?_ ?_) | (with_reducible refine Act.within_each fun _ => ?_) | split
      | exact Act.Within.mono (f := (touchStore.join ⟨[.irq, .sdir], [.SDIR_LOCKED, .SDIR_STATE_COUNT], [.SDIR_CRC_FAIL_COUNT]⟩)) (by simp +decide) hf

end Sys2Proof.Machine
end

