-- ==== Sys2Proof/Laws/TouchRest.lean ====
section
/-! SUPPORT. What the operations of the commands of the other units can touch, each said once. -/

namespace Sys2Proof.Machine

@[simp] theorem Act.within_takeBuddy {f : Touch} (hf : (⟨[.ckpt, .nmu], [], []⟩ : Touch).le f = true) : Act.Within f
    .takeBuddy := by
  refine Act.Within.mono ?_ hf
  unfold Act.takeBuddy
  repeat'
    first
      | intro _ | refine And.intro ?_ ?_ | (with_reducible refine Act.within_each fun _ => ?_)
      | (with_reducible refine Act.within_when ?_) | (with_reducible refine Act.within_ite ?_ ?_) | split | simp +decide

@[simp] theorem Act.within_reopen {f : Touch} (a0) (hf : (touchRaise.join ⟨[.egr, .mct], [], [.EGR_CE_MARK_COUNT,
    .EGR_FULL_COUNT, .EGR_GATE_HOLD_COUNT, .EGR_NO_FIT_COUNT]⟩ : Touch).le f = true) : Act.Within f (.reopen a0) := by
  refine Act.Within.mono ?_ hf
  unfold Act.reopen
  repeat'
    first
      | intro _ | refine And.intro ?_ ?_ | (with_reducible refine Act.within_each fun _ => ?_)
      | (with_reducible refine Act.within_when ?_) | (with_reducible refine Act.within_ite ?_ ?_) | split | simp +decide

@[simp] theorem Act.within_restoreFails {f : Touch} (a0 a1) (hf : (touchRaise.join ⟨[], [.CKPT_STATUS], []⟩ : Touch).le
    f = true) : Act.Within f (.restoreFails a0 a1) := by
  refine Act.Within.mono ?_ hf
  unfold Act.restoreFails
  repeat'
    first
      | intro _ | refine And.intro ?_ ?_ | (with_reducible refine Act.within_each fun _ => ?_)
      | (with_reducible refine Act.within_when ?_) | (with_reducible refine Act.within_ite ?_ ?_) | split | simp +decide

@[simp] theorem Act.within_restoreStart {f : Touch} (a0 a1) (hf : (touchRaise.join ⟨[.ckpt], [.CKPT_STATUS],
    [.ERR_MANIFEST_FAIL_COUNT]⟩ : Touch).le f = true) : Act.Within f (.restoreStart a0 a1) := by
  refine Act.Within.mono ?_ hf
  unfold Act.restoreStart
  repeat'
    first
      | intro _ | refine And.intro ?_ ?_ | (with_reducible refine Act.within_each fun _ => ?_)
      | (with_reducible refine Act.within_when ?_) | (with_reducible refine Act.within_ite ?_ ?_) | split | simp +decide

@[simp] theorem Act.within_restoreRegs {f : Touch} (a0) (hf : (⟨[.shadow], Reg.all, []⟩ : Touch).le f = true) :
    Act.Within f (.restoreRegs a0) := by
  refine Act.Within.mono ?_ hf
  unfold Act.restoreRegs
  repeat'
    first
      | intro _ | refine And.intro ?_ ?_ | (with_reducible refine Act.within_each fun _ => ?_)
      | (with_reducible refine Act.within_when ?_) | (with_reducible refine Act.within_ite ?_ ?_) | split | simp +decide

@[simp] theorem Act.within_restoreMem {f : Touch} (a0 a1) (hf : (⟨[.lost, .ls, .mem], [], []⟩ : Touch).le f = true) :
    Act.Within f (.restoreMem a0 a1) := by
  refine Act.Within.mono ?_ hf
  unfold Act.restoreMem
  repeat'
    first
      | intro _ | refine And.intro ?_ ?_ | (with_reducible refine Act.within_each fun _ => ?_)
      | (with_reducible refine Act.within_when ?_) | (with_reducible refine Act.within_ite ?_ ?_) | split | simp +decide

@[simp] theorem Act.within_restoreUnits {f : Touch} (a0) (hf : (⟨[.berth, .chart, .core, .host, .irq, .mct, .nmu, .out,
    .rcl, .sail, .sdir, .sec, .text, .tier], [.HOST_CXL_WIN, .HOST_EVENT, .HOST_WIN, .TIER_MOOR_STATUS], []⟩ : Touch).le
    f = true) : Act.Within f (.restoreUnits a0) := by
  refine Act.Within.mono ?_ hf
  unfold Act.restoreUnits
  repeat'
    first
      | intro _ | refine And.intro ?_ ?_ | (with_reducible refine Act.within_each fun _ => ?_)
      | (with_reducible refine Act.within_when ?_) | (with_reducible refine Act.within_ite ?_ ?_) | split | simp +decide

@[simp] theorem Act.within_restoreFlash {f : Touch} (a0) (hf : (⟨[.flash, .nand, .out], [.FLASH_LUN_STATUS,
    .FLASH_STATUS], []⟩ : Touch).le f = true) : Act.Within f (.restoreFlash a0) := by
  refine Act.Within.mono ?_ hf
  unfold Act.restoreFlash
  repeat'
    first
      | intro _ | refine And.intro ?_ ?_ | (with_reducible refine Act.within_each fun _ => ?_)
      | (with_reducible refine Act.within_when ?_) | (with_reducible refine Act.within_ite ?_ ?_) | split | simp +decide

@[simp] theorem Act.within_closeTags {f : Touch} (hf : (touchStore : Touch).le f = true) : Act.Within f .closeTags := by
  refine Act.Within.mono ?_ hf
  unfold Act.closeTags
  repeat'
    first
      | intro _ | refine And.intro ?_ ?_ | (with_reducible refine Act.within_each fun _ => ?_)
      | (with_reducible refine Act.within_when ?_) | (with_reducible refine Act.within_ite ?_ ?_) | split | simp +decide

@[simp] theorem Act.within_moveTimetable {f : Touch} (a0 a1) (hf : (⟨[.mem], [], []⟩ : Touch).le f = true) : Act.Within
    f (.moveTimetable a0 a1) := by
  refine Act.Within.mono ?_ hf
  unfold Act.moveTimetable
  repeat'
    first
      | intro _ | refine And.intro ?_ ?_ | (with_reducible refine Act.within_each fun _ => ?_)
      | (with_reducible refine Act.within_when ?_) | (with_reducible refine Act.within_ite ?_ ?_) | split | simp +decide

@[simp] theorem Act.within_resumeTimetable {f : Touch} (a0) (hf : (touchRaise.join ⟨[.mem, .sail], [.SAIL_STATUS],
    [.SAIL_TT_REJECT_COUNT]⟩ : Touch).le f = true) : Act.Within f (.resumeTimetable a0) := by
  refine Act.Within.mono ?_ hf
  unfold Act.resumeTimetable
  repeat'
    first
      | intro _ | refine And.intro ?_ ?_ | (with_reducible refine Act.within_each fun _ => ?_)
      | (with_reducible refine Act.within_when ?_) | (with_reducible refine Act.within_ite ?_ ?_) | split | simp +decide

@[simp] theorem Act.within_reportBerths {f : Touch} (hf : (⟨[.out], [], []⟩ : Touch).le f = true) : Act.Within f
    .reportBerths := by
  refine Act.Within.mono ?_ hf
  unfold Act.reportBerths
  repeat'
    first
      | intro _ | refine And.intro ?_ ?_ | (with_reducible refine Act.within_each fun _ => ?_)
      | (with_reducible refine Act.within_when ?_) | (with_reducible refine Act.within_ite ?_ ?_) | split | simp +decide

@[simp] theorem Act.within_firmwareMessage {f : Touch} (a0 a1 a2 a3) (hf : (touchSend : Touch).le f = true) : Act.Within
    f (.firmwareMessage a0 a1 a2 a3) := by
  refine Act.Within.mono ?_ hf
  unfold Act.firmwareMessage
  repeat'
    first
      | intro _ | refine And.intro ?_ ?_ | (with_reducible refine Act.within_each fun _ => ?_)
      | (with_reducible refine Act.within_when ?_) | (with_reducible refine Act.within_ite ?_ ?_) | split | simp +decide

@[simp] theorem Act.within_beginRequest {f : Touch} (a0 a1) (hf : (⟨[.host], [], []⟩ : Touch).le f = true) : Act.Within
    f (.beginRequest a0 a1) := by
  refine Act.Within.mono ?_ hf
  unfold Act.beginRequest
  repeat'
    first
      | intro _ | refine And.intro ?_ ?_ | (with_reducible refine Act.within_each fun _ => ?_)
      | (with_reducible refine Act.within_when ?_) | (with_reducible refine Act.within_ite ?_ ?_) | split | simp +decide

theorem Act.within_request {f : Touch} (a0 a1 a2 a3) (hf : (⟨[.host], [], []⟩ : Touch).le f = true) (h3 : ∀ x0 x1, (a3
    x0 x1).Within f) : Act.Within f (.request a0 a1 a2 a3) := by
  unfold Act.request; try dsimp only
  repeat'
    first
      | (with_reducible exact h3 _ _) | intro _ | (with_reducible refine (Act.within_look _).2 fun _ => ?_)
      | (with_reducible exact Act.within_nil) | (with_reducible refine Act.within_when ?_)
      | (with_reducible refine Act.within_andThen_of ?_ ?_) | (with_reducible refine Act.within_cons_of ?_ ?_)
      | (with_reducible refine Act.within_ite ?_ ?_) | (with_reducible refine Act.within_each fun _ => ?_) | split
      | exact Act.Within.mono (f := (⟨[.host], [], []⟩)) (by simp +decide) hf

@[simp] theorem Act.within_offer {f : Touch} (a0 a1 a2 a3 a4 a5 a6) (hf : (⟨[.host], [], []⟩ : Touch).le f = true) :
    Act.Within f (.offer a0 a1 a2 a3 a4 a5 a6) := by
  refine Act.Within.mono ?_ hf
  unfold Act.offer
  repeat'
    first
      | intro _ | refine And.intro ?_ ?_ | (with_reducible refine Act.within_each fun _ => ?_)
      | refine Act.within_request _ _ _ _ (by decide) (fun _ _ => ?_)
      | (with_reducible refine Act.within_when ?_) | (with_reducible refine Act.within_ite ?_ ?_) | split | simp +decide

@[simp] theorem Act.within_vectorUnmasked {f : Touch} (a0) (hf : (⟨[.host, .out], [], []⟩ : Touch).le f = true) :
    Act.Within f (.vectorUnmasked a0) := by
  refine Act.Within.mono ?_ hf
  unfold Act.vectorUnmasked
  repeat'
    first
      | intro _ | refine And.intro ?_ ?_ | (with_reducible refine Act.within_each fun _ => ?_)
      | (with_reducible refine Act.within_when ?_) | (with_reducible refine Act.within_ite ?_ ?_) | split | simp +decide

@[simp] theorem Act.within_setLost {f : Touch} (a0) (hf : (⟨[], [.HOST_CXL_WIN, .HOST_WIN], []⟩ : Touch).le f = true) :
    Act.Within f (.setLost a0) := by
  refine Act.Within.mono ?_ hf
  unfold Act.setLost
  repeat'
    first
      | intro _ | refine And.intro ?_ ?_ | (with_reducible refine Act.within_each fun _ => ?_)
      | (with_reducible refine Act.within_when ?_) | (with_reducible refine Act.within_ite ?_ ?_) | split | simp +decide

@[simp] theorem Act.within_setDrain {f : Touch} (a0) (hf : (⟨[], [.HOST_CXL_WIN, .HOST_WIN], []⟩ : Touch).le f = true) :
    Act.Within f (.setDrain a0) := by
  refine Act.Within.mono ?_ hf
  unfold Act.setDrain
  repeat'
    first
      | intro _ | refine And.intro ?_ ?_ | (with_reducible refine Act.within_each fun _ => ?_)
      | (with_reducible refine Act.within_when ?_) | (with_reducible refine Act.within_ite ?_ ?_) | split | simp +decide

@[simp] theorem Act.within_reportLost {f : Touch} (a0) (hf : (touchImage.join ⟨[.irq, .mct], [.BOLL_COUNT, .CHART_DRAIN,
    .FERRY_STATUS], [.FERRY_LATE_COUNT, .FERRY_MANIFEST_FAIL_COUNT, .FERRY_READ_FAIL_COUNT, .FERRY_REJECT_COUNT,
    .FERRY_WRITE_FAIL_COUNT, .TIER_NO_SPACE_COUNT]⟩ : Touch).le f = true) : Act.Within f (.reportLost a0) := by
  refine Act.Within.mono ?_ hf
  unfold Act.reportLost
  repeat'
    first
      | intro _ | refine And.intro ?_ ?_ | (with_reducible refine Act.within_each fun _ => ?_)
      | (with_reducible refine Act.within_when ?_) | (with_reducible refine Act.within_ite ?_ ?_) | split | simp +decide

@[simp] theorem Act.within_rowPermanent {f : Touch} (a0 a1 a2 a3) (hf : (touchRaise.join ⟨[], [.ERR_SPARE_ROWS], []⟩ :
    Touch).le f = true) : Act.Within f (.rowPermanent a0 a1 a2 a3) := by
  refine Act.Within.mono ?_ hf
  unfold Act.rowPermanent
  repeat'
    first
      | intro _ | refine And.intro ?_ ?_ | (with_reducible refine Act.within_each fun _ => ?_)
      | (with_reducible refine Act.within_when ?_) | (with_reducible refine Act.within_ite ?_ ?_) | split | simp +decide

@[simp] theorem Act.within_loseLine {f : Touch} (a0) (hf : (⟨[.free, .lost, .mem], [], []⟩ : Touch).le f = true) :
    Act.Within f (.loseLine a0) := by
  refine Act.Within.mono ?_ hf
  unfold Act.loseLine
  repeat'
    first
      | intro _ | refine And.intro ?_ ?_ | (with_reducible refine Act.within_each fun _ => ?_)
      | (with_reducible refine Act.within_when ?_) | (with_reducible refine Act.within_ite ?_ ?_) | split | simp +decide

@[simp] theorem Act.within_hbmRead {f : Touch} (a0 a1 a2 a3 a4 a5) (hf : (touchRaise.join ⟨[.free, .lost, .mem],
    [.ERR_SPARE_ROWS], [.ERR_HBM_CORRECTED_COUNT, .ERR_HBM_UNCORRECTABLE_COUNT, .NMU_LINE_CORRECTED_COUNT]⟩ : Touch).le
    f = true) : Act.Within f (.hbmRead a0 a1 a2 a3 a4 a5) := by
  refine Act.Within.mono ?_ hf
  unfold Act.hbmRead
  repeat'
    first
      | intro _ | refine And.intro ?_ ?_ | (with_reducible refine Act.within_each fun _ => ?_)
      | (with_reducible refine Act.within_when ?_) | (with_reducible refine Act.within_ite ?_ ?_) | split | simp +decide

@[simp] theorem Act.within_sramCorrected {f : Touch} (a0) (hf : (touchRaise.join ⟨[], [], [.ERR_SRAM_CORRECTED_COUNT]⟩ :
    Touch).le f = true) : Act.Within f (.sramCorrected a0) := by
  refine Act.Within.mono ?_ hf
  unfold Act.sramCorrected
  repeat'
    first
      | intro _ | refine And.intro ?_ ?_ | (with_reducible refine Act.within_each fun _ => ?_)
      | (with_reducible refine Act.within_when ?_) | (with_reducible refine Act.within_ite ?_ ?_) | split | simp +decide

@[simp] theorem Act.within_sramLost {f : Touch} (a0) (hf : (touchRaise.join ⟨[.lost], [],
    [.ERR_SRAM_UNCORRECTABLE_COUNT]⟩ : Touch).le f = true) : Act.Within f (.sramLost a0) := by
  refine Act.Within.mono ?_ hf
  unfold Act.sramLost
  repeat'
    first
      | intro _ | refine And.intro ?_ ?_ | (with_reducible refine Act.within_each fun _ => ?_)
      | (with_reducible refine Act.within_when ?_) | (with_reducible refine Act.within_ite ?_ ?_) | split | simp +decide

@[simp] theorem Act.within_errPop {f : Touch} (hf : (⟨[.err], [.ERR_HEAD, .ERR_STATUS], []⟩ : Touch).le f = true) :
    Act.Within f .errPop := by
  refine Act.Within.mono ?_ hf
  unfold Act.errPop
  repeat'
    first
      | intro _ | refine And.intro ?_ ?_ | (with_reducible refine Act.within_each fun _ => ?_)
      | (with_reducible refine Act.within_when ?_) | (with_reducible refine Act.within_ite ?_ ?_) | split | simp +decide

@[simp] theorem Act.within_reservedWrite {f : Touch} (hf : (touchRaise : Touch).le f = true) : Act.Within f
    .reservedWrite := by
  refine Act.Within.mono ?_ hf
  unfold Act.reservedWrite
  repeat'
    first
      | intro _ | refine And.intro ?_ ?_ | (with_reducible refine Act.within_each fun _ => ?_)
      | (with_reducible refine Act.within_when ?_) | (with_reducible refine Act.within_ite ?_ ?_) | split | simp +decide

@[simp] theorem Act.within_claim {f : Touch} (a0) (hf : (⟨[.irq], [.IRQ_SRC], [.IRQ_MASKED_CLAIM_COUNT]⟩ : Touch).le f =
    true) : Act.Within f (.claim a0) := by
  refine Act.Within.mono ?_ hf
  unfold Act.claim
  repeat'
    first
      | intro _ | refine And.intro ?_ ?_ | (with_reducible refine Act.within_each fun _ => ?_)
      | (with_reducible refine Act.within_when ?_) | (with_reducible refine Act.within_ite ?_ ?_) | split | simp +decide

@[simp] theorem Act.within_maskWrite {f : Touch} (a0 a1) (hf : (⟨[], [.IRQ_SRC], []⟩ : Touch).le f = true) : Act.Within
    f (.maskWrite a0 a1) := by
  refine Act.Within.mono ?_ hf
  unfold Act.maskWrite
  repeat'
    first
      | intro _ | refine And.intro ?_ ?_ | (with_reducible refine Act.within_each fun _ => ?_)
      | (with_reducible refine Act.within_when ?_) | (with_reducible refine Act.within_ite ?_ ?_) | split | simp +decide

theorem endCounter_mem {code : Nat} {c : Ctr} (h : endCounter code = some c) :
    c = .ATTN_NONFINITE_COUNT ∨ c = .ATTN_STEER_RANGE_COUNT := by
  unfold endCounter at h
  split at h
  · exact .inl (Option.some.inj h).symm
  · split at h
    · exact .inr (Option.some.inj h).symm
    · cases h

@[simp] theorem Act.within_endWrite {f : Touch} (a0 a1) (hf : (touchRaise.join ⟨[], [.IRQ_END], [.ATTN_NONFINITE_COUNT, .ATTN_STEER_RANGE_COUNT, .IRQ_END_UNKNOWN_COUNT]⟩ : Touch).le f = true) : Act.Within f (.endWrite a0 a1) := by
  refine Act.Within.mono ?_ hf
  unfold Act.endWrite
  repeat' (first | intro _ | refine And.intro ?_ ?_ | with_reducible refine Act.within_ite ?_ ?_ | split | simp +decide)
  rename_i h _ _ _ _
  rcases endCounter_mem h with rfl | rfl <;> simp +decide

@[simp] theorem Act.within_cqHold {f : Touch} (a0) (hf : (⟨[.irq], [], [.IRQ_CQ_FULL_COUNT]⟩ : Touch).le f = true) :
    Act.Within f (.cqHold a0) := by
  refine Act.Within.mono ?_ hf
  unfold Act.cqHold
  repeat'
    first
      | intro _ | refine And.intro ?_ ?_ | (with_reducible refine Act.within_each fun _ => ?_)
      | (with_reducible refine Act.within_when ?_) | (with_reducible refine Act.within_ite ?_ ?_) | split | simp +decide

@[simp] theorem Act.within_postWrite {f : Touch} (a0) (hf : (touchRaise.join ⟨[.irq, .sail], [.BOLL_COUNT, .BOLL_POST,
    .BOLL_WAIT], [.BOLL_OVERFLOW_COUNT]⟩ : Touch).le f = true) : Act.Within f (.postWrite a0) := by
  refine Act.Within.mono ?_ hf
  unfold Act.postWrite
  repeat'
    first
      | intro _ | refine And.intro ?_ ?_ | (with_reducible refine Act.within_each fun _ => ?_)
      | (with_reducible refine Act.within_when ?_) | (with_reducible refine Act.within_ite ?_ ?_) | split | simp +decide

@[simp] theorem Act.within_waitJoin {f : Touch} (a0 a1) (hf : (⟨[.irq, .sail], [.BOLL_COUNT, .BOLL_WAIT, .IRQ_SRC],
    [.BOLL_WAIT_BUSY_COUNT]⟩ : Touch).le f = true) : Act.Within f (.waitJoin a0 a1) := by
  refine Act.Within.mono ?_ hf
  unfold Act.waitJoin
  repeat'
    first
      | intro _ | refine And.intro ?_ ?_ | (with_reducible refine Act.within_each fun _ => ?_)
      | (with_reducible refine Act.within_when ?_) | (with_reducible refine Act.within_ite ?_ ?_) | split | simp +decide

@[simp] theorem Act.within_waitCancel {f : Touch} (a0) (hf : (⟨[.irq], [.BOLL_COUNT, .BOLL_WAIT], []⟩ : Touch).le f =
    true) : Act.Within f (.waitCancel a0) := by
  refine Act.Within.mono ?_ hf
  unfold Act.waitCancel
  repeat'
    first
      | intro _ | refine And.intro ?_ ?_ | (with_reducible refine Act.within_each fun _ => ?_)
      | (with_reducible refine Act.within_when ?_) | (with_reducible refine Act.within_ite ?_ ?_) | split | simp +decide

@[simp] theorem Act.within_countWrite {f : Touch} (a0 a1) (hf : (⟨[.irq, .sail], [.BOLL_COUNT, .BOLL_WAIT, .IRQ_SRC],
    []⟩ : Touch).le f = true) : Act.Within f (.countWrite a0 a1) := by
  refine Act.Within.mono ?_ hf
  unfold Act.countWrite
  repeat'
    first
      | intro _ | refine And.intro ?_ ?_ | (with_reducible refine Act.within_each fun _ => ?_)
      | (with_reducible refine Act.within_when ?_) | (with_reducible refine Act.within_ite ?_ ?_) | split | simp +decide

@[simp] theorem Act.within_kick {f : Touch} (a0) (hf : (⟨[.irq], [], []⟩ : Touch).le f = true) : Act.Within f (.kick a0)
    := by
  refine Act.Within.mono ?_ hf
  unfold Act.kick
  repeat'
    first
      | intro _ | refine And.intro ?_ ?_ | (with_reducible refine Act.within_each fun _ => ?_)
      | (with_reducible refine Act.within_when ?_) | (with_reducible refine Act.within_ite ?_ ?_) | split | simp +decide

@[simp] theorem Act.within_watchReset {f : Touch} (a0) (hf : (touchRaise.join ⟨[.irq], [.BOLL_COUNT, .BOLL_WAIT],
    [.SAIL_WATCH_RESET_COUNT]⟩ : Touch).le f = true) : Act.Within f (.watchReset a0) := by
  refine Act.Within.mono ?_ hf
  unfold Act.watchReset
  repeat'
    first
      | intro _ | refine And.intro ?_ ?_ | (with_reducible refine Act.within_each fun _ => ?_)
      | (with_reducible refine Act.within_when ?_) | (with_reducible refine Act.within_ite ?_ ?_) | split | simp +decide

@[simp] theorem Act.within_watchLow {f : Touch} (a0) (hf : (touchRaise : Touch).le f = true) : Act.Within f (.watchLow
    a0) := by
  refine Act.Within.mono ?_ hf
  unfold Act.watchLow
  repeat'
    first
      | intro _ | refine And.intro ?_ ?_ | (with_reducible refine Act.within_each fun _ => ?_)
      | (with_reducible refine Act.within_when ?_) | (with_reducible refine Act.within_ite ?_ ?_) | split | simp +decide

@[simp] theorem Act.within_watchRetire {f : Touch} (a0) (hf : (touchRaise.join ⟨[.irq], [.SAIL_WATCH_STATUS], []⟩ :
    Touch).le f = true) : Act.Within f (.watchRetire a0) := by
  refine Act.Within.mono ?_ hf
  unfold Act.watchRetire
  repeat'
    first
      | intro _ | refine And.intro ?_ ?_ | (with_reducible refine Act.within_each fun _ => ?_)
      | (with_reducible refine Act.within_when ?_) | (with_reducible refine Act.within_ite ?_ ?_) | split | simp +decide

@[simp] theorem Act.within_watchMiss {f : Touch} (a0) (hf : (touchRaise.join ⟨[.irq], [.BOLL_COUNT, .BOLL_WAIT,
    .SAIL_WATCH_STATUS], [.SAIL_WATCH_MISS_COUNT, .SAIL_WATCH_RESET_COUNT]⟩ : Touch).le f = true) : Act.Within f
    (.watchMiss a0) := by
  refine Act.Within.mono ?_ hf
  unfold Act.watchMiss
  repeat'
    first
      | intro _ | refine And.intro ?_ ?_ | (with_reducible refine Act.within_each fun _ => ?_)
      | (with_reducible refine Act.within_when ?_) | (with_reducible refine Act.within_ite ?_ ?_) | split | simp +decide

@[simp] theorem Act.within_mctAnswer {f : Touch} (a0 a1 a2 a3 a4) (hf : (touchSend.join ⟨[], [], [.CHART_AHEAD_COUNT,
    .CHART_NOT_READY_COUNT, .CHART_REDIRECT_COUNT, .CHART_STALE_COUNT]⟩ : Touch).le f = true) : Act.Within f (.mctAnswer
    a0 a1 a2 a3 a4) := by
  refine Act.Within.mono ?_ hf
  unfold Act.mctAnswer
  repeat'
    first
      | intro _ | refine And.intro ?_ ?_ | (with_reducible refine Act.within_each fun _ => ?_)
      | (with_reducible refine Act.within_when ?_) | (with_reducible refine Act.within_ite ?_ ?_) | split | simp +decide

@[simp] theorem Act.within_land {f : Touch} (a0 a1) (hf : (touchStore.join ⟨[.mct], [], []⟩ : Touch).le f = true) :
    Act.Within f (.land a0 a1) := by
  refine Act.Within.mono ?_ hf
  unfold Act.land
  repeat'
    first
      | intro _ | refine And.intro ?_ ?_ | (with_reducible refine Act.within_each fun _ => ?_)
      | (with_reducible refine Act.within_when ?_) | (with_reducible refine Act.within_ite ?_ ?_) | split | simp +decide

@[simp] theorem Act.within_mctTakeRequest {f : Touch} (a0 a1) (hf : (touchStore.join ⟨[.mct], [.CHART_DRAIN], []⟩ :
    Touch).le f = true) : Act.Within f (.mctTakeRequest a0 a1) := by
  refine Act.Within.mono ?_ hf
  unfold Act.mctTakeRequest
  repeat'
    first
      | intro _ | refine And.intro ?_ ?_ | (with_reducible refine Act.within_each fun _ => ?_)
      | (with_reducible refine Act.within_when ?_) | (with_reducible refine Act.within_ite ?_ ?_) | split | simp +decide

@[simp] theorem Act.within_peerAnswered {f : Touch} (a0 a1 a2) (hf : ((touchTransfer.join touchStore).join ⟨[.core,
    .free, .hostMem, .ls, .mct, .tier], [.CORE_LS_PWR, .FERRY_STATUS], [.ERR_MANIFEST_FAIL_COUNT]⟩ : Touch).le f = true)
    : Act.Within f (.peerAnswered a0 a1 a2) := by
  refine Act.Within.mono ?_ hf
  unfold Act.peerAnswered
  repeat'
    first
      | intro _ | refine And.intro ?_ ?_ | (with_reducible refine Act.within_each fun _ => ?_)
      | (with_reducible refine Act.within_when ?_) | (with_reducible refine Act.within_ite ?_ ?_) | split | simp +decide

theorem Act.within_mctTakeResponse {f : Touch} (a0 a1 a2) (hf : ((touchTransfer.join touchStore).join ⟨[.core, .free,
    .hostMem, .ls, .mct, .tier], [.CHART_DRAIN, .CORE_LS_PWR, .FERRY_STATUS, .TIER_MOOR_STATUS],
    [.ERR_MANIFEST_FAIL_COUNT, .MCT_CROSS_ABORT_COUNT]⟩ : Touch).le f = true) (h2 : a2.Within f) : Act.Within f
    (.mctTakeResponse a0 a1 a2) := by
  unfold Act.mctTakeResponse; try dsimp only
  repeat'
    first
      | (with_reducible exact h2) | intro _ | (with_reducible refine (Act.within_look _).2 fun _ => ?_)
      | (with_reducible exact Act.within_nil) | (with_reducible refine Act.within_when ?_)
      | (with_reducible refine Act.within_andThen_of ?_ ?_) | (with_reducible refine Act.within_cons_of ?_ ?_)
      | (with_reducible refine Act.within_ite ?_ ?_) | (with_reducible refine Act.within_each fun _ => ?_) | split
      | exact Act.Within.mono (f := ((touchTransfer.join touchStore).join ⟨[.core, .free, .hostMem, .ls, .mct, .tier], [.CHART_DRAIN, .CORE_LS_PWR, .FERRY_STATUS, .TIER_MOOR_STATUS], [.ERR_MANIFEST_FAIL_COUNT, .MCT_CROSS_ABORT_COUNT]⟩)) (by simp +decide) hf

@[simp] theorem Act.within_mctTakeHalf {f : Touch} (a0 a1 a2) (hf : ((touchSend.join touchStore).join ⟨[], [],
    [.CHART_AHEAD_COUNT, .CHART_NOT_READY_COUNT, .CHART_REDIRECT_COUNT, .CHART_STALE_COUNT, .ERR_MANIFEST_FAIL_COUNT]⟩ :
    Touch).le f = true) : Act.Within f (.mctTakeHalf a0 a1 a2) := by
  refine Act.Within.mono ?_ hf
  unfold Act.mctTakeHalf
  repeat'
    first
      | intro _ | refine And.intro ?_ ?_ | (with_reducible refine Act.within_each fun _ => ?_)
      | (with_reducible refine Act.within_when ?_) | (with_reducible refine Act.within_ite ?_ ?_) | split | simp +decide

@[simp] theorem Act.within_mctTakePeerRead {f : Touch} (a0 a1 a2) (hf : (touchSend.join ⟨[], [], [.CHART_AHEAD_COUNT,
    .CHART_NOT_READY_COUNT, .CHART_REDIRECT_COUNT, .CHART_STALE_COUNT]⟩ : Touch).le f = true) : Act.Within f
    (.mctTakePeerRead a0 a1 a2) := by
  refine Act.Within.mono ?_ hf
  unfold Act.mctTakePeerRead
  repeat'
    first
      | intro _ | refine And.intro ?_ ?_ | (with_reducible refine Act.within_each fun _ => ?_)
      | (with_reducible refine Act.within_when ?_) | (with_reducible refine Act.within_ite ?_ ?_) | split | simp +decide

@[simp] theorem Act.within_specCommit {f : Touch} (a0 a1) (hf : (touchStore.join ⟨[.mct], [.CHART_DRAIN], []⟩ :
    Touch).le f = true) : Act.Within f (.specCommit a0 a1) := by
  refine Act.Within.mono ?_ hf
  unfold Act.specCommit
  repeat'
    first
      | intro _ | refine And.intro ?_ ?_ | (with_reducible refine Act.within_each fun _ => ?_)
      | (with_reducible refine Act.within_when ?_) | (with_reducible refine Act.within_ite ?_ ?_) | split | simp +decide

@[simp] theorem Act.within_specCancel {f : Touch} (a0 a1) (hf : (⟨[.mct], [], []⟩ : Touch).le f = true) : Act.Within f
    (.specCancel a0 a1) := by
  refine Act.Within.mono ?_ hf
  unfold Act.specCancel
  repeat'
    first
      | intro _ | refine And.intro ?_ ?_ | (with_reducible refine Act.within_each fun _ => ?_)
      | (with_reducible refine Act.within_when ?_) | (with_reducible refine Act.within_ite ?_ ?_) | split | simp +decide

@[simp] theorem Act.within_crossBegun {f : Touch} (a0 a1 a2) (hf : (touchSend : Touch).le f = true) : Act.Within f
    (.crossBegun a0 a1 a2) := by
  refine Act.Within.mono ?_ hf
  unfold Act.crossBegun
  repeat'
    first
      | intro _ | refine And.intro ?_ ?_ | (with_reducible refine Act.within_each fun _ => ?_)
      | (with_reducible refine Act.within_when ?_) | (with_reducible refine Act.within_ite ?_ ?_) | split | simp +decide

@[simp] theorem Act.within_crossReady {f : Touch} (a0 a1 a2) (hf : (touchSend : Touch).le f = true) : Act.Within f
    (.crossReady a0 a1 a2) := by
  refine Act.Within.mono ?_ hf
  unfold Act.crossReady
  repeat'
    first
      | intro _ | refine And.intro ?_ ?_ | (with_reducible refine Act.within_each fun _ => ?_)
      | (with_reducible refine Act.within_when ?_) | (with_reducible refine Act.within_ite ?_ ?_) | split | simp +decide

@[simp] theorem Act.within_handover {f : Touch} (a0 a1) (hf : (touchSend.join ⟨[], [], [.MCT_CROSS_COUNT]⟩ : Touch).le f
    = true) : Act.Within f (.handover a0 a1) := by
  refine Act.Within.mono ?_ hf
  unfold Act.handover
  repeat'
    first
      | intro _ | refine And.intro ?_ ?_ | (with_reducible refine Act.within_each fun _ => ?_)
      | (with_reducible refine Act.within_when ?_) | (with_reducible refine Act.within_ite ?_ ?_) | split | simp +decide

@[simp] theorem Act.within_crossHeld {f : Touch} (a0 a1 a2) (hf : (touchSend.join ⟨[], [], [.MCT_CROSS_COUNT]⟩ :
    Touch).le f = true) : Act.Within f (.crossHeld a0 a1 a2) := by
  refine Act.Within.mono ?_ hf
  unfold Act.crossHeld
  repeat'
    first
      | intro _ | refine And.intro ?_ ?_ | (with_reducible refine Act.within_each fun _ => ?_)
      | (with_reducible refine Act.within_when ?_) | (with_reducible refine Act.within_ite ?_ ?_) | split | simp +decide

@[simp] theorem Act.within_crossCommitted {f : Touch} (a0 a1) (hf : (⟨[.mct], [], []⟩ : Touch).le f = true) : Act.Within
    f (.crossCommitted a0 a1) := by
  refine Act.Within.mono ?_ hf
  unfold Act.crossCommitted
  repeat'
    first
      | intro _ | refine And.intro ?_ ?_ | (with_reducible refine Act.within_each fun _ => ?_)
      | (with_reducible refine Act.within_when ?_) | (with_reducible refine Act.within_ite ?_ ?_) | split | simp +decide

@[simp] theorem Act.within_crossAborted {f : Touch} (a0) (hf : (⟨[.irq, .mct, .out, .tier], [.BOLL_COUNT, .CHART_DRAIN,
    .FERRY_STATUS, .TIER_MOOR_STATUS], [.MCT_CROSS_ABORT_COUNT]⟩ : Touch).le f = true) : Act.Within f (.crossAborted a0)
    := by
  refine Act.Within.mono ?_ hf
  unfold Act.crossAborted
  repeat'
    first
      | intro _ | refine And.intro ?_ ?_ | (with_reducible refine Act.within_each fun _ => ?_)
      | (with_reducible refine Act.within_when ?_) | (with_reducible refine Act.within_ite ?_ ?_) | split | simp +decide

@[simp] theorem Act.within_crossAbort {f : Touch} (a0 a1) (hf : (⟨[.irq, .mct, .out, .sdir, .tier], [.BOLL_COUNT,
    .CHART_DRAIN, .FERRY_STATUS, .TIER_MOOR_STATUS], [.MCT_CROSS_ABORT_COUNT, .SDIR_REFUSE_COUNT]⟩ : Touch).le f = true)
    : Act.Within f (.crossAbort a0 a1) := by
  refine Act.Within.mono ?_ hf
  unfold Act.crossAbort
  repeat'
    first
      | intro _ | refine And.intro ?_ ?_ | (with_reducible refine Act.within_each fun _ => ?_)
      | (with_reducible refine Act.within_when ?_) | (with_reducible refine Act.within_ite ?_ ?_) | split | simp +decide

@[simp] theorem Act.within_crossAsk {f : Touch} (a0 a1 a2) (hf : (touchSend : Touch).le f = true) : Act.Within f
    (.crossAsk a0 a1 a2) := by
  refine Act.Within.mono ?_ hf
  unfold Act.crossAsk
  repeat'
    first
      | intro _ | refine And.intro ?_ ?_ | (with_reducible refine Act.within_each fun _ => ?_)
      | (with_reducible refine Act.within_when ?_) | (with_reducible refine Act.within_ite ?_ ?_) | split | simp +decide

@[simp] theorem Act.within_crossTell {f : Touch} (a0 a1 a2) (hf : (touchSend : Touch).le f = true) : Act.Within f
    (.crossTell a0 a1 a2) := by
  refine Act.Within.mono ?_ hf
  unfold Act.crossTell
  repeat'
    first
      | intro _ | refine And.intro ?_ ?_ | (with_reducible refine Act.within_each fun _ => ?_)
      | (with_reducible refine Act.within_when ?_) | (with_reducible refine Act.within_ite ?_ ?_) | split | simp +decide

@[simp] theorem Act.within_mctForward {f : Touch} (a0 a1 a2) (hf : (touchSend.join ⟨[], [], [.CHART_FORWARD_COUNT]⟩ :
    Touch).le f = true) : Act.Within f (.mctForward a0 a1 a2) := by
  refine Act.Within.mono ?_ hf
  unfold Act.mctForward
  repeat'
    first
      | intro _ | refine And.intro ?_ ?_ | (with_reducible refine Act.within_each fun _ => ?_)
      | (with_reducible refine Act.within_when ?_) | (with_reducible refine Act.within_ite ?_ ?_) | split | simp +decide

@[simp] theorem Act.within_deliver {f : Touch} (a0 a1 a2) (hf : (((touchSend.join touchTransfer).join touchStore).join
    ⟨[.core, .free, .hostMem, .ls, .pwr, .sdir], [.CORE_LS_PWR], [.CHART_AHEAD_COUNT, .CHART_FORWARD_COUNT,
    .CHART_NOT_READY_COUNT, .CHART_REDIRECT_COUNT, .CHART_STALE_COUNT, .ERR_MANIFEST_FAIL_COUNT, .MCT_CROSS_COUNT,
    .SDIR_REFUSE_COUNT]⟩ : Touch).le f = true) : Act.Within f (.deliver a0 a1 a2) := by
  refine Act.Within.mono ?_ hf
  unfold Act.deliver
  repeat'
    first
      | intro _ | refine And.intro ?_ ?_ | (with_reducible refine Act.within_each fun _ => ?_)
      | refine Act.within_mctTakeResponse _ _ _ (by decide) ?_
      | (with_reducible refine Act.within_when ?_) | (with_reducible refine Act.within_ite ?_ ?_) | split | simp +decide

@[simp] theorem Act.within_deliverHeld {f : Touch} (a0 a1 a2 a3) (hf : (((touchSend.join touchTransfer).join
    touchStore).join ⟨[.core, .free, .hostMem, .ls, .pwr, .sdir], [.CORE_LS_PWR], [.CHART_AHEAD_COUNT,
    .CHART_FORWARD_COUNT, .CHART_NOT_READY_COUNT, .CHART_REDIRECT_COUNT, .CHART_STALE_COUNT, .ERR_MANIFEST_FAIL_COUNT,
    .MCT_CROSS_COUNT, .SDIR_REFUSE_COUNT]⟩ : Touch).le f = true) : Act.Within f (.deliverHeld a0 a1 a2 a3) := by
  refine Act.Within.mono ?_ hf
  induction a3 with
  | zero => unfold Act.deliverHeld; exact Act.within_done
  | succ n ih =>
    unfold Act.deliverHeld
    repeat'
      first
        | (with_reducible exact ih) | intro _ | refine And.intro ?_ ?_ | (with_reducible refine Act.within_each fun _ => ?_)
        | (with_reducible refine Act.within_when ?_) | (with_reducible refine Act.within_ite ?_ ?_) | split | simp +decide

@[simp] theorem Act.within_takeSeq {f : Touch} (a0 a1 a2) (hf : (((touchSend.join touchTransfer).join touchStore).join
    ⟨[.core, .free, .hostMem, .ls, .pwr, .sdir], [.CORE_LS_PWR], [.CHART_AHEAD_COUNT, .CHART_FORWARD_COUNT,
    .CHART_NOT_READY_COUNT, .CHART_REDIRECT_COUNT, .CHART_STALE_COUNT, .ERR_MANIFEST_FAIL_COUNT, .MCT_CROSS_COUNT,
    .MCT_DROP_WINDOW_COUNT, .SDIR_REFUSE_COUNT]⟩ : Touch).le f = true) : Act.Within f (.takeSeq a0 a1 a2) := by
  refine Act.Within.mono ?_ hf
  unfold Act.takeSeq
  repeat'
    first
      | intro _ | refine And.intro ?_ ?_ | (with_reducible refine Act.within_each fun _ => ?_)
      | (with_reducible refine Act.within_when ?_) | (with_reducible refine Act.within_ite ?_ ?_) | split | simp +decide

@[simp] theorem Act.within_mctPacket {f : Touch} (a0 a1 a2 a3 a4 a5 a6) (hf : (touchPacket : Touch).le f = true) :
    Act.Within f (.mctPacket a0 a1 a2 a3 a4 a5 a6) := by
  refine Act.Within.mono ?_ hf
  unfold Act.mctPacket
  repeat'
    first
      | intro _ | refine And.intro ?_ ?_ | (with_reducible refine Act.within_each fun _ => ?_)
      | (with_reducible refine Act.within_when ?_) | (with_reducible refine Act.within_ite ?_ ?_) | split | simp +decide

theorem Act.within_rclOwned {f : Touch} (a0 a1) (hf : (⟨[.irq], [.RCL_STATUS], [.RCL_DENIED_COUNT, .RCL_QUERY_COUNT,
    .RCL_SHORT_COUNT]⟩ : Touch).le f = true) (h1 : ∀ x0, (a1 x0).Within f) : Act.Within f (.rclOwned a0 a1) := by
  unfold Act.rclOwned; try dsimp only
  repeat'
    first
      | (with_reducible exact h1 _) | intro _ | (with_reducible refine (Act.within_look _).2 fun _ => ?_)
      | (with_reducible exact Act.within_nil) | (with_reducible refine Act.within_when ?_)
      | (with_reducible refine Act.within_andThen_of ?_ ?_) | (with_reducible refine Act.within_cons_of ?_ ?_)
      | (with_reducible refine Act.within_ite ?_ ?_) | (with_reducible refine Act.within_each fun _ => ?_) | split
      | exact Act.Within.mono (f := (⟨[.irq], [.RCL_STATUS], [.RCL_DENIED_COUNT, .RCL_QUERY_COUNT, .RCL_SHORT_COUNT]⟩)) (by simp +decide) hf

@[simp] theorem Act.within_rclManifest {f : Touch} (a0 a1) (hf : (touchRaise.join ⟨[.irq], [],
    [.ERR_MANIFEST_FAIL_COUNT, .RCL_DENIED_COUNT, .RCL_QUERY_COUNT, .RCL_SHORT_COUNT]⟩ : Touch).le f = true) :
    Act.Within f (.rclManifest a0 a1) := by
  refine Act.Within.mono ?_ hf
  unfold Act.rclManifest
  repeat'
    first
      | intro _ | refine And.intro ?_ ?_ | (with_reducible refine Act.within_each fun _ => ?_)
      | (with_reducible refine Act.within_when ?_) | (with_reducible refine Act.within_ite ?_ ?_) | split | simp +decide

@[simp] theorem Act.within_mergeSwitch {f : Touch} (a0 a1) (hf : (touchStore.join ⟨[.irq, .rcl], [], [.RCL_DENIED_COUNT,
    .RCL_NODE_CRC_COUNT, .RCL_QUERY_COUNT, .RCL_SHORT_COUNT]⟩ : Touch).le f = true) : Act.Within f (.mergeSwitch a0 a1)
    := by
  refine Act.Within.mono ?_ hf
  unfold Act.mergeSwitch
  repeat'
    first
      | intro _ | refine And.intro ?_ ?_ | (with_reducible refine Act.within_each fun _ => ?_)
      | (with_reducible refine Act.within_when ?_) | (with_reducible refine Act.within_ite ?_ ?_) | split | simp +decide

@[simp] theorem Act.within_rclFree {f : Touch} (a0 a1) (hf : (touchStore.join ⟨[.irq], [], [.RCL_DENIED_COUNT,
    .RCL_QUERY_COUNT, .RCL_SHORT_COUNT]⟩ : Touch).le f = true) : Act.Within f (.rclFree a0 a1) := by
  refine Act.Within.mono ?_ hf
  unfold Act.rclFree
  repeat'
    first
      | intro _ | refine And.intro ?_ ?_ | (with_reducible refine Act.within_each fun _ => ?_)
      | (with_reducible refine Act.within_when ?_) | (with_reducible refine Act.within_ite ?_ ?_) | split | simp +decide

@[simp] theorem Act.within_measureAll {f : Touch} (a0) (hf : (⟨[.free, .out, .sec], [], []⟩ : Touch).le f = true) :
    Act.Within f (.measureAll a0) := by
  refine Act.Within.mono ?_ hf
  unfold Act.measureAll
  repeat'
    first
      | intro _ | refine And.intro ?_ ?_ | (with_reducible refine Act.within_each fun _ => ?_)
      | (with_reducible refine Act.within_when ?_) | (with_reducible refine Act.within_ite ?_ ?_) | split | simp +decide

@[simp] theorem Act.within_showSessions {f : Touch} (hf : (⟨[], [.SEC_STATUS], []⟩ : Touch).le f = true) : Act.Within f
    .showSessions := by
  refine Act.Within.mono ?_ hf
  unfold Act.showSessions
  repeat'
    first
      | intro _ | refine And.intro ?_ ?_ | (with_reducible refine Act.within_each fun _ => ?_)
      | (with_reducible refine Act.within_when ?_) | (with_reducible refine Act.within_ite ?_ ?_) | split | simp +decide

@[simp] theorem Act.within_sealWaited {f : Touch} (a0) (hf : ((touchImage.join touchBerth).join ⟨[.free, .mct, .sec],
    [.BOLL_COUNT, .CHART_DRAIN, .FERRY_STATUS, .SDIR_LOCKED, .SDIR_STATE_COUNT], [.SDIR_CRC_FAIL_COUNT]⟩ : Touch).le f =
    true) : Act.Within f (.sealWaited a0) := by
  refine Act.Within.mono ?_ hf
  unfold Act.sealWaited
  repeat'
    first
      | intro _ | refine And.intro ?_ ?_ | (with_reducible refine Act.within_each fun _ => ?_)
      | (with_reducible refine Act.within_when ?_) | (with_reducible refine Act.within_ite ?_ ?_) | split | simp +decide

@[simp] theorem Act.within_setDigest {f : Touch} (x d) (hf : (⟨[], [x.reg], []⟩ : Touch).le f = true) : Act.Within f
    (.setDigest x d) := by
  refine Act.Within.mono ?_ hf
  unfold Act.setDigest
  repeat'
    first
      | intro _ | refine And.intro ?_ ?_ | (with_reducible refine Act.within_each fun _ => ?_) | simp +decide

@[simp] theorem Act.within_recovery {f : Touch} (hf : (⟨[], [.CFG_STATUS], []⟩ : Touch).le f = true) : Act.Within f
    .recovery := by
  refine Act.Within.mono ?_ hf
  unfold Act.recovery
  repeat'
    first
      | intro _ | refine And.intro ?_ ?_ | (with_reducible refine Act.within_each fun _ => ?_)
      | (with_reducible refine Act.within_when ?_) | (with_reducible refine Act.within_ite ?_ ?_) | split | simp +decide

@[simp] theorem Act.within_chooseCopy {f : Touch} (a0) (hf : (⟨[.boot], [.CFG_CONFIG_DIGEST, .CFG_IMAGE_INFO,
    .CFG_STATUS], []⟩ : Touch).le f = true) : Act.Within f (.chooseCopy a0) := by
  refine Act.Within.mono ?_ hf
  unfold Act.chooseCopy
  repeat'
    first
      | intro _ | refine And.intro ?_ ?_ | (with_reducible refine Act.within_each fun _ => ?_)
      | (with_reducible refine Act.within_when ?_) | (with_reducible refine Act.within_ite ?_ ?_) | split | simp +decide

@[simp] theorem Act.within_applyRecord {f : Touch} (a0 a1) (hf : (⟨[.shadow], Reg.all, []⟩ : Touch).le f = true) :
    Act.Within f (.applyRecord a0 a1) := by
  refine Act.Within.mono ?_ hf
  unfold Act.applyRecord
  repeat'
    first
      | intro _ | refine And.intro ?_ ?_ | (with_reducible refine Act.within_each fun _ => ?_)
      | (with_reducible refine Act.within_when ?_) | (with_reducible refine Act.within_ite ?_ ?_) | split | simp +decide

theorem Act.within_loadRecords {f : Touch} (a0 a1 a2) (hf : (⟨[.chart, .err, .host, .out, .shadow], Reg.all,
    [.ERR_ESCALATE_COUNT, .ERR_OVERFLOW_COUNT, .ERR_RETIRE_COUNT]⟩ : Touch).le f = true) (h2 : a2.Within f) : Act.Within
    f (.loadRecords a0 a1 a2) := by
  induction a0 generalizing a1 with
  | nil => unfold Act.loadRecords; exact h2
  | cons x xs ih =>
    unfold Act.loadRecords; try dsimp only
    repeat'
      first
        | (with_reducible exact ih _) | (with_reducible exact h2) | intro _ | (with_reducible refine (Act.within_look _).2 fun _ => ?_)
        | (with_reducible exact Act.within_nil) | (with_reducible refine Act.within_when ?_)
        | (with_reducible refine Act.within_andThen_of ?_ ?_) | (with_reducible refine Act.within_cons_of ?_ ?_)
        | (with_reducible refine Act.within_ite ?_ ?_) | (with_reducible refine Act.within_each fun _ => ?_) | split
        | exact Act.Within.mono (f := (⟨[.chart, .err, .host, .out, .shadow], Reg.all, [.ERR_ESCALATE_COUNT, .ERR_OVERFLOW_COUNT, .ERR_RETIRE_COUNT]⟩)) (by simp +decide) hf

@[simp] theorem Act.within_loadPackageInfo {f : Touch} (a0) (hf : (⟨[.boot], [], []⟩ : Touch).le f = true) : Act.Within
    f (.loadPackageInfo a0) := by
  refine Act.Within.mono ?_ hf
  unfold Act.loadPackageInfo
  repeat'
    first
      | intro _ | refine And.intro ?_ ?_ | (with_reducible refine Act.within_each fun _ => ?_)
      | (with_reducible refine Act.within_when ?_) | (with_reducible refine Act.within_ite ?_ ?_) | split | simp +decide

@[simp] theorem Act.within_fieldsDone {f : Touch} (a0) (hf : (⟨[.boot, .irq], [.CFG_STATUS, .FAB_PORT_STATUS], []⟩ :
    Touch).le f = true) : Act.Within f (.fieldsDone a0) := by
  refine Act.Within.mono ?_ hf
  unfold Act.fieldsDone
  repeat'
    first
      | intro _ | refine And.intro ?_ ?_ | (with_reducible refine Act.within_each fun _ => ?_)
      | (with_reducible refine Act.within_when ?_) | (with_reducible refine Act.within_ite ?_ ?_) | split | simp +decide

@[simp] theorem Act.within_fields {f : Touch} (a0) (hf : (⟨[.boot, .chart, .err, .host, .irq, .out, .shadow], Reg.all,
    [.ERR_ESCALATE_COUNT, .ERR_OVERFLOW_COUNT, .ERR_RETIRE_COUNT]⟩ : Touch).le f = true) : Act.Within f (.fields a0) :=
    by
  refine Act.Within.mono ?_ hf
  unfold Act.fields
  repeat'
    first
      | intro _ | refine And.intro ?_ ?_ | (with_reducible refine Act.within_each fun _ => ?_)
      | refine Act.within_loadRecords _ _ _ (by decide) ?_
      | (with_reducible refine Act.within_when ?_) | (with_reducible refine Act.within_ite ?_ ?_) | split | simp +decide

@[simp] theorem Act.within_lunStart {f : Touch} (a0 a1) (hf : (⟨[.out], [], []⟩ : Touch).le f = true) : Act.Within f
    (.lunStart a0 a1) := by
  refine Act.Within.mono ?_ hf
  unfold Act.lunStart
  repeat'
    first
      | intro _ | refine And.intro ?_ ?_ | (with_reducible refine Act.within_each fun _ => ?_)
      | (with_reducible refine Act.within_when ?_) | (with_reducible refine Act.within_ite ?_ ?_) | split | simp +decide

@[simp] theorem Act.within_flashStart {f : Touch} (a0) (hf : (⟨[.flash, .nand, .out], [.FLASH_LUN_STATUS,
    .FLASH_STATUS], []⟩ : Touch).le f = true) : Act.Within f (.flashStart a0) := by
  refine Act.Within.mono ?_ hf
  unfold Act.flashStart
  repeat'
    first
      | intro _ | refine And.intro ?_ ?_ | (with_reducible refine Act.within_each fun _ => ?_)
      | (with_reducible refine Act.within_when ?_) | (with_reducible refine Act.within_ite ?_ ?_) | split | simp +decide

@[simp] theorem Act.within_packageFails {f : Touch} (a0) (hf : (touchRaise.join ⟨[.boot], [.CFG_PKG_FETCH, .CFG_STATUS],
    []⟩ : Touch).le f = true) : Act.Within f (.packageFails a0) := by
  refine Act.Within.mono ?_ hf
  unfold Act.packageFails
  repeat'
    first
      | intro _ | refine And.intro ?_ ?_ | (with_reducible refine Act.within_each fun _ => ?_)
      | (with_reducible refine Act.within_when ?_) | (with_reducible refine Act.within_ite ?_ ?_) | split | simp +decide

@[simp] theorem Act.within_storeSection {f : Touch} (a0 a1) (hf : (touchStore : Touch).le f = true) : Act.Within f
    (.storeSection a0 a1) := by
  refine Act.Within.mono ?_ hf
  unfold Act.storeSection
  repeat'
    first
      | intro _ | refine And.intro ?_ ?_ | (with_reducible refine Act.within_each fun _ => ?_)
      | (with_reducible refine Act.within_when ?_) | (with_reducible refine Act.within_ite ?_ ?_) | split | simp +decide

theorem Act.within_useSection {f : Touch} (a0 a1 a2 a3) (hf : (touchStore.join ⟨[.boot, .text], [.CFG_PKG_FETCH,
    .CFG_STATUS], []⟩ : Touch).le f = true) (h3 : a3.Within f) : Act.Within f (.useSection a0 a1 a2 a3) := by
  unfold Act.useSection; try dsimp only
  repeat'
    first
      | (with_reducible exact h3) | intro _ | (with_reducible refine (Act.within_look _).2 fun _ => ?_)
      | (with_reducible exact Act.within_nil) | (with_reducible refine Act.within_when ?_)
      | (with_reducible refine Act.within_andThen_of ?_ ?_) | (with_reducible refine Act.within_cons_of ?_ ?_)
      | (with_reducible refine Act.within_ite ?_ ?_) | (with_reducible refine Act.within_each fun _ => ?_) | split
      | exact Act.Within.mono (f := (touchStore.join ⟨[.boot, .text], [.CFG_PKG_FETCH, .CFG_STATUS], []⟩)) (by simp +decide) hf

@[simp] theorem Act.within_pkgFetch {f : Touch} (a0 a1) (hf : (touchRaise.join ⟨[], [.CFG_PKG_FETCH], []⟩ : Touch).le f
    = true) : Act.Within f (.pkgFetch a0 a1) := by
  refine Act.Within.mono ?_ hf
  unfold Act.pkgFetch
  repeat'
    first
      | intro _ | refine And.intro ?_ ?_ | (with_reducible refine Act.within_each fun _ => ?_)
      | (with_reducible refine Act.within_when ?_) | (with_reducible refine Act.within_ite ?_ ?_) | split | simp +decide

@[simp] theorem Act.within_showLc {f : Touch} (a0 a1) (hf : (⟨[], [.CFG_AP_STATUS, .CFG_LC_STATUS], []⟩ : Touch).le f =
    true) : Act.Within f (.showLc a0 a1) := by
  refine Act.Within.mono ?_ hf
  refine Act.within_andThen_of (Act.within_set _ _ _ ?_) (Act.within_when (Act.within_set _ _ _ rfl))
  unfold lcField
  split <;> rfl

@[simp] theorem Act.within_burn {f : Touch} (a0 a1 a2) (hf : (touchRaise.join ⟨[.boot, .fuses], [.CFG_AP_STATUS,
    .CFG_LC_STATUS, .CFG_STATUS], []⟩ : Touch).le f = true) : Act.Within f (.burn a0 a1 a2) := by
  refine Act.Within.mono ?_ hf
  induction a1 generalizing a2 with
  | nil => unfold Act.burn; simp +decide
  | cons x xs ih =>
    unfold Act.burn
    repeat'
      first
        | (with_reducible exact ih _) | intro _ | refine And.intro ?_ ?_ | (with_reducible refine Act.within_each fun _ => ?_)
        | (with_reducible refine Act.within_when ?_) | (with_reducible refine Act.within_ite ?_ ?_) | split | simp +decide

@[simp] theorem Act.within_dropMapped {f : Touch} (hf : (⟨[.flash, .nand, .tier], [.FLASH_LUN_STATUS, .FLASH_STATUS],
    []⟩ : Touch).le f = true) : Act.Within f .dropMapped := by
  refine Act.Within.mono ?_ hf
  unfold Act.dropMapped
  repeat'
    first
      | intro _ | refine And.intro ?_ ?_ | (with_reducible refine Act.within_each fun _ => ?_)
      | (with_reducible refine Act.within_when ?_) | (with_reducible refine Act.within_ite ?_ ?_) | split | simp +decide

@[simp] theorem Act.within_go {f : Touch} (hf : (⟨[.boot], [.CFG_LOCKED_ADDR, .CFG_STATUS], [.CFG_LOCKED_WRITE_COUNT]⟩ :
    Touch).le f = true) : Act.Within f .go := by
  refine Act.Within.mono ?_ hf
  unfold Act.go
  repeat'
    first
      | intro _ | refine And.intro ?_ ?_ | (with_reducible refine Act.within_each fun _ => ?_)
      | (with_reducible refine Act.within_when ?_) | (with_reducible refine Act.within_ite ?_ ?_) | split | simp +decide

@[simp] theorem Act.within_writeCopy {f : Touch} (a0 a1) (hf : (⟨[.fuses], [], []⟩ : Touch).le f = true) : Act.Within f
    (.writeCopy a0 a1) := by
  refine Act.Within.mono ?_ hf
  unfold Act.writeCopy
  repeat'
    first
      | intro _ | refine And.intro ?_ ?_ | (with_reducible refine Act.within_each fun _ => ?_)
      | (with_reducible refine Act.within_when ?_) | (with_reducible refine Act.within_ite ?_ ?_) | split | simp +decide

@[simp] theorem Act.within_recoveryImage {f : Touch} (a0) (hf : (⟨[.fuses], [], []⟩ : Touch).le f = true) : Act.Within f
    (.recoveryImage a0) := by
  refine Act.Within.mono ?_ hf
  unfold Act.recoveryImage
  repeat'
    first
      | intro _ | refine And.intro ?_ ?_ | (with_reducible refine Act.within_each fun _ => ?_)
      | (with_reducible refine Act.within_when ?_) | (with_reducible refine Act.within_ite ?_ ?_) | split | simp +decide

@[simp] theorem Act.within_classWrite {f : Touch} (a0 a1 a2 a3 a4) (hf : (⟨[.chart, .core, .egr, .err, .host, .lost,
    .ls, .out, .shadow], Reg.all, [.CFG_LOCKED_WRITE_COUNT, .EGR_GCL_REJECT_COUNT, .ERR_ESCALATE_COUNT,
    .ERR_OVERFLOW_COUNT, .ERR_RETIRE_COUNT]⟩ : Touch).le f = true) : Act.Within f (.classWrite a0 a1 a2 a3 a4) := by
  refine Act.Within.mono ?_ hf
  unfold Act.classWrite
  repeat'
    first
      | intro _ | refine And.intro ?_ ?_ | (with_reducible refine Act.within_each fun _ => ?_)
      | (with_reducible refine Act.within_when ?_) | (with_reducible refine Act.within_ite ?_ ?_) | split | simp +decide

@[simp] theorem Act.within_windowWrite {f : Touch} (a0 a1 a2 a3) (hf : (⟨[.chart, .core, .egr, .err, .flash, .host,
    .irq, .lost, .ls, .mct, .mem, .nand, .nmu, .out, .sdir, .shadow, .tier], Reg.all, [.CFG_LOCKED_WRITE_COUNT,
    .EGR_GCL_REJECT_COUNT, .ERR_ESCALATE_COUNT, .ERR_OVERFLOW_COUNT, .ERR_RETIRE_COUNT, .FERRY_LATE_COUNT,
    .FERRY_MANIFEST_FAIL_COUNT, .FERRY_READ_FAIL_COUNT, .FERRY_REJECT_COUNT, .FERRY_WRITE_FAIL_COUNT,
    .HOST_WIN_BUSY_COUNT, .NMU_COW_COPY_COUNT, .NMU_COW_STALL_COUNT, .NMU_LINE_ECC_COUNT, .SDIR_CRC_FAIL_COUNT,
    .SDIR_TENSION_COUNT, .TIER_NO_SPACE_COUNT]⟩ : Touch).le f = true) : Act.Within f (.windowWrite a0 a1 a2 a3) := by
  refine Act.Within.mono ?_ hf
  unfold Act.windowWrite
  repeat'
    first
      | intro _ | refine And.intro ?_ ?_ | (with_reducible refine Act.within_each fun _ => ?_)
      | (with_reducible refine Act.within_when ?_) | (with_reducible refine Act.within_ite ?_ ?_) | split | simp +decide

@[simp] theorem Act.within_ckptControl {f : Touch} (a0 a1) (hf : (touchAbandon.join ⟨[], [], [.ERR_MANIFEST_FAIL_COUNT]⟩
    : Touch).le f = true) : Act.Within f (.ckptControl a0 a1) := by
  refine Act.Within.mono ?_ hf
  unfold Act.ckptControl
  repeat'
    first
      | intro _ | refine And.intro ?_ ?_ | (with_reducible refine Act.within_each fun _ => ?_)
      | (with_reducible refine Act.within_when ?_) | (with_reducible refine Act.within_ite ?_ ?_) | split | simp +decide

@[simp] theorem Act.within_msixWrite {f : Touch} (a0 a1 a2) (hf : (⟨[.host, .out], [], []⟩ : Touch).le f = true) :
    Act.Within f (.msixWrite a0 a1 a2) := by
  refine Act.Within.mono ?_ hf
  unfold Act.msixWrite
  repeat'
    first
      | intro _ | refine And.intro ?_ ?_ | (with_reducible refine Act.within_each fun _ => ?_)
      | (with_reducible refine Act.within_when ?_) | (with_reducible refine Act.within_ite ?_ ?_) | split | simp +decide

@[simp] theorem Act.within_pushEnds {f : Touch} (a0 a1 a2 a3) (hf : (touchStore.join ⟨[.boot, .irq, .text],
    [.TEXT_STATUS], [.ERR_MANIFEST_FAIL_COUNT, .TEXT_REPLACED_COUNT, .TEXT_STOP_COUNT, .TEXT_VIOLATION_COUNT]⟩ :
    Touch).le f = true) : Act.Within f (.pushEnds a0 a1 a2 a3) := by
  refine Act.Within.mono ?_ hf
  unfold Act.pushEnds
  repeat'
    first
      | intro _ | refine And.intro ?_ ?_ | (with_reducible refine Act.within_each fun _ => ?_)
      | (with_reducible refine Act.within_when ?_) | (with_reducible refine Act.within_ite ?_ ?_) | split | simp +decide

end Sys2Proof.Machine
end

