-- ==== Sys2Proof/Machine/RegRead.lean ====
section
/-! DEFINITION. What a read of a register, of BAR2 or of a device address gives (R453, R463, R564, R573, R594, R598 to
R601). No command is a read: these functions of the state say what a reader sees, and nothing changes but at IRQ_CLAIM,
which is a command of its own. -/

namespace Sys2Proof.Machine

/-- A whole register as it reads: QUIET of an island is as the device stands now, and IRQ_CLAIM shows no source, since a
claim is the command IRQ_CLAIM (R336, R564). -/
def State.regRead (s : State) (r : Reg) (i : Nat) : BitVec 128 :=
  match r with
  | .CHART_ISLAND => BitVec.ofNat 128 (s.islandRead i)
  | .IRQ_CLAIM => 0x3FF
  | _ => s.reg r i

/-- The 64-bit word at a BAR0 offset, 8-byte aligned: a register's word, a counter, or 0 where nothing lies (R599, R600,
R604). -/
def State.barWord (s : State) (off : Nat) : BitVec 64 :=
  match regWordAt off with
  | some w => (s.regRead w.reg w.index >>> (64 * w.word)).setWidth 64
  | none =>
    match counterAt off with
    | some c => BitVec.ofNat 64 (s.count c)
    | none => 0

/-- A read of `n` bytes at a BAR0 offset (R601): 32 or 64 bits, naturally aligned; every other read returns all ones. -/
def State.barRead (s : State) (off n : Nat) : Nat :=
  if (n ≠ 4 ∧ n ≠ 8) ∨ off % n ≠ 0 then 2 ^ (8 * n) - 1
  else (s.barWord (off / 8 * 8)).toNat / 2 ^ (8 * (off % 8)) % 2 ^ (8 * n)

/-- A host read of BAR2 (R453, R463): the MSI-X table at offset 0, the pending bits at 0x8_0000, and 0 elsewhere. -/
def State.bar2Read (s : State) (off n : Nat) : Nat :=
  if (n ≠ 4 ∧ n ≠ 8) ∨ off % n ≠ 0 then 2 ^ (8 * n) - 1
  else if off < 16 * 72 then
    (s.host.msixTable.get msixDefault (off / 16)).toNat / 2 ^ (8 * (off % 16)) % 2 ^ (8 * n)
  else if 0x80000 ≤ off then s.host.msixPending.toNat / 2 ^ (8 * (off - 0x80000)) % 2 ^ (8 * n)
  else 0

/-- A load of `n` bytes by a control core or by management firmware at a device address (R594, R598): registers, memory and
the spare regions; an unmapped address returns all ones. -/
def State.coreLoad (s : State) (a n : Nat) : Nat :=
  match s.place a with
  | .register off => s.barRead off n
  | _ => s.readLE a n

end Sys2Proof.Machine
end

