-- ==== Sys2Proof/WellFormed.lean ====
section
/-! DEFINITION. Which commands are well formed: an instant within a sailing lies before the longest period ends (R8), an
access has a width (R601), a drained frame has 4 KiB (R280), a digest has 48 bytes. -/

namespace Sys2Proof

/-- An instant after the boundary in ps: before the end of the longest period, 1,000 µs (R8). -/
def inSailing (at_ : BitVec 40) : Bool := decide (at_.toNat < 1000000000)

/-- An instant after the start of RUN in ns. -/
def runTime (now : BitVec 32) : Bool := decide (now.toNat < 1000000)

/-- A command is well formed. -/
def wellFormed : Instr → Bool
  | .sailLatch _ _ _ _ => true
  | .sailRun => true
  | .slotIssue _ now => runTime now
  | .sailClose => true
  | .sailCloseOverrun _ => true
  | .ticketSetClose => true
  | .sealRecordWrite _ => true
  | .sailTtCommit _ _ => true
  | .ptpMessage _ _ => true
  | .ptpLoss => true
  | .holdoverExpire => true
  | .ppsEdge _ => true
  | .ppsLoss => true
  | .ref10mLoss => true
  | .taiSecondsWrite _ _ => true
  | .mm _ => true
  | .mmPrescan _ => true
  | .winMerge _ => true
  | .accAdd _ => true
  | .accRound _ => true
  | .tileAdd _ => true
  | .tileMul _ => true
  | .tileScale _ => true
  | .addRow _ => true
  | .mulRow _ => true
  | .sumRow _ => true
  | .maxRow _ => true
  | .softmaxRow _ => true
  | .softmaxRecalc _ => true
  | .softmaxGrad _ => true
  | .rmsnorm _ => true
  | .exp2 _ => true
  | .recip _ => true
  | .rsqrt _ => true
  | .silu _ => true
  | .siluMul _ => true
  | .convert _ => true
  | .route _ => true
  | .combine _ => true
  | .copy _ => true
  | .winAdv _ => true
  | .tileComplete _ _ => true
  | .tileTimeout _ _ => true
  | .coreParityFault _ _ => true
  | .bankAutoRetain _ _ now => runTime now
  | .bankAutoWake _ _ => true
  | .bankZeroDone _ _ => true
  | .lookup _ => true
  | .admitSession _ => true
  | .admitWaitResume _ at_ => inSailing at_
  | .admitWaitExpire _ at_ => inSailing at_
  | .beginTurn _ => true
  | .endTurn _ => true
  | .moor _ => true
  | .layUp _ => true
  | .revive _ => true
  | .reberth _ => true
  | .pin _ => true
  | .unpin _ => true
  | .setHint _ => true
  | .sealSession _ => true
  | .unsealBundle _ _ => true
  | .crossOut _ at_ => inSailing at_
  | .crossIn _ at_ => inSailing at_
  | .crossDone _ _ at_ => inSailing at_
  | .restore _ _ _ => true
  | .release _ => true
  | .sdirBadOp _ => true
  | .revivalStart => true
  | .reviveDeadlineExpire _ => true
  | .shareReport _ _ at_ => inSailing at_
  | .berthOpen _ => true
  | .berthClose _ => true
  | .append _ => true
  | .appendLapResume _ _ => true
  | .specWrite _ => true
  | .specResolve _ => true
  | .historySave _ => true
  | .historySaveDone _ _ _ _ => true
  | .globalLoad _ => true
  | .globalLoadDone _ _ _ => true
  | .globalClear _ => true
  | .berthBadOp _ => true
  | .ferryDescriptor _ _ => true
  | .ferryTransferStart _ => true
  | .ferryTileDone _ _ _ _ _ _ => true
  | .ferryLate _ _ => true
  | .shareMoveStart _ => true
  | .flashOpComplete _ _ _ _ => true
  | .flashBusyTimeout _ => true
  | .rebuildStart => true
  | .gcStart => true
  | .patrolRead _ _ _ _ => true
  | .lastPowerWrite => true
  | .catchupPass => true
  | .nmuMove _ => true
  | .nmuFill _ => true
  | .nmuAdd _ => true
  | .nmuMul _ => true
  | .axpy _ => true
  | .nmuScale _ => true
  | .nmuSilu _ => true
  | .nmuSiluMul _ => true
  | .diffAdd _ => true
  | .diffReplace _ => true
  | .nmuPieceDispatch _ => true
  | .nmuCommandDone _ => true
  | .cowWriteHold addr bytes => decide (addr.toNat % 4096 + bytes.length ≤ 4096)
  | .cowCopyDone _ _ => true
  | .cowStallRelease _ => true
  | .drainFrameRead _ => true
  | .ckptCaptureStart at_ => inSailing at_
  | .ckptReady _ => true
  | .ckptCapturePoint => true
  | .ckptImageWritten at_ => inSailing at_
  | .ckptCaptureLate at_ => inSailing at_
  | .drainFrameReceive _ _ _ _ _ data => data.length == 4096
  | .ckptCommitRecord _ _ => true
  | .ckptConfirm _ _ => true
  | .ckptStallExpire => true
  | .ckptDrainExpire => true
  | .ckptAbandon _ => true
  | .ckptRestore _ _ _ => true
  | .ckptRestoreDone _ => true
  | .ckptResume _ _ _ => true
  | .tokOpen _ => true
  | .tokFeed _ => true
  | .detOpen _ => true
  | .detPush _ => true
  | .detFinish _ => true
  | .textClose _ => true
  | .stopLoad _ => true
  | .gramMask _ => true
  | .gramPeek _ => true
  | .textBadOp _ => true
  | .sample _ _ => true
  | .sampCount _ => true
  | .sampReset _ => true
  | .sampBadOp _ => true
  | .logAppend _ => true
  | .ticket _ => true
  | .verdict _ => true
  | .tenantReport _ _ _ => true
  | .sealBadOp _ => true
  | .rclCreate _ => true
  | .rclInsert _ => true
  | .rclDelete _ => true
  | .rclQuery _ => true
  | .rclQueryStart _ => true
  | .rclQueryDone _ => true
  | .rclMerge _ => true
  | .rclMergeDone _ => true
  | .rclDrop _ => true
  | .rclDropResume _ => true
  | .rclBadOp _ => true
  | .chartStage _ _ => true
  | .chartApply => true
  | .islandQuietRelease _ => true
  | .islandActivate _ _ => true
  | .leaveTimeout _ => true
  | .epochRetire => true
  | .mctAck _ _ _ _ _ at_ => inSailing at_
  | .mctRequest _ _ _ _ _ at_ => inSailing at_
  | .mctResponse _ _ _ _ _ at_ => inSailing at_
  | .tileHalf _ _ _ _ _ at_ => inSailing at_
  | .peerRead _ _ _ _ _ at_ => inSailing at_
  | .specCommit _ _ _ _ _ at_ => inSailing at_
  | .specCancel _ _ _ _ _ at_ => inSailing at_
  | .cut _ _ _ _ _ at_ => inSailing at_
  | .retire => true
  | .creditReq _ _ _ _ _ at_ => inSailing at_
  | .crossBegin _ _ _ _ _ at_ => inSailing at_
  | .crossReady _ _ _ _ _ at_ => inSailing at_
  | .crossHeld _ _ _ _ _ at_ => inSailing at_
  | .crossCommit _ _ _ _ _ at_ => inSailing at_
  | .crossAbort _ _ _ _ _ at_ => inSailing at_
  | .crossAsk _ _ _ _ _ at_ => inSailing at_
  | .crossTell _ _ _ _ _ at_ => inSailing at_
  | .mctBadPacket _ _ => true
  | .mctRto _ _ _ at_ => inSailing at_
  | .mctAckTimer _ _ at_ => inSailing at_
  | .crossWaitExpire _ at_ => inSailing at_
  | .crossGrant at_ => inSailing at_
  | .crossOutcomeExpire _ => true
  | .fabLaneEvent _ _ _ _ => true
  | .portTrainDone _ at_ => inSailing at_
  | .fecFrameDrop => true
  | .pauseFrame => true
  | .egressEnqueue _ at_ => inSailing at_
  | .egressSourceResume _ at_ => inSailing at_
  | .frameTxDone _ at_ => inSailing at_
  | .gateChange _ at_ => inSailing at_
  | .shaperCreditZero _ at_ => inSailing at_
  | .hostTurn _ => true
  | .hostCancel _ => true
  | .hostControl _ => true
  | .hostReplay _ => true
  | .cqEntryWrite _ _ _ _ _ _ _ => true
  | .cqStallTimeout _ => true
  | .ringFailTimeout _ => true
  | .ringEnable _ => true
  | .ringDisable _ => true
  | .winLost _ => true
  | .winDrain _ => true
  | .hostLinkEvent _ _ => true
  | .msixUnmask _ => true
  | .coldReset => true
  | .warmReset => true
  | .linkBReset => true
  | .resetRelease _ _ => true
  | .configImageSelect => true
  | .configSectionsRead => true
  | .hbmTrainDone _ _ => true
  | .memoryZeroDone _ => true
  | .packageFetchStart _ => true
  | .packageSectionLand _ _ _ => true
  | .packageWaitExpire _ => true
  | .fuseAdvance _ _ => true
  | .firstSailing _ _ _ => true
  | .cfgGo _ => true
  | .recoveryImage _ => true
  | .pldmUpdate _ => true
  | .pkgFetch _ _ _ => true
  | .spdmGetMeasurements _ _ => true
  | .spdmGetCertificate _ _ _ => true
  | .spdmChallenge _ => true
  | .spdmKeyExchange _ _ root => root.length == 48
  | .keyLoad _ _ _ _ _ _ => true
  | .keyGraceExpire _ => true
  | .drbgReseed => true
  | .secEntropyFail => true
  | .entropyPass => true
  | .hbmScrub _ _ _ => true
  | .sramScrub _ _ => true
  | .hbmLineError _ _ _ => true
  | .pcRetireDone _ => true
  | .rowRemapDone _ _ => true
  | .hbmPcFault _ _ => true
  | .sramWordError _ _ => true
  | .ferryParityFault _ => true
  | .causewayLaneEvent _ _ _ _ => true
  | .spareLaneDone _ => true
  | .domainSettle _ _ => true
  | .errPop _ => true
  | .irqClaim _ _ => true
  | .irqMaskWrite _ _ _ => true
  | .irqEnd _ _ _ => true
  | .cqRecordWrite _ => true
  | .bollPost _ _ => true
  | .bollWaitJoin _ _ _ => true
  | .bollWaitCancel _ _ _ => true
  | .bollCountWrite _ _ _ => true
  | .watchAckDeadline _ => true
  | .watchKick _ => true
  | .watchKickDeadline => true
  | .watchCoreRestart _ => true
  | .islandPowerOff _ at_ => inSailing at_
  | .islandWake _ _ => true
  | .islandWakeDone _ => true
  | .clockGate _ _ => true
  | .throttleStep _ => true
  | .limitRelease _ => true
  | .powerTrip _ => true
  | .registerWrite _ _ width _ => decide (1 ≤ width.toNat) && decide (width.toNat ≤ 8)
  | .ref10mReturn => true
  | .hostLinkTrainDone _ rate width _ => decide (1 ≤ rate.toNat) && decide (rate.toNat ≤ 4) && [1, 2, 4, 8, 16].contains width.toNat
  | .mkpduReceive _ _ => true
  | .spdmEndSession _ => true
  | .voltageLoopAdjust _ => true
  | .cxlMemStore _ => true
  | .debugTapInstruction _ => true

end Sys2Proof
end

