-- ==== Sys2Proof/Tests/Slice0.lean ====
section
/-! SUPPORT. The tests: states that meet the hypotheses of the statements, one clause at a time; terms that
well-formedness refuses; and a few examples of the spec. -/

set_option maxRecDepth 100000
set_option Elab.async false

namespace Sys2Proof.Tests

open Sys2Proof Sys2Proof.Machine

def st (as : List Act) : State := (Act.all as).run State.reset
theorem st_sound (as : List Act) : (st as).Sound :=
  Act.run_keeps Upd.apply_sound _ _ ⟨⟨rfl, rfl, rfl, rfl, rfl, rfl, rfl⟩,
    fun r i h => by
      show regDefault (regKey r i) &&& ~~~fieldMask r = 0
      rw [regDefault_regKey r (Nat.lt_of_lt_of_le h (Reg.count_le r))]
      exact Reg.resetValue_reserved r h,
    fun _ => Nat.zero_le _⟩
theorem st_live (as : List Act) (h1 : (st as).fatal = false) (h2 : (st as).err.todo = []) : (st as).Live := ⟨st_sound as, h1, h2⟩
/-- What `State.Live` and `State.Calm` ask beyond soundness, as a test. -/
def calmB (s : State) : Bool :=
  !s.fatal && s.err.todo.isEmpty && s.lost.isEmpty && s.err.retired.isEmpty && s.nmu.held.isEmpty
    && (List.range 16).all (fun k => !s.flag F.NMU_COW_ARMED k) && s.fwCopy.isNone
    && (!(s.get F.CFG_STATUS_STAGE == 8 || s.get F.CFG_STATUS_STAGE == 9) || s.steerBytes == 0)
theorem calm_of (as : List Act) (h : calmB (st as) = true) : (st as).Live ∧ (st as).Calm := by
  simp only [calmB, Bool.and_eq_true, Bool.not_eq_true', List.isEmpty_iff, Option.isNone_iff_eq_none] at h
  obtain ⟨⟨⟨⟨⟨⟨⟨h1, h2⟩, h3⟩, h4⟩, h5⟩, h6⟩, h7⟩, h8⟩ := h
  refine ⟨st_live _ h1 h2,
    { lost := h3, retired := h4, held := h5, cow := fun k hk => (by simpa using List.all_eq_true.1 h6 k (List.mem_range.2 hk)),
      fw := fun x hx => (by rw [h7] at hx; cases hx), steer := fun k n => ?_ }⟩
  simp only [State.steerFixed]
  cases hs : ((st as).get F.CFG_STATUS_STAGE == 8 || (st as).get F.CFG_STATUS_STAGE == 9)
  · rfl
  · rw [hs] at h8
    have h0 : (st as).steerBytes = 0 := by simpa using h8
    simp [State.steerHit, h0, piecesOf, unitPieces]
theorem st_calm (as : List Act) (h : calmB (st as) = true) : (st as).Calm := (calm_of as h).2
/-- Keys that a map does not list read as zeros. -/
theorem getList_gap (m : SMap Byte) (k n : Nat) (h : m.all (fun e => decide (e.1 < k) || decide (k + n ≤ e.1)) = true) :
    SMap.getList memDefault m k n = List.replicate n 0 := by
  simp only [List.all_eq_true, Bool.or_eq_true, decide_eq_true_eq] at h
  have hg : ∀ (m : SMap Byte) j, (∀ e ∈ m, e.1 ≠ j) → SMap.get memDefault m j = 0 := by
    intro m j hj
    induction m with
    | nil => rfl
    | cons e m ih =>
      rw [SMap.get, if_neg (hj e List.mem_cons_self)]
      exact ih fun x hx => hj x (List.mem_cons_of_mem _ hx)
  induction n generalizing k with
  | zero => rfl
  | succ n ih =>
    rw [SMap.getList, hg m k (fun e he => by have := h e he; omega), ih _ fun e he => by have := h e he; omega]
    rfl
theorem getList_append (m : SMap Byte) (k a b : Nat) :
    SMap.getList memDefault m k (a + b) = SMap.getList memDefault m k a ++ SMap.getList memDefault m (k + a) b := by
  induction a generalizing k with
  | zero => simp [SMap.getList]
  | succ a ih =>
    rw [show a + 1 + b = (a + b) + 1 by omega, SMap.getList, SMap.getList, ih, show k + 1 + a = k + (a + 1) by omega]
    rfl
/-- How far the bytes written at `k` reach, within `n`. -/
def usedAt (m : SMap Byte) (k n : Nat) : Nat := m.foldl (fun u e => if k ≤ e.1 && e.1 < k + n then e.1 + 1 - k else u) 0
/-- Bytes at `k` verify against the CRC32C that follows them, read the short way: what is written, and zeros. -/
def crcB (s : State) (a n : Nat) : Bool :=
  let u := usedAt s.mem a n
  decide (s.place a = .hbm a ∧ a % 4096 + (n + 4) ≤ 4096 ∧ u ≤ n) && (s.lostLine a (n + 4)).isNone
    && s.mem.all (fun e => decide (e.1 < a + u) || decide (a + u + (n - u) ≤ e.1))
    && ofLE (s.bytesAt (a + n) 4) == crc32c (s.bytesAt a u ++ List.replicate (n - u) 0)
theorem crc_ok (s : State) (a n : Nat) (h : crcB s a n = true) : (s.lostLine a (n + 4)).isNone = true
    ∧ (leAt (s.readMem a (n + 4)) n 4 == crc32c ((s.readMem a (n + 4)).take n)) = true := by
  simp only [crcB, Bool.and_eq_true, decide_eq_true_eq, beq_iff_eq] at h
  obtain ⟨⟨⟨⟨h1, h2, h3⟩, h4⟩, h5⟩, h6⟩ := h
  refine ⟨h4, ?_⟩
  have hp : piecesOf a (n + 4) = [(a, n + 4)] := by
    obtain ⟨f, hf⟩ : ∃ f, (n + 4) / 4096 + 2 = f + 2 := ⟨_, rfl⟩
    have hm : min (n + 4) (4096 - a % 4096) = n + 4 := by omega
    simp [piecesOf, hf, unitPieces, hm]
  have hr : s.readMem a (n + 4) = s.bytesAt a n ++ s.bytesAt (a + n) 4 := by
    simp only [State.readMem, hp, List.flatMap_cons, List.flatMap_nil, List.append_nil, h1, State.bytesAt]
    exact getList_append s.mem a n 4
  have hn : (s.bytesAt a n).length = n := SMap.length_getList _ _ _ _
  have hb : s.bytesAt a n = s.bytesAt a (usedAt s.mem a n) ++ List.replicate (n - usedAt s.mem a n) 0 := by
    have e : s.bytesAt a n = SMap.getList memDefault s.mem a (usedAt s.mem a n + (n - usedAt s.mem a n)) := by
      rw [Nat.add_sub_cancel' h3]; rfl
    rw [e, getList_append, getList_gap _ _ _ h5]; rfl
  have h4' : (s.bytesAt (a + n) 4).length = 4 := SMap.length_getList _ _ _ _
  rw [hr, leAt, List.drop_append_of_le_length (by omega), List.drop_of_length_le (by omega), List.nil_append,
    List.take_of_length_le (by omega), List.take_append_of_le_length (by omega), List.take_of_length_le (by omega), h6, ← hb]
  simp
theorem steer_free (as : List Act) (h : (!((st as).get F.CFG_STATUS_STAGE == 8 || (st as).get F.CFG_STATUS_STAGE == 9)) = true) (k n : Nat) :
    (st as).steerFixed k n = false := by
  simp only [State.steerFixed]
  cases hs : ((st as).get F.CFG_STATUS_STAGE == 8 || (st as).get F.CFG_STATUS_STAGE == 9)
  · rfl
  · rw [hs] at h; cases h
theorem some_of {α : Type} (o : Option α) (d : α) (h : o.isSome = true) : o = some (o.getD d) := by
  cases o
  · cases h
  · rfl

/-- A word with these values at these bit positions. -/
def word (fs : List (Nat × Nat)) : Nat := fs.foldl (fun a f => a + f.2 * 2 ^ f.1) 0
/-- What `Claim.SdirReady` asks, as a test. -/
def readyB (s : State) (a op e : Nat) : Bool :=
  calmB s && s.sdir.queue.contains a && s.ckState != 1
    && (match s.entryAt true a 32 with | .ok b => ofLE b == e | _ => false)
    && dOp e == op && s.sdirFirst a (dSession e) && s.hasHome && s.recCount != 0 && !dReserved e
theorem sdir_ready (as : List Act) (a : BitVec 48) (op e : Nat) (h : readyB (st as) a.toNat op e = true) :
    Claim.SdirReady (st as) a op e := by
  simp only [readyB, Bool.and_eq_true, Bool.not_eq_true', bne_iff_ne, beq_iff_eq] at h
  obtain ⟨⟨⟨⟨⟨⟨⟨⟨h1, h8⟩, h9⟩, h10⟩, h11⟩, h12⟩, h13⟩, h14⟩, h15⟩ := h
  refine ⟨(calm_of as h1).1, (calm_of as h1).2, h8, h9, ?_, h11, h12, h13, h14, h15⟩
  split at h10
  · exact ⟨_, by assumption, by simpa using h10⟩
  · cases h10
/-- What `Claim.SdirHeld` asks, as a test. -/
def heldB (s : State) (a op e i : Nat) : Bool :=
  readyB s a op e && s.findSession (dSession e) == some i && (crcB s (s.recAddr i) 252 || (s.cached i && !wholeOps.contains op))
    && (s.cached i || match cacheVictim (s.cacheWays i) with | some v => !v.dirty | none => true)
theorem hbm_ok (s : State) (i : Nat) (h : crcB s (s.recAddr i) 252 = true) : s.hbmOk i = true := by
  simpa [State.hbmOk, State.recHbm] using crc_ok s _ _ h
theorem sdir_held (as : List Act) (a : BitVec 48) (op e i : Nat) (h : heldB (st as) a.toNat op e i = true) :
    Claim.SdirHeld (st as) a op e i ((st as).recBytes i) := by
  simp only [heldB, Bool.and_eq_true, Bool.or_eq_true, beq_iff_eq, Bool.not_eq_true'] at h
  obtain ⟨⟨⟨h1, h2⟩, h3⟩, h5⟩ := h
  refine ⟨sdir_ready as a op e h1, h2, h3.imp (hbm_ok _ _) id, rfl, ?_⟩
  rcases h5 with h | h
  · exact .inl h
  · refine .inr fun v hv => ?_
    rw [hv] at h
    simpa using h
/-- What `Claim.Admits` asks, as a test. -/
def admitsB (s : State) (e ix i c n : Nat) : Bool :=
  decide (dClass e ≤ dMaxClass e ∧ s.enabled (tenantOf (dSession e)) = true ∧ s.recordsFull (tenantOf (dSession e)) = false
    ∧ s.freeIndex (dSession e) = some ix ∧ s.freeRec = some i ∧ s.classFor (tenantOf (dSession e)) i (dClass e) (dMaxClass e) = some (c, n))
    && cacheVictim (s.cacheWays i) == none
theorem admits_of (s : State) (e ix i c n : Nat) (h : admitsB s e ix i c n = true) : Claim.Admits s e ix i c n := by
  simp only [admitsB, Bool.and_eq_true, decide_eq_true_eq, beq_iff_eq] at h
  obtain ⟨⟨a1, a2, a3, a4, a5, a6⟩, h⟩ := h
  exact ⟨a1, a2, a3, a4, a5, a6, .inr fun v hv => by rw [h] at hv; cases hv⟩
theorem sdir_still (as : List Act) (a : BitVec 48) (op e i : Nat) (h : (heldB (st as) a.toNat op e i
    && rId ((st as).recBytes i) == dSession e && rMotion ((st as).recBytes i) == 0 && !(st as).reviveQueued (dSession e)
    && (st as).moveOf (dSession e) == none) = true) : Claim.SdirStill (st as) a op e i ((st as).recBytes i) := by
  simp only [Bool.and_eq_true, beq_iff_eq, Bool.not_eq_true'] at h
  obtain ⟨⟨⟨⟨h1, h2⟩, h3⟩, h4⟩, h5⟩ := h
  exact ⟨sdir_held as a op e i h1, h2, h3, h4, h5⟩
theorem sdir_absent (as : List Act) (a : BitVec 48) (op e : Nat) (h : (readyB (st as) a.toNat op e
    && (st as).findSession (dSession e) == none && (st as).brokenRec (dSession e) == none) = true) :
    Claim.SdirAbsent (st as) a op e := by
  simp only [Bool.and_eq_true, beq_iff_eq] at h
  exact ⟨sdir_ready as a op e h.1.1, h.1.2, h.2⟩
/-- The quota entry of tenant 0: enabled, no limits. -/
def quotaOpen : List Byte := leBytes 64 (word [(24, 255), (72, 255), (88, 255), (104, 255), (120, 255), (248, 255), (376, 255), (472, 255), (480, 1)])
/-- A directory of one record at 0x10000 on a HOME device, one berth of each class, tenant 0 without limits. -/
def dirCfg : List Act := [.set F.CHART_CFG_HOME_MASK 1, .set F.SDIR_CFG_RECORDS 1, .set F.SDIR_BASE_ADDR 0x10000,
  .set F.SDIR_QUOTA_BASE_ADDR 0x20000, .one (.mem 0x20000 quotaOpen), .set F.SDIR_CFG_LOCK_MAX 8, .set F.CFG_AP_STATUS_ACTIVE 3,
  .set F.SDIR_BERTHS_COUNT 1 0, .set F.SDIR_BERTHS_COUNT 1 1]
/-- A command entry in the queue at 0x1000. -/
def dirCmd (e : Nat) : List Act := [.one (.mem 0x1000 (leBytes 32 e)), .modSdir fun x => { x with queue := [0x1000] }]
/-- A record of session 5 at index 0 with its index entry. -/
def dirRec (fs : List (Nat × Nat × Nat)) (ctl : List (Nat × Nat)) : List Act :=
  let xs : List (Nat × Nat × Nat) := (0, 8, 5) :: (8, 8, word ctl) :: fs
  ((xs ++ [(0xFC, 4, crc32c ((setAll (List.replicate 256 0) xs).take 0xFC))]).map fun (x : Nat × Nat × Nat) =>
    Act.one (.mem (0x10000 + x.1) (leBytes x.2.1 x.2.2))) ++ [.look fun s => .store ((s.indexSlots 5).headD 0) (leBytes 4 1)]
/-- The entry of a command of session 5. -/
def dirEntry (op : Nat) (fs : List (Nat × Nat)) : Nat := word ([(192, 5), (184, op), (32, 9)] ++ fs)

/-- A LAYER device with two layers, one head, rings of 128 positions, one global tile and 32 speculative positions; berths of class 0 at 0x100000. -/
def berthCfg : List Act := [.set F.CHART_ISLAND_ROLE 2, .set F.BERTH_SHAPE_H_Q 1, .set F.BERTH_SHAPE_LAYERS 1,
  .set F.BERTH_CLASS_COUNT 1 0, .set F.BERTH_CLASS_W_TILES 1 0, .set F.BERTH_CLASS_G_TILES 1 0, .set F.BERTH_CLASS_S_POS 32 0, .set F.BERTH_CLASS_BASE 16 0]
/-- The entry of a berth command of session 5. -/
def berthEntry (op : Nat) (fs : List (Nat × Nat)) : BitVec 256 := BitVec.ofNat 256 (word ([(192, 5), (184, op), (32, 9)] ++ fs))
def berthCmd (e : BitVec 256) : List Act := [.one (.mem 0x1000 (leBytes 32 e.toNat)), .modBerth fun x => { x with queue := [0x1000] }]
/-- The berth is open for session 5: its header with these fields and the CRC32C that its first 4092 bytes have. -/
def berthOpenAct (crc : Nat) (fs : List (Nat × Nat × Nat)) : List Act :=
  ((0, 8, 5) :: (8, 4, 2 ^ 31) :: (4092, 4, crc) :: fs).map fun (x : Nat × Nat × Nat) => .one (.mem (0x100000 + x.1) (leBytes x.2.1 x.2.2))
theorem header_ok (s : State) (c n : Nat) (h : crcB s (s.berthBase c n) 0xFFC = true) : s.headerOk c n = true := by
  have := crc_ok s _ _ h
  simp only [State.headerOk, State.header, Bool.and_eq_true, Bool.or_eq_true]
  exact ⟨this.1, .inl this.2⟩
/-- What `Claim.BerthTaken` asks, as a test. -/
def takenB (s : State) (a op : Nat) (e : BitVec 256) : Bool :=
  calmB s && s.berth.queue.contains a && s.ckState != 1
    && (match s.entryAt true a 32 with | .ok b => BitVec.ofNat 256 (ofLE b) == e | _ => false) && bOp e == op
    && ((s.berthQueued a).head? == some a || (op == 2 && s.lapWaits (bClass e) (bNumber e)))
theorem berth_taken (as : List Act) (a : BitVec 48) (op : Nat) (e : BitVec 256) (h : takenB (st as) a.toNat op e = true) :
    Claim.BerthTaken (st as) a op e := by
  simp only [takenB, Bool.and_eq_true, Bool.or_eq_true, bne_iff_ne, beq_iff_eq] at h
  obtain ⟨⟨⟨⟨⟨h1, h2⟩, h3⟩, h4⟩, h5⟩, h6⟩ := h
  refine ⟨(calm_of as h1).1, (calm_of as h1).2, h2, h3, ?_, h5, h6⟩
  split at h4
  · exact ⟨_, by assumption, by simpa using h4⟩
  · cases h4
/-- What `Claim.BerthRuns` asks, as a test. -/
def runsB (s : State) (a op : Nat) (e : BitVec 256) : Bool :=
  takenB s a op e && s.hasLayer && !s.berthMoving (bClass e) (bNumber e)
    && (if op = 2 then !s.closeHeld (bClass e) (bNumber e) else !s.berthHeld (bClass e) (bNumber e))
theorem berth_runs (as : List Act) (a : BitVec 48) (op : Nat) (e : BitVec 256) (h : runsB (st as) a.toNat op e = true) :
    Claim.BerthRuns (st as) a op e := by
  simp only [runsB, Bool.and_eq_true, Bool.not_eq_true'] at h
  obtain ⟨⟨⟨h1, h2⟩, h3⟩, h4⟩ := h
  exact ⟨berth_taken as a op e h1, h2, h3, fun ho => by simpa [ho] using h4, fun ho => by simpa [ho] using h4⟩
/-- What `Claim.BerthBody` asks, as a test. -/
def bodyB (s : State) (e : BitVec 256) (k : Nat) : Bool :=
  decide (bit e.toNat 156 = false ∧ bits e.toNat 71 64 = 0 ∧ bNumber e < s.get F.BERTH_CLASS_COUNT (bClass e)
    ∧ s.place (s.berthBase (bClass e) (bNumber e)) = .hbm k ∧ hOpen (s.header (bClass e) (bNumber e)) = true
    ∧ hSession (s.header (bClass e) (bNumber e)) = bSession e ∧ bLayer e < (s.shape (bClass e)).layers)
    && crcB s (s.berthBase (bClass e) (bNumber e)) 0xFFC
theorem berth_body (s : State) (e : BitVec 256) (k : Nat) (h : bodyB s e k = true) :
    Claim.BerthBody s e k (s.header (bClass e) (bNumber e)) := by
  simp only [bodyB, Bool.and_eq_true, decide_eq_true_eq] at h
  obtain ⟨⟨a1, a2, a3, a4, b3, b4, b5⟩, b1⟩ := h
  exact ⟨⟨⟨a1, a2⟩, a3, a4⟩, header_ok _ _ _ b1, rfl, b3, b4, b5⟩
theorem berth_held (as : List Act) (a : BitVec 48) (op : Nat) (e : BitVec 256) (k : Nat)
    (h : (runsB (st as) a.toNat op e && bodyB (st as) e k) = true) :
    Claim.BerthHeld (st as) a op e k ((st as).header (bClass e) (bNumber e)) := by
  simp only [Bool.and_eq_true] at h
  exact ⟨berth_runs as a op e h.1, berth_body _ e k h.2⟩

/-- The entry of a text command of stream 1. -/
def textEntry (op : Nat) (fs : List (Nat × Nat)) : List Byte := leBytes 32 (word ([(248, op), (235, 1), (0, 9)] ++ fs))
def textCmd (e : List Byte) : List Act := [.set F.CHART_CFG_HOME_MASK 1, .one (.mem 0x1000 e), .modText fun x => { x with queue := [0x1000] }]
/-- What `Claim.TextTaken` asks, as a test. -/
def textB (s : State) (a op : Nat) (e : List Byte) : Bool :=
  calmB s && decide (s.text.queue.contains a = true ∧ s.get F.CHART_CFG_HOME_MASK ≠ 0 ∧ s.ckState ≠ 1 ∧ s.entryAt true a 32 = .ok e ∧ xOp e = op
      ∧ s.text.queue.find? (fun x => xStream (s.readMem x 32) == xStream e) = some a)
theorem text_taken (as : List Act) (a : BitVec 48) (op : Nat) (e : List Byte) (h : textB (st as) a.toNat op e = true) :
    Claim.TextTaken (st as) a op e := by
  simp only [textB, Bool.and_eq_true, decide_eq_true_eq] at h
  obtain ⟨h1, a1, a2, a3, a4, a5, a6⟩ := h
  exact ⟨(calm_of as h1).1, (calm_of as h1).2, a1, a2, a3, a4, a5, a6⟩
theorem text_ready (as : List Act) (a : BitVec 48) (op : Nat) (e : List Byte)
    (h : (textB (st as) a.toNat op e && !xReserved e) = true) : Claim.TextReady (st as) a op e := by
  simp only [Bool.and_eq_true, Bool.not_eq_true'] at h
  exact ⟨text_taken as a op e h.1, h.2⟩

def sampEntry (op : Nat) (fs : List (Nat × Nat)) : List Byte := leBytes 64 (word ([(504, op), (320, 0x50000), (272, 0x8000), (176, 0x10000), (96, 9)] ++ fs))
def sampCmd (e : List Byte) : List Act := [.one (.mem 0x1000 e), .modSealer fun x => { x with sampQueue := [0x1000] }]
def sealEntry (op : Nat) (fs : List (Nat × Nat)) : List Byte := leBytes 64 (word ([(504, op), (432, 5), (96, 9)] ++ fs))
def sealCmd (e : List Byte) : List Act := [.one (.mem 0x1000 e), .modSealer fun x => { x with queue := [0x1000] }]
theorem samp_ready (as : List Act) (a : BitVec 48) (op : Nat) (e : List Byte) (h : (calmB (st as)
    && decide ((st as).sealer.sampQueue.contains a.toNat = true ∧ (st as).entryAt false a.toNat 64 = .ok e ∧ pOp e = op
      ∧ (st as).sealer.sampQueue.find? (fun x => pCtx ((st as).readMem x 64) == pCtx e) = some a.toNat)) = true) :
    Claim.SampReady (st as) a op e := by
  simp only [Bool.and_eq_true, decide_eq_true_eq] at h
  obtain ⟨h1, a1, a3, a4, a5⟩ := h
  exact ⟨(calm_of as h1).1, (calm_of as h1).2, a1, a3, a4, a5⟩
theorem seal_ready (as : List Act) (a : BitVec 48) (op : Nat) (e : List Byte) (h : (calmB (st as)
    && decide ((st as).sealer.queue.contains a.toNat = true ∧ (st as).entryAt true a.toNat 64 = .ok e ∧ eOp e = op
      ∧ (st as).sealer.queue.find? (fun x => eSession ((st as).readMem x 64) == eSession e) = some a.toNat)) = true) :
    Claim.SealReady (st as) a op e := by
  simp only [Bool.and_eq_true, decide_eq_true_eq] at h
  obtain ⟨h1, a1, a3, a4, a5⟩ := h
  exact ⟨(calm_of as h1).1, (calm_of as h1).2, a1, a3, a4, a5⟩

def rclEntry (op : Nat) (fs : List (Nat × Nat)) : List Byte := leBytes 128 (word ([(1016, op), (888, 5), (840, 0x8000), (792, 0x10000), (32, 9)] ++ fs))
def rclCfg : List Act := [.set F.RCL_CFG_INDEXES 4, .set F.RCL_INDEX_BASE_ADDR 0x60000, .set F.CHART_ISLAND_ROLE 1, .set F.CHART_ISLAND_GRANULES 1 0]
def rclCmd (e : List Byte) : List Act := [.one (.mem 0x1000 e), .modRcl fun x => { x with queue := [0x1000] }]
/-- Index 0 of tenant 0. -/
def rclIdx (fs : List (Nat × Nat × Nat)) : List Act := [.one (.mem 0x60000 (Claim.idxOf (setAll (List.replicate 256 0) ([(0xF, 1, 1), (0x28, 8, 0x70000), (0x30, 4, 8), (0x38, 8, 0x80000), (0x40, 8, 4), (0x48, 8, 64)] ++ fs))))]
theorem rcl_ready (as : List Act) (a : BitVec 48) (op : Nat) (e : List Byte) (h : (calmB (st as)
    && decide ((st as).rcl.queue.contains a.toNat = true ∧ (st as).ckState ≠ 1 ∧ (st as).entryAt false a.toNat 128 = .ok e ∧ qOp e = op
      ∧ (op = 4 ∨ ((st as).rcl.queue.find? (fun x => qOp ((st as).readMem x 128) ≠ 4 && qNumber ((st as).readMem x 128) == qNumber e)
    = some a.toNat ∧ (st as).rcl.drops.any (fun d => d.2 == qNumber e) = false)))) = true) :
    Claim.RclReady (st as) a op e := by
  simp only [Bool.and_eq_true, decide_eq_true_eq] at h
  obtain ⟨h1, a1, a2, a3, a4, a5⟩ := h
  exact ⟨(calm_of as h1).1, (calm_of as h1).2, a1, a2, a3, a4, a5⟩

/-- A packet header of VERSION 1 for island 0, a LAYER island. -/
def pkt (type_ : Nat) (fs : List (Nat × Nat)) : BitVec 512 := BitVec.ofNat 512 (word ([(24, type_), (0, 1), (291, 2)] ++ fs))
/-- A device whose island 0 is ACTIVE, and which knows peer 7. -/
def mctCfg : List Act := [.set F.CHART_ISLAND_STATE 2, .set F.CHART_ISLAND_ROLE 2, .set F.CHART_ISLAND_GRANULES 1, .modMct fun m => { m with peers := m.peers.put (fun _ => none) 7 (some 0) }]
theorem packet_due (as : List Act) (src : BitVec 64) (h : BitVec 512) (n : Nat) (hh : (calmB (st as)
    && decide (hdrType h = n ∧ hdrBad h = false ∧ (st as).jobKnown h = true ∧ (st as).mct.peers.get (fun _ => none) src.toNat = some (hdrIncarnation h)
      ∧ hdrAckValid h = false ∧ hdrSeq h = ((st as).rx src.toNat (hdrVc h)).expected % 2 ^ 32
      ∧ ((st as).rx src.toNat (hdrVc h)).expected < max ((st as).rx src.toNat (hdrVc h)).limit ((st as).get F.MCT_VC_INITIAL (hdrVc h))
      ∧ ((st as).rx src.toNat (hdrVc h)).held = [])) = true) : Claim.PacketDue (st as) src h n := by
  rw [Bool.and_eq_true, decide_eq_true_eq] at hh
  obtain ⟨h1, a1, a2, a3, a4, a5, a6, a7, a8⟩ := hh
  exact ⟨(calm_of as h1).1, (calm_of as h1).2, a1, a2, a3, a4, a5, a6, a7, a8⟩

/-- A flash of one plane, 4 blocks, 4 pages and 4 retry levels, every LUN ONLINE; LUN 0 works on an operation of page 0 of block 0. -/
def flashAct (o : FlashOp) (page : Option FlashPage) : List Act :=
  [.modFlash fun f => { f with profile := { planes := 1, blocks := 4, pages := 4, levels := 4, endurance := 3000 }, busy := f.busy.put (fun _ => none) 0 (some o) },
    .modNand fun n => { n with pages := n.pages.put (fun _ => none) 0 page }, .set F.FLASH_LUN_STATUS_STATE 1 0, .set F.FLASH_MAP_BASE_ADDR 0x10000]
theorem flash_rest (as : List Act) (h : (calmB (st as) && decide ((st as).flash.staging = [] ∧ (st as).flash.rebuilding = []
    ∧ (st as).ckpt.commitWaits = [])) = true) : Claim.FlashAtRest (st as) := by
  rw [Bool.and_eq_true, decide_eq_true_eq] at h
  obtain ⟨h1, a1, a2, a3⟩ := h
  exact ⟨(calm_of as h1).1, a1, a2, a3⟩

def oneB (s : State) (p k at_ : Nat) (f : EgrFrame) (fs : List EgrFrame) : Bool :=
  s.portUp p && decide ((s.queue (queueOf p k)).frames = f :: fs)
    && (List.range 8).all (fun j => decide (j = k) || (s.queue (queueOf p j)).frames.isEmpty)
    && s.gateOpen p k at_ && s.fits p k f.length at_
    && (!s.gated p || (classWindows k (s.gates p)).any fun w => decide (s.wireTime p f.length ≤ w))
    && s.shaped (queueOf p k) (s.absTime at_)
theorem one_ready (as : List Act) (p k at_ : Nat) (f : EgrFrame) (fs : List EgrFrame)
    (h : (calmB (st as) && oneB (st as) p k at_ f fs) = true) : Claim.OneReady (st as) p k at_ f fs := by
  simp only [oneB, Bool.and_eq_true, decide_eq_true_eq, List.all_eq_true, List.mem_range, Bool.or_eq_true,
    List.isEmpty_iff] at h
  obtain ⟨h1, ⟨⟨⟨⟨⟨a1, a2⟩, a3⟩, a4⟩, a5⟩, a6⟩, a7⟩ := h
  exact ⟨(calm_of as h1).1, a1, a2, fun j hj hn => (a3 j hj).resolve_left hn, a4, a5,
    fun g => a6.resolve_left (by simp [g]), a7⟩

namespace Sailings

def atLatch : State := st [.set F.SAIL_STATUS_PHASE 2]
def atBoundary : State := st [.set F.SAIL_STATUS_PHASE 0]
def inRun : State := st [.set F.SAIL_STATUS_PHASE 1]
/-- COPY of one 256-byte row, and a tile of it in flight. -/
def copyDesc : BitVec 512 := BitVec.ofNat 512 (word [(504, 0x38)])
def overrun : State := st [.set F.SAIL_STATUS_PHASE 2, .setFlight 0 .vector (some ⟨copyDesc, 0, [], false, 0, 0⟩)]
/-- Meets the hypotheses of SailingPhases. -/
theorem test_sailLatch :
    (atLatch.Live) ∧
    (atLatch.phase = 2) ∧
    (1 = atLatch.now + 1) :=
  ⟨st_live _ (by decide +kernel) (by decide +kernel),
   by decide +kernel⟩

/-- Meets the hypotheses of SailingPhases. -/
theorem test_sailRun :
    (atBoundary.Live) ∧
    (atBoundary.phase = 0) :=
  ⟨st_live _ (by decide +kernel) (by decide +kernel),
   by decide +kernel⟩

/-- Meets the hypotheses of SailingPhases. -/
theorem test_sailClose :
    (inRun.Live) ∧
    (inRun.phase = 1) :=
  ⟨st_live _ (by decide +kernel) (by decide +kernel),
   by decide +kernel⟩

/-- Meets the hypotheses of SailingPhases. -/
theorem test_sailCloseOverrun :
    (overrun.Live) ∧
    (overrun.phase = 2) ∧
    (SMap.get (fun (_ : ℕ) => false) overrun.sail.late 0 = false) ∧
    (overrun.flightsOf 0 ≠ []) :=
  ⟨st_live _ (by decide +kernel) (by decide +kernel),
   by decide +kernel⟩

def slot1 : SlotItem := ⟨BitVec.ofNat 128 (word [(6, 1)]), 0, false, false, false, false, false⟩
def issuing : State := st [.set F.SAIL_STATUS_PHASE 1, .one (.mem 64 (leBytes 64 copyDesc.toNat)), .setItems 0 [slot1]]
/-- Meets the hypotheses of SlotIssues. -/
theorem test_slotIssue :
    (issuing.Live) ∧
    (issuing.phase = 1) ∧
    (issuing.inCapture issuing.now = false) ∧
    (SMap.get (fun (_ : ℕ) => false) issuing.sail.late 0 = false) ∧
    (issuing.coreRetired 0 = false) ∧
    (issuing.coreHeld 0 = false) ∧
    (issuing.itemsOf 0 = [slot1]) ∧
    (slot1.bad = false) ∧
    (slotReserved slot1.word = false) ∧
    (slot1.carried = true ∨ slotEarliest slot1.word ≤ 0) ∧
    (slotWait slot1.word = false ∨ slot1.granted = true) ∧
    (issuing.tileDesc (slotDesc slot1.word) = some copyDesc) ∧
    (rejectReason (issuing.winsNext 0) copyDesc = 0) ∧
    (opPath (tOp copyDesc) = some Path.vector) ∧
    (issuing.flight 0 Path.vector = none) ∧
    (issuing.mustWait 0 copyDesc = false) ∧
    (((tileTouches (issuing.winsNext 0) copyDesc).any fun (q : ℕ × ℕ × Bool) => issuing.rangeWaits 0 q.1 q.2.1) = false) :=
  ⟨st_live _ (by decide +kernel) (by decide +kernel),
   by decide +kernel⟩

def locked : State := st [.set F.SAIL_STATUS_TIME_STATE 2, .set F.FAB_PORT_STATUS_LANES 4 3, .set F.FAB_PORT_STATUS_STATE 2 3]
def heldOver : State := st [.set F.SAIL_STATUS_TIME_STATE 1]
def unlocked : State := st [.set F.SAIL_STATUS_TIME_STATE 0]
/-- Meets the hypotheses of TimeSources. -/
theorem test_ptpMessage :
    (locked.Live) ∧
    (locked.portUp 3 = true) :=
  ⟨st_live _ (by decide +kernel) (by decide +kernel),
   by decide +kernel⟩

/-- Meets the hypotheses of TimeSources. -/
theorem test_ptpLoss :
    (locked.Live) ∧
    (locked.timeState = 2) :=
  ⟨st_live _ (by decide +kernel) (by decide +kernel),
   by decide +kernel⟩

/-- Meets the hypotheses of TimeSources. -/
theorem test_holdoverExpire :
    (heldOver.Live) ∧
    (heldOver.timeState = 1) ∧
    (heldOver.sail.ppsPresent = false) :=
  ⟨st_live _ (by decide +kernel) (by decide +kernel),
   by decide +kernel⟩

/-- Meets the hypotheses of TimeSources. -/
theorem test_ppsEdge :
    (heldOver.Live) :=
  st_live _ (by decide +kernel) (by decide +kernel)

/-- Meets the hypotheses of TimeSources. -/
theorem test_taiSecondsWrite :
    (unlocked.Live) :=
  st_live _ (by decide +kernel) (by decide +kernel)

/-- Meets the hypotheses of TimeSources. -/
theorem test_sailTtCommit :
    (unlocked.Live) :=
  st_live _ (by decide +kernel) (by decide +kernel)

end Sailings

namespace Tiles

/-- A tile in flight on core 0. -/
def tileIn (p : Path) (fs : List (Nat × Nat)) : State := st [.setFlight 0 p (some ⟨BitVec.ofNat 512 (word fs), 0, [], false, 0, 0⟩)]
def fl (fs : List (Nat × Nat)) : Flight := ⟨BitVec.ofNat 512 (word fs), 0, [], false, 0, 0⟩
def mmState : State :=
  tileIn .matrix [(504, 1), (284, 4096), (492, 7)]
/-- Meets the hypotheses of TilesRun. -/
theorem test_mm :
    (Claim.tileTable (Instr.mm 0) = some (0, 1, anyDesc, TileCtx.mm)) ∧
    (mmState.Live) ∧
    (opPath 1 = some Path.matrix) ∧
    (mmState.flight 0 Path.matrix = some (fl [(504, 1), (284, 4096), (492, 7)])) ∧
    ((fl [(504, 1), (284, 4096), (492, 7)]).ran = false) ∧
    (tOp (fl [(504, 1), (284, 4096), (492, 7)]).desc = 1) ∧
    (anyDesc (fl [(504, 1), (284, 4096), (492, 7)]).desc = true) ∧
    ((((TileCtx.mk mmState 0 (fl [(504, 1), (284, 4096), (492, 7)]).wins).reads (fl [(504, 1), (284, 4096), (492, 7)]).desc).all fun (q : ℕ × ℕ) => !mmState.rangeDark 0 q.1 q.2 && (mmState.lsLost 0 q.1 q.2).isNone) = true) ∧
    ((((TileCtx.mk mmState 0 (fl [(504, 1), (284, 4096), (492, 7)]).wins).mm (fl [(504, 1), (284, 4096), (492, 7)]).desc).writes.all fun (w : ℕ × List Byte) => !mmState.rangeDark 0 w.1 w.2.length) = true) ∧
    (((TileCtx.mk mmState 0 (fl [(504, 1), (284, 4096), (492, 7)]).wins).mm (fl [(504, 1), (284, 4096), (492, 7)]).desc).status ≤ stNonfinite) ∧
    (((TileCtx.mk mmState 0 (fl [(504, 1), (284, 4096), (492, 7)]).wins).mm (fl [(504, 1), (284, 4096), (492, 7)]).desc).starved = 0) :=
  ⟨rfl,
   st_live _ (by decide +kernel) (by decide +kernel),
   by decide +kernel⟩

def mmPrescanState : State :=
  tileIn .prescan [(504, 2), (284, 4096)]
/-- Meets the hypotheses of TilesRun. -/
theorem test_mmPrescan :
    (Claim.tileTable (Instr.mmPrescan 0) = some (0, 2, anyDesc, TileCtx.prescan)) ∧
    (mmPrescanState.Live) ∧
    (opPath 2 = some Path.prescan) ∧
    (mmPrescanState.flight 0 Path.prescan = some (fl [(504, 2), (284, 4096)])) ∧
    ((fl [(504, 2), (284, 4096)]).ran = false) ∧
    (tOp (fl [(504, 2), (284, 4096)]).desc = 2) ∧
    (anyDesc (fl [(504, 2), (284, 4096)]).desc = true) ∧
    ((((TileCtx.mk mmPrescanState 0 (fl [(504, 2), (284, 4096)]).wins).reads (fl [(504, 2), (284, 4096)]).desc).all fun (q : ℕ × ℕ) => !mmPrescanState.rangeDark 0 q.1 q.2 && (mmPrescanState.lsLost 0 q.1 q.2).isNone) = true) ∧
    ((((TileCtx.mk mmPrescanState 0 (fl [(504, 2), (284, 4096)]).wins).prescan (fl [(504, 2), (284, 4096)]).desc).writes.all fun (w : ℕ × List Byte) => !mmPrescanState.rangeDark 0 w.1 w.2.length) = true) ∧
    (((TileCtx.mk mmPrescanState 0 (fl [(504, 2), (284, 4096)]).wins).prescan (fl [(504, 2), (284, 4096)]).desc).status ≤ stNonfinite) ∧
    (((TileCtx.mk mmPrescanState 0 (fl [(504, 2), (284, 4096)]).wins).prescan (fl [(504, 2), (284, 4096)]).desc).starved = 0) :=
  ⟨rfl,
   st_live _ (by decide +kernel) (by decide +kernel),
   by decide +kernel⟩

def emptyRecs : List Byte := (List.replicate 64 (leBytes 16 (2 ^ 113))).flatten
def mergeIn : State := st [.one (.ls 0 0 emptyRecs), .setFlight 0 .vector (some ⟨BitVec.ofNat 512 (word [(504, 3), (284, 4096)]), 0, [], false, 0, 0⟩)]
/-- Meets the hypotheses of TilesRun. -/
theorem test_winMerge :
    (Claim.tileTable (Instr.winMerge 0) = some (0, 3, anyDesc, fun (x : TileCtx) (d : BitVec 512) => x.recPairs d mergeRec)) ∧
    (mergeIn.Live) ∧
    (opPath 3 = some Path.vector) ∧
    (mergeIn.flight 0 Path.vector = some (fl [(504, 3), (284, 4096)])) ∧
    ((fl [(504, 3), (284, 4096)]).ran = false) ∧
    (tOp (fl [(504, 3), (284, 4096)]).desc = 3) ∧
    (anyDesc (fl [(504, 3), (284, 4096)]).desc = true) ∧
    ((((TileCtx.mk mergeIn 0 (fl [(504, 3), (284, 4096)]).wins).reads (fl [(504, 3), (284, 4096)]).desc).all fun (q : ℕ × ℕ) => !mergeIn.rangeDark 0 q.1 q.2 && (mergeIn.lsLost 0 q.1 q.2).isNone) = true) ∧
    ((((TileCtx.mk mergeIn 0 (fl [(504, 3), (284, 4096)]).wins).recPairs (fl [(504, 3), (284, 4096)]).desc mergeRec).writes.all fun (w : ℕ × List Byte) => !mergeIn.rangeDark 0 w.1 w.2.length) = true) ∧
    (((TileCtx.mk mergeIn 0 (fl [(504, 3), (284, 4096)]).wins).recPairs (fl [(504, 3), (284, 4096)]).desc mergeRec).status ≤ stNonfinite) ∧
    (((TileCtx.mk mergeIn 0 (fl [(504, 3), (284, 4096)]).wins).recPairs (fl [(504, 3), (284, 4096)]).desc mergeRec).starved = 0) :=
  ⟨rfl,
   st_live _ (by decide +kernel) (by decide +kernel),
   by decide +kernel⟩

def accAddState : State :=
  tileIn .vector [(504, 4), (284, 4096)]
/-- Meets the hypotheses of TilesRun. -/
theorem test_accAdd :
    (Claim.tileTable (Instr.accAdd 0) = some (0, 4, anyDesc, fun (x : TileCtx) (d : BitVec 512) => x.recPairs d addRec)) ∧
    (accAddState.Live) ∧
    (opPath 4 = some Path.vector) ∧
    (accAddState.flight 0 Path.vector = some (fl [(504, 4), (284, 4096)])) ∧
    ((fl [(504, 4), (284, 4096)]).ran = false) ∧
    (tOp (fl [(504, 4), (284, 4096)]).desc = 4) ∧
    (anyDesc (fl [(504, 4), (284, 4096)]).desc = true) ∧
    ((((TileCtx.mk accAddState 0 (fl [(504, 4), (284, 4096)]).wins).reads (fl [(504, 4), (284, 4096)]).desc).all fun (q : ℕ × ℕ) => !accAddState.rangeDark 0 q.1 q.2 && (accAddState.lsLost 0 q.1 q.2).isNone) = true) ∧
    ((((TileCtx.mk accAddState 0 (fl [(504, 4), (284, 4096)]).wins).recPairs (fl [(504, 4), (284, 4096)]).desc addRec).writes.all fun (w : ℕ × List Byte) => !accAddState.rangeDark 0 w.1 w.2.length) = true) ∧
    (((TileCtx.mk accAddState 0 (fl [(504, 4), (284, 4096)]).wins).recPairs (fl [(504, 4), (284, 4096)]).desc addRec).status ≤ stNonfinite) ∧
    (((TileCtx.mk accAddState 0 (fl [(504, 4), (284, 4096)]).wins).recPairs (fl [(504, 4), (284, 4096)]).desc addRec).starved = 0) :=
  ⟨rfl,
   st_live _ (by decide +kernel) (by decide +kernel),
   by decide +kernel⟩

def accRoundState : State :=
  tileIn .vector [(504, 5), (284, 4096), (492, 7)]
/-- Meets the hypotheses of TilesRun. -/
theorem test_accRound :
    (Claim.tileTable (Instr.accRound 0) = some (0, 5, anyDesc, TileCtx.accRound)) ∧
    (accRoundState.Live) ∧
    (opPath 5 = some Path.vector) ∧
    (accRoundState.flight 0 Path.vector = some (fl [(504, 5), (284, 4096), (492, 7)])) ∧
    ((fl [(504, 5), (284, 4096), (492, 7)]).ran = false) ∧
    (tOp (fl [(504, 5), (284, 4096), (492, 7)]).desc = 5) ∧
    (anyDesc (fl [(504, 5), (284, 4096), (492, 7)]).desc = true) ∧
    ((((TileCtx.mk accRoundState 0 (fl [(504, 5), (284, 4096), (492, 7)]).wins).reads (fl [(504, 5), (284, 4096), (492, 7)]).desc).all fun (q : ℕ × ℕ) => !accRoundState.rangeDark 0 q.1 q.2 && (accRoundState.lsLost 0 q.1 q.2).isNone) = true) ∧
    ((((TileCtx.mk accRoundState 0 (fl [(504, 5), (284, 4096), (492, 7)]).wins).accRound (fl [(504, 5), (284, 4096), (492, 7)]).desc).writes.all fun (w : ℕ × List Byte) => !accRoundState.rangeDark 0 w.1 w.2.length) = true) ∧
    (((TileCtx.mk accRoundState 0 (fl [(504, 5), (284, 4096), (492, 7)]).wins).accRound (fl [(504, 5), (284, 4096), (492, 7)]).desc).status ≤ stNonfinite) ∧
    (((TileCtx.mk accRoundState 0 (fl [(504, 5), (284, 4096), (492, 7)]).wins).accRound (fl [(504, 5), (284, 4096), (492, 7)]).desc).starved = 0) :=
  ⟨rfl,
   st_live _ (by decide +kernel) (by decide +kernel),
   by decide +kernel⟩

def tileAddState : State :=
  tileIn .vector [(504, 16), (500, 7), (496, 7), (492, 7), (284, 4096)]
/-- Meets the hypotheses of TilesRun. -/
theorem test_tileAdd :
    (Claim.tileTable (Instr.tileAdd 0) = some (0, 16, anyDesc, fun (x : TileCtx) (d : BitVec 512) => x.map2 d fadd)) ∧
    (tileAddState.Live) ∧
    (opPath 16 = some Path.vector) ∧
    (tileAddState.flight 0 Path.vector = some (fl [(504, 16), (500, 7), (496, 7), (492, 7), (284, 4096)])) ∧
    ((fl [(504, 16), (500, 7), (496, 7), (492, 7), (284, 4096)]).ran = false) ∧
    (tOp (fl [(504, 16), (500, 7), (496, 7), (492, 7), (284, 4096)]).desc = 16) ∧
    (anyDesc (fl [(504, 16), (500, 7), (496, 7), (492, 7), (284, 4096)]).desc = true) ∧
    ((((TileCtx.mk tileAddState 0 (fl [(504, 16), (500, 7), (496, 7), (492, 7), (284, 4096)]).wins).reads (fl [(504, 16), (500, 7), (496, 7), (492, 7), (284, 4096)]).desc).all fun (q : ℕ × ℕ) => !tileAddState.rangeDark 0 q.1 q.2 && (tileAddState.lsLost 0 q.1 q.2).isNone) = true) ∧
    ((((TileCtx.mk tileAddState 0 (fl [(504, 16), (500, 7), (496, 7), (492, 7), (284, 4096)]).wins).map2 (fl [(504, 16), (500, 7), (496, 7), (492, 7), (284, 4096)]).desc fadd).writes.all fun (w : ℕ × List Byte) => !tileAddState.rangeDark 0 w.1 w.2.length) = true) ∧
    (((TileCtx.mk tileAddState 0 (fl [(504, 16), (500, 7), (496, 7), (492, 7), (284, 4096)]).wins).map2 (fl [(504, 16), (500, 7), (496, 7), (492, 7), (284, 4096)]).desc fadd).status ≤ stNonfinite) ∧
    (((TileCtx.mk tileAddState 0 (fl [(504, 16), (500, 7), (496, 7), (492, 7), (284, 4096)]).wins).map2 (fl [(504, 16), (500, 7), (496, 7), (492, 7), (284, 4096)]).desc fadd).starved = 0) :=
  ⟨rfl,
   st_live _ (by decide +kernel) (by decide +kernel),
   by decide +kernel⟩

def tileMulState : State :=
  tileIn .vector [(504, 17), (500, 7), (496, 7), (492, 7), (284, 4096)]
/-- Meets the hypotheses of TilesRun. -/
theorem test_tileMul :
    (Claim.tileTable (Instr.tileMul 0) = some (0, 17, anyDesc, fun (x : TileCtx) (d : BitVec 512) => x.map2 d fmul)) ∧
    (tileMulState.Live) ∧
    (opPath 17 = some Path.vector) ∧
    (tileMulState.flight 0 Path.vector = some (fl [(504, 17), (500, 7), (496, 7), (492, 7), (284, 4096)])) ∧
    ((fl [(504, 17), (500, 7), (496, 7), (492, 7), (284, 4096)]).ran = false) ∧
    (tOp (fl [(504, 17), (500, 7), (496, 7), (492, 7), (284, 4096)]).desc = 17) ∧
    (anyDesc (fl [(504, 17), (500, 7), (496, 7), (492, 7), (284, 4096)]).desc = true) ∧
    ((((TileCtx.mk tileMulState 0 (fl [(504, 17), (500, 7), (496, 7), (492, 7), (284, 4096)]).wins).reads (fl [(504, 17), (500, 7), (496, 7), (492, 7), (284, 4096)]).desc).all fun (q : ℕ × ℕ) => !tileMulState.rangeDark 0 q.1 q.2 && (tileMulState.lsLost 0 q.1 q.2).isNone) = true) ∧
    ((((TileCtx.mk tileMulState 0 (fl [(504, 17), (500, 7), (496, 7), (492, 7), (284, 4096)]).wins).map2 (fl [(504, 17), (500, 7), (496, 7), (492, 7), (284, 4096)]).desc fmul).writes.all fun (w : ℕ × List Byte) => !tileMulState.rangeDark 0 w.1 w.2.length) = true) ∧
    (((TileCtx.mk tileMulState 0 (fl [(504, 17), (500, 7), (496, 7), (492, 7), (284, 4096)]).wins).map2 (fl [(504, 17), (500, 7), (496, 7), (492, 7), (284, 4096)]).desc fmul).status ≤ stNonfinite) ∧
    (((TileCtx.mk tileMulState 0 (fl [(504, 17), (500, 7), (496, 7), (492, 7), (284, 4096)]).wins).map2 (fl [(504, 17), (500, 7), (496, 7), (492, 7), (284, 4096)]).desc fmul).starved = 0) :=
  ⟨rfl,
   st_live _ (by decide +kernel) (by decide +kernel),
   by decide +kernel⟩

def tileScaleState : State :=
  tileIn .vector [(504, 18), (500, 7), (496, 7), (492, 7), (284, 4096)]
/-- Meets the hypotheses of TilesRun. -/
theorem test_tileScale :
    (Claim.tileTable (Instr.tileScale 0) = some (0, 18, anyDesc, fun (x : TileCtx) (d : BitVec 512) => x.map1 d fun (a : F32) => fmul a (tScalar d))) ∧
    (tileScaleState.Live) ∧
    (opPath 18 = some Path.vector) ∧
    (tileScaleState.flight 0 Path.vector = some (fl [(504, 18), (500, 7), (496, 7), (492, 7), (284, 4096)])) ∧
    ((fl [(504, 18), (500, 7), (496, 7), (492, 7), (284, 4096)]).ran = false) ∧
    (tOp (fl [(504, 18), (500, 7), (496, 7), (492, 7), (284, 4096)]).desc = 18) ∧
    (anyDesc (fl [(504, 18), (500, 7), (496, 7), (492, 7), (284, 4096)]).desc = true) ∧
    ((((TileCtx.mk tileScaleState 0 (fl [(504, 18), (500, 7), (496, 7), (492, 7), (284, 4096)]).wins).reads (fl [(504, 18), (500, 7), (496, 7), (492, 7), (284, 4096)]).desc).all fun (q : ℕ × ℕ) => !tileScaleState.rangeDark 0 q.1 q.2 && (tileScaleState.lsLost 0 q.1 q.2).isNone) = true) ∧
    ((((TileCtx.mk tileScaleState 0 (fl [(504, 18), (500, 7), (496, 7), (492, 7), (284, 4096)]).wins).map1 (fl [(504, 18), (500, 7), (496, 7), (492, 7), (284, 4096)]).desc fun (a : F32) => fmul a (tScalar (fl [(504, 18), (500, 7), (496, 7), (492, 7), (284, 4096)]).desc)).writes.all fun (w : ℕ × List Byte) => !tileScaleState.rangeDark 0 w.1 w.2.length) = true) ∧
    (((TileCtx.mk tileScaleState 0 (fl [(504, 18), (500, 7), (496, 7), (492, 7), (284, 4096)]).wins).map1 (fl [(504, 18), (500, 7), (496, 7), (492, 7), (284, 4096)]).desc fun (a : F32) => fmul a (tScalar (fl [(504, 18), (500, 7), (496, 7), (492, 7), (284, 4096)]).desc)).status ≤ stNonfinite) ∧
    (((TileCtx.mk tileScaleState 0 (fl [(504, 18), (500, 7), (496, 7), (492, 7), (284, 4096)]).wins).map1 (fl [(504, 18), (500, 7), (496, 7), (492, 7), (284, 4096)]).desc fun (a : F32) => fmul a (tScalar (fl [(504, 18), (500, 7), (496, 7), (492, 7), (284, 4096)]).desc)).starved = 0) :=
  ⟨rfl,
   st_live _ (by decide +kernel) (by decide +kernel),
   by decide +kernel⟩

def addRowState : State :=
  tileIn .vector [(504, 19), (500, 7), (496, 7), (492, 7), (284, 4096)]
/-- Meets the hypotheses of TilesRun. -/
theorem test_addRow :
    (Claim.tileTable (Instr.addRow 0) = some (0, 19, anyDesc, fun (x : TileCtx) (d : BitVec 512) => x.mapRow d fun (a v : F32) => fadd a (fmul (tScalar d) v))) ∧
    (addRowState.Live) ∧
    (opPath 19 = some Path.vector) ∧
    (addRowState.flight 0 Path.vector = some (fl [(504, 19), (500, 7), (496, 7), (492, 7), (284, 4096)])) ∧
    ((fl [(504, 19), (500, 7), (496, 7), (492, 7), (284, 4096)]).ran = false) ∧
    (tOp (fl [(504, 19), (500, 7), (496, 7), (492, 7), (284, 4096)]).desc = 19) ∧
    (anyDesc (fl [(504, 19), (500, 7), (496, 7), (492, 7), (284, 4096)]).desc = true) ∧
    ((((TileCtx.mk addRowState 0 (fl [(504, 19), (500, 7), (496, 7), (492, 7), (284, 4096)]).wins).reads (fl [(504, 19), (500, 7), (496, 7), (492, 7), (284, 4096)]).desc).all fun (q : ℕ × ℕ) => !addRowState.rangeDark 0 q.1 q.2 && (addRowState.lsLost 0 q.1 q.2).isNone) = true) ∧
    ((((TileCtx.mk addRowState 0 (fl [(504, 19), (500, 7), (496, 7), (492, 7), (284, 4096)]).wins).mapRow (fl [(504, 19), (500, 7), (496, 7), (492, 7), (284, 4096)]).desc fun (a v : F32) => fadd a (fmul (tScalar (fl [(504, 19), (500, 7), (496, 7), (492, 7), (284, 4096)]).desc) v)).writes.all fun (w : ℕ × List Byte) => !addRowState.rangeDark 0 w.1 w.2.length) = true) ∧
    (((TileCtx.mk addRowState 0 (fl [(504, 19), (500, 7), (496, 7), (492, 7), (284, 4096)]).wins).mapRow (fl [(504, 19), (500, 7), (496, 7), (492, 7), (284, 4096)]).desc fun (a v : F32) => fadd a (fmul (tScalar (fl [(504, 19), (500, 7), (496, 7), (492, 7), (284, 4096)]).desc) v)).status ≤ stNonfinite) ∧
    (((TileCtx.mk addRowState 0 (fl [(504, 19), (500, 7), (496, 7), (492, 7), (284, 4096)]).wins).mapRow (fl [(504, 19), (500, 7), (496, 7), (492, 7), (284, 4096)]).desc fun (a v : F32) => fadd a (fmul (tScalar (fl [(504, 19), (500, 7), (496, 7), (492, 7), (284, 4096)]).desc) v)).starved = 0) :=
  ⟨rfl,
   st_live _ (by decide +kernel) (by decide +kernel),
   by decide +kernel⟩

def mulRowState : State :=
  tileIn .vector [(504, 20), (500, 7), (496, 7), (492, 7), (284, 4096)]
/-- Meets the hypotheses of TilesRun. -/
theorem test_mulRow :
    (Claim.tileTable (Instr.mulRow 0) = some (0, 20, anyDesc, fun (x : TileCtx) (d : BitVec 512) => x.mapRow d fmul)) ∧
    (mulRowState.Live) ∧
    (opPath 20 = some Path.vector) ∧
    (mulRowState.flight 0 Path.vector = some (fl [(504, 20), (500, 7), (496, 7), (492, 7), (284, 4096)])) ∧
    ((fl [(504, 20), (500, 7), (496, 7), (492, 7), (284, 4096)]).ran = false) ∧
    (tOp (fl [(504, 20), (500, 7), (496, 7), (492, 7), (284, 4096)]).desc = 20) ∧
    (anyDesc (fl [(504, 20), (500, 7), (496, 7), (492, 7), (284, 4096)]).desc = true) ∧
    ((((TileCtx.mk mulRowState 0 (fl [(504, 20), (500, 7), (496, 7), (492, 7), (284, 4096)]).wins).reads (fl [(504, 20), (500, 7), (496, 7), (492, 7), (284, 4096)]).desc).all fun (q : ℕ × ℕ) => !mulRowState.rangeDark 0 q.1 q.2 && (mulRowState.lsLost 0 q.1 q.2).isNone) = true) ∧
    ((((TileCtx.mk mulRowState 0 (fl [(504, 20), (500, 7), (496, 7), (492, 7), (284, 4096)]).wins).mapRow (fl [(504, 20), (500, 7), (496, 7), (492, 7), (284, 4096)]).desc fmul).writes.all fun (w : ℕ × List Byte) => !mulRowState.rangeDark 0 w.1 w.2.length) = true) ∧
    (((TileCtx.mk mulRowState 0 (fl [(504, 20), (500, 7), (496, 7), (492, 7), (284, 4096)]).wins).mapRow (fl [(504, 20), (500, 7), (496, 7), (492, 7), (284, 4096)]).desc fmul).status ≤ stNonfinite) ∧
    (((TileCtx.mk mulRowState 0 (fl [(504, 20), (500, 7), (496, 7), (492, 7), (284, 4096)]).wins).mapRow (fl [(504, 20), (500, 7), (496, 7), (492, 7), (284, 4096)]).desc fmul).starved = 0) :=
  ⟨rfl,
   st_live _ (by decide +kernel) (by decide +kernel),
   by decide +kernel⟩

def sumRowState : State :=
  tileIn .vector [(504, 24), (500, 7), (496, 7), (492, 7), (284, 4096)]
/-- Meets the hypotheses of TilesRun. -/
theorem test_sumRow :
    (Claim.tileTable (Instr.sumRow 0) = some (0, 24, anyDesc, fun (x : TileCtx) (d : BitVec 512) => x.reduceRows d treeSum)) ∧
    (sumRowState.Live) ∧
    (opPath 24 = some Path.vector) ∧
    (sumRowState.flight 0 Path.vector = some (fl [(504, 24), (500, 7), (496, 7), (492, 7), (284, 4096)])) ∧
    ((fl [(504, 24), (500, 7), (496, 7), (492, 7), (284, 4096)]).ran = false) ∧
    (tOp (fl [(504, 24), (500, 7), (496, 7), (492, 7), (284, 4096)]).desc = 24) ∧
    (anyDesc (fl [(504, 24), (500, 7), (496, 7), (492, 7), (284, 4096)]).desc = true) ∧
    ((((TileCtx.mk sumRowState 0 (fl [(504, 24), (500, 7), (496, 7), (492, 7), (284, 4096)]).wins).reads (fl [(504, 24), (500, 7), (496, 7), (492, 7), (284, 4096)]).desc).all fun (q : ℕ × ℕ) => !sumRowState.rangeDark 0 q.1 q.2 && (sumRowState.lsLost 0 q.1 q.2).isNone) = true) ∧
    ((((TileCtx.mk sumRowState 0 (fl [(504, 24), (500, 7), (496, 7), (492, 7), (284, 4096)]).wins).reduceRows (fl [(504, 24), (500, 7), (496, 7), (492, 7), (284, 4096)]).desc treeSum).writes.all fun (w : ℕ × List Byte) => !sumRowState.rangeDark 0 w.1 w.2.length) = true) ∧
    (((TileCtx.mk sumRowState 0 (fl [(504, 24), (500, 7), (496, 7), (492, 7), (284, 4096)]).wins).reduceRows (fl [(504, 24), (500, 7), (496, 7), (492, 7), (284, 4096)]).desc treeSum).status ≤ stNonfinite) ∧
    (((TileCtx.mk sumRowState 0 (fl [(504, 24), (500, 7), (496, 7), (492, 7), (284, 4096)]).wins).reduceRows (fl [(504, 24), (500, 7), (496, 7), (492, 7), (284, 4096)]).desc treeSum).starved = 0) :=
  ⟨rfl,
   st_live _ (by decide +kernel) (by decide +kernel),
   by decide +kernel⟩

def maxRowState : State :=
  tileIn .vector [(504, 25), (500, 7), (496, 7), (492, 7), (284, 4096)]
/-- Meets the hypotheses of TilesRun. -/
theorem test_maxRow :
    (Claim.tileTable (Instr.maxRow 0) = some (0, 25, anyDesc, fun (x : TileCtx) (d : BitVec 512) => x.reduceRows d treeMax)) ∧
    (maxRowState.Live) ∧
    (opPath 25 = some Path.vector) ∧
    (maxRowState.flight 0 Path.vector = some (fl [(504, 25), (500, 7), (496, 7), (492, 7), (284, 4096)])) ∧
    ((fl [(504, 25), (500, 7), (496, 7), (492, 7), (284, 4096)]).ran = false) ∧
    (tOp (fl [(504, 25), (500, 7), (496, 7), (492, 7), (284, 4096)]).desc = 25) ∧
    (anyDesc (fl [(504, 25), (500, 7), (496, 7), (492, 7), (284, 4096)]).desc = true) ∧
    ((((TileCtx.mk maxRowState 0 (fl [(504, 25), (500, 7), (496, 7), (492, 7), (284, 4096)]).wins).reads (fl [(504, 25), (500, 7), (496, 7), (492, 7), (284, 4096)]).desc).all fun (q : ℕ × ℕ) => !maxRowState.rangeDark 0 q.1 q.2 && (maxRowState.lsLost 0 q.1 q.2).isNone) = true) ∧
    ((((TileCtx.mk maxRowState 0 (fl [(504, 25), (500, 7), (496, 7), (492, 7), (284, 4096)]).wins).reduceRows (fl [(504, 25), (500, 7), (496, 7), (492, 7), (284, 4096)]).desc treeMax).writes.all fun (w : ℕ × List Byte) => !maxRowState.rangeDark 0 w.1 w.2.length) = true) ∧
    (((TileCtx.mk maxRowState 0 (fl [(504, 25), (500, 7), (496, 7), (492, 7), (284, 4096)]).wins).reduceRows (fl [(504, 25), (500, 7), (496, 7), (492, 7), (284, 4096)]).desc treeMax).status ≤ stNonfinite) ∧
    (((TileCtx.mk maxRowState 0 (fl [(504, 25), (500, 7), (496, 7), (492, 7), (284, 4096)]).wins).reduceRows (fl [(504, 25), (500, 7), (496, 7), (492, 7), (284, 4096)]).desc treeMax).starved = 0) :=
  ⟨rfl,
   st_live _ (by decide +kernel) (by decide +kernel),
   by decide +kernel⟩

def softmaxRowState : State :=
  tileIn .vector [(504, 32), (500, 7), (496, 7), (492, 7), (284, 4096)]
/-- Meets the hypotheses of TilesRun. -/
theorem test_softmaxRow :
    (Claim.tileTable (Instr.softmaxRow 0) = some (0, 32, anyDesc, TileCtx.softmax)) ∧
    (softmaxRowState.Live) ∧
    (opPath 32 = some Path.vector) ∧
    (softmaxRowState.flight 0 Path.vector = some (fl [(504, 32), (500, 7), (496, 7), (492, 7), (284, 4096)])) ∧
    ((fl [(504, 32), (500, 7), (496, 7), (492, 7), (284, 4096)]).ran = false) ∧
    (tOp (fl [(504, 32), (500, 7), (496, 7), (492, 7), (284, 4096)]).desc = 32) ∧
    (anyDesc (fl [(504, 32), (500, 7), (496, 7), (492, 7), (284, 4096)]).desc = true) ∧
    ((((TileCtx.mk softmaxRowState 0 (fl [(504, 32), (500, 7), (496, 7), (492, 7), (284, 4096)]).wins).reads (fl [(504, 32), (500, 7), (496, 7), (492, 7), (284, 4096)]).desc).all fun (q : ℕ × ℕ) => !softmaxRowState.rangeDark 0 q.1 q.2 && (softmaxRowState.lsLost 0 q.1 q.2).isNone) = true) ∧
    ((((TileCtx.mk softmaxRowState 0 (fl [(504, 32), (500, 7), (496, 7), (492, 7), (284, 4096)]).wins).softmax (fl [(504, 32), (500, 7), (496, 7), (492, 7), (284, 4096)]).desc).writes.all fun (w : ℕ × List Byte) => !softmaxRowState.rangeDark 0 w.1 w.2.length) = true) ∧
    (((TileCtx.mk softmaxRowState 0 (fl [(504, 32), (500, 7), (496, 7), (492, 7), (284, 4096)]).wins).softmax (fl [(504, 32), (500, 7), (496, 7), (492, 7), (284, 4096)]).desc).status ≤ stNonfinite) ∧
    (((TileCtx.mk softmaxRowState 0 (fl [(504, 32), (500, 7), (496, 7), (492, 7), (284, 4096)]).wins).softmax (fl [(504, 32), (500, 7), (496, 7), (492, 7), (284, 4096)]).desc).starved = 0) :=
  ⟨rfl,
   st_live _ (by decide +kernel) (by decide +kernel),
   by decide +kernel⟩

def softmaxRecalcState : State :=
  tileIn .vector [(504, 33), (500, 7), (496, 7), (492, 7), (284, 4096), (192, 8192)]
/-- Meets the hypotheses of TilesRun. -/
theorem test_softmaxRecalc :
    (Claim.tileTable (Instr.softmaxRecalc 0) = some (0, 33, fun (d : BitVec 512) => !tGrad d, fun (x : TileCtx) (d : BitVec 512) => x.recalc d false)) ∧
    (softmaxRecalcState.Live) ∧
    (opPath 33 = some Path.vector) ∧
    (softmaxRecalcState.flight 0 Path.vector = some (fl [(504, 33), (500, 7), (496, 7), (492, 7), (284, 4096), (192, 8192)])) ∧
    ((fl [(504, 33), (500, 7), (496, 7), (492, 7), (284, 4096), (192, 8192)]).ran = false) ∧
    (tOp (fl [(504, 33), (500, 7), (496, 7), (492, 7), (284, 4096), (192, 8192)]).desc = 33) ∧
    ((!tGrad (fl [(504, 33), (500, 7), (496, 7), (492, 7), (284, 4096), (192, 8192)]).desc) = true) ∧
    ((((TileCtx.mk softmaxRecalcState 0 (fl [(504, 33), (500, 7), (496, 7), (492, 7), (284, 4096), (192, 8192)]).wins).reads (fl [(504, 33), (500, 7), (496, 7), (492, 7), (284, 4096), (192, 8192)]).desc).all fun (q : ℕ × ℕ) => !softmaxRecalcState.rangeDark 0 q.1 q.2 && (softmaxRecalcState.lsLost 0 q.1 q.2).isNone) = true) ∧
    ((((TileCtx.mk softmaxRecalcState 0 (fl [(504, 33), (500, 7), (496, 7), (492, 7), (284, 4096), (192, 8192)]).wins).recalc (fl [(504, 33), (500, 7), (496, 7), (492, 7), (284, 4096), (192, 8192)]).desc false).writes.all fun (w : ℕ × List Byte) => !softmaxRecalcState.rangeDark 0 w.1 w.2.length) = true) ∧
    (((TileCtx.mk softmaxRecalcState 0 (fl [(504, 33), (500, 7), (496, 7), (492, 7), (284, 4096), (192, 8192)]).wins).recalc (fl [(504, 33), (500, 7), (496, 7), (492, 7), (284, 4096), (192, 8192)]).desc false).status ≤ stNonfinite) ∧
    (((TileCtx.mk softmaxRecalcState 0 (fl [(504, 33), (500, 7), (496, 7), (492, 7), (284, 4096), (192, 8192)]).wins).recalc (fl [(504, 33), (500, 7), (496, 7), (492, 7), (284, 4096), (192, 8192)]).desc false).starved = 0) :=
  ⟨rfl,
   st_live _ (by decide +kernel) (by decide +kernel),
   by decide +kernel⟩

def softmaxGradState : State :=
  tileIn .vector [(504, 33), (500, 7), (496, 7), (492, 7), (284, 4096), (192, 8192), (65, 1)]
/-- Meets the hypotheses of TilesRun. -/
theorem test_softmaxGrad :
    (Claim.tileTable (Instr.softmaxGrad 0) = some (0, 33, tGrad, fun (x : TileCtx) (d : BitVec 512) => x.recalc d true)) ∧
    (softmaxGradState.Live) ∧
    (opPath 33 = some Path.vector) ∧
    (softmaxGradState.flight 0 Path.vector = some (fl [(504, 33), (500, 7), (496, 7), (492, 7), (284, 4096), (192, 8192), (65, 1)])) ∧
    ((fl [(504, 33), (500, 7), (496, 7), (492, 7), (284, 4096), (192, 8192), (65, 1)]).ran = false) ∧
    (tOp (fl [(504, 33), (500, 7), (496, 7), (492, 7), (284, 4096), (192, 8192), (65, 1)]).desc = 33) ∧
    (tGrad (fl [(504, 33), (500, 7), (496, 7), (492, 7), (284, 4096), (192, 8192), (65, 1)]).desc = true) ∧
    ((((TileCtx.mk softmaxGradState 0 (fl [(504, 33), (500, 7), (496, 7), (492, 7), (284, 4096), (192, 8192), (65, 1)]).wins).reads (fl [(504, 33), (500, 7), (496, 7), (492, 7), (284, 4096), (192, 8192), (65, 1)]).desc).all fun (q : ℕ × ℕ) => !softmaxGradState.rangeDark 0 q.1 q.2 && (softmaxGradState.lsLost 0 q.1 q.2).isNone) = true) ∧
    ((((TileCtx.mk softmaxGradState 0 (fl [(504, 33), (500, 7), (496, 7), (492, 7), (284, 4096), (192, 8192), (65, 1)]).wins).recalc (fl [(504, 33), (500, 7), (496, 7), (492, 7), (284, 4096), (192, 8192), (65, 1)]).desc true).writes.all fun (w : ℕ × List Byte) => !softmaxGradState.rangeDark 0 w.1 w.2.length) = true) ∧
    (((TileCtx.mk softmaxGradState 0 (fl [(504, 33), (500, 7), (496, 7), (492, 7), (284, 4096), (192, 8192), (65, 1)]).wins).recalc (fl [(504, 33), (500, 7), (496, 7), (492, 7), (284, 4096), (192, 8192), (65, 1)]).desc true).status ≤ stNonfinite) ∧
    (((TileCtx.mk softmaxGradState 0 (fl [(504, 33), (500, 7), (496, 7), (492, 7), (284, 4096), (192, 8192), (65, 1)]).wins).recalc (fl [(504, 33), (500, 7), (496, 7), (492, 7), (284, 4096), (192, 8192), (65, 1)]).desc true).starved = 0) :=
  ⟨rfl,
   st_live _ (by decide +kernel) (by decide +kernel),
   by decide +kernel⟩

def rmsnormState : State :=
  tileIn .vector [(504, 34), (500, 7), (496, 7), (492, 7), (284, 4096), (160, 1065353216)]
/-- Meets the hypotheses of TilesRun. -/
theorem test_rmsnorm :
    (Claim.tileTable (Instr.rmsnorm 0) = some (0, 34, anyDesc, TileCtx.rmsnormTile)) ∧
    (rmsnormState.Live) ∧
    (opPath 34 = some Path.vector) ∧
    (rmsnormState.flight 0 Path.vector = some (fl [(504, 34), (500, 7), (496, 7), (492, 7), (284, 4096), (160, 1065353216)])) ∧
    ((fl [(504, 34), (500, 7), (496, 7), (492, 7), (284, 4096), (160, 1065353216)]).ran = false) ∧
    (tOp (fl [(504, 34), (500, 7), (496, 7), (492, 7), (284, 4096), (160, 1065353216)]).desc = 34) ∧
    (anyDesc (fl [(504, 34), (500, 7), (496, 7), (492, 7), (284, 4096), (160, 1065353216)]).desc = true) ∧
    ((((TileCtx.mk rmsnormState 0 (fl [(504, 34), (500, 7), (496, 7), (492, 7), (284, 4096), (160, 1065353216)]).wins).reads (fl [(504, 34), (500, 7), (496, 7), (492, 7), (284, 4096), (160, 1065353216)]).desc).all fun (q : ℕ × ℕ) => !rmsnormState.rangeDark 0 q.1 q.2 && (rmsnormState.lsLost 0 q.1 q.2).isNone) = true) ∧
    ((((TileCtx.mk rmsnormState 0 (fl [(504, 34), (500, 7), (496, 7), (492, 7), (284, 4096), (160, 1065353216)]).wins).rmsnormTile (fl [(504, 34), (500, 7), (496, 7), (492, 7), (284, 4096), (160, 1065353216)]).desc).writes.all fun (w : ℕ × List Byte) => !rmsnormState.rangeDark 0 w.1 w.2.length) = true) ∧
    (((TileCtx.mk rmsnormState 0 (fl [(504, 34), (500, 7), (496, 7), (492, 7), (284, 4096), (160, 1065353216)]).wins).rmsnormTile (fl [(504, 34), (500, 7), (496, 7), (492, 7), (284, 4096), (160, 1065353216)]).desc).status ≤ stNonfinite) ∧
    (((TileCtx.mk rmsnormState 0 (fl [(504, 34), (500, 7), (496, 7), (492, 7), (284, 4096), (160, 1065353216)]).wins).rmsnormTile (fl [(504, 34), (500, 7), (496, 7), (492, 7), (284, 4096), (160, 1065353216)]).desc).starved = 0) :=
  ⟨rfl,
   st_live _ (by decide +kernel) (by decide +kernel),
   by decide +kernel⟩

def exp2State : State :=
  tileIn .vector [(504, 35), (500, 7), (496, 7), (492, 7), (284, 4096)]
/-- Meets the hypotheses of TilesRun. -/
theorem test_exp2 :
    (Claim.tileTable (Instr.exp2 0) = some (0, 35, anyDesc, fun (x : TileCtx) (d : BitVec 512) => x.map1 d exp2f)) ∧
    (exp2State.Live) ∧
    (opPath 35 = some Path.vector) ∧
    (exp2State.flight 0 Path.vector = some (fl [(504, 35), (500, 7), (496, 7), (492, 7), (284, 4096)])) ∧
    ((fl [(504, 35), (500, 7), (496, 7), (492, 7), (284, 4096)]).ran = false) ∧
    (tOp (fl [(504, 35), (500, 7), (496, 7), (492, 7), (284, 4096)]).desc = 35) ∧
    (anyDesc (fl [(504, 35), (500, 7), (496, 7), (492, 7), (284, 4096)]).desc = true) ∧
    ((((TileCtx.mk exp2State 0 (fl [(504, 35), (500, 7), (496, 7), (492, 7), (284, 4096)]).wins).reads (fl [(504, 35), (500, 7), (496, 7), (492, 7), (284, 4096)]).desc).all fun (q : ℕ × ℕ) => !exp2State.rangeDark 0 q.1 q.2 && (exp2State.lsLost 0 q.1 q.2).isNone) = true) ∧
    ((((TileCtx.mk exp2State 0 (fl [(504, 35), (500, 7), (496, 7), (492, 7), (284, 4096)]).wins).map1 (fl [(504, 35), (500, 7), (496, 7), (492, 7), (284, 4096)]).desc exp2f).writes.all fun (w : ℕ × List Byte) => !exp2State.rangeDark 0 w.1 w.2.length) = true) ∧
    (((TileCtx.mk exp2State 0 (fl [(504, 35), (500, 7), (496, 7), (492, 7), (284, 4096)]).wins).map1 (fl [(504, 35), (500, 7), (496, 7), (492, 7), (284, 4096)]).desc exp2f).status ≤ stNonfinite) ∧
    (((TileCtx.mk exp2State 0 (fl [(504, 35), (500, 7), (496, 7), (492, 7), (284, 4096)]).wins).map1 (fl [(504, 35), (500, 7), (496, 7), (492, 7), (284, 4096)]).desc exp2f).starved = 0) :=
  ⟨rfl,
   st_live _ (by decide +kernel) (by decide +kernel),
   by decide +kernel⟩

def recipState : State :=
  tileIn .vector [(504, 36), (500, 7), (496, 7), (492, 7), (284, 4096)]
/-- Meets the hypotheses of TilesRun. -/
theorem test_recip :
    (Claim.tileTable (Instr.recip 0) = some (0, 36, anyDesc, fun (x : TileCtx) (d : BitVec 512) => x.map1 d recipf)) ∧
    (recipState.Live) ∧
    (opPath 36 = some Path.vector) ∧
    (recipState.flight 0 Path.vector = some (fl [(504, 36), (500, 7), (496, 7), (492, 7), (284, 4096)])) ∧
    ((fl [(504, 36), (500, 7), (496, 7), (492, 7), (284, 4096)]).ran = false) ∧
    (tOp (fl [(504, 36), (500, 7), (496, 7), (492, 7), (284, 4096)]).desc = 36) ∧
    (anyDesc (fl [(504, 36), (500, 7), (496, 7), (492, 7), (284, 4096)]).desc = true) ∧
    ((((TileCtx.mk recipState 0 (fl [(504, 36), (500, 7), (496, 7), (492, 7), (284, 4096)]).wins).reads (fl [(504, 36), (500, 7), (496, 7), (492, 7), (284, 4096)]).desc).all fun (q : ℕ × ℕ) => !recipState.rangeDark 0 q.1 q.2 && (recipState.lsLost 0 q.1 q.2).isNone) = true) ∧
    ((((TileCtx.mk recipState 0 (fl [(504, 36), (500, 7), (496, 7), (492, 7), (284, 4096)]).wins).map1 (fl [(504, 36), (500, 7), (496, 7), (492, 7), (284, 4096)]).desc recipf).writes.all fun (w : ℕ × List Byte) => !recipState.rangeDark 0 w.1 w.2.length) = true) ∧
    (((TileCtx.mk recipState 0 (fl [(504, 36), (500, 7), (496, 7), (492, 7), (284, 4096)]).wins).map1 (fl [(504, 36), (500, 7), (496, 7), (492, 7), (284, 4096)]).desc recipf).status ≤ stNonfinite) ∧
    (((TileCtx.mk recipState 0 (fl [(504, 36), (500, 7), (496, 7), (492, 7), (284, 4096)]).wins).map1 (fl [(504, 36), (500, 7), (496, 7), (492, 7), (284, 4096)]).desc recipf).starved = 0) :=
  ⟨rfl,
   st_live _ (by decide +kernel) (by decide +kernel),
   by decide +kernel⟩

def rsqrtState : State :=
  tileIn .vector [(504, 37), (500, 7), (496, 7), (492, 7), (284, 4096)]
/-- Meets the hypotheses of TilesRun. -/
theorem test_rsqrt :
    (Claim.tileTable (Instr.rsqrt 0) = some (0, 37, anyDesc, fun (x : TileCtx) (d : BitVec 512) => x.map1 d rsqrtf)) ∧
    (rsqrtState.Live) ∧
    (opPath 37 = some Path.vector) ∧
    (rsqrtState.flight 0 Path.vector = some (fl [(504, 37), (500, 7), (496, 7), (492, 7), (284, 4096)])) ∧
    ((fl [(504, 37), (500, 7), (496, 7), (492, 7), (284, 4096)]).ran = false) ∧
    (tOp (fl [(504, 37), (500, 7), (496, 7), (492, 7), (284, 4096)]).desc = 37) ∧
    (anyDesc (fl [(504, 37), (500, 7), (496, 7), (492, 7), (284, 4096)]).desc = true) ∧
    ((((TileCtx.mk rsqrtState 0 (fl [(504, 37), (500, 7), (496, 7), (492, 7), (284, 4096)]).wins).reads (fl [(504, 37), (500, 7), (496, 7), (492, 7), (284, 4096)]).desc).all fun (q : ℕ × ℕ) => !rsqrtState.rangeDark 0 q.1 q.2 && (rsqrtState.lsLost 0 q.1 q.2).isNone) = true) ∧
    ((((TileCtx.mk rsqrtState 0 (fl [(504, 37), (500, 7), (496, 7), (492, 7), (284, 4096)]).wins).map1 (fl [(504, 37), (500, 7), (496, 7), (492, 7), (284, 4096)]).desc rsqrtf).writes.all fun (w : ℕ × List Byte) => !rsqrtState.rangeDark 0 w.1 w.2.length) = true) ∧
    (((TileCtx.mk rsqrtState 0 (fl [(504, 37), (500, 7), (496, 7), (492, 7), (284, 4096)]).wins).map1 (fl [(504, 37), (500, 7), (496, 7), (492, 7), (284, 4096)]).desc rsqrtf).status ≤ stNonfinite) ∧
    (((TileCtx.mk rsqrtState 0 (fl [(504, 37), (500, 7), (496, 7), (492, 7), (284, 4096)]).wins).map1 (fl [(504, 37), (500, 7), (496, 7), (492, 7), (284, 4096)]).desc rsqrtf).starved = 0) :=
  ⟨rfl,
   st_live _ (by decide +kernel) (by decide +kernel),
   by decide +kernel⟩

def siluState : State :=
  tileIn .vector [(504, 38), (500, 7), (496, 7), (492, 7), (284, 4096)]
/-- Meets the hypotheses of TilesRun. -/
theorem test_silu :
    (Claim.tileTable (Instr.silu 0) = some (0, 38, anyDesc, fun (x : TileCtx) (d : BitVec 512) => x.map1 d siluf)) ∧
    (siluState.Live) ∧
    (opPath 38 = some Path.vector) ∧
    (siluState.flight 0 Path.vector = some (fl [(504, 38), (500, 7), (496, 7), (492, 7), (284, 4096)])) ∧
    ((fl [(504, 38), (500, 7), (496, 7), (492, 7), (284, 4096)]).ran = false) ∧
    (tOp (fl [(504, 38), (500, 7), (496, 7), (492, 7), (284, 4096)]).desc = 38) ∧
    (anyDesc (fl [(504, 38), (500, 7), (496, 7), (492, 7), (284, 4096)]).desc = true) ∧
    ((((TileCtx.mk siluState 0 (fl [(504, 38), (500, 7), (496, 7), (492, 7), (284, 4096)]).wins).reads (fl [(504, 38), (500, 7), (496, 7), (492, 7), (284, 4096)]).desc).all fun (q : ℕ × ℕ) => !siluState.rangeDark 0 q.1 q.2 && (siluState.lsLost 0 q.1 q.2).isNone) = true) ∧
    ((((TileCtx.mk siluState 0 (fl [(504, 38), (500, 7), (496, 7), (492, 7), (284, 4096)]).wins).map1 (fl [(504, 38), (500, 7), (496, 7), (492, 7), (284, 4096)]).desc siluf).writes.all fun (w : ℕ × List Byte) => !siluState.rangeDark 0 w.1 w.2.length) = true) ∧
    (((TileCtx.mk siluState 0 (fl [(504, 38), (500, 7), (496, 7), (492, 7), (284, 4096)]).wins).map1 (fl [(504, 38), (500, 7), (496, 7), (492, 7), (284, 4096)]).desc siluf).status ≤ stNonfinite) ∧
    (((TileCtx.mk siluState 0 (fl [(504, 38), (500, 7), (496, 7), (492, 7), (284, 4096)]).wins).map1 (fl [(504, 38), (500, 7), (496, 7), (492, 7), (284, 4096)]).desc siluf).starved = 0) :=
  ⟨rfl,
   st_live _ (by decide +kernel) (by decide +kernel),
   by decide +kernel⟩

def siluMulState : State :=
  tileIn .vector [(504, 39), (500, 7), (496, 7), (492, 7), (284, 4096)]
/-- Meets the hypotheses of TilesRun. -/
theorem test_siluMul :
    (Claim.tileTable (Instr.siluMul 0) = some (0, 39, anyDesc, fun (x : TileCtx) (d : BitVec 512) => x.map2 d fun (a b : F32) => fmul (siluf a) b)) ∧
    (siluMulState.Live) ∧
    (opPath 39 = some Path.vector) ∧
    (siluMulState.flight 0 Path.vector = some (fl [(504, 39), (500, 7), (496, 7), (492, 7), (284, 4096)])) ∧
    ((fl [(504, 39), (500, 7), (496, 7), (492, 7), (284, 4096)]).ran = false) ∧
    (tOp (fl [(504, 39), (500, 7), (496, 7), (492, 7), (284, 4096)]).desc = 39) ∧
    (anyDesc (fl [(504, 39), (500, 7), (496, 7), (492, 7), (284, 4096)]).desc = true) ∧
    ((((TileCtx.mk siluMulState 0 (fl [(504, 39), (500, 7), (496, 7), (492, 7), (284, 4096)]).wins).reads (fl [(504, 39), (500, 7), (496, 7), (492, 7), (284, 4096)]).desc).all fun (q : ℕ × ℕ) => !siluMulState.rangeDark 0 q.1 q.2 && (siluMulState.lsLost 0 q.1 q.2).isNone) = true) ∧
    ((((TileCtx.mk siluMulState 0 (fl [(504, 39), (500, 7), (496, 7), (492, 7), (284, 4096)]).wins).map2 (fl [(504, 39), (500, 7), (496, 7), (492, 7), (284, 4096)]).desc fun (a b : F32) => fmul (siluf a) b).writes.all fun (w : ℕ × List Byte) => !siluMulState.rangeDark 0 w.1 w.2.length) = true) ∧
    (((TileCtx.mk siluMulState 0 (fl [(504, 39), (500, 7), (496, 7), (492, 7), (284, 4096)]).wins).map2 (fl [(504, 39), (500, 7), (496, 7), (492, 7), (284, 4096)]).desc fun (a b : F32) => fmul (siluf a) b).status ≤ stNonfinite) ∧
    (((TileCtx.mk siluMulState 0 (fl [(504, 39), (500, 7), (496, 7), (492, 7), (284, 4096)]).wins).map2 (fl [(504, 39), (500, 7), (496, 7), (492, 7), (284, 4096)]).desc fun (a b : F32) => fmul (siluf a) b).starved = 0) :=
  ⟨rfl,
   st_live _ (by decide +kernel) (by decide +kernel),
   by decide +kernel⟩

def convertState : State :=
  tileIn .vector [(504, 40), (500, 7), (496, 7), (492, 7), (284, 4096)]
/-- Meets the hypotheses of TilesRun. -/
theorem test_convert :
    (Claim.tileTable (Instr.convert 0) = some (0, 40, anyDesc, TileCtx.convert)) ∧
    (convertState.Live) ∧
    (opPath 40 = some Path.vector) ∧
    (convertState.flight 0 Path.vector = some (fl [(504, 40), (500, 7), (496, 7), (492, 7), (284, 4096)])) ∧
    ((fl [(504, 40), (500, 7), (496, 7), (492, 7), (284, 4096)]).ran = false) ∧
    (tOp (fl [(504, 40), (500, 7), (496, 7), (492, 7), (284, 4096)]).desc = 40) ∧
    (anyDesc (fl [(504, 40), (500, 7), (496, 7), (492, 7), (284, 4096)]).desc = true) ∧
    ((((TileCtx.mk convertState 0 (fl [(504, 40), (500, 7), (496, 7), (492, 7), (284, 4096)]).wins).reads (fl [(504, 40), (500, 7), (496, 7), (492, 7), (284, 4096)]).desc).all fun (q : ℕ × ℕ) => !convertState.rangeDark 0 q.1 q.2 && (convertState.lsLost 0 q.1 q.2).isNone) = true) ∧
    ((((TileCtx.mk convertState 0 (fl [(504, 40), (500, 7), (496, 7), (492, 7), (284, 4096)]).wins).convert (fl [(504, 40), (500, 7), (496, 7), (492, 7), (284, 4096)]).desc).writes.all fun (w : ℕ × List Byte) => !convertState.rangeDark 0 w.1 w.2.length) = true) ∧
    (((TileCtx.mk convertState 0 (fl [(504, 40), (500, 7), (496, 7), (492, 7), (284, 4096)]).wins).convert (fl [(504, 40), (500, 7), (496, 7), (492, 7), (284, 4096)]).desc).status ≤ stNonfinite) ∧
    (((TileCtx.mk convertState 0 (fl [(504, 40), (500, 7), (496, 7), (492, 7), (284, 4096)]).wins).convert (fl [(504, 40), (500, 7), (496, 7), (492, 7), (284, 4096)]).desc).starved = 0) :=
  ⟨rfl,
   st_live _ (by decide +kernel) (by decide +kernel),
   by decide +kernel⟩

def routeState : State :=
  tileIn .vector [(504, 48), (284, 4096), (64, 1)]
/-- Meets the hypotheses of TilesRun. -/
theorem test_route :
    (Claim.tileTable (Instr.route 0) = some (0, 48, anyDesc, TileCtx.route)) ∧
    (routeState.Live) ∧
    (opPath 48 = some Path.vector) ∧
    (routeState.flight 0 Path.vector = some (fl [(504, 48), (284, 4096), (64, 1)])) ∧
    ((fl [(504, 48), (284, 4096), (64, 1)]).ran = false) ∧
    (tOp (fl [(504, 48), (284, 4096), (64, 1)]).desc = 48) ∧
    (anyDesc (fl [(504, 48), (284, 4096), (64, 1)]).desc = true) ∧
    ((((TileCtx.mk routeState 0 (fl [(504, 48), (284, 4096), (64, 1)]).wins).reads (fl [(504, 48), (284, 4096), (64, 1)]).desc).all fun (q : ℕ × ℕ) => !routeState.rangeDark 0 q.1 q.2 && (routeState.lsLost 0 q.1 q.2).isNone) = true) ∧
    ((((TileCtx.mk routeState 0 (fl [(504, 48), (284, 4096), (64, 1)]).wins).route (fl [(504, 48), (284, 4096), (64, 1)]).desc).writes.all fun (w : ℕ × List Byte) => !routeState.rangeDark 0 w.1 w.2.length) = true) ∧
    (((TileCtx.mk routeState 0 (fl [(504, 48), (284, 4096), (64, 1)]).wins).route (fl [(504, 48), (284, 4096), (64, 1)]).desc).status ≤ stNonfinite) ∧
    (((TileCtx.mk routeState 0 (fl [(504, 48), (284, 4096), (64, 1)]).wins).route (fl [(504, 48), (284, 4096), (64, 1)]).desc).starved = 0) :=
  ⟨rfl,
   st_live _ (by decide +kernel) (by decide +kernel),
   by decide +kernel⟩

def combineState : State :=
  tileIn .vector [(504, 49), (500, 7), (496, 7), (492, 7), (284, 4096), (64, 1)]
/-- Meets the hypotheses of TilesRun. -/
theorem test_combine :
    (Claim.tileTable (Instr.combine 0) = some (0, 49, anyDesc, TileCtx.combine)) ∧
    (combineState.Live) ∧
    (opPath 49 = some Path.vector) ∧
    (combineState.flight 0 Path.vector = some (fl [(504, 49), (500, 7), (496, 7), (492, 7), (284, 4096), (64, 1)])) ∧
    ((fl [(504, 49), (500, 7), (496, 7), (492, 7), (284, 4096), (64, 1)]).ran = false) ∧
    (tOp (fl [(504, 49), (500, 7), (496, 7), (492, 7), (284, 4096), (64, 1)]).desc = 49) ∧
    (anyDesc (fl [(504, 49), (500, 7), (496, 7), (492, 7), (284, 4096), (64, 1)]).desc = true) ∧
    ((((TileCtx.mk combineState 0 (fl [(504, 49), (500, 7), (496, 7), (492, 7), (284, 4096), (64, 1)]).wins).reads (fl [(504, 49), (500, 7), (496, 7), (492, 7), (284, 4096), (64, 1)]).desc).all fun (q : ℕ × ℕ) => !combineState.rangeDark 0 q.1 q.2 && (combineState.lsLost 0 q.1 q.2).isNone) = true) ∧
    ((((TileCtx.mk combineState 0 (fl [(504, 49), (500, 7), (496, 7), (492, 7), (284, 4096), (64, 1)]).wins).combine (fl [(504, 49), (500, 7), (496, 7), (492, 7), (284, 4096), (64, 1)]).desc).writes.all fun (w : ℕ × List Byte) => !combineState.rangeDark 0 w.1 w.2.length) = true) ∧
    (((TileCtx.mk combineState 0 (fl [(504, 49), (500, 7), (496, 7), (492, 7), (284, 4096), (64, 1)]).wins).combine (fl [(504, 49), (500, 7), (496, 7), (492, 7), (284, 4096), (64, 1)]).desc).status ≤ stNonfinite) ∧
    (((TileCtx.mk combineState 0 (fl [(504, 49), (500, 7), (496, 7), (492, 7), (284, 4096), (64, 1)]).wins).combine (fl [(504, 49), (500, 7), (496, 7), (492, 7), (284, 4096), (64, 1)]).desc).starved = 0) :=
  ⟨rfl,
   st_live _ (by decide +kernel) (by decide +kernel),
   by decide +kernel⟩

def copyState : State :=
  tileIn .vector [(504, 56), (284, 4096)]
/-- Meets the hypotheses of TilesRun. -/
theorem test_copy :
    (Claim.tileTable (Instr.copy 0) = some (0, 56, anyDesc, TileCtx.copy)) ∧
    (copyState.Live) ∧
    (opPath 56 = some Path.vector) ∧
    (copyState.flight 0 Path.vector = some (fl [(504, 56), (284, 4096)])) ∧
    ((fl [(504, 56), (284, 4096)]).ran = false) ∧
    (tOp (fl [(504, 56), (284, 4096)]).desc = 56) ∧
    (anyDesc (fl [(504, 56), (284, 4096)]).desc = true) ∧
    ((((TileCtx.mk copyState 0 (fl [(504, 56), (284, 4096)]).wins).reads (fl [(504, 56), (284, 4096)]).desc).all fun (q : ℕ × ℕ) => !copyState.rangeDark 0 q.1 q.2 && (copyState.lsLost 0 q.1 q.2).isNone) = true) ∧
    ((((TileCtx.mk copyState 0 (fl [(504, 56), (284, 4096)]).wins).copy (fl [(504, 56), (284, 4096)]).desc).writes.all fun (w : ℕ × List Byte) => !copyState.rangeDark 0 w.1 w.2.length) = true) ∧
    (((TileCtx.mk copyState 0 (fl [(504, 56), (284, 4096)]).wins).copy (fl [(504, 56), (284, 4096)]).desc).status ≤ stNonfinite) ∧
    (((TileCtx.mk copyState 0 (fl [(504, 56), (284, 4096)]).wins).copy (fl [(504, 56), (284, 4096)]).desc).starved = 0) :=
  ⟨rfl,
   st_live _ (by decide +kernel) (by decide +kernel),
   by decide +kernel⟩

def winAdvState : State :=
  tileIn .vector [(504, 0x39)]
/-- Meets the hypotheses of WindowAdvances. -/
theorem test_winAdv :
    (winAdvState.Live) ∧
    (winAdvState.flight 0 Path.vector = some (fl [(504, 57)])) ∧
    (tOp (fl [(504, 57)]).desc = 57) ∧
    ((fl [(504, 57)]).ran = false) :=
  ⟨st_live _ (by decide +kernel) (by decide +kernel),
   by decide +kernel⟩

def doneTile : Flight := ⟨BitVec.ofNat 512 (word [(504, 0x38), (32, 5), (0, 1)]), 0, [], true, 0, 0⟩
def tileDone : State := st [.setFlight 79 .vector (some doneTile)]
/-- Meets the hypotheses of TilesAreDone. -/
theorem test_tileComplete :
    (tileDone.Live) ∧
    (tileDone.flight 79 Path.vector = some doneTile) ∧
    (doneTile.ran = true) ∧
    (doneTile.status = 0) ∧
    (tPost doneTile.desc = false) :=
  ⟨st_live _ (by decide +kernel) (by decide +kernel),
   by decide +kernel⟩

/-- Meets the hypotheses of TilesAreDone. -/
theorem test_tileTimeout :
    (tileDone.Live) ∧
    (tileDone.flight 79 Path.vector = some doneTile) ∧
    ((SMap.get domDefault tileDone.err.domains (domKey 6 79)).depth = 0) ∧
    (tileDone.recurs 4 6 79 0 = false) :=
  ⟨st_live _ (by decide +kernel) (by decide +kernel),
   by decide +kernel⟩

/-- Meets the hypotheses of TilesAreDone. -/
theorem test_coreParityFault :
    (tileDone.Live) ∧
    (tileDone.flight 79 Path.vector = some doneTile) ∧
    ((SMap.get domDefault tileDone.err.domains (domKey 6 79)).depth = 0) ∧
    (tileDone.recurs 4 6 79 0 = false) ∧
    (tileDone.coreRetired 79 = false) :=
  ⟨st_live _ (by decide +kernel) (by decide +kernel),
   by decide +kernel⟩

def autoBank : State := st [.set F.CORE_LS_PWR_BANK_MODE (3 * 4 ^ 47) 79]
/-- Meets the hypotheses of BankModes. -/
theorem test_bankAutoRetain :
    (autoBank.Live) ∧
    (autoBank.bankMode 79 47 = 3) ∧
    (autoBank.bankUsed 79 47 = false) ∧
    (autoBank.startsSoon 79 0 = false) ∧
    (SMap.get (fun (_ : ℕ) => false) autoBank.core.zeroing (48 * 79 + 47) = false) :=
  ⟨st_live _ (by decide +kernel) (by decide +kernel),
   by decide +kernel⟩

end Tiles

namespace Directory

def look0 : State := st (dirCfg ++ dirCmd (dirEntry 1 []) ++ dirRec [] [(0, 2)])
def look1 : State := st (dirCfg ++ dirCmd (dirEntry 1 []))
def look2 : State := st (dirCfg ++ dirCmd (dirEntry 0x13 []))
/-- Meets the hypotheses of DirectoryLookups. -/
theorem test_lookup :
    (Claim.SdirHeld look0 4096 1 (dirEntry 1 []) 0 (look0.recBytes 0)) :=
  sdir_held _ _ _ _ _ (by decide +kernel)

def victim : CacheEntry := ⟨16384, true, setAll (List.replicate 56 0) [(0, 8, 6), (8, 8, 3)]⟩
/-- Set 0 of the record cache is full of dirty entries; record 16384 is its oldest. -/
def look3 : State := st (dirCfg ++ [.set F.SDIR_CFG_RECORDS 20000, .one (.mem 0x410000 (Claim.sealed (setAll (List.replicate 256 0) [(0, 8, 6)])))]
  ++ dirCmd (dirEntry 1 []) ++ dirRec [] [(0, 2)]
  ++ [.modSdir fun x => { x with cache := x.cache.put (fun _ => []) 0 ((List.range 15).map (fun k => ⟨16384 * (k + 2), true, List.replicate 56 0⟩) ++ [victim]) }])
/-- Meets the hypotheses of DirectoryLookups. -/
theorem test_lookupMiss :
    (Claim.SdirReady look3 4096 1 (dirEntry 1 [])) ∧
    (look3.hbmOk 0 = true) ∧
    (look3.hbmOk victim.index = true) ∧
    (look3.findSession (dSession (dirEntry 1 [])) = some 0) ∧
    (look3.cacheEntry 0 = none) ∧
    (cacheVictim (look3.cacheWays 0) = some victim) ∧
    (victim.dirty = true) ∧
    (look3.place (look3.recAddr victim.index) = Place.hbm 4259840) ∧
    (look3.recAddr victim.index % 4096 + 256 ≤ 4096) :=
  ⟨sdir_ready _ _ _ _ (by decide +kernel),
   hbm_ok _ _ (by decide +kernel),
   hbm_ok _ _ (by decide +kernel),
   by decide +kernel⟩

/-- Meets the hypotheses of DirectoryLookups. -/
theorem test_lookupAbsent :
    (Claim.SdirAbsent look1 4096 1 (dirEntry 1 [])) :=
  sdir_absent _ _ _ _ (by decide +kernel)

/-- Meets the hypotheses of DirectoryLookups. -/
theorem test_sdirBadOp :
    (Claim.SdirReady look2 4096 19 (dirEntry 19 [])) ∧
    (19 = 0 ∨ 18 < 19) :=
  ⟨sdir_ready _ _ _ _ (by decide +kernel),
   by decide +kernel⟩

def recSt (op : Nat) (es : List (Nat × Nat)) (ctl : List (Nat × Nat)) : State := st (dirCfg ++ dirCmd (dirEntry op es) ++ dirRec [] ctl)
def beginTurnState : State :=
  recSt 3 [] [(0, 2)]
/-- Meets the hypotheses of DirectoryRecordChanges. -/
theorem test_beginTurn :
    (Claim.SdirStill beginTurnState 4096 3 (dirEntry 3 []) 0 ((recSt 3 [] [(0, 2)]).recBytes 0)) ∧
    (rState ((recSt 3 [] [(0, 2)]).recBytes 0) = 2) :=
  ⟨sdir_still _ _ _ _ _ (by decide +kernel),
   by decide +kernel⟩

def beginTurnActiveState : State :=
  recSt 3 [] [(0, 1)]
/-- Meets the hypotheses of DirectoryRecordChanges. -/
theorem test_beginTurnActive :
    (Claim.SdirStill beginTurnActiveState 4096 3 (dirEntry 3 []) 0 ((recSt 3 [] [(0, 1)]).recBytes 0)) ∧
    (rState ((recSt 3 [] [(0, 1)]).recBytes 0) = 1) :=
  ⟨sdir_still _ _ _ _ _ (by decide +kernel),
   by decide +kernel⟩

def endTurnState : State :=
  recSt 4 [] [(0, 1)]
/-- Meets the hypotheses of DirectoryRecordChanges. -/
theorem test_endTurn :
    (Claim.SdirHeld endTurnState 4096 4 (dirEntry 4 []) 0 ((recSt 4 [] [(0, 1)]).recBytes 0)) ∧
    (rState ((recSt 4 [] [(0, 1)]).recBytes 0) = 1) :=
  ⟨sdir_held _ _ _ _ _ (by decide +kernel),
   by decide +kernel⟩

def pinState : State :=
  recSt 9 [] [(0, 2)]
/-- Meets the hypotheses of DirectoryRecordChanges. -/
theorem test_pin :
    (Claim.SdirStill pinState 4096 9 (dirEntry 9 []) 0 ((recSt 9 [] [(0, 2)]).recBytes 0)) ∧
    (rState ((recSt 9 [] [(0, 2)]).recBytes 0) ≠ 0) ∧
    (rPinned ((recSt 9 [] [(0, 2)]).recBytes 0) = true ∨ overLimit 4 (pinState.quota (tenantOf (dSession (dirEntry 9 []))) 56 4) (pinState.pinnedOf (tenantOf (dSession (dirEntry 9 [])))) 1 = false) :=
  ⟨sdir_still _ _ _ _ _ (by decide +kernel),
   by decide +kernel⟩

/-- Tenant 0 may pin nothing. -/
def noPins : State := st (dirCfg ++ [.one (.mem (0x20000 + 0x38) (leBytes 4 0))] ++ dirCmd (dirEntry 9 []) ++ dirRec [] [(0, 2)])
/-- Meets the hypotheses of DirectoryRecordChanges. -/
theorem test_pinOverLimit :
    (Claim.SdirStill noPins 4096 9 (dirEntry 9 []) 0 (noPins.recBytes 0)) ∧
    (rState (noPins.recBytes 0) ≠ 0) ∧
    (rPinned (noPins.recBytes 0) = false) ∧
    (overLimit 4 (noPins.quota (tenantOf (dSession (dirEntry 9 []))) 56 4) (noPins.pinnedOf (tenantOf (dSession (dirEntry 9 [])))) 1 = true) :=
  ⟨sdir_still _ _ _ _ _ (by decide +kernel),
   by decide +kernel⟩

def unpinState : State :=
  recSt 0xA [] [(0, 2)]
/-- Meets the hypotheses of DirectoryRecordChanges. -/
theorem test_unpin :
    (Claim.SdirHeld unpinState 4096 10 (dirEntry 10 []) 0 ((recSt 10 [] [(0, 2)]).recBytes 0)) ∧
    (rState ((recSt 10 [] [(0, 2)]).recBytes 0) ≠ 0) :=
  ⟨sdir_held _ _ _ _ _ (by decide +kernel),
   by decide +kernel⟩

def setHintState : State :=
  recSt 0xB [] [(0, 2)]
/-- Meets the hypotheses of DirectoryRecordChanges. -/
theorem test_setHint :
    (Claim.SdirHeld setHintState 4096 11 (dirEntry 11 []) 0 ((recSt 11 [] [(0, 2)]).recBytes 0)) ∧
    (rState ((recSt 11 [] [(0, 2)]).recBytes 0) = 2) :=
  ⟨sdir_held _ _ _ _ _ (by decide +kernel),
   by decide +kernel⟩

def moorActiveState : State :=
  recSt 5 [] [(0, 1)]
/-- Meets the hypotheses of DirectoryRecordChanges. -/
theorem test_moorActive :
    (Claim.SdirStill moorActiveState 4096 5 (dirEntry 5 []) 0 ((recSt 5 [] [(0, 1)]).recBytes 0)) ∧
    (Claim.sdirTable (Instr.moor 4096) = some (4096, 5, [2])) ∧
    (rState ((recSt 5 [] [(0, 1)]).recBytes 0) ∉ [2]) :=
  ⟨sdir_still _ _ _ _ _ (by decide +kernel),
   by decide +kernel⟩

def absent (op : Nat) : State := st (dirCfg ++ dirCmd (dirEntry op []))
def moorAbsentState : State :=
  absent 5
/-- Meets the hypotheses of DirectoryRecordChanges. -/
theorem test_moorAbsent :
    (Claim.SdirAbsent moorAbsentState 4096 5 (dirEntry 5 [])) ∧
    (Claim.sdirTable (Instr.moor 4096) = some (4096, 5, [2])) :=
  ⟨sdir_absent _ _ _ _ (by decide +kernel),
   by decide +kernel⟩

end Directory

namespace Moves

def recSt (op : Nat) (es : List (Nat × Nat)) (ctl : List (Nat × Nat)) : State := st (dirCfg ++ dirCmd (dirEntry op es) ++ dirRec [] ctl)
def rec0 (s : State) : List Byte := s.recBytes 0
/-- A chart of one device at 0x40000, this one, in crew 0, whose island 0 is a LAYER island of granule 0. -/
def crewOne : List Act := [.set F.CHART_BASE_ADDR 0x40000, .one (.mem 0x40010 (leBytes 4 1)),
  .look fun s => .one (.mem 0x40080 (setAll (List.replicate 64 0) ((((List.range 16).map fun k => (k, 1, s.ownAddr / 2 ^ (8 * (15 - k)) % 256))) ++ [(0x12, 2, 1), (0x14, 4, 2), (0x19, 7, 0x01010101010101)])))]
/-- As recSt, on a device of crew 0, with these further. -/
def crewSt (op : Nat) (es : List (Nat × Nat)) (ctl : List (Nat × Nat)) (as : List Act := []) : State := st (dirCfg ++ crewOne ++ as ++ dirCmd (dirEntry op es) ++ dirRec [] ctl)
/-- Tenant 0 may hold no moored bytes. -/
def noMoor : List Act := [.one (.mem (0x20000 + 0x18) (leBytes 8 0))]
def moorState : State :=
  crewSt 5 [] [(0,2)]
/-- Meets the hypotheses of DirectoryMovesStart. -/
theorem test_moor :
    (Claim.SdirStill moorState 4096 5 (dirEntry 5 []) 0 (rec0 (crewSt 5 [] [(0, 2)]))) ∧
    (rState (rec0 (crewSt 5 [] [(0, 2)])) = 2) ∧
    (rPinned (rec0 (crewSt 5 [] [(0, 2)])) = false) ∧
    (moorState.moorFull (tenantOf (dSession (dirEntry 5 []))) (mibOf (moorState.worstBytes (rec0 (crewSt 5 [] [(0, 2)])))) = false) :=
  ⟨sdir_still _ _ _ _ _ (by decide +kernel),
   by decide +kernel⟩

def moorDivertedState : State :=
  crewSt 5 [] [(0,2)] noMoor
/-- Meets the hypotheses of DirectoryMovesStart. -/
theorem test_moorDiverted :
    (Claim.SdirStill moorDivertedState 4096 5 (dirEntry 5 []) 0 (rec0 (crewSt 5 [] [(0, 2)] noMoor))) ∧
    (rState (rec0 (crewSt 5 [] [(0, 2)] noMoor)) = 2) ∧
    (rPinned (rec0 (crewSt 5 [] [(0, 2)] noMoor)) = false) ∧
    (moorDivertedState.moorFull (tenantOf (dSession (dirEntry 5 []))) (mibOf (moorDivertedState.worstBytes (rec0 (crewSt 5 [] [(0, 2)] noMoor)))) = true) ∧
    (moorDivertedState.layupFull (tenantOf (dSession (dirEntry 5 []))) (mbOf (moorDivertedState.worstBytes (rec0 (crewSt 5 [] [(0, 2)] noMoor)))) = false) :=
  ⟨sdir_still _ _ _ _ _ (by decide +kernel),
   by decide +kernel⟩

def layUpState : State :=
  crewSt 6 [] [(0,2)]
/-- Meets the hypotheses of DirectoryMovesStart. -/
theorem test_layUp :
    (Claim.SdirStill layUpState 4096 6 (dirEntry 6 []) 0 (rec0 (crewSt 6 [] [(0, 2)]))) ∧
    (rState (rec0 (crewSt 6 [] [(0, 2)])) = 2 ∨ rState (rec0 (crewSt 6 [] [(0, 2)])) = 3) ∧
    (layUpState.layupFull (tenantOf (dSession (dirEntry 6 []))) (mbOf (layUpState.worstBytes (rec0 (crewSt 6 [] [(0, 2)])))) = false) :=
  ⟨sdir_still _ _ _ _ _ (by decide +kernel),
   by decide +kernel⟩

def reviveState : State :=
  recSt 7 [] [(0,3), (32, 3)]
/-- Meets the hypotheses of DirectoryMovesStart. -/
theorem test_revive :
    (Claim.SdirStill reviveState 4096 7 (dirEntry 7 []) 0 (rec0 (recSt 7 [] [(0, 3), (32, 3)]))) ∧
    (rState (rec0 (recSt 7 [] [(0, 3), (32, 3)])) = 3 ∨ rState (rec0 (recSt 7 [] [(0, 3), (32, 3)])) = 4) ∧
    (reviveState.enabled (tenantOf (dSession (dirEntry 7 []))) = true) ∧
    (rProfile (rec0 (recSt 7 [] [(0, 3), (32, 3)])) = reviveState.get F.CFG_AP_STATUS_ACTIVE) :=
  ⟨sdir_still _ _ _ _ _ (by decide +kernel),
   by decide +kernel⟩

def reberthState : State :=
  crewSt 8 [(182, 1)] [(0,2)]
/-- Meets the hypotheses of DirectoryMovesStart. -/
theorem test_reberth :
    (Claim.SdirStill reberthState 4096 8 (dirEntry 8 [(182, 1)]) 0 (rec0 (crewSt 8 [(182, 1)] [(0, 2)]))) ∧
    (rState (rec0 (crewSt 8 [(182, 1)] [(0, 2)])) = 2) ∧
    (rClass (rec0 (crewSt 8 [(182, 1)] [(0, 2)])) < dClass (dirEntry 8 [(182, 1)])) ∧
    (reberthState.berthQuotaFull (tenantOf (dSession (dirEntry 8 [(182, 1)]))) (dClass (dirEntry 8 [(182, 1)])) = false) ∧
    (reberthState.freeBerth (dClass (dirEntry 8 [(182, 1)])) = some 0) :=
  ⟨sdir_still _ _ _ _ _ (by decide +kernel),
   by decide +kernel⟩

def sealSessionState : State :=
  crewSt 0xC [] [(0,2)]
/-- Meets the hypotheses of DirectoryMovesStart. -/
theorem test_sealSession :
    (Claim.SdirStill sealSessionState 4096 12 (dirEntry 12 []) 0 (rec0 (crewSt 12 [] [(0, 2)]))) ∧
    (rState (rec0 (crewSt 12 [] [(0, 2)])) = 2 ∨ rState (rec0 (crewSt 12 [] [(0, 2)])) = 3 ∨ rState (rec0 (crewSt 12 [] [(0, 2)])) = 4) ∧
    (sealSessionState.entropyOk = true) :=
  ⟨sdir_still _ _ _ _ _ (by decide +kernel),
   by decide +kernel⟩

def fault7 : State := st (dirCfg ++ crewOne ++ dirCmd (dirEntry 0x11 []) ++ dirRec [] [(0, 7)] ++ [.set F.CKPT_COMMITTED_NEWEST 6])
def oldRec : List Byte := setAll (List.replicate 256 0) [(0, 8, 5), (8, 8, word [(0, 2), (32, 3)])]
/-- Meets the hypotheses of DirectoryMovesStart. -/
theorem test_restore :
    (Claim.SdirStill fault7 4096 17 (dirEntry 17 []) 0 (rec0 fault7)) ∧
    (rState (rec0 fault7) = 7) ∧
    ((fault7.commonCommit (List.map (fun (x : BitVec 48) => x.toNat) [6])).isSome = true) ∧
    (oldRec ≠ []) ∧
    (rId (padTo 256 oldRec) = dSession (dirEntry 17 [])) ∧
    (rState (padTo 256 oldRec) ≠ 0) ∧
    (rState (padTo 256 oldRec) ≠ 6) ∧
    (rState (padTo 256 oldRec) = 3 ∨ rState (padTo 256 oldRec) = 4 → SMap.get (fun (_ : ℕ) => 0) fault7.sdir.gens (locSlot (if rState (padTo 256 oldRec) = 3 ∨ rState (padTo 256 oldRec) = 4 then rLower (padTo 256 oldRec) else 0)) ≤ locGen (if rState (padTo 256 oldRec) = 3 ∨ rState (padTo 256 oldRec) = 4 then rLower (padTo 256 oldRec) else 0)) ∧
    (rProfile (padTo 256 oldRec) = fault7.get F.CFG_AP_STATUS_ACTIVE) ∧
    (fault7.berthQuotaFull (tenantOf (dSession (dirEntry 17 []))) (rClass (padTo 256 oldRec)) = false) ∧
    (fault7.lockRoom 0 = true) ∧
    (fault7.freeBerth (rClass (padTo 256 oldRec)) = some 0) :=
  ⟨sdir_still _ _ _ _ _ (by decide +kernel),
   by decide +kernel⟩

def revival0 : Revival := ⟨5, 0, 1, 0, 9⟩
def queued : State := st (dirCfg ++ dirRec [] [(0, 3)] ++ [.set F.SAIL_STATUS_PHASE 0, .set F.SDIR_REVIVE_REVIVE_BUDGET 1, .modSdir fun x => { x with revivals := [revival0], revived := (1, 0) }])
/-- Meets the hypotheses of DirectoryMovesGoOn. -/
theorem test_revivalStart :
    (queued.Live) ∧
    (queued.Calm) ∧
    (queued.hasHome = true) ∧
    (queued.recCount ≠ 0) ∧
    (queued.get F.SAIL_STATUS_PHASE = 0) ∧
    (queued.ckState ≠ 1) ∧
    (queued.sdir.revivals = [revival0]) ∧
    (revival0.cls < 4) ∧
    (queued.sdir.revived.1 ≠ queued.now) ∧
    (queued.get F.SDIR_REVIVE_REVIVE_BUDGET ≠ 0) ∧
    (queued.findSession revival0.session = some 0) ∧
    (queued.recOk 0 = true) ∧
    (rState (queued.recBytes 0) = 3 ∨ rState (queued.recBytes 0) = 4 ∨ rState (queued.recBytes 0) = 6) ∧
    (rMotion (queued.recBytes 0) = 0) ∧
    (queued.berthQuotaFull (tenantOf revival0.session) revival0.cls = false) ∧
    (queued.lockRoom 0 = true) ∧
    (queued.freeBerth revival0.cls = some 0) :=
  ⟨st_live _ (by decide +kernel) (by decide +kernel),
   st_calm _ (by decide +kernel),
   by decide +kernel⟩

def move3 (m : Nat) (ws : List Nat) : Move := ⟨m, 5, 0, 0, 0, 0, 0, 0, 0, some 9, 0, 0, 0, ws, [], false, 0, []⟩
def moving (m : Nat) (ws : List Nat) : State := st (dirCfg ++ dirRec [] [(0, 3), (20, 3)] ++ [.set F.SDIR_WAIT_REVIVE_DEADLINE 0, .modSdir fun x => { x with moves := [move3 m ws] }])
def reviveDeadlineExpireState : State :=
  moving 3 []
/-- Meets the hypotheses of DirectoryMovesGoOn. -/
theorem test_reviveDeadlineExpire :
    (reviveDeadlineExpireState.Live) ∧
    (reviveDeadlineExpireState.Calm) ∧
    (reviveDeadlineExpireState.hasHome = true) ∧
    (reviveDeadlineExpireState.recCount ≠ 0) ∧
    (reviveDeadlineExpireState.moveOf 5 = some (move3 3 [])) ∧
    ((move3 3 []).motion = 3) ∧
    ((move3 3 []).started + reviveDeadlineExpireState.get F.SDIR_WAIT_REVIVE_DEADLINE ≤ reviveDeadlineExpireState.now) :=
  ⟨st_live _ (by decide +kernel) (by decide +kernel),
   st_calm _ (by decide +kernel),
   by decide +kernel⟩

def shareReportState : State :=
  moving 1 [1, 2]
/-- Meets the hypotheses of DirectoryMovesGoOn. -/
theorem test_shareReport :
    (shareReportState.Live) ∧
    (shareReportState.Calm) ∧
    (shareReportState.hasHome = true) ∧
    (shareReportState.recCount ≠ 0) ∧
    (shareReportState.moveOf 5 = some (move3 1 [1, 2])) ∧
    (1 ∈ (move3 1 [1, 2]).waiting) ∧
    ((move3 1 [1, 2]).waiting.erase 1 ≠ []) :=
  ⟨st_live _ (by decide +kernel) (by decide +kernel),
   st_calm _ (by decide +kernel),
   by decide +kernel⟩

end Moves

namespace Crossings

def recSt (op : Nat) (es : List (Nat × Nat)) (ctl : List (Nat × Nat)) : State := st (dirCfg ++ dirCmd (dirEntry op es) ++ dirRec [] ctl)
def rec0 (s : State) : List Byte := s.recBytes 0
/-- A chart of one device at 0x40000, this one, in crew 0, whose island 0 is a LAYER island of granule 0. -/
def crewOne : List Act := [.set F.CHART_BASE_ADDR 0x40000, .one (.mem 0x40010 (leBytes 4 1)),
  .look fun s => .one (.mem 0x40080 (setAll (List.replicate 64 0) ((((List.range 16).map fun k => (k, 1, s.ownAddr / 2 ^ (8 * (15 - k)) % 256))) ++ [(0x12, 2, 1), (0x14, 4, 2), (0x19, 7, 0x01010101010101)])))]
def crossing1 (source : Bool) (step : Nat) : Crossing := { session := 5, op := 1, peer := 77, source := source, step := step, since := 0, digest := [], begin_ := [], berth := 0 }
def absent (op : Nat) (as : List Act) : State := st (dirCfg ++ dirCmd (dirEntry op []) ++ as)
def unsealBundleState : State :=
  absent 0xD []
/-- Meets the hypotheses of DirectoryCrossings. -/
theorem test_unsealBundle :
    (Claim.SdirAbsent unsealBundleState 4096 13 (dirEntry 13 [])) :=
  sdir_absent _ _ _ _ (by decide +kernel)

def leaving : State := st (dirCfg ++ crewOne ++ dirCmd (dirEntry 0xE [(64, 77)]) ++ dirRec [] [(0, 2)])
/-- Meets the hypotheses of DirectoryCrossings. -/
theorem test_crossOut :
    (Claim.SdirStill leaving 4096 14 (dirEntry 14 [(64, 77)]) 0 (rec0 leaving)) ∧
    (leaving.entropyOk = true) ∧
    (rState (rec0 leaving) = 1 ∨ rState (rec0 leaving) = 2) ∧
    (leaving.crewShares ≠ []) :=
  ⟨sdir_still _ _ _ _ _ (by decide +kernel),
   by decide +kernel⟩

def mooredLeaves : State := st (dirCfg ++ crewOne ++ dirCmd (dirEntry 0xE [(64, 77)]) ++ dirRec [] [(0, 3)])
/-- Meets the hypotheses of DirectoryCrossings. -/
theorem test_crossOutMoored :
    (Claim.SdirStill mooredLeaves 4096 14 (dirEntry 14 [(64, 77)]) 0 (rec0 mooredLeaves)) ∧
    (mooredLeaves.entropyOk = true) ∧
    (rState (rec0 mooredLeaves) = 3 ∨ rState (rec0 mooredLeaves) = 4) ∧
    (mooredLeaves.crossing (dSession (dirEntry 14 [(64, 77)])) = none) :=
  ⟨sdir_still _ _ _ _ _ (by decide +kernel),
   by decide +kernel⟩

def crossOutFaultedState : State :=
  recSt 0xE [] [(0, 7)]
/-- Meets the hypotheses of DirectoryCrossings. -/
theorem test_crossOutFaulted :
    (Claim.SdirStill crossOutFaultedState 4096 14 (dirEntry 14 []) 0 (rec0 (recSt 14 [] [(0, 7)]))) ∧
    (crossOutFaultedState.entropyOk = true) ∧
    (rState (rec0 (recSt 14 [] [(0, 7)])) = 0 ∨ 5 ≤ rState (rec0 (recSt 14 [] [(0, 7)]))) :=
  ⟨sdir_still _ _ _ _ _ (by decide +kernel),
   by decide +kernel⟩

def offer5 : Crossing := { session := 5, op := 1, peer := 77, source := false, step := 1, since := 0, digest := [], begin_ := setAll (List.replicate 320 0) [(0, 8, 5), (8, 8, word [(0, 5), (8, 2), (32, 3)])], berth := 0 }
def offered : State := absent 0xF [.modMct fun m => { m with offers := [offer5] }]
def crossInAloneState : State :=
  absent 0xF []
/-- Meets the hypotheses of DirectoryCrossings. -/
theorem test_crossInAlone :
    (Claim.SdirAbsent crossInAloneState 4096 15 (dirEntry 15 [])) ∧
    (List.find? (fun (c : Crossing) => c.session == dSession (dirEntry 15 [])) crossInAloneState.mct.offers = none) :=
  ⟨sdir_absent _ _ _ _ (by decide +kernel),
   by decide +kernel⟩

/-- Meets the hypotheses of DirectoryCrossings. -/
theorem test_crossIn :
    (Claim.SdirAbsent offered 4096 15 (dirEntry 15 [])) ∧
    (List.find? (fun (c : Crossing) => c.session == dSession (dirEntry 15 [])) offered.mct.offers = some offer5) :=
  ⟨sdir_absent _ _ _ _ (by decide +kernel),
   by decide +kernel⟩

def arrived (es ctl : List (Nat × Nat)) (c : Crossing) : State := st (dirCfg ++ crewOne ++ dirCmd (dirEntry 0x10 es) ++ dirRec [] ctl ++ [.modMct fun m => { m with crossings := [c] }])
def crossDoneBackState : State :=
  arrived [(128, 1)] [(0, 5), (8, 2)] (crossing1 true 6)
/-- Meets the hypotheses of DirectoryCrossings. -/
theorem test_crossDoneBack :
    (Claim.SdirHeld crossDoneBackState 4096 16 (dirEntry 16 [(128, 1)]) 0 (rec0 (arrived [(128, 1)] [(0, 5), (8, 2)] (crossing1 true 6)))) ∧
    (crossDoneBackState.crossing (dSession (dirEntry 16 [(128, 1)])) = some (crossing1 true 6)) ∧
    (rState (rec0 (arrived [(128, 1)] [(0, 5), (8, 2)] (crossing1 true 6))) = 5) ∧
    (bit (dArg48 (dirEntry 16 [(128, 1)])) 0 = true) ∧
    ((crossing1 true 6).source = true) ∧
    ((crossing1 true 6).step = 6) :=
  ⟨sdir_held _ _ _ _ _ (by decide +kernel),
   by decide +kernel⟩

def crossDoneState : State :=
  arrived [] [(0, 5), (8, 2)] (crossing1 true 5)
/-- Meets the hypotheses of DirectoryCrossings. -/
theorem test_crossDone :
    (Claim.SdirHeld crossDoneState 4096 16 (dirEntry 16 []) 0 (rec0 (arrived [] [(0, 5), (8, 2)] (crossing1 true 5)))) ∧
    (crossDoneState.crossing (dSession (dirEntry 16 [])) = some (crossing1 true 5)) ∧
    (rState (rec0 (arrived [] [(0, 5), (8, 2)] (crossing1 true 5))) = 5) ∧
    (bit (dArg48 (dirEntry 16 [])) 0 = false) ∧
    ((crossing1 true 5).source = true) ∧
    ((crossing1 true 5).step = 4 ∨ (crossing1 true 5).step = 5) :=
  ⟨sdir_held _ _ _ _ _ (by decide +kernel),
   by decide +kernel⟩

def crossDoneEarlyState : State :=
  arrived [] [(0, 5), (8, 2)] (crossing1 false 3)
/-- Meets the hypotheses of DirectoryCrossings. -/
theorem test_crossDoneEarly :
    (Claim.SdirHeld crossDoneEarlyState 4096 16 (dirEntry 16 []) 0 (rec0 (arrived [] [(0, 5), (8, 2)] (crossing1 false 3)))) ∧
    (crossDoneEarlyState.crossing (dSession (dirEntry 16 [])) = some (crossing1 false 3)) ∧
    (rState (rec0 (arrived [] [(0, 5), (8, 2)] (crossing1 false 3))) = 5) ∧
    (bit (dArg48 (dirEntry 16 [])) 0 = true ∧ (crossing1 false 3).source = true ∧ ((crossing1 false 3).step = 4 ∨ (crossing1 false 3).step = 5) ∨ (crossing1 false 3).source = false ∧ (crossing1 false 3).step < 5) :=
  ⟨sdir_held _ _ _ _ _ (by decide +kernel),
   by decide +kernel⟩

def releaseState : State :=
  recSt 0x12 [] [(0,2)]
/-- Meets the hypotheses of DirectoryCrossings. -/
theorem test_release :
    (Claim.SdirStill releaseState 4096 18 (dirEntry 18 []) 0 (rec0 (recSt 18 [] [(0, 2)]))) ∧
    (rState (rec0 (recSt 18 [] [(0, 2)])) ≠ 0) ∧
    (rState (rec0 (recSt 18 [] [(0, 2)])) ≠ 5) ∧
    ((releaseState.sdir.merged.all fun (m : ℕ × ℕ) => m.1 != dSession (dirEntry 18 [])) = true) :=
  ⟨sdir_still _ _ _ _ _ (by decide +kernel),
   by decide +kernel⟩

end Crossings

namespace Admits

def admit0 : State := st (dirCfg ++ dirCmd (dirEntry 2 []))
def ix0 : Nat := (admit0.freeIndex 5).getD 0
def wait0 : SdirWait := ⟨BitVec.ofNat 256 (dirEntry 2 []), 0, [], 0⟩
def admit1 : State := st (dirCfg ++ [.modSdir fun x => { x with waits := [wait0] }, .set F.SDIR_WAIT_ADMIT_WAIT 0])
/-- No berth of class 0 is free. -/
def fullCfg : List Act := [.modSdir fun x => { x with berthUse := x.berthUse.put (fun _ => 0) (berthKey 0 0) 9 }]
/-- Meets the hypotheses of DirectoryAdmits. -/
theorem test_admit :
    (admit0.Live) ∧
    (admit0.Calm) ∧
    (Claim.SdirAbsent admit0 4096 2 (dirEntry 2 [])) ∧
    (Claim.Admits admit0 (dirEntry 2 []) ix0 0 0 0) ∧
    (admit0.entropyOk = true) :=
  ⟨st_live _ (by decide +kernel) (by decide +kernel),
   st_calm _ (by decide +kernel),
   sdir_absent _ _ _ _ (by decide +kernel),
   admits_of _ _ _ _ _ _ (by decide +kernel),
   by decide +kernel⟩

def admitWaitsState : State :=
  st (dirCfg ++ fullCfg ++ dirCmd (dirEntry 2 []))
/-- Meets the hypotheses of DirectoryAdmits. -/
theorem test_admitWaits :
    (admitWaitsState.Live) ∧
    (admitWaitsState.Calm) ∧
    (Claim.SdirAbsent admitWaitsState 4096 2 (dirEntry 2 [])) ∧
    (admitWaitsState.entropyOk = true) ∧
    (dClass (dirEntry 2 []) ≤ dMaxClass (dirEntry 2 [])) ∧
    (admitWaitsState.enabled (tenantOf (dSession (dirEntry 2 []))) = true) ∧
    (admitWaitsState.recordsFull (tenantOf (dSession (dirEntry 2 []))) = false) ∧
    (admitWaitsState.freeIndex (dSession (dirEntry 2 [])) = some ix0) ∧
    (admitWaitsState.freeRec = some 0) ∧
    (admitWaitsState.classFor (tenantOf (dSession (dirEntry 2 []))) 0 (dClass (dirEntry 2 [])) (dMaxClass (dirEntry 2 [])) = none) :=
  ⟨st_live _ (by decide +kernel) (by decide +kernel),
   st_calm _ (by decide +kernel),
   sdir_absent _ _ _ _ (by decide +kernel),
   by decide +kernel⟩

def admitRefusedState : State :=
  st (dirCfg ++ dirCmd (dirEntry 2 [(182, 1)]))
/-- Meets the hypotheses of DirectoryAdmits. -/
theorem test_admitRefused :
    (admitRefusedState.Live) ∧
    (admitRefusedState.Calm) ∧
    (Claim.SdirAbsent admitRefusedState 4096 2 (dirEntry 2 [(182, 1)])) ∧
    (admitRefusedState.entropyOk = true) ∧
    (16 = if dMaxClass (dirEntry 2 [(182, 1)]) < dClass (dirEntry 2 [(182, 1)]) then 16 else if admitRefusedState.enabled (tenantOf (dSession (dirEntry 2 [(182, 1)]))) = false then 10 else if admitRefusedState.recordsFull (tenantOf (dSession (dirEntry 2 [(182, 1)]))) = true then 3 else if admitRefusedState.freeIndex (dSession (dirEntry 2 [(182, 1)])) = none ∨ admitRefusedState.freeRec = none then 6 else 0) ∧
    (16 ≠ 0) :=
  ⟨st_live _ (by decide +kernel) (by decide +kernel),
   st_calm _ (by decide +kernel),
   sdir_absent _ _ _ _ (by decide +kernel),
   by decide +kernel⟩

/-- Meets the hypotheses of DirectoryAdmits. -/
theorem test_admitResume :
    (admit1.Live) ∧
    (admit1.Calm) ∧
    (Claim.Admits admit1 wait0.entry.toNat ix0 0 0 0) ∧
    (List.find? (fun (w : SdirWait) => dSession w.entry.toNat == 5) admit1.sdir.waits = some wait0) ∧
    (dOp wait0.entry.toNat = 2) ∧
    (admit1.ckState ≠ 1) ∧
    (admit1.entropyOk = true) ∧
    (admit1.findSession (dSession wait0.entry.toNat) = none) :=
  ⟨st_live _ (by decide +kernel) (by decide +kernel),
   st_calm _ (by decide +kernel),
   admits_of _ _ _ _ _ _ (by decide +kernel),
   by decide +kernel⟩

/-- Meets the hypotheses of DirectoryAdmits. -/
theorem test_admitExpire :
    (admit1.Live) ∧
    (admit1.Calm) ∧
    (List.find? (fun (w : SdirWait) => dSession w.entry.toNat == 5) admit1.sdir.waits = some wait0) ∧
    (dOp wait0.entry.toNat ≠ 15) ∧
    (wait0.since + admit1.get F.SDIR_WAIT_ADMIT_WAIT ≤ admit1.now) :=
  ⟨st_live _ (by decide +kernel) (by decide +kernel),
   st_calm _ (by decide +kernel),
   by decide +kernel⟩

end Admits

namespace Berths

def bopen0 (op : Nat) (fs : List (Nat × Nat)) : State := st (berthCfg ++ berthCmd (berthEntry op fs))
/-- A header with nothing in it, with 128 positions, with those in HISTORY too, with an open tag, with 256 positions and 128 in HISTORY. -/
def hd0 : Nat × List (Nat × Nat × Nat) := (2579051322, [])
def hd128 : Nat × List (Nat × Nat × Nat) := (2192663384, [(0x10, 8, 128), (0x40, 8, 128)])
def hdSaved : Nat × List (Nat × Nat × Nat) := (1090206697, [(0x10, 8, 128), (0x40, 8, 128), (0x18, 8, 128)])
def hdSpec : Nat × List (Nat × Nat × Nat) := (402836185, [(0x2A, 1, 1)])
def hd256 : Nat × List (Nat × Nat × Nat) := (1843645263, [(0x10, 8, 256), (0x40, 8, 256), (0x18, 8, 128)])
def bheld (op : Nat) (fs : List (Nat × Nat)) (h : Nat × List (Nat × Nat × Nat)) : State := st (berthCfg ++ berthOpenAct h.1 h.2 ++ berthCmd (berthEntry op fs))
def k0 (s : State) : Nat := match s.place (s.berthBase 0 0) with | .hbm k => k | _ => 0
def berthOpenState : State :=
  bopen0 1 []
/-- Meets the hypotheses of BerthsAreOpened. -/
theorem test_berthOpen :
    (Claim.BerthRuns berthOpenState 4096 1 (berthEntry 1 [])) ∧
    (Claim.BerthFits berthOpenState (berthEntry 1 []) (k0 (bopen0 1 []))) ∧
    (bLayer (berthEntry 1 []) < (berthOpenState.shape (bClass (berthEntry 1 []))).layers) ∧
    (berthOpenState.berthWithdrawn (bClass (berthEntry 1 [])) (bNumber (berthEntry 1 [])) = false) ∧
    (berthOpenState.headerOk (bClass (berthEntry 1 [])) (bNumber (berthEntry 1 [])) = true) ∧
    (hOpen (berthOpenState.header (bClass (berthEntry 1 [])) (bNumber (berthEntry 1 []))) = false) :=
  ⟨berth_runs _ _ _ _ (by decide +kernel),
   ⟨by decide +kernel, by decide +kernel, by decide +kernel⟩,
   by decide +kernel⟩

def berthCloseState : State :=
  bheld 2 [] hd0
/-- Meets the hypotheses of BerthsAreOpened. -/
theorem test_berthClose :
    (Claim.BerthHeld berthCloseState 4096 2 (berthEntry 2 []) (k0 (bopen0 1 [])) ((bheld 2 [] hd0).header 0 0)) ∧
    (hSpecOpen ((bheld 2 [] hd0).header 0 0) = false) :=
  ⟨berth_held _ _ _ _ _ (by decide +kernel),
   by decide +kernel⟩

def berthCloseSpecState : State :=
  bheld 2 [] hdSpec
/-- Meets the hypotheses of BerthsAreOpened. -/
theorem test_berthCloseSpec :
    (Claim.BerthHeld berthCloseSpecState 4096 2 (berthEntry 2 []) (k0 (bopen0 1 [])) ((bheld 2 [] hdSpec).header 0 0)) ∧
    (hSpecOpen ((bheld 2 [] hdSpec).header 0 0) = true) :=
  ⟨berth_held _ _ _ _ _ (by decide +kernel),
   by decide +kernel⟩

def lone (op : Nat) (fs : List (Nat × Nat)) : State := st (berthCfg ++ [.set F.CHART_ISLAND_ROLE 1] ++ berthCmd (berthEntry op fs))
def berthNoPoolState : State :=
  lone 3 []
/-- Meets the hypotheses of BerthsRefuse. -/
theorem test_berthNoPool :
    (Claim.BerthTaken berthNoPoolState 4096 3 (berthEntry 3 [])) ∧
    (Claim.berthTable (Instr.append 4096) = some (4096, 3)) ∧
    (berthNoPoolState.hasLayer = false) :=
  ⟨berth_taken _ _ _ _ (by decide +kernel),
   by decide +kernel⟩

def berthReservedState : State :=
  bopen0 3 [(156, 1)]
/-- Meets the hypotheses of BerthsRefuse. -/
theorem test_berthReserved :
    (Claim.BerthRuns berthReservedState 4096 3 (berthEntry 3 [(156, 1)])) ∧
    (Claim.berthTable (Instr.append 4096) = some (4096, 3)) ∧
    (bit (berthEntry 3 [(156, 1)]).toNat 156 = true ∨ bits (berthEntry 3 [(156, 1)]).toNat 71 64 ≠ 0) :=
  ⟨berth_runs _ _ _ _ (by decide +kernel),
   by decide +kernel⟩

def berthNumberState : State :=
  bopen0 3 [(162, 1)]
/-- Meets the hypotheses of BerthsRefuse. -/
theorem test_berthNumber :
    (Claim.BerthRuns berthNumberState 4096 3 (berthEntry 3 [(162, 1)])) ∧
    (Claim.berthTable (Instr.append 4096) = some (4096, 3)) ∧
    (bit (berthEntry 3 [(162, 1)]).toNat 156 = false) ∧
    (bits (berthEntry 3 [(162, 1)]).toNat 71 64 = 0) ∧
    (berthNumberState.get F.BERTH_CLASS_COUNT (bClass (berthEntry 3 [(162, 1)])) ≤ bNumber (berthEntry 3 [(162, 1)])) :=
  ⟨berth_runs _ _ _ _ (by decide +kernel),
   by decide +kernel⟩

def berthOpenLayerState : State :=
  bopen0 1 [(157, 1)]
/-- Meets the hypotheses of BerthsRefuse. -/
theorem test_berthOpenLayer :
    (Claim.BerthRuns berthOpenLayerState 4096 1 (berthEntry 1 [(157, 1)])) ∧
    (Claim.BerthFits berthOpenLayerState (berthEntry 1 [(157, 1)]) (k0 (bopen0 1 []))) ∧
    (Claim.berthTable (Instr.berthOpen 4096) = some (4096, 1)) ∧
    (1 = 1) ∧
    ((berthOpenLayerState.shape (bClass (berthEntry 1 [(157, 1)]))).layers ≤ bLayer (berthEntry 1 [(157, 1)])) :=
  ⟨berth_runs _ _ _ _ (by decide +kernel),
   ⟨by decide +kernel, by decide +kernel, by decide +kernel⟩,
   by decide +kernel⟩

def gone : State := st (berthCfg ++ [.modBerth fun x => { x with withdrawn := x.withdrawn.put (fun _ => false) 0 true }] ++ berthCmd (berthEntry 1 []))
/-- Meets the hypotheses of BerthsRefuse. -/
theorem test_berthOpenGone :
    (Claim.BerthRuns gone 4096 1 (berthEntry 1 [])) ∧
    (Claim.BerthFits gone (berthEntry 1 []) (k0 (bopen0 1 []))) ∧
    (Claim.berthTable (Instr.berthOpen 4096) = some (4096, 1)) ∧
    (1 = 1) ∧
    (bLayer (berthEntry 1 []) < (gone.shape (bClass (berthEntry 1 []))).layers) ∧
    (gone.berthWithdrawn (bClass (berthEntry 1 [])) (bNumber (berthEntry 1 [])) = true) :=
  ⟨berth_runs _ _ _ _ (by decide +kernel),
   ⟨by decide +kernel, by decide +kernel, by decide +kernel⟩,
   by decide +kernel⟩

def berthOpenTwiceState : State :=
  bheld 1 [] hd0
/-- Meets the hypotheses of BerthsRefuse. -/
theorem test_berthOpenTwice :
    (Claim.BerthRuns berthOpenTwiceState 4096 1 (berthEntry 1 [])) ∧
    (Claim.BerthFits berthOpenTwiceState (berthEntry 1 []) (k0 (bopen0 1 []))) ∧
    (berthOpenTwiceState.headerOk (bClass (berthEntry 1 [])) (bNumber (berthEntry 1 [])) = true) ∧
    (Claim.berthTable (Instr.berthOpen 4096) = some (4096, 1)) ∧
    (1 = 1) ∧
    (bLayer (berthEntry 1 []) < (berthOpenTwiceState.shape (bClass (berthEntry 1 []))).layers) ∧
    (berthOpenTwiceState.berthWithdrawn (bClass (berthEntry 1 [])) (bNumber (berthEntry 1 [])) = false) ∧
    (hOpen (berthOpenTwiceState.header (bClass (berthEntry 1 [])) (bNumber (berthEntry 1 []))) = true) :=
  ⟨berth_runs _ _ _ _ (by decide +kernel),
   ⟨by decide +kernel, by decide +kernel, by decide +kernel⟩,
   header_ok _ _ _ (by decide +kernel),
   by decide +kernel⟩

def berthClosedState : State :=
  bopen0 3 []
/-- Meets the hypotheses of BerthsRefuse. -/
theorem test_berthClosed :
    (Claim.BerthRuns berthClosedState 4096 3 (berthEntry 3 [])) ∧
    (Claim.BerthFits berthClosedState (berthEntry 3 []) (k0 (bopen0 1 []))) ∧
    (Claim.berthTable (Instr.append 4096) = some (4096, 3)) ∧
    (berthClosedState.headerOk (bClass (berthEntry 3 [])) (bNumber (berthEntry 3 [])) = true) ∧
    (3 ≠ 1) ∧
    (hOpen (berthClosedState.header (bClass (berthEntry 3 [])) (bNumber (berthEntry 3 []))) = false ∨ hSession (berthClosedState.header (bClass (berthEntry 3 [])) (bNumber (berthEntry 3 []))) ≠ bSession (berthEntry 3 [])) :=
  ⟨berth_runs _ _ _ _ (by decide +kernel),
   ⟨by decide +kernel, by decide +kernel, by decide +kernel⟩,
   by decide +kernel⟩

def berthLayerState : State :=
  bheld 7 [(157, 1)] hd0
/-- Meets the hypotheses of BerthsRefuse. -/
theorem test_berthLayer :
    (Claim.BerthRuns berthLayerState 4096 7 (berthEntry 7 [(157, 1)])) ∧
    (Claim.BerthFits berthLayerState (berthEntry 7 [(157, 1)]) (k0 (bopen0 1 []))) ∧
    (berthLayerState.headerOk (bClass (berthEntry 7 [(157, 1)])) (bNumber (berthEntry 7 [(157, 1)])) = true) ∧
    (Claim.berthTable (Instr.globalLoad 4096) = some (4096, 7)) ∧
    (7 ≠ 1) ∧
    (hOpen (berthLayerState.header (bClass (berthEntry 7 [(157, 1)])) (bNumber (berthEntry 7 [(157, 1)]))) = true) ∧
    (hSession (berthLayerState.header (bClass (berthEntry 7 [(157, 1)])) (bNumber (berthEntry 7 [(157, 1)]))) = bSession (berthEntry 7 [(157, 1)])) ∧
    ((berthLayerState.shape (bClass (berthEntry 7 [(157, 1)]))).layers ≤ bLayer (berthEntry 7 [(157, 1)])) :=
  ⟨berth_runs _ _ _ _ (by decide +kernel),
   ⟨by decide +kernel, by decide +kernel, by decide +kernel⟩,
   header_ok _ _ _ (by decide +kernel),
   by decide +kernel⟩

def berthBadOpState : State :=
  bopen0 9 []
/-- Meets the hypotheses of BerthsRefuse. -/
theorem test_berthBadOp :
    (Claim.BerthRuns berthBadOpState 4096 9 (berthEntry 9 [])) ∧
    (9 = 0 ∨ 8 < 9) :=
  ⟨berth_runs _ _ _ _ (by decide +kernel),
   by decide +kernel⟩

end Berths

namespace Appends

/-- A header with nothing in it, with 128 positions, with those in HISTORY too, with an open tag, with 256 positions and 128 in HISTORY. -/
def hd0 : Nat × List (Nat × Nat × Nat) := (2579051322, [])
def hd128 : Nat × List (Nat × Nat × Nat) := (2192663384, [(0x10, 8, 128), (0x40, 8, 128)])
def hdSaved : Nat × List (Nat × Nat × Nat) := (1090206697, [(0x10, 8, 128), (0x40, 8, 128), (0x18, 8, 128)])
def hdSpec : Nat × List (Nat × Nat × Nat) := (402836185, [(0x2A, 1, 1)])
def hd256 : Nat × List (Nat × Nat × Nat) := (1843645263, [(0x10, 8, 256), (0x40, 8, 256), (0x18, 8, 128)])
def bheld (op : Nat) (fs : List (Nat × Nat)) (h : Nat × List (Nat × Nat × Nat)) : State := st (berthCfg ++ berthOpenAct h.1 h.2 ++ berthCmd (berthEntry op fs))
def hd (s : State) : List Byte := s.header 0 0
def hdS (n : Nat) : State := bheld n [] hd0
def appendState : State :=
  bheld 3 [(96, 1)] hd0
/-- Meets the hypotheses of AppendsAndLaps. -/
theorem test_append :
    (Claim.BerthHeld appendState 4096 3 (berthEntry 3 [(96, 1)]) 1048576 (hd (bheld 3 [(96, 1)] hd0))) :=
  berth_held _ _ _ _ _ (by decide +kernel)

def lapFs : List (Nat × Nat) := [(108, 128), (96, 1)]
def lapSt : State := bheld 3 lapFs hd128
/-- Meets the hypotheses of AppendsAndLaps. -/
theorem test_appendWaits :
    (Claim.BerthHeld lapSt 4096 3 (berthEntry 3 lapFs) 1048576 (hd lapSt)) :=
  berth_held _ _ _ _ _ (by decide +kernel)

def lapOkSt : State := st (berthCfg ++ berthOpenAct hdSaved.1 hdSaved.2 ++ [.modBerth fun x => { x with laps := [⟨0x1000, berthEntry 3 lapFs⟩] }])
/-- Meets the hypotheses of AppendsAndLaps. -/
theorem test_appendLapResume :
    (lapOkSt.Live) ∧
    (lapOkSt.Calm) ∧
    (Claim.BerthBody lapOkSt (berthEntry 3 lapFs) 1048576 (hd lapOkSt)) ∧
    (lapOkSt.ckState ≠ 1) ∧
    (List.find? (fun (j : BerthJob) => bClass j.entry == 0 && bNumber j.entry == 0) lapOkSt.berth.laps = some (BerthJob.mk 4096 (berthEntry 3 lapFs))) ∧
    ((BerthJob.mk 4096 (berthEntry 3 lapFs)).entry = berthEntry 3 lapFs) ∧
    (bOp (berthEntry 3 lapFs) = 3) ∧
    (lapOkSt.berthMoving (bClass (berthEntry 3 lapFs)) (bNumber (berthEntry 3 lapFs)) = false) :=
  ⟨st_live _ (by decide +kernel) (by decide +kernel),
   st_calm _ (by decide +kernel),
   berth_body _ _ _ (by decide +kernel),
   by decide +kernel⟩

def lapStill : State := st (berthCfg ++ berthOpenAct hd128.1 hd128.2 ++ [.modBerth fun x => { x with laps := [⟨0x1000, berthEntry 3 lapFs⟩] }])
def specWriteState : State :=
  bheld 4 [(96, 1)] hd0
/-- Meets the hypotheses of Speculation. -/
theorem test_specWrite :
    (Claim.BerthHeld specWriteState 4096 4 (berthEntry 4 [(96, 1)]) 1048576 (hd (bheld 4 [(96, 1)] hd0))) :=
  berth_held _ _ _ _ _ (by decide +kernel)

def specResolveState : State :=
  bheld 5 [] hdSpec
/-- Meets the hypotheses of Speculation. -/
theorem test_specResolve :
    (Claim.BerthHeld specResolveState 4096 5 (berthEntry 5 []) 1048576 (hd (bheld 5 [] hdSpec))) :=
  berth_held _ _ _ _ _ (by decide +kernel)

def lapSpec : State := st (berthCfg ++ berthOpenAct hdSpec.1 hdSpec.2 ++ [.modBerth fun x => { x with laps := [⟨0x1000, berthEntry 5 []⟩] }])
/-- Meets the hypotheses of Speculation. -/
theorem test_specLapResume :
    (lapSpec.Live) ∧
    (lapSpec.Calm) ∧
    (Claim.BerthBody lapSpec (berthEntry 5 []) 1048576 (hd lapSpec)) ∧
    (lapSpec.ckState ≠ 1) ∧
    (List.find? (fun (j : BerthJob) => bClass j.entry == 0 && bNumber j.entry == 0) lapSpec.berth.laps = some (BerthJob.mk 4096 (berthEntry 5 []))) ∧
    ((BerthJob.mk 4096 (berthEntry 5 [])).entry = berthEntry 5 []) ∧
    (bOp (berthEntry 5 []) = 5) ∧
    (lapSpec.berthMoving (bClass (berthEntry 5 [])) (bNumber (berthEntry 5 [])) = false) :=
  ⟨st_live _ (by decide +kernel) (by decide +kernel),
   st_calm _ (by decide +kernel),
   berth_body _ _ _ (by decide +kernel),
   by decide +kernel⟩

def historySaveState : State :=
  bheld 6 [] hd128
/-- Meets the hypotheses of HistoryCommands. -/
theorem test_historySave :
    (Claim.BerthHeld historySaveState 4096 6 (berthEntry 6 []) 1048576 (hd (bheld 6 [] hd128))) ∧
    (bPos (berthEntry 6 []) = hHistory (hd (bheld 6 [] hd128))) ∧
    (bPos (berthEntry 6 []) + 128 ≤ hCommitted (hd (bheld 6 [] hd128))) :=
  ⟨berth_held _ _ _ _ _ (by decide +kernel),
   by decide +kernel⟩

def globalLoadState : State :=
  bheld 7 [] hd256
/-- Meets the hypotheses of HistoryCommands. -/
theorem test_globalLoad :
    (Claim.BerthHeld globalLoadState 4096 7 (berthEntry 7 []) 1048576 (hd (bheld 7 [] hd256))) :=
  berth_held _ _ _ _ _ (by decide +kernel)

def globalClearState : State :=
  bheld 8 [] hd256
/-- Meets the hypotheses of HistoryCommands. -/
theorem test_globalClear :
    (Claim.BerthHeld globalClearState 4096 8 (berthEntry 8 []) 1048576 (hd (bheld 8 [] hd256))) ∧
    (bSlot (berthEntry 8 []) < (globalClearState.shape (bClass (berthEntry 8 []))).gt) :=
  ⟨berth_held _ _ _ _ _ (by decide +kernel),
   by decide +kernel⟩

end Appends

namespace History

def hd0 : Nat × List (Nat × Nat × Nat) := (2579051322, [])
def hd128 : Nat × List (Nat × Nat × Nat) := (2192663384, [(0x10, 8, 128), (0x40, 8, 128)])
def jobH : BerthJob := ⟨0x1000, berthEntry 6 []⟩
def saving (l : Nat) : State := st (berthCfg ++ [.set F.BERTH_SHAPE_LAYERS l, .modBerth fun x => { x with saves := [jobH] }])
def jobG : BerthJob := ⟨0x1000, berthEntry 7 []⟩
def loading (l : Nat) (r : List Byte) : State := st (berthCfg ++ berthOpenAct hd0.1 hd0.2 ++ [.set F.BERTH_SHAPE_LAYERS l, .modBerth fun x => { x with loads := [jobG] }, .modTier (fun x => { x with history := x.history.put (fun _ => 0) (historyKey 5 0) r.length }), .modFlash (fun x => { x with owners := x.owners.put (fun _ => []) (historyOwner 5 0) [7], staged := x.staged.put (fun _ => []) 7 r })])
def historySaveDoneState : State :=
  saving 0
/-- Meets the hypotheses of HistoryTransfersEnd. -/
theorem test_historySaveDone :
    (historySaveDoneState.Live) ∧
    (historySaveDoneState.Calm) ∧
    (bClass jobH.entry = 0) ∧
    (bNumber jobH.entry = 0) ∧
    (historySaveDoneState.place (historySaveDoneState.berthBase (bClass jobH.entry) (bNumber jobH.entry)) = Place.hbm 1048576) ∧
    (List.find? (fun (j : BerthJob) => bClass j.entry == 0 && bNumber j.entry == 0) historySaveDoneState.berth.saves = some jobH) ∧
    (historySaveDoneState.get F.TIER_RATE_FLASH_WRITE ≠ 0) ∧
    (historySaveDoneState.ckState ≠ 1) ∧
    (historySaveDoneState.headerOk (bClass jobH.entry) (bNumber jobH.entry) = true) ∧
    (((List.map (fun (i : ℕ) => (i, historySaveDoneState.readTile (bClass jobH.entry) (bNumber jobH.entry) i)) (chunkTiles (historySaveDoneState.shape (bClass jobH.entry)) (bPos jobH.entry))).all fun (x : ℕ × Option (List Byte)) => x.2.isSome) = true) ∧
    (historySaveDoneState.flashRoom (ceilDiv (historyBytes (List.map (fun (x : ℕ × Option (List Byte)) => ImageTile.mk x.1 (manifestOf kindTile (x.2.getD [])) (historySaveDoneState.codeTile (historySaveDoneState.get F.TIER_CLASSES_HISTORY_CLASS) (historySaveDoneState.storesBlock (historySaveDoneState.get F.TIER_CLASSES_HISTORY_CLASS) 0) (x.2.getD []))) (List.map (fun (i : ℕ) => (i, historySaveDoneState.readTile (bClass jobH.entry) (bNumber jobH.entry) i)) (chunkTiles (historySaveDoneState.shape (bClass jobH.entry)) (bPos jobH.entry))))).length 16384) = true) :=
  ⟨st_live _ (by decide +kernel) (by decide +kernel),
   st_calm _ (by decide +kernel),
   by decide +kernel⟩

def historySaveWriteState : State :=
  saving 1
/-- Meets the hypotheses of HistoryTransfersEnd. -/
theorem test_historySaveWrite :
    (historySaveWriteState.Live) ∧
    (historySaveWriteState.Calm) ∧
    (bClass jobH.entry = 0) ∧
    (bNumber jobH.entry = 0) ∧
    (historySaveWriteState.place (historySaveWriteState.berthBase (bClass jobH.entry) (bNumber jobH.entry)) = Place.hbm 1048576) ∧
    (List.find? (fun (j : BerthJob) => bClass j.entry == 0 && bNumber j.entry == 0) historySaveWriteState.berth.saves = some jobH) ∧
    (3 = fsLate ∨ historySaveWriteState.get F.TIER_RATE_FLASH_WRITE ≠ 0 ∧ historySaveWriteState.ckState ≠ 1 ∧ (3 = fsWrite ∨ 3 = fsNoSpace)) :=
  ⟨st_live _ (by decide +kernel) (by decide +kernel),
   st_calm _ (by decide +kernel),
   by decide +kernel⟩

def globalLoadDoneState : State :=
  loading 0 [1]
/-- Meets the hypotheses of HistoryTransfersEnd. -/
theorem test_globalLoadDone :
    (globalLoadDoneState.Live) ∧
    (globalLoadDoneState.Calm) ∧
    (globalLoadDoneState.headerOk (bClass jobG.entry) (bNumber jobG.entry) = true) ∧
    (bClass jobG.entry = 0) ∧
    (bNumber jobG.entry = 0) ∧
    (globalLoadDoneState.place (globalLoadDoneState.berthBase (bClass jobG.entry) (bNumber jobG.entry)) = Place.hbm 1048576) ∧
    (List.find? (fun (j : BerthJob) => bClass j.entry == 0 && bNumber j.entry == 0) globalLoadDoneState.berth.loads = some jobG) ∧
    (globalLoadDoneState.get F.TIER_RATE_FLASH_READ ≠ 0) ∧
    (globalLoadDoneState.ckState ≠ 1) ∧
    (globalLoadDoneState.historyPlain (bSession jobG.entry) (bPos jobG.entry) ≠ []) ∧
    (globalLoadDoneState.flashWaits (historyOwner (bSession jobG.entry) (bPos jobG.entry)) 0 (globalLoadDoneState.historyPlain (bSession jobG.entry) (bPos jobG.entry)).length = false) ∧
    (globalLoadDoneState.flashFails (historyOwner (bSession jobG.entry) (bPos jobG.entry)) 0 (globalLoadDoneState.historyPlain (bSession jobG.entry) (bPos jobG.entry)).length = false) ∧
    (((List.map (fun (i : ℕ) => historyTile (globalLoadDoneState.historyPlain (bSession jobG.entry) (bPos jobG.entry)) (chunkTiles (globalLoadDoneState.shape (bClass jobG.entry)) (bPos jobG.entry)).length i) (List.range (chunkTiles (globalLoadDoneState.shape (bClass jobG.entry)) (bPos jobG.entry)).length)).all fun (x : Option (List Byte)) => x.isSome) = true) :=
  ⟨st_live _ (by decide +kernel) (by decide +kernel),
   st_calm _ (by decide +kernel),
   header_ok _ _ _ (by decide +kernel),
   by decide +kernel⟩

def globalLoadLateState : State :=
  loading 1 [1]
/-- Meets the hypotheses of HistoryTransfersEnd. -/
theorem test_globalLoadLate :
    (globalLoadLateState.Live) ∧
    (globalLoadLateState.Calm) ∧
    (bClass jobG.entry = 0) ∧
    (bNumber jobG.entry = 0) ∧
    (globalLoadLateState.place (globalLoadLateState.berthBase (bClass jobG.entry) (bNumber jobG.entry)) = Place.hbm 1048576) ∧
    (List.find? (fun (j : BerthJob) => bClass j.entry == 0 && bNumber j.entry == 0) globalLoadLateState.berth.loads = some jobG) ∧
    (1 = fsLate) :=
  ⟨st_live _ (by decide +kernel) (by decide +kernel),
   st_calm _ (by decide +kernel),
   by decide +kernel⟩

end History

namespace Ferries

def ferryD (fs : List (Nat × Nat)) : BitVec 512 := BitVec.ofNat 512 (word ([(504, 7), (500, 1), (128, 9)] ++ fs))
def ferrySt0 (as : List Act) : State := st ([.set F.FERRY_CLASS_MODE 1 0, .one (.mem 0x1000 (leBytes 64 (ferryD []).toNat))] ++ as)
def ferryDescriptorState : State :=
  ferrySt0 []
/-- Meets the hypotheses of FerryDescriptorQueues. -/
theorem test_ferryDescriptor :
    (ferryDescriptorState.Live) ∧
    (ferryDescriptorState.ckpt.writing = false) ∧
    ((List.filter (fun (x : Xfer) => x.ferry == 0 && x.phase == 0) ferryDescriptorState.tier.xfers).length < 256) ∧
    (ferryDescriptorState.entryAt false (4096 / 64 * 64) 64 = EntryRead.ok (leBytes 64 (ferryD []).toNat)) ∧
    (ferryDescriptorState.flag F.FERRY_STATUS_FAULTED = false) ∧
    (ferryDescriptorState.fReject (BitVec.ofNat 512 (ofLE (leBytes 64 (ferryD []).toNat))) = 0) :=
  ⟨st_live _ (by decide +kernel) (by decide +kernel),
   by decide +kernel⟩

def ferryDescriptorHeldState : State :=
  ferrySt0 [.modCkpt fun c => { c with writing := true }]
/-- Meets the hypotheses of FerryDescriptorQueues. -/
theorem test_ferryDescriptorHeld :
    (ferryDescriptorHeldState.Live) ∧
    (ferryDescriptorHeldState.ckpt.writing = true) :=
  ⟨st_live _ (by decide +kernel) (by decide +kernel),
   by decide +kernel⟩

def ferryDescriptorFaultedState : State :=
  ferrySt0 [.set F.FERRY_STATUS_FAULTED 1 0]
/-- Meets the hypotheses of FerryDescriptorQueues. -/
theorem test_ferryDescriptorFaulted :
    (ferryDescriptorFaultedState.Live) ∧
    (ferryDescriptorFaultedState.ckpt.writing = false) ∧
    ((List.filter (fun (x : Xfer) => x.ferry == 0 && x.phase == 0) ferryDescriptorFaultedState.tier.xfers).length < 256) ∧
    (ferryDescriptorFaultedState.entryAt false (4096 / 64 * 64) 64 = EntryRead.ok (leBytes 64 (ferryD []).toNat)) ∧
    (ferryDescriptorFaultedState.flag F.FERRY_STATUS_FAULTED = true) :=
  ⟨st_live _ (by decide +kernel) (by decide +kernel),
   by decide +kernel⟩

def ferryDescriptorRejectedState : State :=
  st [.one (.mem 0x1000 (leBytes 64 1))]
/-- Meets the hypotheses of FerryDescriptorQueues. -/
theorem test_ferryDescriptorRejected :
    (ferryDescriptorRejectedState.Live) ∧
    (ferryDescriptorRejectedState.ckpt.writing = false) ∧
    ((List.filter (fun (x : Xfer) => x.ferry == 0 && x.phase == 0) ferryDescriptorRejectedState.tier.xfers).length < 256) ∧
    (ferryDescriptorRejectedState.entryAt false (4096 / 64 * 64) 64 = EntryRead.ok (leBytes 64 1)) ∧
    (ferryDescriptorRejectedState.flag F.FERRY_STATUS_FAULTED = false) ∧
    (ferryDescriptorRejectedState.fReject (BitVec.ofNat 512 (ofLE (leBytes 64 1))) ≠ 0) :=
  ⟨st_live _ (by decide +kernel) (by decide +kernel),
   by decide +kernel⟩

def xfer0 (ph : Nat) (fs : List (Nat × Nat)) (tiles : List Nat) : Xfer := { id := 0, ferry := 0, desc := ferryD fs, addr := 0x1000, work := .firmware, phase := ph, tiles := tiles }
def ferryDescriptorFullState : State :=
  ferrySt0 [.modTier fun t => { t with xfers := List.replicate 256 (xfer0 0 [] [0]) }]
/-- Meets the hypotheses of FerryDescriptorQueues. -/
theorem test_ferryDescriptorFull :
    (ferryDescriptorFullState.Live) ∧
    (ferryDescriptorFullState.ckpt.writing = false) ∧
    (256 ≤ (List.filter (fun (x : Xfer) => x.ferry == 0 && x.phase == 0) ferryDescriptorFullState.tier.xfers).length) :=
  ⟨st_live _ (by decide +kernel) (by decide +kernel),
   by decide +kernel⟩

def ferrySt (ph : Nat) (fs : List (Nat × Nat)) (tiles : List Nat) : State := st [.set F.FERRY_CLASS_MODE 1 0, .modTier fun t => { t with xfers := [xfer0 ph fs tiles] }, .set F.SAIL_NUMBER_NUMBER 5]
def xferH : Xfer := { xfer0 0 [] [0] with desc := BitVec.ofNat 512 (word [(504, 2), (500, 1), (128, 9)]) }
def ferryTransferStartState : State :=
  st [.set F.FERRY_CLASS_MODE 1 0, .modTier (fun t => { t with xfers := [xferH] }), .set F.SAIL_NUMBER_NUMBER 5]
/-- Meets the hypotheses of FerryTransfersStartAndExpire. -/
theorem test_ferryTransferStart :
    (ferryTransferStartState.Live) ∧
    (ferryTransferStartState.ckState ≠ 1) ∧
    (ferryTransferStartState.asleep (0 / 4) = false) ∧
    (List.find? (fun (x : Xfer) => x.phase == 1 && ferryTransferStartState.ferryGranted x) (List.filter (fun (x : Xfer) => x.ferry == 0) ferryTransferStartState.tier.xfers) = some xferH ∧ 5 = xferH.since ∨ List.find? (fun (x : Xfer) => x.phase == 1 && ferryTransferStartState.ferryGranted x) (List.filter (fun (x : Xfer) => x.ferry == 0) ferryTransferStartState.tier.xfers) = none ∧ List.find? (fun (x : Xfer) => x.phase == 0) (List.filter (fun (x : Xfer) => x.ferry == 0) ferryTransferStartState.tier.xfers) = some xferH ∧ (List.filter (fun (x : Xfer) => decide (x.phase ≠ 0)) (List.filter (fun (x : Xfer) => x.ferry == 0) ferryTransferStartState.tier.xfers)).length < 64 ∧ fWait xferH.desc = false ∧ 5 = ferryTransferStartState.now) ∧
    (xferH.work = Work.firmware → ferryTransferStartState.winsFit xferH.desc (ferryTransferStartState.captureWins (fSrcSpace xferH.desc) (fSrcAddr xferH.desc)) (ferryTransferStartState.captureWins (fDstSpace xferH.desc) (fDstAddr xferH.desc)) = true ∧ fSrcSpace xferH.desc ≠ 7) :=
  ⟨st_live _ (by decide +kernel) (by decide +kernel),
   by decide +kernel⟩

def ferryStartWaitsState : State :=
  ferrySt 0 [(499, 1)] [0]
/-- Meets the hypotheses of FerryTransfersStartAndExpire. -/
theorem test_ferryStartWaits :
    (ferryStartWaitsState.Live) ∧
    (ferryStartWaitsState.ckState ≠ 1) ∧
    (ferryStartWaitsState.asleep (0 / 4) = false) ∧
    (List.find? (fun (x : Xfer) => x.phase == 1 && ferryStartWaitsState.ferryGranted x) (List.filter (fun (x : Xfer) => x.ferry == 0) ferryStartWaitsState.tier.xfers) = none) ∧
    (List.find? (fun (x : Xfer) => x.phase == 0) (List.filter (fun (x : Xfer) => x.ferry == 0) ferryStartWaitsState.tier.xfers) = some (xfer0 0 [(499, 1)] [0])) ∧
    ((List.filter (fun (x : Xfer) => decide (x.phase ≠ 0)) (List.filter (fun (x : Xfer) => x.ferry == 0) ferryStartWaitsState.tier.xfers)).length < 64) ∧
    (fWait (xfer0 0 [(499, 1)] [0]).desc = true) ∧
    (ferryStartWaitsState.ferryGranted (xfer0 0 [(499, 1)] [0]) = false) ∧
    (ferryStartWaitsState.get F.BOLL_COUNT_COUNT (fWaitBollard (xfer0 0 [(499, 1)] [0]).desc) = 0) :=
  ⟨st_live _ (by decide +kernel) (by decide +kernel),
   by decide +kernel⟩

def ferryLateState : State :=
  ferrySt 2 [(392, 1)] [0]
/-- Meets the hypotheses of FerryTransfersStartAndExpire. -/
theorem test_ferryLate :
    (ferryLateState.Live) ∧
    (ferryLateState.Calm) ∧
    (ferryLateState.xfer 0 0 = some (xfer0 2 [(392, 1)] [0])) ∧
    ((xfer0 2 [(392, 1)] [0]).phase ≠ 0) ∧
    ((if fDeadline (xfer0 2 [(392, 1)] [0]).desc = 0 then ferryLateState.get F.FERRY_CLASS_DEADLINE (fClass (xfer0 2 [(392, 1)] [0]).desc) else fDeadline (xfer0 2 [(392, 1)] [0]).desc) ≠ 0) ∧
    (((xfer0 2 [(392, 1)] [0]).since + if fDeadline (xfer0 2 [(392, 1)] [0]).desc = 0 then ferryLateState.get F.FERRY_CLASS_DEADLINE (fClass (xfer0 2 [(392, 1)] [0]).desc) else fDeadline (xfer0 2 [(392, 1)] [0]).desc) ≤ ferryLateState.now) ∧
    ((xfer0 2 [(392, 1)] [0]).work = Work.firmware) :=
  ⟨st_live _ (by decide +kernel) (by decide +kernel),
   st_calm _ (by decide +kernel),
   by decide +kernel⟩

def tileSt : State := st [.set F.FERRY_CLASS_MODE 1 0, .modTier (fun t => { t with xfers := [xfer0 2 [] [0]] }), .modMct fun m => { m with arrived := [⟨2 ^ 63, 0, padTo 16384 [1]⟩] }]
/-- Meets the hypotheses of FerryTileMoves. -/
theorem test_ferryTileDone :
    (tileSt.Live) ∧
    (tileSt.Calm) ∧
    (tileSt.core.waiting = []) ∧
    (tileSt.ckState ≠ 1) ∧
    (tileSt.xfer 0 0 = some (xfer0 2 [] [0])) ∧
    ((xfer0 2 [] [0]).work = Work.firmware) ∧
    ((xfer0 2 [] [0]).phase = 2) ∧
    (tileSt.xferHeld (xfer0 2 [] [0]) = false) ∧
    (0 ∈ (xfer0 2 [] [0]).tiles) ∧
    (tileSt.ferrySource (xfer0 2 [] [0]) 0 = TileRead.ok (padTo 16384 [1])) ∧
    ((padTo 16384 [1]).length = 16384) ∧
    (tileSt.ferryDestBad (xfer0 2 [] [0]) 0 = TileRead.ok []) ∧
    (fDstSpace (xfer0 2 [] [0]).desc ≠ 7) :=
  ⟨st_live _ (by decide +kernel) (by decide +kernel),
   st_calm _ (by decide +kernel),
   by decide +kernel⟩

def ferryTileFaultState : State :=
  ferrySt 2 [] [0]
/-- Meets the hypotheses of FerryTileMoves. -/
theorem test_ferryTileFault :
    (ferryTileFaultState.Live) ∧
    (ferryTileFaultState.Calm) ∧
    (ferryTileFaultState.core.waiting = []) ∧
    (ferryTileFaultState.ckState ≠ 1) ∧
    (ferryTileFaultState.xfer 0 0 = some (xfer0 2 [] [0])) ∧
    ((xfer0 2 [] [0]).work = Work.firmware) ∧
    ((xfer0 2 [] [0]).phase = 2) ∧
    (ferryTileFaultState.xferHeld (xfer0 2 [] [0]) = false) ∧
    (0 ∈ (xfer0 2 [] [0]).tiles) ∧
    (4 = 2 ∨ 4 = 3 ∨ 4 = 4) :=
  ⟨st_live _ (by decide +kernel) (by decide +kernel),
   st_calm _ (by decide +kernel),
   by decide +kernel⟩

def order1 (m : BitVec 4) : ShareOrder := ⟨5, m, 0x1000000000000001, 0, 0, 0, 0, 0, [], [], []⟩
def shareSt (n : Nat) : State := st (berthCfg ++ [.set F.CHART_ISLAND_GRANULES 1 0, .set F.HOST_WIN_SIZE n 0, .set F.HOST_WIN_USE 1 0] ++ berthOpenAct 2192663384 [(0x10, 8, 128), (0x40, 8, 128)])
def shareMoveCancelState : State :=
  st [.set F.CHART_ISLAND_ROLE 2]
/-- Meets the hypotheses of ShareMovesStart. -/
theorem test_shareMoveCancel :
    (shareMoveCancelState.Live) ∧
    (shareMoveCancelState.hasLayer = true) ∧
    ((order1 0).motion = 0) :=
  ⟨st_live _ (by decide +kernel) (by decide +kernel),
   by decide +kernel⟩

def shareHistoryFreeState : State :=
  st [.set F.CHART_ISLAND_ROLE 2]
/-- Meets the hypotheses of ShareMovesStart. -/
theorem test_shareHistoryFree :
    (shareHistoryFreeState.Live) ∧
    (shareHistoryFreeState.hasLayer = true) ∧
    ((order1 10).motion = 10) :=
  ⟨st_live _ (by decide +kernel) (by decide +kernel),
   by decide +kernel⟩

def shareMoveStartState : State :=
  shareSt 16
/-- Meets the hypotheses of ShareMovesStart. -/
theorem test_shareMoveStart :
    (shareMoveStartState.Live) ∧
    (shareMoveStartState.headerOk (↑(order1 1).cls) (order1 1).berth.toNat = true) ∧
    (shareMoveStartState.hasLayer = true) ∧
    ((order1 1).motion = 1) ∧
    ((order1 1).old = 0) ∧
    ((order1 1).image = []) ∧
    ((order1 1).history = []) ∧
    (locKind (order1 1).loc.toNat = 1) ∧
    (shareMoveStartState.ckState ≠ 1) ∧
    (shareMoveStartState.flashRoom 0 = true) ∧
    (shareMoveStartState.shareOf (order1 1).session.toNat = none) ∧
    (shareMoveStartState.berthIdle (↑(order1 1).cls) (order1 1).berth.toNat = true) ∧
    (shareMoveStartState.berthIdle (↑(order1 1).fromClass) (order1 1).fromBerth.toNat = true) ∧
    (hSession (shareMoveStartState.header (↑(order1 1).cls) (order1 1).berth.toNat) = (order1 1).session.toNat) ∧
    (hSpecOpen (shareMoveStartState.header (↑(order1 1).cls) (order1 1).berth.toNat) = false) ∧
    (imageTileList (shareMoveStartState.shape ↑(order1 1).cls) (shareMoveStartState.header (↑(order1 1).cls) (order1 1).berth.toNat) ≠ []) ∧
    (shareMoveStartState.shareFerries ≠ []) ∧
    (shareMoveStartState.moorWindow (worstImage (imageTileList (shareMoveStartState.shape ↑(order1 1).cls) (shareMoveStartState.header (↑(order1 1).cls) (order1 1).berth.toNat)).length) = some 0) :=
  ⟨st_live _ (by decide +kernel) (by decide +kernel),
   header_ok _ _ _ (by decide +kernel),
   by decide +kernel⟩

def shareMoveNoRoomState : State :=
  shareSt 0
/-- Meets the hypotheses of ShareMovesStart. -/
theorem test_shareMoveNoRoom :
    (shareMoveNoRoomState.Live) ∧
    (shareMoveNoRoomState.headerOk (↑(order1 1).cls) (order1 1).berth.toNat = true) ∧
    (shareMoveNoRoomState.hasLayer = true) ∧
    ((order1 1).motion = 1) ∧
    ((order1 1).old = 0) ∧
    ((order1 1).image = []) ∧
    ((order1 1).history = []) ∧
    (locKind (order1 1).loc.toNat = 1) ∧
    (shareMoveNoRoomState.ckState ≠ 1) ∧
    (shareMoveNoRoomState.flashRoom 0 = true) ∧
    (shareMoveNoRoomState.shareOf (order1 1).session.toNat = none) ∧
    (shareMoveNoRoomState.berthIdle (↑(order1 1).cls) (order1 1).berth.toNat = true) ∧
    (shareMoveNoRoomState.berthIdle (↑(order1 1).fromClass) (order1 1).fromBerth.toNat = true) ∧
    (hSession (shareMoveNoRoomState.header (↑(order1 1).cls) (order1 1).berth.toNat) = (order1 1).session.toNat) ∧
    (hSpecOpen (shareMoveNoRoomState.header (↑(order1 1).cls) (order1 1).berth.toNat) = false) ∧
    (imageTileList (shareMoveNoRoomState.shape ↑(order1 1).cls) (shareMoveNoRoomState.header (↑(order1 1).cls) (order1 1).berth.toNat) ≠ []) ∧
    (shareMoveNoRoomState.shareFerries ≠ []) ∧
    (shareMoveNoRoomState.moorWindow (worstImage (imageTileList (shareMoveNoRoomState.shape ↑(order1 1).cls) (shareMoveNoRoomState.header (↑(order1 1).cls) (order1 1).berth.toNat)).length) = none) :=
  ⟨st_live _ (by decide +kernel) (by decide +kernel),
   header_ok _ _ _ (by decide +kernel),
   by decide +kernel⟩

end Ferries

namespace NearMemory

def nmuD (op : Nat) (fs : List (Nat × Nat)) : BitVec 512 := BitVec.ofNat 512 (word ([(504, op), (500, 7), (496, 7), (492, 7), (272, 0x8000), (224, 0xA000), (176, 0xC000), (64, 9)] ++ fs))
def diffRec : List Byte := let h := setAll (List.replicate 124 0) [(0, 4, 1), (4, 1, 7), (8, 8, 512)]; h ++ leBytes 4 (crc32c h)
def nmuSt (op : Nat) (fs : List (Nat × Nat)) : State := st [.one (.mem 0x1000 (leBytes 64 (nmuD op fs).toNat)), .one (.mem 0x8000 diffRec), .modNmu fun n => { n with queue := [0x1000] }]
def nmuMoveState : State :=
  nmuSt 1 []
/-- Meets the hypotheses of NearMemoryCommandsRun. -/
theorem test_nmuMove :
    (nmuMoveState.Live) ∧
    (Claim.nmuTable (Instr.nmuMove 4096) = some (4096, 1)) ∧
    (nmuMoveState.nmuNext = some 4096) ∧
    (nmuMoveState.ckState ≠ 1) ∧
    (nmuMoveState.entryAt true 4096 64 = EntryRead.ok (leBytes 64 (nmuD 1 []).toNat)) ∧
    (nOp (BitVec.ofNat 512 (ofLE (leBytes 64 (nmuD 1 []).toNat))) = 1) ∧
    (nmuMoveState.nmuAsleep (BitVec.ofNat 512 (ofLE (leBytes 64 (nmuD 1 []).toNat))) = []) :=
  ⟨st_live _ (by decide +kernel) (by decide +kernel),
   by decide +kernel⟩

def nmuFillState : State :=
  nmuSt 2 []
/-- Meets the hypotheses of NearMemoryCommandsRun. -/
theorem test_nmuFill :
    (nmuFillState.Live) ∧
    (Claim.nmuTable (Instr.nmuFill 4096) = some (4096, 2)) ∧
    (nmuFillState.nmuNext = some 4096) ∧
    (nmuFillState.ckState ≠ 1) ∧
    (nmuFillState.entryAt true 4096 64 = EntryRead.ok (leBytes 64 (nmuD 2 []).toNat)) ∧
    (nOp (BitVec.ofNat 512 (ofLE (leBytes 64 (nmuD 2 []).toNat))) = 2) ∧
    (nmuFillState.nmuAsleep (BitVec.ofNat 512 (ofLE (leBytes 64 (nmuD 2 []).toNat))) = []) :=
  ⟨st_live _ (by decide +kernel) (by decide +kernel),
   by decide +kernel⟩

def nmuAddState : State :=
  nmuSt 0x10 []
/-- Meets the hypotheses of NearMemoryCommandsRun. -/
theorem test_nmuAdd :
    (nmuAddState.Live) ∧
    (Claim.nmuTable (Instr.nmuAdd 4096) = some (4096, 16)) ∧
    (nmuAddState.nmuNext = some 4096) ∧
    (nmuAddState.ckState ≠ 1) ∧
    (nmuAddState.entryAt true 4096 64 = EntryRead.ok (leBytes 64 (nmuD 16 []).toNat)) ∧
    (nOp (BitVec.ofNat 512 (ofLE (leBytes 64 (nmuD 16 []).toNat))) = 16) ∧
    (nmuAddState.nmuAsleep (BitVec.ofNat 512 (ofLE (leBytes 64 (nmuD 16 []).toNat))) = []) :=
  ⟨st_live _ (by decide +kernel) (by decide +kernel),
   by decide +kernel⟩

def nmuMulState : State :=
  nmuSt 0x11 []
/-- Meets the hypotheses of NearMemoryCommandsRun. -/
theorem test_nmuMul :
    (nmuMulState.Live) ∧
    (Claim.nmuTable (Instr.nmuMul 4096) = some (4096, 17)) ∧
    (nmuMulState.nmuNext = some 4096) ∧
    (nmuMulState.ckState ≠ 1) ∧
    (nmuMulState.entryAt true 4096 64 = EntryRead.ok (leBytes 64 (nmuD 17 []).toNat)) ∧
    (nOp (BitVec.ofNat 512 (ofLE (leBytes 64 (nmuD 17 []).toNat))) = 17) ∧
    (nmuMulState.nmuAsleep (BitVec.ofNat 512 (ofLE (leBytes 64 (nmuD 17 []).toNat))) = []) :=
  ⟨st_live _ (by decide +kernel) (by decide +kernel),
   by decide +kernel⟩

def axpyState : State :=
  nmuSt 0x12 []
/-- Meets the hypotheses of NearMemoryCommandsRun. -/
theorem test_axpy :
    (axpyState.Live) ∧
    (Claim.nmuTable (Instr.axpy 4096) = some (4096, 18)) ∧
    (axpyState.nmuNext = some 4096) ∧
    (axpyState.ckState ≠ 1) ∧
    (axpyState.entryAt true 4096 64 = EntryRead.ok (leBytes 64 (nmuD 18 []).toNat)) ∧
    (nOp (BitVec.ofNat 512 (ofLE (leBytes 64 (nmuD 18 []).toNat))) = 18) ∧
    (axpyState.nmuAsleep (BitVec.ofNat 512 (ofLE (leBytes 64 (nmuD 18 []).toNat))) = []) :=
  ⟨st_live _ (by decide +kernel) (by decide +kernel),
   by decide +kernel⟩

def nmuScaleState : State :=
  nmuSt 0x13 []
/-- Meets the hypotheses of NearMemoryCommandsRun. -/
theorem test_nmuScale :
    (nmuScaleState.Live) ∧
    (Claim.nmuTable (Instr.nmuScale 4096) = some (4096, 19)) ∧
    (nmuScaleState.nmuNext = some 4096) ∧
    (nmuScaleState.ckState ≠ 1) ∧
    (nmuScaleState.entryAt true 4096 64 = EntryRead.ok (leBytes 64 (nmuD 19 []).toNat)) ∧
    (nOp (BitVec.ofNat 512 (ofLE (leBytes 64 (nmuD 19 []).toNat))) = 19) ∧
    (nmuScaleState.nmuAsleep (BitVec.ofNat 512 (ofLE (leBytes 64 (nmuD 19 []).toNat))) = []) :=
  ⟨st_live _ (by decide +kernel) (by decide +kernel),
   by decide +kernel⟩

def nmuSiluState : State :=
  nmuSt 0x18 []
/-- Meets the hypotheses of NearMemoryCommandsRun. -/
theorem test_nmuSilu :
    (nmuSiluState.Live) ∧
    (Claim.nmuTable (Instr.nmuSilu 4096) = some (4096, 24)) ∧
    (nmuSiluState.nmuNext = some 4096) ∧
    (nmuSiluState.ckState ≠ 1) ∧
    (nmuSiluState.entryAt true 4096 64 = EntryRead.ok (leBytes 64 (nmuD 24 []).toNat)) ∧
    (nOp (BitVec.ofNat 512 (ofLE (leBytes 64 (nmuD 24 []).toNat))) = 24) ∧
    (nmuSiluState.nmuAsleep (BitVec.ofNat 512 (ofLE (leBytes 64 (nmuD 24 []).toNat))) = []) :=
  ⟨st_live _ (by decide +kernel) (by decide +kernel),
   by decide +kernel⟩

def nmuSiluMulState : State :=
  nmuSt 0x19 []
/-- Meets the hypotheses of NearMemoryCommandsRun. -/
theorem test_nmuSiluMul :
    (nmuSiluMulState.Live) ∧
    (Claim.nmuTable (Instr.nmuSiluMul 4096) = some (4096, 25)) ∧
    (nmuSiluMulState.nmuNext = some 4096) ∧
    (nmuSiluMulState.ckState ≠ 1) ∧
    (nmuSiluMulState.entryAt true 4096 64 = EntryRead.ok (leBytes 64 (nmuD 25 []).toNat)) ∧
    (nOp (BitVec.ofNat 512 (ofLE (leBytes 64 (nmuD 25 []).toNat))) = 25) ∧
    (nmuSiluMulState.nmuAsleep (BitVec.ofNat 512 (ofLE (leBytes 64 (nmuD 25 []).toNat))) = []) :=
  ⟨st_live _ (by decide +kernel) (by decide +kernel),
   by decide +kernel⟩

def diffAddState : State :=
  nmuSt 0x20 []
/-- Meets the hypotheses of NearMemoryCommandsRun. -/
theorem test_diffAdd :
    (diffAddState.Live) ∧
    (Claim.nmuTable (Instr.diffAdd 4096) = some (4096, 32)) ∧
    (diffAddState.nmuNext = some 4096) ∧
    (diffAddState.ckState ≠ 1) ∧
    (diffAddState.entryAt true 4096 64 = EntryRead.ok (leBytes 64 (nmuD 32 []).toNat)) ∧
    (nOp (BitVec.ofNat 512 (ofLE (leBytes 64 (nmuD 32 []).toNat))) = 32) ∧
    (diffAddState.nmuAsleep (BitVec.ofNat 512 (ofLE (leBytes 64 (nmuD 32 []).toNat))) = []) :=
  ⟨st_live _ (by decide +kernel) (by decide +kernel),
   by decide +kernel⟩

def diffReplaceState : State :=
  nmuSt 0x21 []
/-- Meets the hypotheses of NearMemoryCommandsRun. -/
theorem test_diffReplace :
    (diffReplaceState.Live) ∧
    (Claim.nmuTable (Instr.diffReplace 4096) = some (4096, 33)) ∧
    (diffReplaceState.nmuNext = some 4096) ∧
    (diffReplaceState.ckState ≠ 1) ∧
    (diffReplaceState.entryAt true 4096 64 = EntryRead.ok (leBytes 64 (nmuD 33 []).toNat)) ∧
    (nOp (BitVec.ofNat 512 (ofLE (leBytes 64 (nmuD 33 []).toNat))) = 33) ∧
    (diffReplaceState.nmuAsleep (BitVec.ofNat 512 (ofLE (leBytes 64 (nmuD 33 []).toNat))) = []) :=
  ⟨st_live _ (by decide +kernel) (by decide +kernel),
   by decide +kernel⟩

def cmd1 (send : List (Nat × Bool)) : NmuCmd := ⟨0x1000, nmuD 1 [], 0, send, [], 0⟩
def active (send : List (Nat × Bool)) : State := st [.modNmu fun n => { n with active := [cmd1 send] }, .set F.NMU_STACK_PIECES 1 0]
def nmuPieceDispatchState : State :=
  active [(0xC, false)]
/-- Meets the hypotheses of NearMemoryPiecesAndEnds. -/
theorem test_nmuPieceDispatch :
    (nmuPieceDispatchState.Live) ∧
    (nmuPieceDispatchState.Calm) ∧
    (nmuPieceDispatchState.nmuNext = none) ∧
    (List.findSome? (fun (c : NmuCmd) => Option.map (fun (p : ℕ × Bool) => (c, p)) (List.find? (fun (p : ℕ × Bool) => nmuPieceDispatchState.unitStack p.1 == 0) c.toSend)) nmuPieceDispatchState.nmu.active = some (cmd1 [(12, false)], 12, false)) ∧
    ((List.filter (fun (p : NmuPiece) => p.stack == 0) nmuPieceDispatchState.nmu.pieces).length < 64) :=
  ⟨st_live _ (by decide +kernel) (by decide +kernel),
   st_calm _ (by decide +kernel),
   by decide +kernel⟩

def nmuReservedOpState : State :=
  nmuSt 0x30 []
/-- Meets the hypotheses of NearMemoryPiecesAndEnds. -/
theorem test_nmuReservedOp :
    (nmuReservedOpState.Live) ∧
    (nmuReservedOpState.Calm) ∧
    (nmuReservedOpState.nmuNext = some 4096) ∧
    (nmuReservedOpState.ckState ≠ 1) ∧
    (nmuReservedOpState.entryAt true 4096 64 = EntryRead.ok (leBytes 64 (nmuD 48 []).toNat)) ∧
    (nmuOps.contains (nOp (BitVec.ofNat 512 (ofLE (leBytes 64 (nmuD 48 []).toNat)))) = false) ∧
    (nmuReservedOpState.nmu.active = []) :=
  ⟨st_live _ (by decide +kernel) (by decide +kernel),
   st_calm _ (by decide +kernel),
   by decide +kernel⟩

def nmuCommandDoneState : State :=
  active []
/-- Meets the hypotheses of NearMemoryPiecesAndEnds. -/
theorem test_nmuCommandDone :
    (nmuCommandDoneState.Live) ∧
    (nmuCommandDoneState.Calm) ∧
    (List.find? (fun (c : NmuCmd) => c.addr == 4096) nmuCommandDoneState.nmu.active = some (cmd1 [])) ∧
    ((cmd1 []).toSend = []) ∧
    ((cmd1 []).phase = 0) ∧
    ((cmd1 []).status ≤ 1) ∧
    ((nmuCommandDoneState.nmu.pieces.all fun (p : NmuPiece) => p.cmd == (cmd1 []).addr) = true) ∧
    (nmuCommandDoneState.nmuOverlap (cmd1 []).desc = false) ∧
    (nManifest (cmd1 []).desc = false) :=
  ⟨st_live _ (by decide +kernel) (by decide +kernel),
   st_calm _ (by decide +kernel),
   by decide +kernel⟩

def cow (hs : List HeldWrite) (armed free : Nat) : State := st [.set F.NMU_COW_ARMED armed 0, .set F.NMU_COW_LIMIT 100 0, .set F.NMU_POOL_FRAMES 8, .set F.NMU_STACK_POOL_FREE free 0, .set F.CKPT_STATUS_STATE 2, .modNmu fun n => { n with drainSet := ⟨true, [], []⟩, held := hs }]
def cowWriteHoldState : State :=
  cow [] 1 8
/-- Meets the hypotheses of CopyOnWrite. -/
theorem test_cowWriteHold :
    (cowWriteHoldState.Live) ∧
    (∀ (k n : ℕ), cowWriteHoldState.steerFixed k n = false) ∧
    (cowWriteHoldState.lost = []) ∧
    (cowWriteHoldState.err.retired = []) ∧
    (∀ (x : ℕ × ℕ), cowWriteHoldState.fwCopy = some x → x.2 = 0) ∧
    (cowWriteHoldState.hbmKey 16 = some 16) ∧
    (cowWriteHoldState.mustPreserve (frameOf 16).1 (frameOf 16).2 = true) :=
  ⟨st_live _ (by decide +kernel) (by decide +kernel),
   steer_free _ (by decide +kernel),
   by decide +kernel⟩

def cowWriteFreeState : State :=
  cow [] 0 8
/-- Meets the hypotheses of CopyOnWrite. -/
theorem test_cowWriteFree :
    (cowWriteFreeState.Live) ∧
    (∀ (k n : ℕ), cowWriteFreeState.steerFixed k n = false) ∧
    (cowWriteFreeState.lost = []) ∧
    (cowWriteFreeState.err.retired = []) ∧
    (∀ (x : ℕ × ℕ), cowWriteFreeState.fwCopy = some x → x.2 = 0) ∧
    (cowWriteFreeState.hbmKey 16 = some 16) ∧
    (cowWriteFreeState.mustPreserve (frameOf 16).1 (frameOf 16).2 = false) :=
  ⟨st_live _ (by decide +kernel) (by decide +kernel),
   steer_free _ (by decide +kernel),
   by decide +kernel⟩

def cowCopyDoneState : State :=
  cow [⟨0x10, [1], .copying, 0⟩] 1 8
/-- Meets the hypotheses of CopyOnWrite. -/
theorem test_cowCopyDone :
    (cowCopyDoneState.Live) ∧
    (∀ (k n : ℕ), cowCopyDoneState.steerFixed k n = false) ∧
    (cowCopyDoneState.lost = []) ∧
    (cowCopyDoneState.err.retired = []) ∧
    (∀ (x : ℕ × ℕ), cowCopyDoneState.fwCopy = some x → x.2 = 0) ∧
    (cowCopyDoneState.nmu.held = [HeldWrite.mk 16 [1] HoldWhy.copying 0]) ∧
    (frameOf (HeldWrite.mk 16 [1] HoldWhy.copying 0).addr = (0, 0)) ∧
    ((HeldWrite.mk 16 [1] HoldWhy.copying 0).why = HoldWhy.copying) ∧
    ((HeldWrite.mk 16 [1] HoldWhy.copying 0).addr % 4096 + (HeldWrite.mk 16 [1] HoldWhy.copying 0).bytes.length ≤ 4096) ∧
    (cowCopyDoneState.freePool 0 = some 0) ∧
    (frameAddr 0 0 = (HeldWrite.mk 16 [1] HoldWhy.copying 0).addr / 4096 * 4096) :=
  ⟨st_live _ (by decide +kernel) (by decide +kernel),
   steer_free _ (by decide +kernel),
   by decide +kernel⟩

def cowCopyStallsState : State :=
  cow [⟨0x10, [1], .copying, 0⟩] 1 0
/-- Meets the hypotheses of CopyOnWrite. -/
theorem test_cowCopyStalls :
    (cowCopyStallsState.Live) ∧
    (∀ (k n : ℕ), cowCopyStallsState.steerFixed k n = false) ∧
    (cowCopyStallsState.lost = []) ∧
    (cowCopyStallsState.err.retired = []) ∧
    (∀ (x : ℕ × ℕ), cowCopyStallsState.fwCopy = some x → x.2 = 0) ∧
    (cowCopyStallsState.nmu.held = [HeldWrite.mk 16 [1] HoldWhy.copying 0]) ∧
    (frameOf (HeldWrite.mk 16 [1] HoldWhy.copying 0).addr = (0, 0)) ∧
    ((HeldWrite.mk 16 [1] HoldWhy.copying 0).why = HoldWhy.copying) ∧
    ((HeldWrite.mk 16 [1] HoldWhy.copying 0).addr % 4096 + (HeldWrite.mk 16 [1] HoldWhy.copying 0).bytes.length ≤ 4096) ∧
    (cowCopyStallsState.freePool 0 = none) :=
  ⟨st_live _ (by decide +kernel) (by decide +kernel),
   steer_free _ (by decide +kernel),
   by decide +kernel⟩

def cowStallReleaseState : State :=
  cow [⟨0x10, [1], .stalled, 0⟩] 0 0
/-- Meets the hypotheses of CopyOnWrite. -/
theorem test_cowStallRelease :
    (cowStallReleaseState.Live) ∧
    (∀ (k n : ℕ), cowStallReleaseState.steerFixed k n = false) ∧
    (cowStallReleaseState.lost = []) ∧
    (cowStallReleaseState.err.retired = []) ∧
    (∀ (x : ℕ × ℕ), cowStallReleaseState.fwCopy = some x → x.2 = 0) ∧
    (cowStallReleaseState.nmu.held = [HeldWrite.mk 16 [1] HoldWhy.stalled 0]) ∧
    ((HeldWrite.mk 16 [1] HoldWhy.stalled 0).why = HoldWhy.stalled) ∧
    ((frameOf (HeldWrite.mk 16 [1] HoldWhy.stalled 0).addr).1 = 0) ∧
    (domainOf (frameAddr 0 (frameOf (HeldWrite.mk 16 [1] HoldWhy.stalled 0).addr).2) = domainOf (HeldWrite.mk 16 [1] HoldWhy.stalled 0).addr) ∧
    (cowStallReleaseState.flag F.NMU_COW_ARMED = false) :=
  ⟨st_live _ (by decide +kernel) (by decide +kernel),
   steer_free _ (by decide +kernel),
   by decide +kernel⟩

def drainFrameReadState : State :=
  cow [] 1 8
/-- Meets the hypotheses of CopyOnWrite. -/
theorem test_drainFrameRead :
    (drainFrameReadState.Live) ∧
    (∀ (k n : ℕ), drainFrameReadState.steerFixed k n = false) ∧
    (drainFrameReadState.lost = []) ∧
    (drainFrameReadState.err.retired = []) ∧
    (∀ (x : ℕ × ℕ), drainFrameReadState.fwCopy = some x → x.2 = 0) ∧
    (drainFrameReadState.ckState = 2) ∧
    (drainFrameReadState.get F.NMU_COW_FRONTIER < drainFrameReadState.get F.NMU_COW_LIMIT) ∧
    (drainFrameReadState.get F.CKPT_RATE_DRAIN ≠ 0) ∧
    (drainFrameReadState.nmu.held = []) :=
  ⟨st_live _ (by decide +kernel) (by decide +kernel),
   steer_free _ (by decide +kernel),
   by decide +kernel⟩

def sleepSt : State := st [.one (.mem 0x1000 (leBytes 64 (nmuD 1 []).toNat)), .modNmu (fun n => { n with queue := [0x1000] }), .set F.CHART_ISLAND_GRANULES 1 2, .modPwr fun p => { p with off := p.off.put (fun _ => 0) 2 1 }]
/-- Meets the hypotheses of NearMemoryCommandsRun. -/
theorem test_nmuAsleep :
    (sleepSt.Live) ∧
    (Claim.nmuTable (Instr.nmuMove 4096) = some (4096, 1)) ∧
    (sleepSt.nmuNext = some 4096) ∧
    (sleepSt.ckState ≠ 1) ∧
    (sleepSt.entryAt true 4096 64 = EntryRead.ok (leBytes 64 (nmuD 1 []).toNat)) ∧
    (nOp (BitVec.ofNat 512 (ofLE (leBytes 64 (nmuD 1 []).toNat))) = 1) ∧
    (sleepSt.nmuAsleep (BitVec.ofNat 512 (ofLE (leBytes 64 (nmuD 1 []).toNat))) ≠ []) :=
  ⟨st_live _ (by decide +kernel) (by decide +kernel),
   by decide +kernel⟩

end NearMemory

namespace Checkpoints

def ckSt (as : List Act) : State := st ([.set F.SAIL_PERIOD_PERIOD_US 200, .set F.CKPT_SCHED_INTERVAL 10, .set F.CKPT_SCHED_PHASE 0, .set F.SAIL_STATUS_PHASE 0, .set F.SAIL_NUMBER_NUMBER 20] ++ as)
def ckptCaptureStartState : State :=
  ckSt []
/-- Meets the hypotheses of CheckpointCaptures. -/
theorem test_ckptCaptureStart :
    (ckptCaptureStartState.Live) ∧
    (ckptCaptureStartState.scheduled ckptCaptureStartState.now = some 3) ∧
    (ckptCaptureStartState.phase = 0) ∧
    (ckptCaptureStartState.captureAt 3 = ckptCaptureStartState.now) ∧
    (ckptCaptureStartState.ckpt.skipped ≠ 3) ∧
    (ckptCaptureStartState.ckpt.number ≠ 3) ∧
    (ckptCaptureStartState.ckState = 0) :=
  ⟨st_live _ (by decide +kernel) (by decide +kernel),
   by decide +kernel⟩

def ckptCaptureSkipState : State :=
  ckSt [.set F.CKPT_STATUS_STATE 2]
/-- Meets the hypotheses of CheckpointCaptures. -/
theorem test_ckptCaptureSkip :
    (ckptCaptureSkipState.Live) ∧
    (ckptCaptureSkipState.scheduled ckptCaptureSkipState.now = some 3) ∧
    (ckptCaptureSkipState.phase = 0) ∧
    (ckptCaptureSkipState.captureAt 3 = ckptCaptureSkipState.now) ∧
    (ckptCaptureSkipState.ckpt.skipped ≠ 3) ∧
    (ckptCaptureSkipState.ckpt.number ≠ 3) ∧
    (ckptCaptureSkipState.ckState = 2) :=
  ⟨st_live _ (by decide +kernel) (by decide +kernel),
   by decide +kernel⟩

def ckptCaptureNoneState : State :=
  ckSt [.set F.SAIL_NUMBER_NUMBER 21]
/-- Meets the hypotheses of CheckpointCaptures. -/
theorem test_ckptCaptureNone :
    (ckptCaptureNoneState.Live) ∧
    (ckptCaptureNoneState.scheduled ckptCaptureNoneState.now = none) :=
  ⟨st_live _ (by decide +kernel) (by decide +kernel),
   by decide +kernel⟩

def ckptReadyState : State :=
  ckSt []
/-- Meets the hypotheses of CheckpointCaptures. -/
theorem test_ckptReady :
    (ckptReadyState.Live) :=
  st_live _ (by decide +kernel) (by decide +kernel)

def ckptCapturePointState : State :=
  ckSt [.set F.CKPT_STATUS_STATE 1, .set F.CKPT_CONTROL_READY 0xFFFF]
/-- Meets the hypotheses of CheckpointCaptures. -/
theorem test_ckptCapturePoint :
    (ckptCapturePointState.Live) ∧
    (ckptCapturePointState.ckState = 1) ∧
    (ckptCapturePointState.ckpt.writing = false) ∧
    (ckptCapturePointState.allReady = true) ∧
    (ckptCapturePointState.allCut = true) ∧
    (ckptCapturePointState.atBoundary = true) :=
  ⟨st_live _ (by decide +kernel) (by decide +kernel),
   by decide +kernel⟩

def ckptCaptureWaitsState : State :=
  ckSt [.set F.CKPT_STATUS_STATE 1]
/-- Meets the hypotheses of CheckpointCaptures. -/
theorem test_ckptCaptureWaits :
    (ckptCaptureWaitsState.Live) ∧
    (ckptCaptureWaitsState.ckState = 1) ∧
    (ckptCaptureWaitsState.allReady = false ∨ ckptCaptureWaitsState.allCut = false ∨ ckptCaptureWaitsState.atBoundary = false) :=
  ⟨st_live _ (by decide +kernel) (by decide +kernel),
   by decide +kernel⟩

def ckptImageWrittenState : State :=
  ckSt [.set F.CKPT_STATUS_STATE 1, .modCkpt fun c => { c with writing := true }]
/-- Meets the hypotheses of CheckpointCaptures. -/
theorem test_ckptImageWritten :
    (ckptImageWrittenState.Live) ∧
    (ckptImageWrittenState.ckState = 1) ∧
    (ckptImageWrittenState.ckpt.writing = true) ∧
    (ckptImageWrittenState.ckpt.held = []) :=
  ⟨st_live _ (by decide +kernel) (by decide +kernel),
   by decide +kernel⟩

def ckptCaptureLateState : State :=
  ckSt [.set F.CKPT_STATUS_STATE 1]
/-- Meets the hypotheses of CheckpointCaptures. -/
theorem test_ckptCaptureLate :
    (ckptCaptureLateState.Live) ∧
    (ckptCaptureLateState.ckState = 1) ∧
    (ckptCaptureLateState.ckpt.writing = false) ∧
    (ckptCaptureLateState.captureOver 1099511627775 = true) :=
  ⟨st_live _ (by decide +kernel) (by decide +kernel),
   by decide +kernel⟩

def buddySt (as : List Act) : State := st ([.modCkpt fun c => { c with source := 7, receiving := 3, number := 3, sent := true }] ++ as)
def drainFrameReceiveState : State :=
  buddySt []
/-- Meets the hypotheses of CheckpointCommits. -/
theorem test_drainFrameReceive :
    (drainFrameReceiveState.Live) ∧
    (7 = drainFrameReceiveState.ckpt.source) ∧
    (drainFrameReceiveState.ckpt.source ≠ 0) ∧
    (3 ≠ 0) :=
  ⟨st_live _ (by decide +kernel) (by decide +kernel),
   by decide +kernel⟩

def commitRec (d : List Byte) : List Byte := let x := padTo 4064 (leBytes 8 3 ++ List.replicate 0x58 0 ++ d); x ++ manifestOf kindRecord x
def crec : List Byte := commitRec (drainDigest [])
def ckptCommitRecordState : State :=
  buddySt []
/-- Meets the hypotheses of CheckpointCommits. -/
theorem test_ckptCommitRecord :
    (ckptCommitRecordState.Live) ∧
    (7 = ckptCommitRecordState.ckpt.source) ∧
    (ckptCommitRecordState.ckpt.source ≠ 0) ∧
    (crNumber crec = ckptCommitRecordState.ckpt.receiving) ∧
    (crNumber crec ≠ 0) :=
  ⟨st_live _ (by decide +kernel) (by decide +kernel),
   by decide +kernel⟩

def ckptConfirmState : State :=
  buddySt [.set F.CKPT_STATUS_STATE 2]
/-- Meets the hypotheses of CheckpointCommits. -/
theorem test_ckptConfirm :
    (ckptConfirmState.Live) ∧
    (ckptConfirmState.ckState = 2) ∧
    (ckptConfirmState.ckpt.number = 3) ∧
    (ckptConfirmState.ckpt.sent = true) ∧
    (ckptConfirmState.ckpt.held = []) :=
  ⟨st_live _ (by decide +kernel) (by decide +kernel),
   by decide +kernel⟩

def ckDrain1 : State := ckSt [.set F.CKPT_STATUS_STATE 2, .set F.CKPT_LIMIT_DRAIN_S 0, .set F.CKPT_LIMIT_STALL_SAILINGS 1, .modNmu fun n => { n with held := [⟨0x10, [1], .stalled, 0⟩] }]
/-- Meets the hypotheses of CheckpointsAreAbandoned. -/
theorem test_ckptStallExpire :
    (ckDrain1.Live) ∧
    (ckDrain1.ckState = 1 ∨ ckDrain1.ckState = 2) ∧
    (ckDrain1.ckpt.held = []) ∧
    ((ckDrain1.nmu.held.any fun (h : HeldWrite) => h.why == HoldWhy.stalled && decide (h.since + ckDrain1.get F.CKPT_LIMIT_STALL_SAILINGS ≤ ckDrain1.now)) = true) :=
  ⟨st_live _ (by decide +kernel) (by decide +kernel),
   by decide +kernel⟩

/-- Meets the hypotheses of CheckpointsAreAbandoned. -/
theorem test_ckptDrainExpire :
    (ckDrain1.Live) ∧
    (ckDrain1.ckState = 1 ∨ ckDrain1.ckState = 2) ∧
    (ckDrain1.ckpt.held = []) ∧
    (ckDrain1.ckState = 2) ∧
    (ckDrain1.ckpt.at_ + ckDrain1.sailingsIn (ckDrain1.get F.CKPT_LIMIT_DRAIN_S) ≤ ckDrain1.now) :=
  ⟨st_live _ (by decide +kernel) (by decide +kernel),
   by decide +kernel⟩

/-- Meets the hypotheses of CheckpointsAreAbandoned. -/
theorem test_ckptRefused :
    (ckDrain1.Live) ∧
    (ckDrain1.ckState = 1 ∨ ckDrain1.ckState = 2) ∧
    (ckDrain1.ckpt.held = []) ∧
    (ckDrain1.ckState = 2) ∧
    (ckDrain1.ckpt.number = 0) :=
  ⟨st_live _ (by decide +kernel) (by decide +kernel),
   by decide +kernel⟩

/-- Meets the hypotheses of CheckpointsAreAbandoned. -/
theorem test_ckptAbandon :
    (ckDrain1.Live) ∧
    (ckDrain1.ckState = 1 ∨ ckDrain1.ckState = 2) ∧
    (ckDrain1.ckpt.held = []) :=
  ⟨st_live _ (by decide +kernel) (by decide +kernel),
   by decide +kernel⟩

def stopSt (as : List Act) : State := st ([.set F.SAIL_STATUS_PHASE 3, .set F.CFG_AP_STATUS_ACTIVE 0, .modBoot fun b => { b with configDigest := List.replicate 48 0 }] ++ as)
def rec3 : List Byte := commitRec []
def snap0 : Snapshot := State.reset.snapshot
def ckptRestoreState : State :=
  stopSt [.modCkpt fun c => { c with snaps := c.snaps.put (fun _ => none) 3 (some snap0) }]
/-- Meets the hypotheses of CheckpointsRestore. -/
theorem test_ckptRestore :
    (ckptRestoreState.Live) ∧
    (Agent.mgmt ≠ Agent.host) ∧
    (ckptRestoreState.stopped = true) :=
  ⟨st_live _ (by decide +kernel) (by decide +kernel),
   by decide +kernel⟩

def ckptRestoreRunsState : State :=
  stopSt [.set F.SAIL_STATUS_PHASE 0]
/-- Meets the hypotheses of CheckpointsRestore. -/
theorem test_ckptRestoreRuns :
    (ckptRestoreRunsState.Live) ∧
    (Agent.mgmt ≠ Agent.host) ∧
    (ckptRestoreRunsState.stopped = false) :=
  ⟨st_live _ (by decide +kernel) (by decide +kernel),
   by decide +kernel⟩

def ckptRestoreDoneState : State :=
  stopSt [.set F.CKPT_STATUS_STATE 3, .modCkpt fun c => { c with restoring := 3, snaps := c.snaps.put (fun _ => none) 3 (some snap0) }]
/-- Meets the hypotheses of CheckpointsRestore. -/
theorem test_ckptRestoreDone :
    (ckptRestoreDoneState.Live) ∧
    (ckptRestoreDoneState.ckState = 3) ∧
    (ckptRestoreDoneState.err.retired = []) ∧
    (SMap.get (fun (_ : ℕ) => none) ckptRestoreDoneState.ckpt.snaps ckptRestoreDoneState.ckpt.restoring = some snap0) ∧
    (([].all fun (g : List (BitVec 8)) => (expandGroup g).isSome) = true) :=
  ⟨st_live _ (by decide +kernel) (by decide +kernel),
   by decide +kernel⟩

def ckptRestoreBadState : State :=
  stopSt [.set F.CKPT_STATUS_STATE 3]
/-- Meets the hypotheses of CheckpointsRestore. -/
theorem test_ckptRestoreBad :
    (ckptRestoreBadState.Live) ∧
    (ckptRestoreBadState.ckState = 3) ∧
    (ckptRestoreBadState.err.retired = []) ∧
    (SMap.get (fun (_ : ℕ) => none) ckptRestoreBadState.ckpt.snaps ckptRestoreBadState.ckpt.restoring = none ∨ ([].any fun (g : List (BitVec 8)) => (expandGroup g).isNone) = true) :=
  ⟨st_live _ (by decide +kernel) (by decide +kernel),
   by decide +kernel⟩

def ckptResumeState : State :=
  stopSt [.set F.CKPT_STATUS_STATE 4]
/-- Meets the hypotheses of CheckpointsRestore. -/
theorem test_ckptResume :
    (ckptResumeState.Live) ∧
    (ckptResumeState.ckState = 4) ∧
    (ckptResumeState.stopped = true) ∧
    (ckptResumeState.chart.staged = none) :=
  ⟨st_live _ (by decide +kernel) (by decide +kernel),
   by decide +kernel⟩

end Checkpoints

namespace Text

def txSt (op : Nat) (fs : List (Nat × Nat)) (as : List Act) : State := st (textCmd (textEntry op fs) ++ as)
def openTok : Act := .modText fun x => { x with streams := x.streams.put (fun _ => none) 1 (some { detok := false }) }
def openDet : Act := .modText fun x => { x with streams := x.streams.put (fun _ => none) 1 (some { detok := true }) }
def tokOpenState : State :=
  txSt 1 [] []
/-- Meets the hypotheses of TextStreamsOpenAndClose. -/
theorem test_tokOpen :
    (Claim.TextReady tokOpenState 4096 1 (textEntry 1 [])) :=
  text_ready _ _ _ _ (by decide +kernel)

def detOpenState : State :=
  txSt 3 [] [.set F.TEXT_GRAM_CFG_GRAMMARS 1]
/-- Meets the hypotheses of TextStreamsOpenAndClose. -/
theorem test_detOpen :
    (Claim.TextReady detOpenState 4096 3 (textEntry 3 [])) :=
  text_ready _ _ _ _ (by decide +kernel)

def textCloseState : State :=
  txSt 6 [] [openTok]
/-- Meets the hypotheses of TextStreamsOpenAndClose. -/
theorem test_textClose :
    (Claim.TextReady textCloseState 4096 6 (textEntry 6 [])) :=
  text_ready _ _ _ _ (by decide +kernel)

def textReservedState : State :=
  txSt 1 [(40, 1)] []
/-- Meets the hypotheses of TextStreamsOpenAndClose. -/
theorem test_textReserved :
    (Claim.TextTaken textReservedState 4096 1 (textEntry 1 [(40, 1)])) ∧
    (Claim.textTable (Instr.tokOpen 4096) = some (4096, 1)) ∧
    (xReserved (textEntry 1 [(40, 1)]) = true) :=
  ⟨text_taken _ _ _ _ (by decide +kernel),
   by decide +kernel⟩

def textBadOpState : State :=
  txSt 0xA [] []
/-- Meets the hypotheses of TextStreamsOpenAndClose. -/
theorem test_textBadOp :
    (Claim.TextTaken textBadOpState 4096 10 (textEntry 10 [])) ∧
    (10 = 0 ∨ 10 ≤ 10) :=
  ⟨text_taken _ _ _ _ (by decide +kernel),
   by decide +kernel⟩

def feedFs : List (Nat × Nat) := [(234, 1), (115, 0x8000), (67, 0x10000), (44, 16384)]
def tokFeedState : State :=
  txSt 2 feedFs [openTok]
/-- Meets the hypotheses of TextFeedsAndPushes. -/
theorem test_tokFeed :
    (Claim.TextReady tokFeedState 4096 2 (textEntry 2 feedFs)) :=
  text_ready _ _ _ _ (by decide +kernel)

def pushFs : List (Nat × Nat) := [(163, 1), (115, 0x8000), (67, 0x10000), (44, 16384)]
def detPushState : State :=
  txSt 4 pushFs [openDet, .set F.TEXT_CFG_VOCAB 8]
/-- Meets the hypotheses of TextFeedsAndPushes. -/
theorem test_detPush :
    (Claim.TextReady detPushState 4096 4 (textEntry 4 pushFs)) :=
  text_ready _ _ _ _ (by decide +kernel)

def detFinishState : State :=
  txSt 5 pushFs [openDet]
/-- Meets the hypotheses of TextFeedsAndPushes. -/
theorem test_detFinish :
    (Claim.TextReady detFinishState 4096 5 (textEntry 5 pushFs)) :=
  text_ready _ _ _ _ (by decide +kernel)

def stopLoadState : State :=
  txSt 7 pushFs [.one (.mem 0x8000 [1, 1, 0x61])]
/-- Meets the hypotheses of TextStopsAndGrammars. -/
theorem test_stopLoad :
    (Claim.TextReady stopLoadState 4096 7 (textEntry 7 pushFs)) :=
  text_ready _ _ _ _ (by decide +kernel)

def gramAct : List Act := [.set F.TEXT_CFG_VOCAB 8, .set F.TEXT_GRAM_CFG_GRAMMARS 1, .set F.TEXT_GRAM_BASE_ADDR 0x40000, .one (.mem 0x40000 (leBytes 16 (word [(0, 16), (64, 1)])))]
def gramMaskState : State :=
  txSt 8 feedFs gramAct
/-- Meets the hypotheses of TextStopsAndGrammars. -/
theorem test_gramMask :
    (Claim.TextReady gramMaskState 4096 8 (textEntry 8 feedFs)) :=
  text_ready _ _ _ _ (by decide +kernel)

def gramPeekState : State :=
  txSt 9 feedFs gramAct
/-- Meets the hypotheses of TextStopsAndGrammars. -/
theorem test_gramPeek :
    (Claim.TextReady gramPeekState 4096 9 (textEntry 9 feedFs)) :=
  text_ready _ _ _ _ (by decide +kernel)

end Text

namespace Seals

def spSt (op : Nat) (fs : List (Nat × Nat)) (as : List Act) : State := st (sampCmd (sampEntry op fs) ++ as)
def sampleState : State :=
  spSt 1 [(475, 0)] []
/-- Meets the hypotheses of SamplerDraws. -/
theorem test_sample :
    (Claim.SampReady sampleState 4096 1 (sampEntry 1 [(475, 0)])) :=
  samp_ready _ _ _ _ (by decide +kernel)

def sampCountState : State :=
  spSt 2 [(475, 2)] [.one (.mem 0x10000 [3, 0, 0, 0, 3])]
/-- Meets the hypotheses of SamplerContexts. -/
theorem test_sampCount :
    (Claim.SampReady sampCountState 4096 2 (sampEntry 2 [(475, 2)])) :=
  samp_ready _ _ _ _ (by decide +kernel)

def sampResetState : State :=
  spSt 3 [] []
/-- Meets the hypotheses of SamplerContexts. -/
theorem test_sampReset :
    (Claim.SampReady sampResetState 4096 3 (sampEntry 3 [])) :=
  samp_ready _ _ _ _ (by decide +kernel)

def sampBadOpState : State :=
  spSt 4 [] []
/-- Meets the hypotheses of SamplerContexts. -/
theorem test_sampBadOp :
    (Claim.SampReady sampBadOpState 4096 4 (sampEntry 4 [])) ∧
    (4 = 0 ∨ 4 ≤ 4) :=
  ⟨samp_ready _ _ _ _ (by decide +kernel),
   by decide +kernel⟩

def slSt (op : Nat) (fs : List (Nat × Nat)) (as : List Act) : State := st (dirCfg ++ dirRec [] [(0, 2)] ++ sealCmd (sealEntry op fs) ++ [.set F.SEAL_CFG_MAX_TICKETS 8] ++ as)
def logAppendState : State :=
  slSt 1 [(336, 1)] []
/-- Meets the hypotheses of SealEngineCommands. -/
theorem test_logAppend :
    (Claim.SealReady logAppendState 4096 1 (sealEntry 1 [(336, 1)])) :=
  seal_ready _ _ _ _ (by decide +kernel)

def ticketState : State :=
  slSt 2 [] []
/-- Meets the hypotheses of SealEngineCommands. -/
theorem test_ticket :
    (Claim.SealReady ticketState 4096 2 (sealEntry 2 [])) :=
  seal_ready _ _ _ _ (by decide +kernel)

def tick0 : List Byte := setAll (List.replicate 256 0) [(0, 4, 0x10001), (8, 8, 5), (0x32, 1, 1)]
def vFs : List (Nat × Nat) := [(384, 0x30000), (152, 2), (160, 7)]
def verdictState : State :=
  slSt 3 vFs [.one (.mem 0x30000 tick0)]
/-- Meets the hypotheses of SealEngineCommands. -/
theorem test_verdict :
    (Claim.SealReady verdictState 4096 3 (sealEntry 3 vFs)) :=
  seal_ready _ _ _ _ (by decide +kernel)

def repAct : List Act := [.set F.HOST_WIN_SIZE 1 0, .set F.HOST_WIN_USE 2 0]
def tenantReportState : State :=
  slSt 4 [] repAct
/-- Meets the hypotheses of SealEngineCommands. -/
theorem test_tenantReport :
    (Claim.SealReady tenantReportState 4096 4 (sealEntry 4 [])) :=
  seal_ready _ _ _ _ (by decide +kernel)

def sealBadOpState : State :=
  slSt 5 [] []
/-- Meets the hypotheses of SealEngineCommands. -/
theorem test_sealBadOp :
    (Claim.SealReady sealBadOpState 4096 5 (sealEntry 5 [])) ∧
    (5 = 0 ∨ 5 ≤ 5) :=
  ⟨seal_ready _ _ _ _ (by decide +kernel),
   by decide +kernel⟩

def ticketSetCloseState : State :=
  st [.set F.SAIL_STATUS_PHASE 0, .modSealer fun x => { x with set := [tick0] }]
/-- Meets the hypotheses of SealsAreWritten. -/
theorem test_ticketSetClose :
    (ticketSetCloseState.Live) ∧
    (ticketSetCloseState.Calm) ∧
    (ticketSetCloseState.stopped = false) ∧
    (ticketSetCloseState.sealer.ringFull = false) ∧
    (ticketSetCloseState.sealer.lastClosed ≠ some ticketSetCloseState.now) :=
  ⟨st_live _ (by decide +kernel) (by decide +kernel),
   st_calm _ (by decide +kernel),
   by decide +kernel⟩

def ticketSetKeptState : State :=
  st [.modSealer fun x => { x with ringFull := true }]
/-- Meets the hypotheses of SealsAreWritten. -/
theorem test_ticketSetKept :
    (ticketSetKeptState.Live) ∧
    (ticketSetKeptState.Calm) ∧
    (ticketSetKeptState.stopped = true ∨ ticketSetKeptState.sealer.ringFull = true ∨ ticketSetKeptState.sealer.lastClosed = some ticketSetKeptState.now) :=
  ⟨st_live _ (by decide +kernel) (by decide +kernel),
   st_calm _ (by decide +kernel),
   by decide +kernel⟩

def sealWaitsState : State :=
  st []
/-- Meets the hypotheses of SealsAreWritten. -/
theorem test_sealWaits :
    (sealWaitsState.Live) ∧
    (sealWaitsState.Calm) ∧
    (sealWaitsState.sealer.closed = [] ∨ sealWaitsState.entropyOk = false) :=
  ⟨st_live _ (by decide +kernel) (by decide +kernel),
   st_calm _ (by decide +kernel),
   by decide +kernel⟩

def ringSt (n : Nat) : State := st [.set F.SEAL_RING_BASE_ADDR 0x100000, .set F.SEAL_RING_SIZE_BYTES n, .modSealer fun x => { x with closed := [(3, [tick0])] }]
def sealRecordWriteState : State :=
  ringSt 0x10000
/-- Meets the hypotheses of SealsAreWritten. -/
theorem test_sealRecordWrite :
    (sealRecordWriteState.Live) ∧
    (sealRecordWriteState.Calm) ∧
    (sealRecordWriteState.sealer.closed = [(3, [tick0])]) ∧
    (sealRecordWriteState.entropyOk = true) ∧
    (sealRecordWriteState.sealer.written - 0 + ([tick0].flatten ++ padTo 3648 (sealRecordWriteState.sealBody 3 [tick0] ++ sealRecordWriteState.identitySign (sealRecordWriteState.sealBody 3 [tick0]))).length ≤ sealRecordWriteState.get F.SEAL_RING_SIZE_BYTES) :=
  ⟨st_live _ (by decide +kernel) (by decide +kernel),
   st_calm _ (by decide +kernel),
   by decide +kernel⟩

def sealRingFullState : State :=
  ringSt 0x100
/-- Meets the hypotheses of SealsAreWritten. -/
theorem test_sealRingFull :
    (sealRingFullState.Live) ∧
    (sealRingFullState.Calm) ∧
    (sealRingFullState.sealer.closed = [(3, [tick0])]) ∧
    (sealRingFullState.entropyOk = true) ∧
    (sealRingFullState.get F.SEAL_RING_SIZE_BYTES < sealRingFullState.sealer.written - 0 + ([tick0].flatten ++ padTo 3648 (sealRingFullState.sealBody 3 [tick0] ++ sealRingFullState.identitySign (sealRingFullState.sealBody 3 [tick0]))).length) :=
  ⟨st_live _ (by decide +kernel) (by decide +kernel),
   st_calm _ (by decide +kernel),
   by decide +kernel⟩

end Seals

namespace Recall

def rcS (op : Nat) (es : List (Nat × Nat)) (hs : List (Nat × Nat × Nat)) (as : List Act) : State := st (rclCfg ++ rclIdx hs ++ rclCmd (rclEntry op es) ++ as)
def rc0 (op : Nat) (as : List Act) : State := st (rclCfg ++ rclCmd (rclEntry op []) ++ as)
def tmpl : List Byte := setAll (List.replicate 256 0) [(0xB, 1, 16), (0xC, 2, 16), (0xE, 1, 8)]
def rclCreateState : State :=
  rc0 1 [.one (.mem 0x8000 tmpl)]
/-- Meets the hypotheses of RecallIndexes. -/
theorem test_rclCreate :
    (Claim.RclReady rclCreateState 4096 1 (rclEntry 1 [])) :=
  rcl_ready _ _ _ _ (by decide +kernel)

def rclInsertState : State :=
  rcS 2 [] [] []
/-- Meets the hypotheses of RecallIndexes. -/
theorem test_rclInsert :
    (Claim.RclReady rclInsertState 4096 2 (rclEntry 2 [])) :=
  rcl_ready _ _ _ _ (by decide +kernel)

def rclDeleteState : State :=
  rcS 3 [(680, 2)] [] []
/-- Meets the hypotheses of RecallIndexes. -/
theorem test_rclDelete :
    (Claim.RclReady rclDeleteState 4096 3 (rclEntry 3 [(680, 2)])) :=
  rcl_ready _ _ _ _ (by decide +kernel)

def rclBadOpState : State :=
  rc0 7 []
/-- Meets the hypotheses of RecallIndexes. -/
theorem test_rclBadOp :
    (Claim.RclReady rclBadOpState 4096 7 (rclEntry 7 [])) ∧
    (7 = 0 ∨ 7 ≤ 7) :=
  ⟨rcl_ready _ _ _ _ (by decide +kernel),
   by decide +kernel⟩

def qFs : List (Nat × Nat) := [(502, 1)]
def rclQueryState : State :=
  rcS 4 qFs [] []
/-- Meets the hypotheses of RecallQueriesRun. -/
theorem test_rclQuery :
    (Claim.RclReady rclQueryState 4096 4 (rclEntry 4 qFs)) :=
  rcl_ready _ _ _ _ (by decide +kernel)

def waitA : Act := .modRcl fun x => { x with waiting := [0x1000] }
def rclQueryStartState : State :=
  rcS 4 qFs [] [waitA]
/-- Meets the hypotheses of RecallQueriesRun. -/
theorem test_rclQueryStart :
    (Claim.RclReady rclQueryStartState 4096 4 (rclEntry 4 qFs)) :=
  rcl_ready _ _ _ _ (by decide +kernel)

def run0 : RclQuery := ⟨0x1000, rclEntry 4 qFs, 0, 0, 0, 0, 0, [(1, 2, 3)], 0, 0⟩
def runA : Act := .modRcl fun x => { x with active := [run0] }
def rclQueryDoneState : State :=
  rcS 4 qFs [] [runA]
/-- Meets the hypotheses of RecallQueriesRun. -/
theorem test_rclQueryDone :
    (rclQueryDoneState.Live) ∧
    (rclQueryDoneState.Calm) ∧
    (rclQueryDoneState.ckState ≠ 1) :=
  ⟨st_live _ (by decide +kernel) (by decide +kernel),
   st_calm _ (by decide +kernel),
   by decide +kernel⟩

def mergeA : List Act := [.one (.mem 0x8000 ([0x90000, 0xA0000, 0xB0000, 16].flatMap (leBytes 8) ++ leBytes 4 8))]
def rclMergeState : State :=
  rcS 5 [] [] mergeA
/-- Meets the hypotheses of RecallMergesAndDrops. -/
theorem test_rclMerge :
    (Claim.RclReady rclMergeState 4096 5 (rclEntry 5 [])) :=
  rcl_ready _ _ _ _ (by decide +kernel)

def merge0 : RclMerge := ⟨List.replicate 64 0 ++ rclEntry 5 [], 0, true, []⟩
def rclMergeDoneState : State :=
  rcS 5 [] [] [.modRcl fun x => { x with merges := [merge0] }]
/-- Meets the hypotheses of RecallMergeEnds. -/
theorem test_rclMergeDone :
    (rclMergeDoneState.Live) ∧
    (rclMergeDoneState.Calm) ∧
    (rclMergeDoneState.ckState ≠ 1) :=
  ⟨st_live _ (by decide +kernel) (by decide +kernel),
   st_calm _ (by decide +kernel),
   by decide +kernel⟩

def rclDropState : State :=
  rcS 6 [] [] []
/-- Meets the hypotheses of RecallMergesAndDrops. -/
theorem test_rclDrop :
    (Claim.RclReady rclDropState 4096 6 (rclEntry 6 [])) :=
  rcl_ready _ _ _ _ (by decide +kernel)

def rclDropResumeState : State :=
  rcS 5 [] [] [.modRcl fun x => { x with drops := [(rclEntry 6 [], 0)] }]
/-- Meets the hypotheses of RecallMergesAndDrops. -/
theorem test_rclDropResume :
    (rclDropResumeState.Live) ∧
    (rclDropResumeState.Calm) ∧
    (rclDropResumeState.ckState ≠ 1) :=
  ⟨st_live _ (by decide +kernel) (by decide +kernel),
   st_calm _ (by decide +kernel),
   by decide +kernel⟩

end Recall

namespace Charts

def chartA (e : Nat) : List Act := [.set F.CHART_CFG_LAYER_MASK 1, .set F.CHART_BASE_ADDR 0x40000, .look fun s =>
  let ent := (setAll (List.replicate 64 0) ((((List.range 16).map fun k => (k, 1, s.ownAddr / 2 ^ (8 * (15 - k)) % 256))) ++ [(0x12, 2, 1), (0x14, 4, 2), (0x19, 7, 0x01010101010101)]))
  let h := (leBytes 2 1 ++ leBytes 2 0 ++ leBytes 4 e ++ leBytes 8 5 ++ leBytes 4 1 ++ List.replicate 12 0 ++ sha384 ent ++ List.replicate 44 0)
  .all [.one (.mem (s.chartBuffer e) (h ++ leBytes 4 (crc32c h))), .one (.mem (s.chartBuffer e + 128) ent)]]
def chS (e : Nat) (as : List Act) : State := st (chartA e ++ as)
def chartFirstState : State :=
  chS 1 [.set F.SAIL_STATUS_PHASE 3]
/-- Meets the hypotheses of ChartsAreStaged. -/
theorem test_chartFirst :
    (chartFirstState.Live) :=
  st_live _ (by decide +kernel) (by decide +kernel)

def chartStageState : State :=
  chS 1 [.set F.SAIL_STATUS_PHASE 0]
/-- Meets the hypotheses of ChartsAreStaged. -/
theorem test_chartStage :
    (chartStageState.Live) :=
  st_live _ (by decide +kernel) (by decide +kernel)

def chartRejectState : State :=
  st []
/-- Meets the hypotheses of ChartsAreStaged. -/
theorem test_chartReject :
    (chartRejectState.Live) :=
  st_live _ (by decide +kernel) (by decide +kernel)

def stg : StagedChart := ⟨7, 0, [⟨1, 1, 0⟩]⟩
def latch (as : List Act) : State := st ([.set F.SAIL_STATUS_PHASE 0] ++ as)
def chartApplyState : State :=
  latch [.modChart fun c => { c with staged := some stg }]
/-- Meets the hypotheses of StagedChartsBecomeCurrent. -/
theorem test_chartApply :
    (chartApplyState.Live) :=
  st_live _ (by decide +kernel) (by decide +kernel)

def islandActivateState : State :=
  latch [.set F.CHART_ISLAND_STATE 1 0, .set F.CHART_ISLAND_ROLE 1 0, .set F.CHART_ISLAND_GRANULES 1 0]
/-- Meets the hypotheses of StagedChartsBecomeCurrent. -/
theorem test_islandActivate :
    (islandActivateState.Live) :=
  st_live _ (by decide +kernel) (by decide +kernel)

def epochRetireState : State :=
  latch [.set F.CHART_STATUS_PREV_LIVE 1, .set F.CHART_CFG_GRACE 0]
/-- Meets the hypotheses of StagedChartsBecomeCurrent. -/
theorem test_epochRetire :
    (epochRetireState.Live) :=
  st_live _ (by decide +kernel) (by decide +kernel)

def old1 : Island := ⟨3, 1, 0⟩
def leavingAct : Act := .modChart fun c => { c with old := c.old.put (fun _ => none) 0 (some old1) }
def islandQuietReleaseState : State :=
  latch [leavingAct]
/-- Meets the hypotheses of IslandsLeave. -/
theorem test_islandQuietRelease :
    (islandQuietReleaseState.Live) :=
  st_live _ (by decide +kernel) (by decide +kernel)

def old2 : Island := ⟨2, 1, 0⟩
def lv2 : List Act := [.modChart fun c => { c with old := c.old.put (fun _ => none) 0 (some old2) }, .set F.BERTH_IN_USE_COUNT 1, .set F.CHART_CFG_LEAVE_LIMIT 0]
def leaveTimeoutState : State :=
  latch lv2
/-- Meets the hypotheses of IslandsLeave. -/
theorem test_leaveTimeout :
    (leaveTimeoutState.Live) :=
  st_live _ (by decide +kernel) (by decide +kernel)

end Charts

namespace Transport

def mc (as : List Act) : State := st (mctCfg ++ as)
def packetTakenState : State :=
  mc []
/-- Meets the hypotheses of PacketsAreTaken. -/
theorem test_packetTaken :
    (Claim.packetTable (Instr.mctRequest 7 (pkt 1 []) [] false true 0) = some (1, 7, pkt 1 [], [], false, true, 0)) ∧
    (packetTakenState.Live) :=
  ⟨rfl,
   st_live _ (by decide +kernel) (by decide +kernel)⟩

def mctRequestState : State :=
  mc []
/-- Meets the hypotheses of DataPackets. -/
theorem test_mctRequest :
    (Claim.PacketDue mctRequestState 7 (pkt 1 []) 1) :=
  packet_due _ _ _ _ (by decide +kernel)

def op1 : MctOp := ⟨4, 7, 0, 0, 0, 0, true⟩
def opA : Act := .modMct fun m => { m with ops := [op1] }
def mctResponseState : State :=
  mc [opA]
/-- Meets the hypotheses of DataPackets. -/
theorem test_mctResponse :
    (Claim.PacketDue mctResponseState 7 (pkt 2 [(336, 4)]) 2) :=
  packet_due _ _ _ _ (by decide +kernel)

def half0 : MctHalf := ⟨7, 4, 0, 0, List.replicate 8192 0, []⟩
def halfP : List Byte := [0, 0, 0, 0, 1] ++ List.replicate 11 0 ++ List.replicate 8192 0 ++ manifestOf kindTile (List.replicate 16384 0)
def tileHalfState : State :=
  mc [.set F.MCT_WIN_SIZE_BYTES 0x10000, .set F.MCT_WIN_BASE_ADDR 0x10000, .modMct fun m => { m with halves := [half0] }]
/-- Meets the hypotheses of DataPackets. -/
theorem test_tileHalf :
    (Claim.PacketDue tileHalfState 7 (pkt 3 [(336, 4)]) 3) :=
  packet_due _ _ _ _ (by decide +kernel)

def peerReadState : State :=
  mc [.set F.MCT_WIN_SIZE_BYTES 0x10000, .set F.MCT_WIN_BASE_ADDR 0x10000]
/-- Meets the hypotheses of DataPackets. -/
theorem test_peerRead :
    (Claim.PacketDue peerReadState 7 (pkt 4 []) 4) :=
  packet_due _ _ _ _ (by decide +kernel)

def ackA : Act := .modTx 7 0 fun t => { t with next := 2, sent := [⟨0, ⟨0, []⟩, 0⟩, ⟨1, ⟨0, []⟩, 0⟩] }
def mctAckState : State :=
  mc [ackA]
/-- Meets the hypotheses of TransportControl. -/
theorem test_mctAck :
    (mctAckState.Live) ∧
    (mctAckState.Calm) ∧
    (hdrType (pkt 0 [(33, 1), (208, 1), (272, 9)]) = 0) ∧
    (hdrBad (pkt 0 [(33, 1), (208, 1), (272, 9)]) = false) ∧
    (mctAckState.jobKnown (pkt 0 [(33, 1), (208, 1), (272, 9)]) = true) ∧
    (SMap.get (fun (_ : ℕ) => none) mctAckState.mct.peers 7 = some (hdrIncarnation (pkt 0 [(33, 1), (208, 1), (272, 9)]))) :=
  ⟨st_live _ (by decide +kernel) (by decide +kernel),
   st_calm _ (by decide +kernel),
   by decide +kernel⟩

def stagedA : Act := .modMct fun m => { m with staged := [⟨7, 3, ⟨pkt 1 [(400, 3)], []⟩⟩] }
def specCommitState : State :=
  mc [stagedA]
/-- Meets the hypotheses of TransportControl. -/
theorem test_specCommit :
    (Claim.PacketDue specCommitState 7 (pkt 5 []) 5) :=
  packet_due _ _ _ _ (by decide +kernel)

def specCancelState : State :=
  mc [stagedA]
/-- Meets the hypotheses of TransportControl. -/
theorem test_specCancel :
    (Claim.PacketDue specCancelState 7 (pkt 6 []) 6) :=
  packet_due _ _ _ _ (by decide +kernel)

def cutState : State :=
  mc []
/-- Meets the hypotheses of TransportControl. -/
theorem test_cut :
    (Claim.PacketDue cutState 7 (pkt 7 []) 7) :=
  packet_due _ _ _ _ (by decide +kernel)

def creditReqState : State :=
  mc []
/-- Meets the hypotheses of TransportControl. -/
theorem test_creditReq :
    (Claim.PacketDue creditReqState 7 (pkt 9 [(40, 4)]) 9) :=
  packet_due _ _ _ _ (by decide +kernel)

def badPacketState : State :=
  mc []
/-- Meets the hypotheses of TransportControl. -/
theorem test_badPacket :
    (badPacketState.Live) :=
  st_live _ (by decide +kernel) (by decide +kernel)

end Transport

namespace Messages

def mc (as : List Act) : State := st (mctCfg ++ as)
def beginP : List Byte := List.replicate 320 0
def crossBeginState : State :=
  mc []
/-- Meets the hypotheses of CrossingMessages. -/
theorem test_crossBegin :
    (Claim.PacketDue crossBeginState 7 (pkt 10 []) 10) :=
  packet_due _ _ _ _ (by decide +kernel)

def crossC (src : Bool) (step : Nat) : Crossing := ⟨5, 4, 7, src, step, 0, [], [], 0, [], [], 0⟩
def cr (src : Bool) (step : Nat) (as : List Act) : State := mc ([.modMct fun m => { m with crossings := [crossC src step] }] ++ as)
def crossReadyState : State :=
  cr true 2 (dirCfg ++ dirRec [] [(0, 5)])
/-- Meets the hypotheses of CrossingMessages. -/
theorem test_crossReady :
    (Claim.PacketDue crossReadyState 7 (pkt 11 [(336, 4)]) 11) :=
  packet_due _ _ _ _ (by decide +kernel)

def crossHeldState : State :=
  cr true 3 []
/-- Meets the hypotheses of CrossingMessages. -/
theorem test_crossHeld :
    (Claim.PacketDue crossHeldState 7 (pkt 12 [(336, 4)]) 12) :=
  packet_due _ _ _ _ (by decide +kernel)

def crossCommitState : State :=
  cr false 4 []
/-- Meets the hypotheses of CrossingMessages. -/
theorem test_crossCommit :
    (Claim.PacketDue crossCommitState 7 (pkt 13 [(336, 4)]) 13) :=
  packet_due _ _ _ _ (by decide +kernel)

def crossAbortState : State :=
  cr true 2 []
/-- Meets the hypotheses of CrossingMessages. -/
theorem test_crossAbort :
    (Claim.PacketDue crossAbortState 7 (pkt 14 [(336, 4)]) 14) :=
  packet_due _ _ _ _ (by decide +kernel)

def crossTellState : State :=
  cr false 4 []
/-- Meets the hypotheses of CrossingMessages. -/
theorem test_crossTell :
    (Claim.PacketDue crossTellState 7 (pkt 16 [(336, 4)]) 16) :=
  packet_due _ _ _ _ (by decide +kernel)

def crossAskState : State :=
  mc [.modMct fun m => { m with outcomes := [(5, 4, true, 0)] }]
/-- Meets the hypotheses of CrossingMessages. -/
theorem test_crossAsk :
    (Claim.PacketDue crossAskState 7 (pkt 15 [(336, 4), (40, 4)]) 15) :=
  packet_due _ _ _ _ (by decide +kernel)

def retireState : State :=
  st [.modMct fun m => { m with notices := [3] }]
/-- Meets the hypotheses of TransportTimers. -/
theorem test_retire :
    (retireState.Live) :=
  st_live _ (by decide +kernel) (by decide +kernel)

def sent1 (tries : Nat) : MctSent := ⟨0, ⟨0, []⟩, tries⟩
def rtoS (tries : Nat) : State := st [.modTx 7 1 fun t => { t with next := 1, sent := [sent1 tries] }]
def mctRtoState : State :=
  rtoS 0
/-- Meets the hypotheses of TransportTimers. -/
theorem test_mctRto :
    (mctRtoState.Live) :=
  st_live _ (by decide +kernel) (by decide +kernel)

def mctAckTimerState : State :=
  st [.modRx 7 1 fun r => { r with due := true }]
/-- Meets the hypotheses of TransportTimers. -/
theorem test_mctAckTimer :
    (mctAckTimerState.Live) :=
  st_live _ (by decide +kernel) (by decide +kernel)

/-- Meets the hypotheses of TransportTimers. -/
theorem test_crossWaitExpire :
    ((cr true 2 (dirCfg ++ dirRec [] [(0, 5)] ++ [Act.set F.SAIL_NUMBER_NUMBER 500])).Live) :=
  st_live _ (by decide +kernel) (by decide +kernel)

def wait5 : SdirWait := ⟨BitVec.ofNat 256 (dirEntry 0xF []), 0, [], 0⟩
/-- Meets the hypotheses of TransportTimers. -/
theorem test_crossGrant :
    ((st (dirCfg ++ [Act.set F.SAIL_STATUS_PHASE 0, Act.modSdir fun (x : SdirState) => SdirState.mk x.queue [wait5] x.revivals x.merged x.revived x.moves x.berthUse x.berthGone x.gens x.slotUse x.freeing x.shareTiles x.charged x.cache x.seed])).Live) :=
  st_live _ (by decide +kernel) (by decide +kernel)

def crossOutcomeExpireState : State :=
  st [.modMct fun m => { m with outcomes := [(5, 4, true, 0)] }]
/-- Meets the hypotheses of TransportTimers. -/
theorem test_crossOutcomeExpire :
    (crossOutcomeExpireState.Live) :=
  st_live _ (by decide +kernel) (by decide +kernel)

end Messages

namespace Flash

def fo (k : FlashKind) (c : FlashClient) (r : Nat) : FlashOp := ⟨0, 0, k, c, 0, r, none⟩
def fs (o : FlashOp) (p : Option FlashPage) (as : List Act) : State := st (flashAct o p ++ as)
def pg (l : Option Nat) : FlashPage := { lpn := l, stripe := 3 }
def flashEraseState : State :=
  fs (fo .erase .collect 0) none []
/-- Meets the hypotheses of FlashOperationsEnd. -/
theorem test_flashErase :
    (Claim.FlashAtRest flashEraseState) :=
  flash_rest _ (by decide +kernel)

def flashProgramState : State :=
  fs (fo .program .ferry 0) (some (pg (some 5))) []
/-- Meets the hypotheses of FlashOperationsEnd. -/
theorem test_flashProgram :
    (Claim.FlashAtRest flashProgramState) :=
  flash_rest _ (by decide +kernel)

def flashReadState : State :=
  fs (fo .read .ferry 0) (some (pg (some 5))) []
/-- Meets the hypotheses of FlashReadsEnd. -/
theorem test_flashRead :
    (Claim.FlashAtRest flashReadState) ∧
    (flashReadState.lunBusy 0 = some (fo FlashKind.read FlashClient.ferry 0)) ∧
    ((fo FlashKind.read FlashClient.ferry 0).kind = FlashKind.read) ∧
    (flashReadState.page (fo FlashKind.read FlashClient.ferry 0).page = some (pg (some 5))) :=
  ⟨flash_rest _ (by decide +kernel),
   by decide +kernel⟩

def flashBusyTimeoutState : State :=
  fs (fo .read .ferry 0) none []
/-- Meets the hypotheses of FlashDieEvents. -/
theorem test_flashBusyTimeout :
    (flashBusyTimeoutState.Live) :=
  st_live _ (by decide +kernel) (by decide +kernel)

def prof : Act := .modFlash fun f => { f with profile := { planes := 1, blocks := 4, pages := 4, levels := 4, endurance := 3000 } }
def onPage : List Act := [.modNand fun n => { n with pages := n.pages.put (fun _ => none) 0 (some { lpn := some 5, stripe := 3, done := true }) }, .modFlash fun f => { f with blocks := f.blocks.put blockDefault 0 { use := 2 }, used := f.used.put (fun _ => false) 5 true, moving := f.moving.put (fun _ => 0) 5 4 }]
def rebA : Act := .modFlash fun f => { f with rebuilding := [0] }
def rebuildStartState : State :=
  st ([prof] ++ onPage ++ [rebA])
/-- Meets the hypotheses of FlashHousekeeping. -/
theorem test_rebuildStart :
    (rebuildStartState.Live) :=
  st_live _ (by decide +kernel) (by decide +kernel)

def gcStartState : State :=
  st onPage
/-- Meets the hypotheses of FlashHousekeeping. -/
theorem test_gcStart :
    (gcStartState.Live) :=
  st_live _ (by decide +kernel) (by decide +kernel)

def patrolReadState : State :=
  st onPage
/-- Meets the hypotheses of FlashHousekeeping. -/
theorem test_patrolRead :
    (patrolReadState.Live) :=
  st_live _ (by decide +kernel) (by decide +kernel)

def lastPowerWriteState : State :=
  st []
/-- Meets the hypotheses of FlashHousekeeping. -/
theorem test_lastPowerWrite :
    (lastPowerWriteState.Live) :=
  st_live _ (by decide +kernel) (by decide +kernel)

/-- Meets the hypotheses of FlashHousekeeping. -/
theorem test_catchupPass :
    ((st (onPage ++ [Act.set F.SAIL_NUMBER_NUMBER 1000000000])).Live) :=
  st_live _ (by decide +kernel) (by decide +kernel)

end Flash

namespace Fabric

def grp : List Act := [.set F.FAB_GROUP_ENABLE 1 0]
def fabLaneState : State :=
  st grp
/-- Meets the hypotheses of FabricPorts. -/
theorem test_fabLane :
    (fabLaneState.Live) :=
  st_live _ (by decide +kernel) (by decide +kernel)

/-- Meets the hypotheses of FabricPorts. -/
theorem test_portTrainDone :
    ((st (grp ++ [Act.set F.FAB_PORT_STATUS_STATE psTraining])).Live) :=
  st_live _ (by decide +kernel) (by decide +kernel)

def fecFrameDropState : State :=
  st grp
/-- Meets the hypotheses of FabricPorts. -/
theorem test_fecFrameDrop :
    (fecFrameDropState.Live) :=
  st_live _ (by decide +kernel) (by decide +kernel)

def firmwareMessageState : State :=
  st [.set F.MCT_SEC_MODE 1]
/-- Meets the hypotheses of FirmwareMessages. -/
theorem test_firmwareMessage :
    (firmwareMessageState.Live) :=
  st_live _ (by decide +kernel) (by decide +kernel)

def egressFrameState : State :=
  st grp
/-- Meets the hypotheses of EgressSchedules. -/
theorem test_egressFrame :
    (egressFrameState.Live) :=
  st_live _ (by decide +kernel) (by decide +kernel)

def ef : EgrFrame := { length := 100, peer := 0, pkt := none, stamp := 0 }
def egressSourceResumeState : State :=
  st [.modQueue 3 fun q => { q with source := [ef] }]
/-- Meets the hypotheses of EgressSchedules. -/
theorem test_egressSourceResume :
    (egressSourceResumeState.Live) :=
  st_live _ (by decide +kernel) (by decide +kernel)

def frameTxIdleState : State :=
  st []
/-- Meets the hypotheses of EgressSchedules. -/
theorem test_frameTxIdle :
    (frameTxIdleState.Live) :=
  st_live _ (by decide +kernel) (by decide +kernel)

def gateIdleState : State :=
  st []
/-- Meets the hypotheses of EgressSchedules. -/
theorem test_gateIdle :
    (gateIdleState.Live) :=
  st_live _ (by decide +kernel) (by decide +kernel)

def shaperIdleState : State :=
  st []
/-- Meets the hypotheses of EgressSchedules. -/
theorem test_shaperIdle :
    (shaperIdleState.Live) :=
  st_live _ (by decide +kernel) (by decide +kernel)

def busyP : State := st [.set F.FAB_PORT_STATUS_STATE psUp 0, .set F.FAB_PORT_STATUS_LANES 8 0, .modQueue 3 fun q => { q with frames := [ef] }]
/-- Meets the hypotheses of EgressSchedules. -/
theorem test_frameTxDone :
    (busyP.Live) ∧
    (Claim.OneReady busyP 0 3 0 ef []) :=
  ⟨st_live _ (by decide +kernel) (by decide +kernel),
   one_ready _ _ _ _ _ _ (by decide +kernel)⟩

def gatedP : State := st [.set F.SAIL_PERIOD_PERIOD_US 200, .set F.FAB_PORT_STATUS_STATE psUp 0, .set F.FAB_PORT_STATUS_LANES 8 0, .modQueue 3 fun q => { q with frames := [ef] }, .set F.EGR_GCL_CTRL_ENABLE 1 0, .set F.EGR_GCL_LAST 1 0, .set F.EGR_GCL_GATES 255 0, .set F.EGR_GCL_INTERVAL_NS 200000 0]
/-- Meets the hypotheses of EgressSchedules. -/
theorem test_gateChange :
    (gatedP.Live) ∧
    (Claim.OneReady gatedP 0 3 0 ef []) ∧
    (SMap.get (fun (_ : ℕ) => none) gatedP.egr.sending 0 = none) ∧
    (gatedP.flag F.EGR_GCL_CTRL_ENABLE = true) :=
  ⟨st_live _ (by decide +kernel) (by decide +kernel),
   one_ready _ _ _ _ _ _ (by decide +kernel),
   by decide +kernel⟩

/-- Meets the hypotheses of EgressSchedules. -/
theorem test_shaperCreditZero :
    (busyP.Live) ∧
    (Claim.OneReady busyP 0 3 0 ef []) ∧
    (SMap.get (fun (_ : ℕ) => none) busyP.egr.sending 0 = none) ∧
    (3 = queueOf 0 3) :=
  ⟨st_live _ (by decide +kernel) (by decide +kernel),
   one_ready _ _ _ _ _ _ (by decide +kernel),
   by decide +kernel⟩

end Fabric

namespace HostSide

def dataW : List Act := [.set F.HOST_WIN_SIZE 1 0, .set F.HOST_WIN_USE 2 0]
def rq (op : Nat) (len : Nat) (c : Bool) : HostReq := ⟨0, op, 9, 5, 0, len, 0, 0, c, false, [], []⟩
def rqS (q : HostReq) (p : List Byte) : State := st (dataW ++ [.writeHost 0 p, .modHost fun h => { h with requests := [q] }])
def hostTurnState : State :=
  rqS (rq 1 32 true) []
/-- Meets the hypotheses of HostRequests. -/
theorem test_hostTurn :
    (hostTurnState.Live) ∧
    (Claim.requestTable (Instr.hostTurn 0) = some (0, 1, turnOk)) :=
  ⟨st_live _ (by decide +kernel) (by decide +kernel),
   rfl⟩

def hostCancelState : State :=
  st []
/-- Meets the hypotheses of HostRequests. -/
theorem test_hostCancel :
    (hostCancelState.Live) :=
  st_live _ (by decide +kernel) (by decide +kernel)

def ringCfg : List Act := [.set F.HOST_WIN_SIZE 1 0, .set F.HOST_WIN_USE 2 0, .set F.HOST_RING_ENABLE 1 0, .modRing 0 fun x => { x with en := true, state := 1 }]
def fullRing : List Act := ringCfg ++ [.modRing 0 fun x => { x with en := true, state := 1, produced := 64 }, .hostEntry ⟨0, 2, 0, 0, 1, 1, 0, 0, 0, []⟩]
def rqOut : HostReq := { ring := 0, op := 1, tag := 9, session := 5, data := 0, dataLen := 0, out := 0x8000, outLen := 64, cancelled := false, begun := true, payload := [], manifests := [] }
def cqEntryWriteState : State :=
  st ringCfg
/-- Meets the hypotheses of CompletionRings. -/
theorem test_cqEntryWrite :
    (cqEntryWriteState.Live) :=
  st_live _ (by decide +kernel) (by decide +kernel)

def cqStallState : State :=
  st fullRing
/-- Meets the hypotheses of CompletionRings. -/
theorem test_cqStall :
    (cqStallState.Live) :=
  st_live _ (by decide +kernel) (by decide +kernel)

def cqFailState : State :=
  st fullRing
/-- Meets the hypotheses of CompletionRings. -/
theorem test_cqFail :
    (cqFailState.Live) :=
  st_live _ (by decide +kernel) (by decide +kernel)

def ringEnableState : State :=
  st [.set F.SAIL_STATUS_PHASE 0 0, .set F.HOST_WIN_SIZE 1 0, .set F.HOST_WIN_USE 2 0, .set F.HOST_RING_ENABLE 1 0]
/-- Meets the hypotheses of CompletionRings. -/
theorem test_ringEnable :
    (ringEnableState.Live) :=
  st_live _ (by decide +kernel) (by decide +kernel)

def ringDisableState : State :=
  st [.set F.SAIL_STATUS_PHASE 0 0, .modRing 0 fun x => { x with en := true, state := 1 }]
/-- Meets the hypotheses of CompletionRings. -/
theorem test_ringDisable :
    (ringDisableState.Live) :=
  st_live _ (by decide +kernel) (by decide +kernel)

def winLostState : State :=
  st [.set F.HOST_WIN_USE 1 2]
/-- Meets the hypotheses of HostWindowsAndLinks. -/
theorem test_winLost :
    (winLostState.Live) :=
  st_live _ (by decide +kernel) (by decide +kernel)

def winDrainState : State :=
  st [.set F.HOST_WIN_USE 1 2]
/-- Meets the hypotheses of HostWindowsAndLinks. -/
theorem test_winDrain :
    (winDrainState.Live) :=
  st_live _ (by decide +kernel) (by decide +kernel)

def linkEventState : State :=
  st [.set F.HOST_LINK_STATUS_RATE 3 0]
/-- Meets the hypotheses of HostWindowsAndLinks. -/
theorem test_linkEvent :
    (linkEventState.Live) :=
  st_live _ (by decide +kernel) (by decide +kernel)

def linkTrainState : State :=
  st []
/-- Meets the hypotheses of HostWindowsAndLinks. -/
theorem test_linkTrain :
    (linkTrainState.Live) :=
  st_live _ (by decide +kernel) (by decide +kernel)

def linkBState : State :=
  st [.set F.HOST_CFG_BIFURCATION 1 0, .set F.HOST_LINK_STATUS_RATE 3 1, .set F.HOST_LINK_STATUS_RATE 3 0]
/-- Meets the hypotheses of HostWindowsAndLinks. -/
theorem test_linkB :
    (linkBState.Live) :=
  st_live _ (by decide +kernel) (by decide +kernel)

def unmaskState : State :=
  st [.modHost fun h => { h with msixPending := 4 }]
/-- Meets the hypotheses of HostWindowsAndLinks. -/
theorem test_unmask :
    (unmaskState.Live) :=
  st_live _ (by decide +kernel) (by decide +kernel)

def cxlStoreState : State :=
  st [.set F.HOST_LINK_STATUS_CXL 1 0, .set F.HOST_CXL_MEM_SIZE_GIB 1 0]
/-- Meets the hypotheses of HostWindowsAndLinks. -/
theorem test_cxlStore :
    (cxlStoreState.Live) :=
  st_live _ (by decide +kernel) (by decide +kernel)

end HostSide

namespace Memory

def img : List Byte := setAll (List.replicate 0x2010 0) [(0, 8, leAt (label "MZ6416CF") 0 8), (8, 4, 1), (0x18, 8, 0x2010), (0x2C, 4, 4), (0x100, 4, 1), (0x108, 4, 0x2000), (0x140, 4, 2), (0x148, 4, 0x2000), (0x14C, 4, 16), (0x180, 4, 3), (0x188, 4, 0x2000), (0x1C0, 4, 5), (0x1C8, 4, 0x2000), (0x2000, 8, 77)]
def imgBad : List Byte := List.replicate 0x900 0
def img2 : List Byte := setAll (List.replicate 0x2010 0) [(0, 8, leAt (label "MZ6416CF") 0 8), (8, 4, 1), (0x18, 8, 0x2010), (0x2C, 4, 4), (0x100, 4, 1), (0x108, 4, 0x2000), (0x10C, 4, 16), (0x140, 4, 2), (0x148, 4, 0x2000), (0x14C, 4, 16), (0x180, 4, 3), (0x188, 4, 0x2000), (0x1C0, 4, 5), (0x1C8, 4, 0x2000), (0x2000, 8, 77), (0x200C, 4, 0x3)]
def okCfg : List Act := [.set F.CFG_AP_STATUS_ACTIVE 3, .set F.CFG_AP_STATUS_HIGHEST 3, .set F.MCT_SEC_MODE 1, .set F.MCT_ADDR_ADDR 5, .set F.BOLL_POST_N 1,
  .set F.FERRY_CLASS_MODE 1 1, .set F.FERRY_CLASS_TIER 1 1, .set F.FERRY_CLASS_MODE 1 2, .set F.FERRY_CLASS_TIER 2 2, .set F.FERRY_CLASS_MODE 1 3, .set F.FERRY_CLASS_VC 2 3, .set F.TIER_CLASSES_MOOR_CLASS 1, .set F.TIER_CLASSES_LAYUP_CLASS 2, .set F.TIER_CLASSES_HISTORY_CLASS 2, .set F.TIER_CLASSES_CROSS_CLASS 3,
  .set F.MCT_VC_TCLASS 1 1, .set F.MCT_VC_TCLASS 2 2, .set F.MCT_VC_TCLASS 3 3, .set F.MCT_VC_TCLASS 4 4]
def warmResetState : State :=
  st [.modBoot fun b => { b with released := true }]
def releaseState : State :=
  st []
/-- Meets the hypotheses of Resets. -/
theorem test_release :
    (releaseState.Live) :=
  st_live _ (by decide +kernel) (by decide +kernel)

def atImg (b : List Byte) : State := st (okCfg ++ [.set F.CFG_STATUS_STAGE sgImage, .modFuses fun f => { f with copyA := b }])
def selCopyState : State :=
  st [.modBoot fun b => { b with released := true }, .set F.CFG_STATUS_STAGE sgRom, .modFuses fun f => { f with copyA := img }]
/-- Meets the hypotheses of StartUpToMemory. -/
theorem test_selCopy :
    (selCopyState.Live) :=
  st_live _ (by decide +kernel) (by decide +kernel)

def sectionsReadState : State :=
  atImg img
/-- Meets the hypotheses of StartUpToMemory. -/
theorem test_sectionsRead :
    (sectionsReadState.Live) :=
  st_live _ (by decide +kernel) (by decide +kernel)

def hbmTrainState : State :=
  st [.modBoot fun b => { b with released := true }, .set F.CFG_STATUS_STAGE sgMemory]
/-- Meets the hypotheses of StartUpToMemory. -/
theorem test_hbmTrain :
    (hbmTrainState.Live) :=
  st_live _ (by decide +kernel) (by decide +kernel)

def allUp : List Act := [.modBoot fun b => { b with released := true, hbmUp := (List.range 16).map fun k => (k, true) }, .set F.CFG_STATUS_STAGE sgMemory]
/-- Meets the hypotheses of StartUpToMemory. -/
theorem test_memoryZero :
    ((st (allUp ++ [Act.set F.FLASH_CFG_IFACE 0])).Live) :=
  st_live _ (by decide +kernel) (by decide +kernel)

end Memory

namespace Package

def atStage (n : Nat) (as : List Act) : State := st (Act.set F.CFG_STATUS_STAGE n :: as)
def tbl : List Byte := setAll (List.replicate 4176 0) [(0xC, 4, 1), (4096, 2, 1), (4104, 8, 8192), (4112, 8, 16)]
def packageFetchState : State :=
  atStage sgPackage [.modBoot fun b => { b with source := 2, peers := [7] }]
/-- Meets the hypotheses of ThePackage. -/
theorem test_packageFetch :
    (packageFetchState.Live) :=
  st_live _ (by decide +kernel) (by decide +kernel)

def secIn (d : Nat) (r : List Nat) : State := atStage sgPackage [.modBoot fun b => { b with source := 2, peers := [7], table := tbl.set 4120 (BitVec.ofNat 8 d), retried := r }, .set F.CFG_PKG_FETCH_BUSY 1 0, .set F.CFG_PKG_FETCH_TYPE 1 0]
def sectionLandState : State :=
  secIn 0 []
/-- Meets the hypotheses of ThePackage. -/
theorem test_sectionLand :
    (sectionLandState.Live) :=
  st_live _ (by decide +kernel) (by decide +kernel)

def pkgFetchState : State :=
  atStage sgHeld []
/-- Meets the hypotheses of ThePackage. -/
theorem test_pkgFetch :
    (pkgFetchState.Live) :=
  st_live _ (by decide +kernel) (by decide +kernel)

def fuseAdvanceState : State :=
  atStage sgHeld [.set F.CFG_IMAGE_INFO_SEC_VERSION 1]
/-- Meets the hypotheses of StartUpEnds. -/
theorem test_fuseAdvance :
    (fuseAdvanceState.Live) :=
  st_live _ (by decide +kernel) (by decide +kernel)

def firstSailingState : State :=
  atStage sgTime [.set F.SAIL_STATUS_TIME_STATE 2, .modBoot fun b => { b with advanced := true }]
/-- Meets the hypotheses of StartUpEnds. -/
theorem test_firstSailing :
    (firstSailingState.Live) :=
  st_live _ (by decide +kernel) (by decide +kernel)

def cfgGoState : State :=
  atStage sgHeld []
/-- Meets the hypotheses of StartUpEnds. -/
theorem test_cfgGo :
    (cfgGoState.Live) :=
  st_live _ (by decide +kernel) (by decide +kernel)

def recoveryImageState : State :=
  atStage sgRecovery []
/-- Meets the hypotheses of StartUpEnds. -/
theorem test_recoveryImage :
    (recoveryImageState.Live) :=
  st_live _ (by decide +kernel) (by decide +kernel)

def pldmUpdateState : State :=
  atStage sgHeld []
/-- Meets the hypotheses of StartUpEnds. -/
theorem test_pldmUpdate :
    (pldmUpdateState.Live) :=
  st_live _ (by decide +kernel) (by decide +kernel)

end Package

namespace Keys

def measState : State :=
  st []
/-- Meets the hypotheses of Attestation. -/
theorem test_meas :
    (measState.Live) ∧
    (measState.sec.entropyDown = false) :=
  ⟨st_live _ (by decide +kernel) (by decide +kernel),
   by decide +kernel⟩

def measDownState : State :=
  st [.modSec fun x => { x with entropyDown := true }]
/-- Meets the hypotheses of Attestation. -/
theorem test_measDown :
    (measDownState.Live) ∧
    (measDownState.sec.entropyDown = true) :=
  ⟨st_live _ (by decide +kernel) (by decide +kernel),
   by decide +kernel⟩

def measOneState : State :=
  st []
/-- Meets the hypotheses of Attestation. -/
theorem test_measOne :
    (measOneState.Live) ∧
    (measOneState.measurement 1 = some (((st []).measurement 1).getD [])) ∧
    (1 ≠ 255) :=
  ⟨st_live _ (by decide +kernel) (by decide +kernel),
   some_of _ _ (by decide +kernel),
   by decide +kernel⟩

def measBadState : State :=
  st []
/-- Meets the hypotheses of Attestation. -/
theorem test_measBad :
    (measBadState.Live) ∧
    (119 ≠ 255) ∧
    (measBadState.measurement 119 = none) :=
  ⟨st_live _ (by decide +kernel) (by decide +kernel),
   by decide +kernel⟩

def challState : State :=
  st []
/-- Meets the hypotheses of Attestation. -/
theorem test_chall :
    (challState.Live) :=
  st_live _ (by decide +kernel) (by decide +kernel)

def chainS : State := st [.modFuses fun f => { f with chains := [(0, [1, 2, 3])] }]
/-- Meets the hypotheses of Attestation. -/
theorem test_cert :
    (chainS.Live) ∧
    (0 ≤ 1) ∧
    (1 < (SMap.get (fun (_ : ℕ) => []) chainS.fuses.chains 0).length) :=
  ⟨st_live _ (by decide +kernel) (by decide +kernel),
   by decide +kernel⟩

/-- Meets the hypotheses of Attestation. -/
theorem test_certBad :
    (chainS.Live) ∧
    (1 < 0 ∨ (SMap.get (fun (_ : ℕ) => []) chainS.fuses.chains 0).length ≤ 3) :=
  ⟨st_live _ (by decide +kernel) (by decide +kernel),
   by decide +kernel⟩

def keyExState : State :=
  st []
/-- Meets the hypotheses of KeysAreLoaded. -/
theorem test_keyEx :
    (keyExState.Live) :=
  st_live _ (by decide +kernel) (by decide +kernel)

def endSState : State :=
  st [.modSec fun x => { x with sessions := [(3, true)] }]
/-- Meets the hypotheses of KeysAreLoaded. -/
theorem test_endS :
    (endSState.Live) :=
  st_live _ (by decide +kernel) (by decide +kernel)

def keyS (ph : Nat) : State := st [.set F.SAIL_STATUS_PHASE ph 0, .modSec fun x => { x with sessions := [(3, true)] }]
def loadNoState : State :=
  st []
/-- Meets the hypotheses of KeysAreLoaded. -/
theorem test_loadNo :
    (loadNoState.Live) ∧
    (SMap.get (fun (_ : ℕ) => false) loadNoState.sec.sessions 3 = false) :=
  ⟨st_live _ (by decide +kernel) (by decide +kernel),
   by decide +kernel⟩

def loadWaitState : State :=
  keyS 1
/-- Meets the hypotheses of KeysAreLoaded. -/
theorem test_loadWait :
    (loadWaitState.Live) ∧
    (SMap.get (fun (_ : ℕ) => false) loadWaitState.sec.sessions 3 = true) ∧
    (true = true ∨ 1 ≠ 255) ∧
    (loadWaitState.stopped = false) :=
  ⟨st_live _ (by decide +kernel) (by decide +kernel),
   by decide +kernel⟩

def loadNowState : State :=
  keyS 3
/-- Meets the hypotheses of KeysAreLoaded. -/
theorem test_loadNow :
    (loadNowState.Live) ∧
    (SMap.get (fun (_ : ℕ) => false) loadNowState.sec.sessions 3 = true) ∧
    (true = true ∨ 1 ≠ 255) ∧
    (loadNowState.stopped = true) :=
  ⟨st_live _ (by decide +kernel) (by decide +kernel),
   by decide +kernel⟩

def loadClearState : State :=
  st [.set F.SAIL_STATUS_PHASE 3 0, .modSec fun x => { x with sessions := [(3, true)], keys := [⟨1, 1, 9, 0, 0⟩, ⟨0, 1, 9, 0, 0⟩] }]
/-- Meets the hypotheses of KeysAreLoaded. -/
theorem test_loadClear :
    (loadClearState.Live) ∧
    (SMap.get (fun (_ : ℕ) => false) loadClearState.sec.sessions 3 = true) ∧
    (true = true ∨ 1 ≠ 255) ∧
    (loadClearState.stopped = true) :=
  ⟨st_live _ (by decide +kernel) (by decide +kernel),
   by decide +kernel⟩

def loadReservedState : State :=
  keyS 1
/-- Meets the hypotheses of KeysAreLoaded. -/
theorem test_loadReserved :
    (loadReservedState.Live) ∧
    (SMap.get (fun (_ : ℕ) => false) loadReservedState.sec.sessions 3 = true) ∧
    (false = false) ∧
    (255 = 255) :=
  ⟨st_live _ (by decide +kernel) (by decide +kernel),
   by decide +kernel⟩

def graceState : State :=
  st [.modSec fun x => { x with grace := [(⟨1, 1, 9, 0, 0⟩, 3), (⟨1, 1, 9, 0, 0⟩, 0)] }]
/-- Meets the hypotheses of KeysAreLoaded. -/
theorem test_grace :
    (graceState.Live) :=
  st_live _ (by decide +kernel) (by decide +kernel)

def mkaState : State :=
  st [.set F.MCT_SEC_MODE 1, .modSec fun x => { x with keys := [⟨0, 1, 9, 4, 5⟩] }]
/-- Meets the hypotheses of KeysAreLoaded. -/
theorem test_mka :
    (mkaState.Live) :=
  st_live _ (by decide +kernel) (by decide +kernel)

def reseedState : State :=
  st [.modSec fun x => { x with draws := 2 ^ 20 }]
/-- Meets the hypotheses of EntropyFailsAndPasses. -/
theorem test_reseed :
    (reseedState.Live) :=
  st_live _ (by decide +kernel) (by decide +kernel)

def entFailState : State :=
  st []
/-- Meets the hypotheses of EntropyFailsAndPasses. -/
theorem test_entFail :
    (entFailState.Live) :=
  st_live _ (by decide +kernel) (by decide +kernel)

def entPassState : State :=
  st [.modSec fun x => { x with entropyDown := true, waiting := [5, 6] }]
/-- Meets the hypotheses of EntropyFailsAndPasses. -/
theorem test_entPass :
    (entPassState.Live) :=
  st_live _ (by decide +kernel) (by decide +kernel)

end Keys

namespace Hbm

def hbmErrorState : State :=
  st []
/-- Meets the hypotheses of HbmErrors. -/
theorem test_hbmError :
    (hbmErrorState.Live) :=
  st_live _ (by decide +kernel) (by decide +kernel)

def hbmScrubState : State :=
  st []
/-- Meets the hypotheses of HbmErrors. -/
theorem test_hbmScrub :
    (hbmScrubState.Live) :=
  st_live _ (by decide +kernel) (by decide +kernel)

def rowRemapState : State :=
  st [.modErr fun e => { e with rows := [(2 * 2 ^ 24 + 5, 1)] }]
/-- Meets the hypotheses of HbmRepairs. -/
theorem test_rowRemap :
    (rowRemapState.Live) :=
  st_live _ (by decide +kernel) (by decide +kernel)

def pcFaultState : State :=
  st [.set F.NMU_POOL_FRAMES 20000 0]
/-- Meets the hypotheses of HbmRepairs. -/
theorem test_pcFault :
    (pcFaultState.Live) :=
  st_live _ (by decide +kernel) (by decide +kernel)

def pcRetireDoneState : State :=
  st [.modErr fun e => { e with domains := [(domKey 1 2, { depth := 1, busy := true })], retired := [(domKey 1 2, true)] }]
/-- Meets the hypotheses of HbmRepairs. -/
theorem test_pcRetireDone :
    (pcRetireDoneState.Live) :=
  st_live _ (by decide +kernel) (by decide +kernel)

def domainSettleState : State :=
  st [.modErr fun e => { e with domains := [(domKey 1 2, { depth := 1, settleAt := 0 })] }]
/-- Meets the hypotheses of HbmRepairs. -/
theorem test_domainSettle :
    (domainSettleState.Live) :=
  st_live _ (by decide +kernel) (by decide +kernel)

end Hbm

namespace Hardware

/-- A chart of one device at 0x40000, this one, in crew 0, whose island 0 is a LAYER island of granule 0. -/
def crewOne : List Act := [.set F.CHART_BASE_ADDR 0x40000, .one (.mem 0x40010 (leBytes 4 1)),
  .look fun s => .one (.mem 0x40080 (setAll (List.replicate 64 0) ((((List.range 16).map fun k => (k, 1, s.ownAddr / 2 ^ (8 * (15 - k)) % 256))) ++ [(0x12, 2, 1), (0x14, 4, 2), (0x19, 7, 0x01010101010101)])))]
def offOk : State := st (dirCfg ++ crewOne ++ [.set F.PWR_ISLAND_ALLOW_OFF 1 0, .set F.CHART_ISLAND_STATE isActive 0, .set F.SAIL_PERIOD_PERIOD_US 200, .set F.CHART_ISLAND_GRANULES 1 0, .set F.CHART_ISLAND_ROLE 2 0])
def sramWordState : State :=
  st []
/-- Meets the hypotheses of SramErrors. -/
theorem test_sramWord :
    (sramWordState.Live) :=
  st_live _ (by decide +kernel) (by decide +kernel)

def sramScrubState : State :=
  st []
/-- Meets the hypotheses of SramErrors. -/
theorem test_sramScrub :
    (sramScrubState.Live) :=
  st_live _ (by decide +kernel) (by decide +kernel)

def ferryParityState : State :=
  st []
/-- Meets the hypotheses of OtherErrors. -/
theorem test_ferryParity :
    (ferryParityState.Live) :=
  st_live _ (by decide +kernel) (by decide +kernel)

def causewayLaneState : State :=
  st [.set F.ERR_CAUSEWAY_SPARES 2 3]
/-- Meets the hypotheses of OtherErrors. -/
theorem test_causewayLane :
    (causewayLaneState.Live) :=
  st_live _ (by decide +kernel) (by decide +kernel)

def spareLaneState : State :=
  st [.modErr fun e => { e with domains := [(domKey 5 3, { depth := 1, busy := true })] }]
/-- Meets the hypotheses of OtherErrors. -/
theorem test_spareLane :
    (spareLaneState.Live) :=
  st_live _ (by decide +kernel) (by decide +kernel)

def errPopState : State :=
  st []
/-- Meets the hypotheses of OtherErrors. -/
theorem test_errPop :
    (errPopState.Live) :=
  st_live _ (by decide +kernel) (by decide +kernel)

/-- Meets the hypotheses of PowerChanges. -/
theorem test_powerOff :
    (offOk.Live) :=
  st_live _ (by decide +kernel) (by decide +kernel)

def wakeState : State :=
  st [.modPwr fun p => { p with off := [(1, 1)] }]
/-- Meets the hypotheses of PowerChanges. -/
theorem test_wake :
    (wakeState.Live) :=
  st_live _ (by decide +kernel) (by decide +kernel)

def wakeDoneState : State :=
  st [.modPwr fun p => { p with off := [(1, 3)] }, .set F.PWR_STATUS_ISLAND_OFF 2 0]
/-- Meets the hypotheses of PowerChanges. -/
theorem test_wakeDone :
    (wakeDoneState.Live) :=
  st_live _ (by decide +kernel) (by decide +kernel)

def gateState : State :=
  st []
/-- Meets the hypotheses of PowerChanges. -/
theorem test_gate :
    (gateState.Live) :=
  st_live _ (by decide +kernel) (by decide +kernel)

def throttleState : State :=
  st []
/-- Meets the hypotheses of PowerChanges. -/
theorem test_throttle :
    (throttleState.Live) :=
  st_live _ (by decide +kernel) (by decide +kernel)

def limitReleaseState : State :=
  st [.set F.PWR_STATUS_LIMIT_TJ 1 0]
/-- Meets the hypotheses of PowerChanges. -/
theorem test_limitRelease :
    (limitReleaseState.Live) :=
  st_live _ (by decide +kernel) (by decide +kernel)

def tripState : State :=
  st []
/-- Meets the hypotheses of PowerChanges. -/
theorem test_trip :
    (tripState.Live) :=
  st_live _ (by decide +kernel) (by decide +kernel)

def voltState : State :=
  st []
/-- Meets the hypotheses of PowerChanges. -/
theorem test_volt :
    (voltState.Live) :=
  st_live _ (by decide +kernel) (by decide +kernel)

def livC : List Act := [.set F.SAIL_WATCH_CFG_CORES 0xFFFF]
/-- Meets the hypotheses of InterruptsAndCompletions. -/
theorem test_irqClaim :
    ((st (livC ++ [Act.set F.IRQ_SRC_PENDING 1 18])).Live) :=
  st_live _ (by decide +kernel) (by decide +kernel)

def irqMaskState : State :=
  st []
/-- Meets the hypotheses of InterruptsAndCompletions. -/
theorem test_irqMask :
    (irqMaskState.Live) :=
  st_live _ (by decide +kernel) (by decide +kernel)

def irqEndState : State :=
  st []
/-- Meets the hypotheses of InterruptsAndCompletions. -/
theorem test_irqEnd :
    (irqEndState.Live) :=
  st_live _ (by decide +kernel) (by decide +kernel)

def cqRecordState : State :=
  st []
/-- Meets the hypotheses of InterruptsAndCompletions. -/
theorem test_cqRecord :
    (cqRecordState.Live) :=
  st_live _ (by decide +kernel) (by decide +kernel)

def bollPostState : State :=
  st []
/-- Meets the hypotheses of Bollards. -/
theorem test_bollPost :
    (bollPostState.Live) :=
  st_live _ (by decide +kernel) (by decide +kernel)

def wt : State := st [.set F.BOLL_WAIT_PENDING 1 2, .set F.BOLL_WAIT_INDEX 5 2, .set F.BOLL_COUNT_WAITERS 1 5, .modIrq fun q => { q with lists := [(5, [.control 2])] }]
def bollCountState : State :=
  st []
/-- Meets the hypotheses of Bollards. -/
theorem test_bollCount :
    (bollCountState.Live) :=
  st_live _ (by decide +kernel) (by decide +kernel)

def bollJoinState : State :=
  st []
/-- Meets the hypotheses of Bollards. -/
theorem test_bollJoin :
    (bollJoinState.Live) :=
  st_live _ (by decide +kernel) (by decide +kernel)

/-- Meets the hypotheses of Bollards. -/
theorem test_bollCancel :
    (wt.Live) :=
  st_live _ (by decide +kernel) (by decide +kernel)

/-- Meets the hypotheses of TheWatch. -/
theorem test_watchAck :
    ((st (livC ++ [Act.set F.SAIL_STATUS_PHASE 0])).Live) :=
  st_live _ (by decide +kernel) (by decide +kernel)

def watchKickState : State :=
  st [.set F.SAIL_STATUS_PHASE 1]
/-- Meets the hypotheses of TheWatch. -/
theorem test_watchKick :
    (watchKickState.Live) :=
  st_live _ (by decide +kernel) (by decide +kernel)

def watchRestartState : State :=
  st [.modIrq fun q => { q with inReset := 4, misses := [(2, 2)], local_ := [(2, [1, 2])] }]
/-- Meets the hypotheses of TheWatch. -/
theorem test_watchRestart :
    (watchRestartState.Live) :=
  st_live _ (by decide +kernel) (by decide +kernel)

/-- Meets the hypotheses of TheWatch. -/
theorem test_kickDeadline :
    ((st (livC ++ [Act.set F.SAIL_STATUS_PHASE 2, Act.modIrq fun (q : IrqState) => IrqState.mk q.waiting q.lists q.ferryGrants q.claimed 65531 q.missing q.misses q.resets q.inReset q.local_ q.claims])).Live) :=
  st_live _ (by decide +kernel) (by decide +kernel)

end Hardware

namespace Control

def offOf (r : Reg) (i : Nat) : BitVec 26 := BitVec.ofNat 26 (r.info.off + i * r.info.stride)
def registerWriteState : State :=
  st []
/-- Meets the hypotheses of RegisterWrites. -/
theorem test_registerWrite :
    (registerWriteState.Live) :=
  st_live _ (by decide +kernel) (by decide +kernel)

def writeHintState : State :=
  st [.set F.SAIL_STATUS_PHASE 1]
/-- Meets the hypotheses of RegisterWrites. -/
theorem test_writeHint :
    (writeHintState.Live) ∧
    (Claim.plainReg Reg.SDIR_HINT) ∧
    (Agent.mgmt ≠ Agent.host) ∧
    ((offOf Reg.SDIR_HINT 0).toNat % 8 = 0) ∧
    (regWordAt (offOf Reg.SDIR_HINT 0).toNat = some (RegWord.mk Reg.SDIR_HINT 0 0)) ∧
    (Reg.SDIR_HINT ∉ [Reg.SAIL_STATUS, Reg.CFG_STATUS, Reg.ERR_STATUS, Reg.ERR_HEAD]) ∧
    (writeHintState.stopped = false ∨ Reg.SDIR_HINT ∉ [Reg.CORE_LS_PWR, Reg.EGR_GCL_CTRL, Reg.EGR_SHAPER]) :=
  ⟨st_live _ (by decide +kernel) (by decide +kernel),
   ⟨by decide +kernel, by decide +kernel⟩,
   by decide +kernel⟩

def writeShadowState : State :=
  st [.set F.SAIL_STATUS_PHASE 1]
/-- Meets the hypotheses of RegisterWrites. -/
theorem test_writeShadow :
    (writeShadowState.Live) ∧
    (Claim.plainReg Reg.BERTH_CLASS) ∧
    (Agent.mgmt ≠ Agent.host) ∧
    ((offOf Reg.BERTH_CLASS 0).toNat % 8 = 0) ∧
    (regWordAt (offOf Reg.BERTH_CLASS 0).toNat = some (RegWord.mk Reg.BERTH_CLASS 0 0)) ∧
    (Reg.BERTH_CLASS ∉ [Reg.SAIL_STATUS, Reg.CFG_STATUS, Reg.ERR_STATUS, Reg.ERR_HEAD]) ∧
    (writeShadowState.stopped = false ∨ Reg.BERTH_CLASS ∉ [Reg.CORE_LS_PWR, Reg.EGR_GCL_CTRL, Reg.EGR_SHAPER]) :=
  ⟨st_live _ (by decide +kernel) (by decide +kernel),
   ⟨by decide +kernel, by decide +kernel⟩,
   by decide +kernel⟩

def writeHostState : State :=
  st []
/-- Meets the hypotheses of RegisterWrites. -/
theorem test_writeHost :
    (writeHostState.Live) ∧
    (hostRegAt 0 = false) :=
  ⟨st_live _ (by decide +kernel) (by decide +kernel),
   by decide +kernel⟩

def writeMsixState : State :=
  st [.modHost fun h => { h with msixPending := 4 }]
/-- Meets the hypotheses of RegisterWrites. -/
theorem test_writeMsix :
    (writeMsixState.Live) ∧
    (40 = 16 * 2 + 8) ∧
    (2 < 72) ∧
    (writeMsixState.msixMasked 2 = true) :=
  ⟨st_live _ (by decide +kernel) (by decide +kernel),
   by decide +kernel⟩

def writeMemoryState : State :=
  st [.set F.SAIL_TT_BASE_OFFSET 0x1000000]
/-- Meets the hypotheses of RegisterWrites. -/
theorem test_writeMemory :
    (writeMemoryState.Live) ∧
    (Agent.mgmt ≠ Agent.host) ∧
    (1 ≤ 4) ∧
    (4 ≤ 8) ∧
    (writeMemoryState.memRange 4096 4 = true) :=
  ⟨st_live _ (by decide +kernel) (by decide +kernel),
   by decide +kernel⟩

end Control

namespace Rules

def pauseState : State :=
  st []
/-- Meets the hypotheses of PausesAreCounted. -/
theorem test_pause :
    (pauseState.Live) :=
  st_live _ (by decide +kernel) (by decide +kernel)

def fullState : State :=
  st [.set F.EGR_QUEUE_CFG_MAX_FRAMES 1 31, .modQueue 31 fun q => { q with frames := [{ length := 100, peer := 0, pkt := none, stamp := 0 }] }]
/-- Meets the hypotheses of FullQueuesHoldFrames. -/
theorem test_full :
    (fullState.Live) ∧
    (fullState.portUp 3 = false ∨ (SMap.get (fun (_ : ℕ) => none) fullState.egr.sending 3).isSome = true) ∧
    (fullState.get F.EGR_QUEUE_CFG_MAX_FRAMES (queueOf 3 (fullState.get F.EGR_CFG_CTRL_TCLASS)) ≤ (fullState.queue (queueOf 3 (fullState.get F.EGR_CFG_CTRL_TCLASS))).frames.length) :=
  ⟨st_live _ (by decide +kernel) (by decide +kernel),
   by decide +kernel⟩

def lateState : State :=
  st [.set F.CFG_STATUS_STAGE sgPackage 0]
/-- Meets the hypotheses of LatePackageStops. -/
theorem test_late :
    (lateState.Live) ∧
    (lateState.stage = sgPackage) ∧
    (lateState.boot.table = []) ∧
    (lateState.boot.waitS ≤ 5) :=
  ⟨st_live _ (by decide +kernel) (by decide +kernel),
   by decide +kernel⟩

def late2State : State :=
  st [.set F.CFG_STATUS_STAGE sgPackage 0, .modBoot fun b => { b with waitS := 9 }]
/-- Meets the hypotheses of LatePackageStops. -/
theorem test_late2 :
    (late2State.Live) ∧
    (late2State.stage = sgPackage) ∧
    (late2State.boot.table = []) ∧
    (5 < late2State.boot.waitS) :=
  ⟨st_live _ (by decide +kernel) (by decide +kernel),
   by decide +kernel⟩

def atH (as : List Act) : State := st (.set F.CFG_STATUS_STAGE sgHeld 0 :: as)
def burnState : State :=
  atH [.set F.CFG_IMAGE_INFO_SEC_VERSION 2 0]
/-- Meets the hypotheses of FailedBurnStops. -/
theorem test_burn :
    (burnState.Live) ∧
    (sgMemory ≤ burnState.stage) ∧
    (burnState.stage ≤ sgHeld) ∧
    (burnState.boot.advanced = false) ∧
    (∀ r ∈ burnState.fuses.records, r.2.2.2 = true) ∧
    (3 ≠ 255) ∧
    (burnState.asked[3 / 2]? = some (1, 2)) ∧
    ((∀ e ∈ burnState.asked, e.1 ≠ 4) ∨ burnState.asked = [(4, 2)] ∧ burnState.floorMay 100 = true) :=
  ⟨st_live _ (by decide +kernel) (by decide +kernel),
   by decide +kernel⟩

def burn4State : State :=
  atH [.set F.CFG_IMAGE_INFO_FLOOR_TARGET 2 0, .set F.SAIL_STATUS_TIME_STATE 2 0, .set F.CFG_AP_STATUS_HIGHEST 3 0, .set F.CFG_AP_STATUS_ACTIVE 3 0]
/-- Meets the hypotheses of FailedBurnStops. -/
theorem test_burn4 :
    (burn4State.Live) ∧
    (sgMemory ≤ burn4State.stage) ∧
    (burn4State.stage ≤ sgHeld) ∧
    (burn4State.boot.advanced = false) ∧
    (∀ r ∈ burn4State.fuses.records, r.2.2.2 = true) ∧
    (1 ≠ 255) ∧
    (burn4State.asked[1 / 2]? = some (4, 2)) ∧
    ((∀ e ∈ burn4State.asked, e.1 ≠ 4) ∨ burn4State.asked = [(4, 2)] ∧ burn4State.floorMay 5000 = true) :=
  ⟨st_live _ (by decide +kernel) (by decide +kernel),
   by decide +kernel⟩

end Rules

namespace Forms

/-- An instant within a sailing lies before 1,000 µs (R8). -/
theorem test_instant_refused : wellFormed (.crossOut 0x1000 1000000000) = false ∧ wellFormed (.crossOut 0x1000 999999999) = true := by decide
/-- So does an instant of RUN. -/
theorem test_run_time_refused : wellFormed (.bankAutoRetain 0 0 1000000) = false ∧ wellFormed (.bankAutoRetain 0 0 999999) = true := by decide
/-- A write to a shared page stays in its 4 KiB unit. -/
theorem test_cow_write_refused : wellFormed (.cowWriteHold 0xFFF [1, 2]) = false ∧ wellFormed (.cowWriteHold 0xFFE [1, 2]) = true := by decide
/-- A drained frame has 4,096 bytes. -/
theorem test_frame_refused : wellFormed (.drainFrameReceive 7 0 false 0 0 [1]) = false := by decide
/-- A root digest has 48 bytes. -/
theorem test_root_refused : wellFormed (.spdmKeyExchange 0 true [1]) = false := by decide
/-- A register write has 1 to 8 bytes (R601). -/
theorem test_write_width_refused : wellFormed (.registerWrite .mgmt (.bar0 0) 9 0) = false
    ∧ wellFormed (.registerWrite .mgmt (.bar0 0) 0 0) = false ∧ wellFormed (.registerWrite .mgmt (.bar0 0) 8 0) = true := by decide
/-- A link has a width of 1, 2, 4, 8 or 16 lanes. -/
theorem test_link_width_refused : wellFormed (.hostLinkTrainDone 0 4 3 false) = false ∧ wellFormed (.hostLinkTrainDone 0 4 16 false) = true := by decide

end Forms

namespace Examples

/-- The counters that R604 gives places for. -/
theorem test_counter_places : Ctr.off .SDIR_TENSION_COUNT = 0x2F0040 ∧ Ctr.off .FAB_PAUSE_RX_COUNT = 0xFF0008
    ∧ Ctr.off .SAIL_WATCH_MISS_COUNT = 0xF0038 := by decide
/-- The entries of EXP and RCP that the spec writes out. -/
theorem test_table_entries : [0, 16, 32, 48].map (tableEXP.getD · 0) = [0x3F800000, 0x3F9837F0, 0x3FB504F3, 0x3FD744FD]
    ∧ tableRCP 0 = 0x3F7F00FF := by decide +kernel
/-- The sailing period is 200 µs after reset (R8). -/
theorem test_period_reset : State.reset.get F.SAIL_PERIOD_PERIOD_US = 200 := by decide +kernel
/-- After reset the sailing unit is stopped (R27) and no command waits. -/
theorem test_reset_stopped : State.reset.stopped = true ∧ State.reset.pending = [] := by decide +kernel
/-- A table word spells no command: the table gives its rows no bits. -/
theorem test_no_bits : decodeTableWord 0 0 = none ∧ decodeTableWord 32 5 = none := by decide
/-- An empty queue idles. -/
theorem test_idle : step State.reset = .next State.reset := rfl
/-- The reset state meets the invariant. -/
theorem test_reset_sound : State.reset.Sound := st_sound []
/-- A fatal device, as FatalDeviceIsStill assumes one. -/
theorem test_fatal : (st [.set F.ERR_STATUS_FATAL 1]).fatal = true ∧ Instr.sailRun ≠ .coldReset ∧ Instr.sailRun ≠ .warmReset := by
  decide +kernel
/-- A command that CountersOnlyGrow, ExecKeepsQueue and CommandsTouchOnly speak of completes. -/
theorem test_completes : (∃ t, exec .pauseFrame State.reset = .next t) ∧ State.reset.Sound ∧ State.reset.Live
    ∧ Claim.touches .pauseFrame ≠ none :=
  ⟨⟨_, rfl⟩, st_sound [], st_live [] (by decide +kernel) (by decide +kernel), by decide⟩
/-- Both positions of the debug lock, as DebugTapInstruction needs them. -/
theorem test_debug_lock : State.reset.debugOpen = true ∧ (st [.set F.CFG_LC_STATUS_DEBUG_CLOSED 1]).debugOpen = false := by
  decide +kernel

end Examples

end Sys2Proof.Tests
end

section
/-! SUPPORT. Fabric and crossing transport: frames that are only counted. -/

namespace Sys2Proof.Machine

/-- PAUSE_FRAME is a command that counts (R399). -/
theorem exec_pauseFrame (s : State) :
    exec .pauseFrame s = .next ((Act.command (.count .FAB_PAUSE_RX_COUNT)).run s) := rfl

/-- The footprint of a count is its counter. -/
theorem Act.foot_count_self (c : Ctr) : Act.Foot [] [] [c] (.count c) :=
  (Act.foot_count c).mpr (List.mem_singleton_self c)

/-- On a live device a command that counts an event runs no retirement: it is the count. -/
theorem Act.run_command_count {s : State} (hs : s.Live) (c : Ctr) :
    (Act.command (.count c)).run s = (Act.count c).run s :=
  Act.run_command_of_foot (Act.foot_count_self c) List.not_mem_nil hs

/-- Counting an event leaves every part but the counters alone. -/
theorem Act.sameBut_count (s : State) (c : Ctr) : s.SameBut ((Act.count c).run s) [.ctrs] :=
  (Act.foot_count_self c).sameBut s

/-- Counting an event leaves every other counter alone. -/
theorem Act.sameCounts_count (s : State) (c : Ctr) : s.SameCounts ((Act.count c).run s) [c] :=
  (Act.foot_count_self c).sameCounts s

/-- Settles O56: on a live device PAUSE_FRAME is the count of its event, which touches no part of the state but the
counters, and no counter but FAB_PAUSE_RX_COUNT. -/
theorem pausesAreCounted : Obligations.PausesAreCounted := by
  intro s hs
  refine ⟨(Act.count .FAB_PAUSE_RX_COUNT).run s, ?_, Act.sameBut_count s _, Act.sameCounts_count s _, ?_⟩
  · rw [exec_pauseFrame, Act.run_command_count hs]
  · rw [Act.run_count, State.count_count]

end Sys2Proof.Machine
end

section
/-! SUPPORT. Egress scheduling: a queue after it was changed, a frame held at its source, and a port that cannot send. -/

namespace Sys2Proof.Machine

variable {s : State}

/-! ### A queue after a change -/

/-- The changed queue. -/
@[simp] theorem Act.queue_modQueue_same (n : Nat) (f : EgrQueue → EgrQueue) :
    ((Act.modQueue n f).run s).queue n = f (s.queue n) := SMap.get_put_same egrDefault _ n _

/-- Changing a queue leaves every other queue alone. -/
theorem Act.queue_modQueue_other {n m : Nat} (f : EgrQueue → EgrQueue) (h : m ≠ n) :
    ((Act.modQueue n f).run s).queue m = s.queue m := SMap.get_put_other egrDefault _ _ h

/-- Changing a queue leaves what each port sends alone. -/
@[simp] theorem Act.sending_modQueue (n : Nat) (f : EgrQueue → EgrQueue) :
    ((Act.modQueue n f).run s).egr.sending = s.egr.sending := rfl

/-- Counting an event leaves every queue alone. -/
@[simp] theorem Act.queue_count (c : Ctr) (n : Nat) : ((Act.count c).run s).queue n = s.queue n := by
  rw [Act.run_count, State.queue, Upd.count_egr, State.queue]

/-! ### A frame held at its source (R433) -/

/-- Hold a frame behind those that already wait at the source of queue `n`, and count the hold. -/
def Act.holdAtSource (n : Nat) (f : EgrFrame) : Act :=
  (Act.modQueue n fun q => { q with source := q.source ++ [f] }).andThen (.count .EGR_FULL_COUNT)

/-- A frame that reaches a full queue is held at its source. -/
theorem Act.run_arrive_of_full {n : Nat} (h : s.get F.EGR_QUEUE_CFG_MAX_FRAMES n ≤ (s.queue n).frames.length) (t : Nat)
    (f : EgrFrame) : (Act.arrive n t f).run s = (Act.holdAtSource n f).run s := by
  simp only [Act.arrive, Act.run_look, ge_iff_le, h, decide_true, Bool.true_or, if_true, Act.holdAtSource]

/-- A hold touches the queues and EGR_FULL_COUNT, and nothing else. -/
theorem Act.foot_holdAtSource (n : Nat) (f : EgrFrame) :
    Act.Foot [.egr] [] [.EGR_FULL_COUNT] (Act.holdAtSource n f) := by
  simp [Act.holdAtSource, Act.modQueue]

/-- The frame waits last at the source of its queue, whose own frames stay. -/
theorem Act.queue_holdAtSource_same (n : Nat) (f : EgrFrame) :
    ((Act.holdAtSource n f).run s).queue n = { s.queue n with source := (s.queue n).source ++ [f] } := by
  rw [Act.holdAtSource, Act.run_andThen, Act.queue_count, Act.queue_modQueue_same]

/-- A hold stops no other queue. -/
theorem Act.queue_holdAtSource_other {n m : Nat} (f : EgrFrame) (h : m ≠ n) :
    ((Act.holdAtSource n f).run s).queue m = s.queue m := by
  rw [Act.holdAtSource, Act.run_andThen, Act.queue_count, Act.queue_modQueue_other _ h]

/-- A hold is counted once. -/
theorem Act.count_holdAtSource (n : Nat) (f : EgrFrame) :
    ((Act.holdAtSource n f).run s).count .EGR_FULL_COUNT = min counterMax (s.count .EGR_FULL_COUNT + 1) := by
  rw [Act.holdAtSource, Act.run_andThen, Act.run_count, State.count_count]
  rfl

/-! ### A port that cannot send (R435) -/

/-- Port `p` is not UP, or it sends a frame. -/
def State.CannotSend (s : State) (p : Nat) : Prop :=
  s.portUp p = false ∨ (s.egr.sending.get (fun _ => none) p).isSome = true

/-- The scheduler does nothing for a port that cannot send. -/
theorem Act.run_schedule_of_cannotSend {p : Nat} (h : s.CannotSend p) (at_ : Nat) : (Act.schedule p at_).run s = s := by
  have hc : (!s.portUp p || (s.egr.sending.get (fun _ => none) p).isSome) = true := by
    rcases h with h | h <;> simp [h]
  simp only [Act.schedule, Act.run_look, hc, if_true, Act.run_done]

/-- A hold lets no port send. -/
theorem State.CannotSend.holdAtSource {p : Nat} (h : s.CannotSend p) (n : Nat) (f : EgrFrame) :
    ((Act.holdAtSource n f).run s).CannotSend p := h

/-! ### EGRESS_ENQUEUE of a frame of a port -/

/-- The descriptor of a frame of a port's own, of `length` bytes: it carries no packet and has no peer (R432). -/
def EgrFrame.own (length : Nat) : EgrFrame := { length := length, peer := 0, pkt := none, stamp := 0 }

/-- A frame of a port's own, of `length` bytes, reaches the queue of the class CTRL_TCLASS (R432), and the scheduler of the
port looks (R435). -/
def Act.enqueueOwn (p length at_ : Nat) : Act :=
  .look fun s =>
    (Act.arrive (queueOf p (s.get F.EGR_CFG_CTRL_TCLASS)) (s.absTime at_) (.own length)).andThen (.schedule p at_)

/-- EGRESS_ENQUEUE of a frame of a port is the command with that body. -/
theorem exec_egressEnqueue_frame (p : Fin 32) (length : BitVec 16) (at_ : BitVec 40) (s : State) :
    exec (.egressEnqueue (.frame p length) at_) s
      = .next ((Act.command (.enqueueOwn p length.toNat at_.toNat)).run s) := rfl

/-- With the queue full and the port unable to send, the frame is held at its source and nothing else happens. -/
theorem Act.run_enqueueOwn_of_full {p : Nat} (hp : s.CannotSend p)
    (hn : s.get F.EGR_QUEUE_CFG_MAX_FRAMES (queueOf p (s.get F.EGR_CFG_CTRL_TCLASS))
      ≤ (s.queue (queueOf p (s.get F.EGR_CFG_CTRL_TCLASS))).frames.length) (length at_ : Nat) :
    (Act.enqueueOwn p length at_).run s
      = (Act.holdAtSource (queueOf p (s.get F.EGR_CFG_CTRL_TCLASS)) (.own length)).run s := by
  rw [Act.enqueueOwn, Act.run_look, Act.run_andThen, Act.run_arrive_of_full hn,
    Act.run_schedule_of_cannotSend (hp.holdAtSource _ _)]

/-- Settles O57: with the queue full and the port unable to send, the command is the hold of its frame, which changes only
the source of that queue and EGR_FULL_COUNT. -/
theorem fullQueuesHoldFrames : Obligations.FullQueuesHoldFrames := by
  intro s p length at_ hs hp n hn
  have hbody : (Act.enqueueOwn p length.toNat at_.toNat).run s = (Act.holdAtSource n (.own length.toNat)).run s :=
    Act.run_enqueueOwn_of_full hp hn _ _
  have hfoot := Act.foot_holdAtSource n (.own length.toNat)
  have hrun : (Act.command (.enqueueOwn p length.toNat at_.toNat)).run s
      = (Act.holdAtSource n (.own length.toNat)).run s := by
    rw [Act.run_command hs.alive (by rw [hbody]; exact hs.settled), hbody]
  refine ⟨(Act.holdAtSource n (.own length.toNat)).run s, ?_, (hfoot.sameBut s).mono (by decide), hfoot.sameCounts s,
    Act.queue_holdAtSource_same n _, fun m hm => Act.queue_holdAtSource_other _ hm, Act.count_holdAtSource n _⟩
  rw [exec_egressEnqueue_frame, hrun]

end Sys2Proof.Machine
end

section
/-! SUPPORT. Start-up that stops: what raising an error leaves alone, the state after a stop, and a package without a source. -/

namespace Sys2Proof.Machine

variable {s : State} {e : Err}

/-! ### An error raised -/

/-- An error of no domain retires nothing (R541). -/
theorem Act.todo_raise_of_no_domain (he : e.domain = 0) (x : ErrInfo) (hs : s.RegsOk) :
    ((Act.raise e x).run s).err.todo = s.err.todo := Act.todo_raiseAs e _ _ _ x s hs (.inl he)

/-- Raising an error leaves alone the fields of every register outside its footprint. -/
theorem Act.get_raise (x : ErrInfo) {f : Field} {i : Nat} (hf : f.reg ∉ touchRaise.regs) (hi : i < f.reg.info.count) :
    ((Act.raise e x).run s).get f i = s.get f i :=
  (Act.within_raise (f := touchRaise) e x rfl).foot.get s hf hi

/-- An action that does not touch what start-up holds leaves it alone. -/
theorem Act.Within.boot {f : Touch} {a : Act} (h : a.Within f) (hf : Part.boot ∉ f.parts) : (a.run s).boot = s.boot :=
  (h.run s).parts .boot hf Part.noConfusion Part.noConfusion

/-- Raising an error leaves what start-up holds alone. -/
theorem Act.boot_raise (x : ErrInfo) : ((Act.raise e x).run s).boot = s.boot :=
  (Act.within_raise (f := touchRaise) e x rfl).boot (by decide)

/-! ### A stop (R482) -/

/-- A stop shows the error and the stage STOPPED, and then raises the error. -/
theorem Act.run_stopStart (e : Err) (d : Nat) (s : State) :
    (Act.stopStart e d).run s
      = (Act.raise e { detail := d }).run
          ((s.put F.CFG_STATUS_ERROR (e.code % 256)).put F.CFG_STATUS_STAGE sgStopped) := by
  rw [Act.stopStart, Act.run_all_cons, Act.run_all_cons, Act.run_all_cons, Act.run_all_nil, Act.run_set, Act.run_set]

/-- After a stop CFG_STATUS shows the stage STOPPED and the error. -/
theorem Act.stopped_stopStart (e : Err) (d : Nat) (s : State) : Claim.Stopped ((Act.stopStart e d).run s) e := by
  rw [Act.run_stopStart]
  constructor
  · rw [State.stage, Act.get_raise _ (by decide) (by decide), State.put_get_same _ (by decide) (by decide)]
    decide
  · rw [Act.get_raise _ (by decide) (by decide),
      State.put_get_apart (f := F.CFG_STATUS_STAGE) (g := F.CFG_STATUS_ERROR) _ (by decide) rfl (by decide) (by decide),
      State.put_get_same _ (by decide) (by decide)]
    exact Nat.mod_mod _ 256

/-- A stop leaves alone the fields of every register but CFG_STATUS and those that raising an error writes. -/
theorem Act.get_stopStart (d : Nat) {f : Field} {i : Nat} (hr : f.reg ∉ touchRaise.regs) (hf : f.reg ≠ .CFG_STATUS)
    (hi : i < f.reg.info.count) : ((Act.stopStart e d).run s).get f i = s.get f i := by
  have hi' : i < 65536 := Nat.lt_of_lt_of_le hi (Reg.count_le _)
  rw [Act.run_stopStart, Act.get_raise _ hr hi, State.put_get_other _ hi' (.inl hf),
    State.put_get_other _ hi' (.inl hf)]

/-- A stop leaves what start-up holds besides registers alone. -/
theorem Act.boot_stopStart (e : Err) (d : Nat) : ((Act.stopStart e d).run s).boot = s.boot := by
  rw [Act.run_stopStart, Act.boot_raise, State.put_boot, State.put_boot]

/-- A stop with an error of no domain retires nothing. -/
theorem Act.todo_stopStart (he : e.domain = 0) (d : Nat) (hs : s.RegsOk) :
    ((Act.stopStart e d).run s).err.todo = s.err.todo := by
  rw [Act.run_stopStart, Act.todo_raise_of_no_domain he _ (State.put_regsOk (State.put_regsOk hs _ _ _) _ _ _),
    State.put_err, State.put_err]

/-! ### PACKAGE_WAIT_EXPIRE (R488) -/

/-- Start-up stops when it is in PACKAGE, no source has answered, and WAIT_S seconds have passed. -/
def Act.packageWait (seconds : Nat) : Act :=
  .look fun s =>
    .when (s.stage == sgPackage && s.boot.table.isEmpty && decide (s.boot.waitS ≤ seconds)) (.stopStart .CFG_PACKAGE_LATE)

/-- PACKAGE_WAIT_EXPIRE is the command with that body. -/
theorem exec_packageWaitExpire (seconds : BitVec 32) (s : State) :
    exec (.packageWaitExpire seconds) s = .next ((Act.command (.packageWait seconds.toNat)).run s) := rfl

/-- In PACKAGE without a source, the stop comes exactly when WAIT_S seconds have passed. -/
theorem Act.run_packageWait (hst : s.stage = sgPackage) (hb : s.boot.table = []) (seconds : Nat) :
    (Act.packageWait seconds).run s
      = if s.boot.waitS ≤ seconds then (Act.stopStart .CFG_PACKAGE_LATE).run s else s := by
  simp [Act.packageWait, hst, hb]

/-- Settles O58: in PACKAGE without a source the command is the stop once WAIT_S seconds have passed, and nothing before. -/
theorem latePackageStops : Obligations.LatePackageStops := by
  intro s seconds hs hst hb
  have hbody := Act.run_packageWait hst hb seconds.toNat
  constructor
  · intro hw
    rw [if_pos hw] at hbody
    have htodo : ((Act.packageWait seconds.toNat).run s).err.todo = [] := by
      rw [hbody, Act.todo_stopStart rfl _ hs.regsOk, hs.settled]
    refine ⟨(Act.stopStart .CFG_PACKAGE_LATE).run s, ?_, Act.stopped_stopStart _ _ s⟩
    rw [exec_packageWaitExpire, Act.run_command hs.alive htodo, hbody]
  · intro hw
    rw [if_neg (Nat.not_le.mpr hw)] at hbody
    rw [exec_packageWaitExpire, Act.run_command hs.alive (by rw [hbody, hs.settled]), hbody]

end Sys2Proof.Machine
end

section
/-! SUPPORT. Limited-change advances (R493 to R496): the advances that an image asks for count each setting up, and what one
advance, or a burn that fails, makes of the state. -/

namespace Sys2Proof.Machine

variable {s : State}

/-! ### The counters of the settings -/

/-- A setting other than the profile floor. -/
def LcPlain (k : Nat) : Prop := k ∈ [1, 2, 3]

theorem LcPlain.ne_four {k : Nat} (h : LcPlain k) : k ≠ 4 := by
  rintro rfl
  exact absurd h (by decide : 4 ∉ [1, 2, 3])

/-- Every counter is a field of CFG_LC_STATUS. -/
theorem lcField_reg (k : Nat) : (lcField k).reg = .CFG_LC_STATUS := by
  unfold lcField; split <;> rfl

theorem lcField_ok (k : Nat) : (lcField k).Ok := by
  unfold lcField; split <;> decide

/-- Every other number stands for the profile floor. -/
theorem lcField_of_not_plain {k : Nat} (h : ¬LcPlain k) : lcField k = F.CFG_LC_STATUS_FLOOR := by
  obtain ⟨h1, h2, h3⟩ : k ≠ 1 ∧ k ≠ 2 ∧ k ≠ 3 := by simpa [LcPlain] using h
  unfold lcField
  split <;> [exact absurd rfl h1; exact absurd rfl h2; exact absurd rfl h3; rfl]

/-- The counter of a setting lies apart from every other counter. -/
theorem lcField_apart {k j : Nat} (hk : LcPlain k) (hj : j ≠ k) :
    (lcField j).hi < (lcField k).lo ∨ (lcField k).hi < (lcField j).lo := by
  by_cases hp : LcPlain j
  · have plain : ∀ k ∈ [1, 2, 3], ∀ j ∈ [1, 2, 3], j ≠ k →
        (lcField j).hi < (lcField k).lo ∨ (lcField k).hi < (lcField j).lo := by decide
    exact plain k hk j hp hj
  · have floor : ∀ k ∈ [1, 2, 3], F.CFG_LC_STATUS_FLOOR.hi < (lcField k).lo := by decide
    rw [lcField_of_not_plain hp]
    exact .inl (floor k hk)

/-- A stop leaves every counter alone. -/
theorem Act.get_lcField_stopStart (e : Err) (d k : Nat) :
    ((Act.stopStart e d).run s).get (lcField k) = s.get (lcField k) := by
  refine Act.get_stopStart d ?_ ?_ ?_ <;> rw [lcField_reg] <;> decide

/-! ### The advances that an image asks for (R493, R494) -/

/-- The advances of setting `k` from count `c` to count `target`. -/
def lcUp (k c target : Nat) : List (Nat × Nat) := (List.range (target - c)).map fun i => (k, c + 1 + i)

/-- The counts that a list of advances gives setting `k`, in order. -/
def lcTargets (l : List (Nat × Nat)) (k : Nat) : List Nat := (l.filter fun e => e.1 == k).map (·.2)

@[simp] theorem lcTargets_nil (k : Nat) : lcTargets [] k = [] := rfl

@[simp] theorem lcTargets_cons_same (k n : Nat) (l : List (Nat × Nat)) :
    lcTargets ((k, n) :: l) k = n :: lcTargets l k := by
  simp [lcTargets]

theorem lcTargets_cons_other {k j : Nat} (h : j ≠ k) (n : Nat) (l : List (Nat × Nat)) :
    lcTargets ((k, n) :: l) j = lcTargets l j := by
  simp [lcTargets, h.symm]

@[simp] theorem lcTargets_append (l l' : List (Nat × Nat)) (k : Nat) :
    lcTargets (l ++ l') k = lcTargets l k ++ lcTargets l' k := by
  simp [lcTargets]

@[simp] theorem lcTargets_lcUp_same (k c target : Nat) :
    lcTargets (lcUp k c target) k = List.range' (c + 1) (target - c) := by
  simp [lcTargets, lcUp, List.filter_map, Function.comp_def, List.range'_eq_map_range]

theorem lcTargets_lcUp_other {k j : Nat} (h : j ≠ k) (c target : Nat) : lcTargets (lcUp k c target) j = [] := by
  simp [lcTargets, lcUp, List.filter_map, Function.comp_def, h.symm]

/-- The advances that the image asks for, setting by setting in the order of the table. -/
theorem State.asked_eq (s : State) :
    s.asked = lcUp 1 (s.get (lcField 1)) (min 64 (s.get F.CFG_IMAGE_INFO_SEC_VERSION))
      ++ lcUp 2 (s.get (lcField 2)) (min 15 (s.get F.CFG_IMAGE_INFO_ARCHIVE_GEN))
      ++ lcUp 3 (s.get (lcField 3)) s.boot.closeDebug.toNat
      ++ lcUp 4 (s.get (lcField 4)) (min 8 (s.get F.CFG_IMAGE_INFO_FLOOR_TARGET)) := rfl

/-- The advances count every setting up by one each from its present count. -/
def State.CountsUp (s : State) (l : List (Nat × Nat)) : Prop :=
  ∀ k, ∃ m, lcTargets l k = List.range' (s.get (lcField k) + 1) m

/-- The first advance is by one. -/
theorem State.CountsUp.head {k n : Nat} {l : List (Nat × Nat)} (h : s.CountsUp ((k, n) :: l)) :
    n = s.get (lcField k) + 1 := by
  obtain ⟨m, hm⟩ := h k
  rw [lcTargets_cons_same] at hm
  exact (List.range'_eq_cons_iff.1 hm.symm).1.symm

/-- Once the first advance is made, the others count up from there. -/
theorem State.CountsUp.tail {t : State} {k n : Nat} {l : List (Nat × Nat)} (h : s.CountsUp ((k, n) :: l))
    (hk : t.get (lcField k) = n) (ho : ∀ j, j ≠ k → t.get (lcField j) = s.get (lcField j)) : t.CountsUp l := by
  intro j
  obtain ⟨m, hm⟩ := h j
  by_cases hj : j = k
  · subst hj
    rw [lcTargets_cons_same] at hm
    obtain ⟨hn, -, hl⟩ := List.range'_eq_cons_iff.1 hm.symm
    exact ⟨m - 1, by rw [hk, hl]⟩
  · exact ⟨m, by rw [ho j hj, ← hm, lcTargets_cons_other hj]⟩

/-- What the image asks for counts up. -/
theorem State.asked_countsUp (s : State) : s.CountsUp s.asked := by
  intro k
  rw [State.asked_eq]
  by_cases hk : k = 1 ∨ k = 2 ∨ k = 3 ∨ k = 4
  · rcases hk with rfl | rfl | rfl | rfl <;> exact ⟨_, by simp [lcTargets_lcUp_other]; rfl⟩
  · simp only [not_or] at hk
    exact ⟨0, by simp [lcTargets_lcUp_other, hk]⟩

/-- An advance of a setting other than the floor, to a count that its counter holds. -/
def LcFits (e : Nat × Nat) : Prop := LcPlain e.1 ∧ e.2 < 2 ^ (lcField e.1).width

theorem lcFits_of_mem_lcUp {k c target : Nat} (hk : LcPlain k) (ht : target < 2 ^ (lcField k).width) {e : Nat × Nat}
    (he : e ∈ lcUp k c target) : LcFits e := by
  obtain ⟨i, hi, rfl⟩ := List.mem_map.1 he
  have hi := List.mem_range.1 hi
  exact ⟨hk, Nat.lt_of_le_of_lt (show c + 1 + i ≤ target by omega) ht⟩

/-- Every advance asked for is one of the profile floor or fits its counter. -/
theorem State.asked_fits {e : Nat × Nat} (he : e ∈ s.asked) (h4 : e.1 ≠ 4) : LcFits e := by
  rw [State.asked_eq] at he
  simp only [List.mem_append] at he
  rcases he with ((he | he) | he) | he
  · exact lcFits_of_mem_lcUp (by decide : 1 ∈ [1, 2, 3]) (Nat.lt_of_le_of_lt (Nat.min_le_left _ _) (by decide)) he
  · exact lcFits_of_mem_lcUp (by decide : 2 ∈ [1, 2, 3]) (Nat.lt_of_le_of_lt (Nat.min_le_left _ _) (by decide)) he
  · exact lcFits_of_mem_lcUp (by decide : 3 ∈ [1, 2, 3]) (Nat.lt_of_le_of_lt (Bool.toNat_le _) (by decide)) he
  · obtain ⟨i, -, rfl⟩ := List.mem_map.1 he
    exact absurd rfl h4

/-! ### Records of advances (R493) -/

theorem ofLE_lt (bs : List Byte) : ofLE bs < 256 ^ bs.length := by
  induction bs with
  | nil => exact Nat.one_pos
  | cons b bs ih =>
    have hb := b.isLt
    rw [ofLE, List.length_cons, Nat.pow_succ]
    omega

theorem leAt_lt (bs : List Byte) (off n : Nat) : leAt bs off n < 256 ^ n :=
  Nat.lt_of_lt_of_le (ofLE_lt _) (Nat.pow_le_pow_right (by decide) (List.length_take_le _ _))

/-- The low 40 bits of a record are those of the digest of the image that asked for the advance. -/
theorem State.bits_lcRecord (s : State) (day : Nat) : bits (s.lcRecord day).toNat 39 0 = leAt s.boot.configDigest 0 5 := by
  have hd := leAt_lt s.boot.configDigest 0 5
  rw [State.lcRecord, BitVec.toNat_ofNat, bits_mod_of_lt _ _ _ _ (by decide)]
  simp only [bits, Nat.shiftRight_zero]
  omega

/-- Every record is that of an advance whose counter bit is burned. -/
def State.RecordsComplete (s : State) : Prop := ∀ r ∈ s.fuses.records, r.2.2.2 = true

/-- The open record of setting `k`'s advance to `n` asked for by the image whose digest begins with `d`. -/
def lcOpen (k n d : Nat) (r : Nat × Nat × BitVec 64 × Bool) : Bool :=
  r.1 == k && r.2.1 == n && !r.2.2.2 && bits r.2.2.1.toNat 39 0 == d

/-- Mark the open record of an advance complete. -/
def lcClose (k n d : Nat) (r : Nat × Nat × BitVec 64 × Bool) : Nat × Nat × BitVec 64 × Bool :=
  if lcOpen k n d r = true then (r.1, r.2.1, r.2.2.1, true) else r

theorem lcOpen_of_complete {r : Nat × Nat × BitVec 64 × Bool} (h : r.2.2.2 = true) (k n d : Nat) :
    lcOpen k n d r = false := by
  simp [lcOpen, h]

/-- With every record complete, none is left to use again. -/
theorem State.RecordsComplete.any_lcOpen (h : s.RecordsComplete) (k n d : Nat) :
    s.fuses.records.any (lcOpen k n d) = false :=
  List.any_eq_false.2 fun r hr => by simp [lcOpen_of_complete (h r hr)]

/-- A new record is completed, and the records before it stay as they are. -/
theorem State.RecordsComplete.map_lcClose (h : s.RecordsComplete) (day k n : Nat) :
    (s.fuses.records ++ [(k, n, s.lcRecord day, false)]).map (lcClose k n (leAt s.boot.configDigest 0 5))
      = s.fuses.records ++ [(k, n, s.lcRecord day, true)] := by
  have hold : s.fuses.records.map (lcClose k n (leAt s.boot.configDigest 0 5)) = s.fuses.records :=
    (List.map_congr_left fun r hr => by simp [lcClose, lcOpen_of_complete (h r hr)]).trans (List.map_id' _)
  have hnew : lcClose k n (leAt s.boot.configDigest 0 5) (k, n, s.lcRecord day, false)
      = (k, n, s.lcRecord day, true) := by
    simp [lcClose, lcOpen, s.bits_lcRecord]
  rw [List.map_append, hold, List.map_singleton, hnew]

/-! ### One advance, and a burn that fails (R494, R495) -/

/-- The state with one more record of an advance. -/
def State.withRecord (s : State) (r : Nat × Nat × BitVec 64 × Bool) : State :=
  Upd.apply (.fuses { s.fuses with records := s.fuses.records ++ [r] }) s

/-- The state after setting `k` advanced to `n` on TAI day `day`: the record complete, and the count shown. -/
def State.advance (s : State) (day k n : Nat) : State := (s.withRecord (k, n, s.lcRecord day, true)).put (lcField k) n

theorem State.advance_boot (s : State) (day k n : Nat) : (s.advance day k n).boot = s.boot := State.put_boot _ _ _ _

theorem State.advance_err (s : State) (day k n : Nat) : (s.advance day k n).err = s.err := State.put_err _ _ _ _

theorem State.advance_regsOk (h : s.RegsOk) (day k n : Nat) : (s.advance day k n).RegsOk :=
  State.put_regsOk ((Upd.fuses_regsOk s _).2 h) _ _ _

theorem State.RecordsComplete.advance (h : s.RecordsComplete) (day k n : Nat) :
    (s.advance day k n).RecordsComplete := by
  intro r hr
  rw [State.advance, State.put_fuses, State.withRecord, Upd.fuses_fuses, List.mem_append, List.mem_singleton] at hr
  rcases hr with hr | rfl
  · exact h r hr
  · rfl

/-- The counter shows the new count. -/
theorem State.advance_get_same {k n : Nat} (h : LcFits (k, n)) (day : Nat) :
    (s.advance day k n).get (lcField k) = n := by
  rw [State.advance, State.put_get_same _ (lcField_ok k) (by rw [lcField_reg]; decide), Nat.mod_eq_of_lt h.2]

/-- The other counters keep their values. -/
theorem State.advance_get_other {k j : Nat} (hk : LcPlain k) (hj : j ≠ k) (day n : Nat) :
    (s.advance day k n).get (lcField j) = s.get (lcField j) := by
  rw [State.advance, State.put_get_apart _ (lcField_ok j) (by rw [lcField_reg, lcField_reg]) (by rw [lcField_reg]; decide)
    (lcField_apart hk hj), State.withRecord, Upd.fuses_get]

/-- The first advance of a list, where no record is left to use again and the floor may rise: the record fails, or the
counter bit fails after it, or both read back and the advance is made. -/
theorem Act.run_burn_cons (h : s.RecordsComplete) {day k : Nat} (hfloor : ¬(k = 4 ∧ (!s.floorMay day) = true)) (n : Nat)
    (rest : List (Nat × Nat)) (good : Nat) :
    (Act.burn day ((k, n) :: rest) good).run s
      = if good = 0 then (Act.stopStart .CFG_FUSE_BURN).run s
        else if good = 1 then (Act.stopStart .CFG_FUSE_BURN).run (s.withRecord (k, n, s.lcRecord day, false))
        else (Act.burn day rest (good - 2)).run
          ((Act.showLc k n).run (s.withRecord (k, n, s.lcRecord day, true))) := by
  have hkept := h.any_lcOpen k n (leAt s.boot.configDigest 0 5)
  have hclose := h.map_lcClose day k n
  unfold lcOpen at hkept
  rw [Act.burn, Act.run_look]
  simp only [hkept, if_neg hfloor, Bool.not_false, Bool.true_and, decide_eq_true_eq, Bool.false_eq_true, if_false]
  match good with
  | 0 => rfl
  | 1 => simp [State.withRecord]
  | g + 2 =>
    simp only [Act.run_all_cons, Act.run_all_nil, Act.run_when, Act.run_look, Act.run_modFuses, 
      Nat.add_sub_cancel, Nat.add_one_sub_one, Nat.succ_ne_zero, Nat.reduceEqDiff, if_false, if_true]
    rw [State.withRecord, ← hclose]
    rfl

/-- Two burns that read back make an advance of a setting other than the floor. -/
theorem Act.run_burn_of_two_good (h : s.RecordsComplete) {k : Nat} (hk : LcPlain k) (day n : Nat)
    (rest : List (Nat × Nat)) (good : Nat) :
    (Act.burn day ((k, n) :: rest) (good + 2)).run s = (Act.burn day rest good).run (s.advance day k n) := by
  rw [Act.run_burn_cons h fun hf => hk.ne_four hf.1]
  simp [Act.showLc, State.advance, hk.ne_four]

/-- What a failed burn of setting `k`'s advance to `n` makes of state `s`: start-up has stopped, the counter keeps its value,
and what start-up holds and the retirements that wait are as before. -/
structure State.BurnFailed (s t : State) (k n : Nat) : Prop where
  stopped : Claim.Stopped t .CFG_FUSE_BURN
  count : t.get (lcField k) = n - 1
  boot : t.boot = s.boot
  todo : t.err.todo = s.err.todo

/-- A stop with other fuses is a failed burn of an advance by one. -/
theorem State.burnFailed_stopStart (hs : s.RegsOk) (x : FuseState) {k n : Nat} (hn : n = s.get (lcField k) + 1) :
    s.BurnFailed ((Act.stopStart .CFG_FUSE_BURN).run (Upd.apply (.fuses x) s)) k n where
  stopped := Act.stopped_stopStart _ _ _
  count := by rw [Act.get_lcField_stopStart, Upd.fuses_get, hn, Nat.add_sub_cancel]
  boot := by rw [Act.boot_stopStart, Upd.fuses_boot]
  todo := by rw [Act.todo_stopStart rfl _ ((Upd.fuses_regsOk s x).2 hs), Upd.fuses_err]

/-- With fewer than two good burns the first advance fails: its record, or its counter bit. -/
theorem State.burnFailed_first (hs : s.RegsOk) (h : s.RecordsComplete) {day k n good : Nat}
    (hfloor : k = 4 → s.floorMay day = true) (hn : n = s.get (lcField k) + 1) (hgood : good < 2)
    (rest : List (Nat × Nat)) : s.BurnFailed ((Act.burn day ((k, n) :: rest) good).run s) k n := by
  have hmay : ¬(k = 4 ∧ (!s.floorMay day) = true) := by
    rintro ⟨h4, hf⟩
    simp [hfloor h4] at hf
  rw [Act.run_burn_cons h hmay]
  match good, hgood with
  | 0, _ =>
    rw [if_pos rfl]
    exact State.burnFailed_stopStart hs s.fuses hn
  | 1, _ =>
    rw [if_neg Nat.one_ne_zero, if_pos rfl]
    exact State.burnFailed_stopStart hs _ hn

/-- A failed burn seen from the state before an advance. -/
theorem State.BurnFailed.of_advance {t : State} {day j m k n : Nat} (h : (s.advance day j m).BurnFailed t k n) :
    s.BurnFailed t k n where
  stopped := h.stopped
  count := h.count
  boot := by rw [h.boot, State.advance_boot]
  todo := by rw [h.todo, State.advance_err]

/-- Of advances that count up, the one that the first failing burn belongs to fails, and those before it are made. -/
theorem State.burnFailed_of_countsUp {day k n : Nat} {l : List (Nat × Nat)} {good : Nat} (hs : s.RegsOk)
    (h : s.RecordsComplete) (hc : s.CountsUp l) (hl : ∀ e ∈ l, LcFits e) (hk : l[good / 2]? = some (k, n)) :
    s.BurnFailed ((Act.burn day l good).run s) k n := by
  induction l generalizing s good with
  | nil => simp at hk
  | cons e rest ih =>
    obtain ⟨j, m⟩ := e
    have hfit : LcFits (j, m) := hl _ List.mem_cons_self
    by_cases hgood : good < 2
    · rw [Nat.div_eq_of_lt hgood, List.getElem?_cons_zero] at hk
      obtain ⟨rfl, rfl⟩ := Prod.mk.inj (Option.some.inj hk)
      exact State.burnFailed_first hs h (fun h4 => absurd h4 hfit.1.ne_four) hc.head hgood rest
    · obtain ⟨g, rfl⟩ : ∃ g, good = g + 2 := ⟨good - 2, by omega⟩
      rw [Nat.add_div_right _ (by decide), List.getElem?_cons_succ] at hk
      rw [Act.run_burn_of_two_good h hfit.1]
      exact (ih (State.advance_regsOk hs _ _ _) (h.advance _ _ _)
        (hc.tail (State.advance_get_same hfit _) fun i hi => State.advance_get_other hfit.1 hi _ _)
        (fun e he => hl e (List.mem_cons_of_mem _ he)) hk).of_advance

/-! ### FUSE_ADVANCE -/

/-- The advances that the image asks for are burned once, in stages MEMORY to HELD; `good` burns read back, 255 when none
fails. -/
def Act.fuseAdvance (day : Nat) (good : BitVec 8) : Act :=
  .look fun s =>
    .when (decide (sgMemory ≤ s.stage) && decide (s.stage ≤ sgHeld) && !s.boot.advanced)
      (.burn day s.asked (if good = 255 then 2 * s.asked.length else good.toNat))

/-- FUSE_ADVANCE is the command with that body. -/
theorem exec_fuseAdvance (day : BitVec 24) (good : BitVec 8) (s : State) :
    exec (.fuseAdvance day good) s = .next ((Act.command (.fuseAdvance day.toNat good)).run s) := rfl

/-- In its stages, with the advances not yet made and a burn that fails, the body burns what the image asks for. -/
theorem Act.run_fuseAdvance (h1 : sgMemory ≤ s.stage) (h2 : s.stage ≤ sgHeld) (h3 : s.boot.advanced = false)
    {good : BitVec 8} (hg : good ≠ 255) (day : Nat) :
    (Act.fuseAdvance day good).run s = (Act.burn day s.asked good.toNat).run s := by
  rw [Act.fuseAdvance, Act.run_look, Act.run_when, h3, decide_eq_true h1, decide_eq_true h2, if_neg hg]
  rfl

/-- Settles O59, by induction on the advances: those before the failing burn are made, one by one, and the stop leaves the
counter of the one that fails at the value before it. -/
theorem failedBurnStops : Obligations.FailedBurnStops := by
  intro s day good k n hs h1 h2 h3 hrec hg hk hfloor
  have hfail : s.BurnFailed ((Act.fuseAdvance day.toNat good).run s) k n := by
    rw [Act.run_fuseAdvance h1 h2 h3 hg]
    rcases hfloor with hno | ⟨hone, hmay⟩
    · exact State.burnFailed_of_countsUp hs.regsOk hrec s.asked_countsUp
        (fun e he => State.asked_fits he (hno e he)) hk
    · have hcount := s.asked_countsUp
      rw [hone] at hk hcount ⊢
      obtain ⟨hi, hkn⟩ := List.getElem?_eq_some_iff.1 hk
      have hgood : good.toNat < 2 := by
        have : good.toNat / 2 < 1 := hi
        omega
      obtain ⟨rfl, -⟩ := Prod.mk.inj (hkn.symm.trans (List.getElem_singleton hi))
      exact State.burnFailed_first hs.regsOk hrec (fun _ => hmay) hcount.head hgood []
  have htodo : ((Act.fuseAdvance day.toNat good).run s).err.todo = [] := by rw [hfail.todo, hs.settled]
  refine ⟨(Act.fuseAdvance day.toNat good).run s, ?_, hfail.stopped, hfail.count, ?_⟩
  · rw [exec_fuseAdvance, Act.run_command hs.alive htodo]
  · rw [hfail.boot, h3]

end Sys2Proof.Machine
end
